-- ==== Sys2Proof/Word.lean ====
section
/-!
DEFINITION. The plain types every other file uses: bytes, words, byte strings, sparse tables.
Only types and their plainest constructors stand here; the operations on them are in Machine/Table.lean
and Machine/Bits.lean.
-/
namespace Sys2Proof

abbrev Byte := BitVec 8
abbrev Word := BitVec 32

/-- A byte string as software sees it in memory: its length in bytes and its value read little-endian
(R3: every multi-byte field of the K7's own formats is little-endian), byte 0 lowest. -/
structure Bytes where
  len : Nat
  val : Nat
  deriving DecidableEq, Repr, Inhabited

/-- A sparse table: key and value pairs, keys strictly rising, no entry equal to the default an unlisted key
reads as. The default is named at each use. -/
abbrev Tbl (α : Type) := List (Nat × α)

/-- A rectangle of pixels, inclusive on both sides. -/
structure Rect where
  x0 : Nat
  y0 : Nat
  x1 : Nat
  y1 : Nat
  deriving DecidableEq, Repr

/-- Three colour components, in the order R, G, B or Y, Cb, Cr. -/
abbrev Triple := Nat × Nat × Nat

end Sys2Proof
end

