-- ==== Sys2Proof/Syntax.lean ====
section
/-!
DEFINITION. The commands of the block and their operands: `Instr` has one constructor per row of
spec/opcode_table.json. The operand types describe what arrives from outside: packets, access units, link blocks,
memory accesses, samples. Plain data, no meaning (the meanings are in Machine/).
-/
namespace Sys2Proof

/-- What Teller finds of a descriptor (R268): the address that the host's system gave BAR 2, the aperture of device memory; and of a
buffer in host memory the payload read, or nothing when the read fails or is denied, whether the response buffer is writable, and whether
the later write of the response into it fails. -/
structure DescRead where
  bar2 : Nat
  payload : Option Bytes
  writable : Bool
  writeFails : Bool
  deriving DecidableEq, Repr

/-- One access to device memory: byte address, length in bytes, and the data of a write. -/
structure MemAccess where
  addr : Nat
  len : Nat
  write : Bool
  data : Nat
  deriving DecidableEq, Repr

/-- What a debug access names (R367, R369). -/
inductive DebugTarget where
  | memory | tellerSram | vaultSlot | otpKey
  deriving DecidableEq, Repr

/-- The OTP security fields (R350). -/
inductive OtpField where
  | prodHash | devHash | provKey | debugKey | secVersion
  deriving DecidableEq, Repr

/-- The PTP messages a slave acts on (Table 2-2). -/
inductive PtpKind where
  | sync | followUp | delayResp | announce
  deriving DecidableEq, Repr

/-- A PTP message of the selected master as the servo sees it (R54, R56): its domain, its transport in the codes of
`PTP_TRANSPORT` (Table 12-4), its kind. `offset` is the master's time minus room time, in ns, once the exchange gives one. -/
structure PtpMessage where
  domain : Nat
  transport : Nat
  kind : PtpKind
  offset : Option Int
  utcOffset : Option Int
  deriving DecidableEq, Repr

/-- `TIME_SYNC` (Table 9-7): a request carries t1; a response carries t1, t2, t3 and the peer's traceability. -/
structure TimeSyncMsg where
  response : Bool
  t1 : Nat
  t2 : Nat
  t3 : Nat
  traceable : Bool
  deriving DecidableEq, Repr

/-- A colour description in the codes of Table 4-1, 0 where none is given, and the chroma sample location type (R103). -/
structure Colour where
  range : Nat := 0
  matrix : Nat := 0
  transfer : Nat := 0
  primaries : Nat := 0
  chromaLoc : Nat := 0
  deriving DecidableEq, Repr, Inhabited

/-- A sequence parameter set (R80, R81, R84): coded size, profile and level, the compatibility flags of Main and Main 10, the
reorder constraint, the sizes of the DPB and of its references, the sampling, and the conformance cropping in luma samples. -/
structure Sps where
  width : Nat
  height : Nat
  profile : Nat
  level : Nat
  main : Bool := false
  main10 : Bool := false
  reorder : Option Nat
  dpb : Nat
  refFrames : Nat
  latencyPlus1 : Nat
  bitDepth : Nat
  chroma : Nat
  field : Bool
  gapsAllowed : Bool
  maxFrameNum : Nat
  cropLeft : Nat := 0
  cropRight : Nat := 0
  cropTop : Nat := 0
  cropBottom : Nat := 0
  /-- The VUI colour description. -/
  colour : Colour := {}
  deriving DecidableEq, Repr, Inhabited

/-- A parameter set (R82): its NAL unit type, its identifier, that of the set it refers to (the SPS of a PPS, the VPS of an SPS of
H.265), its bytes, whether it uses a coding tool that R80 does not support, and what an SPS says. -/
structure ParamSet where
  type : Nat
  id : Nat
  refers : Nat
  bytes : Bytes
  tool : Bool
  sps : Option Sps
  deriving DecidableEq, Repr

/-- The kinds of coded picture that decoding distinguishes (R92, R95). -/
inductive PicKind where
  | idr | cra | bla | rasl | trail
  deriving DecidableEq, Repr

/-- The name of a reference (R92): its POC (H.265) or `frame_num` (H.264), or a long-term index (H.264). -/
inductive RefName where
  | short (n : Int)
  | long (index : Nat)
  deriving DecidableEq, Repr

/-- A memory management operation of H.264: a reference becomes unused, or long-term under an index; the indices from a number on
become unused, or every reference; the picture itself becomes long-term. -/
inductive RefOp where
  | unused (r : RefName)
  | toLong (n : Int) (index : Nat)
  | maxLong (n : Nat)
  | clearAll
  | selfLong (index : Nat)
  deriving DecidableEq, Repr

/-- How a picture marks the references held (R92): the POCs of the reference picture set of H.265, the sliding window of H.264, or
its memory management operations. -/
inductive RefMarking where
  | rps (pocs : List Int)
  | sliding
  | ops (l : List RefOp)
  deriving DecidableEq, Repr

/-- One entry of a mint annex (Table 8-5). -/
structure AnnexEntry where
  firstRow : Nat
  rowCount : Nat
  evidence : Nat
  aged : Bool
  carried : Bool
  capture : Nat
  deriving DecidableEq, Repr

/-- A mint annex found in an access unit (Table 8-4): the fields that R209 checks, and its entries. -/
structure Annex where
  version : Nat
  crcOk : Bool
  traceable : Bool
  rows : Nat
  entries : List AnnexEntry
  deriving DecidableEq, Repr

/-- An access unit: the syntax elements and the facts about its bits that decoding acts on (log entry 5): the parameter sets it
carries, the PPSs its slices name, whether they use an unsupported tool, the references they use, and the lines its parsing reads. -/
structure AuInfo where
  kind : PicKind
  poc : Int
  frameNum : Nat
  isRef : Bool
  refs : List RefName
  marking : RefMarking
  recovery : Option Nat
  output : Bool
  sets : List ParamSet
  pps : List Nat
  tool : Bool
  syntaxBad : Option Nat
  coverageBad : Option Nat
  hashBad : Option Nat
  refReadBad : Option Nat
  ahead : List Nat
  annex : Option Annex
  deriving DecidableEq, Repr

/-- An RTP packet after the UDP header (R64, R67, R69). `authOk` is the outcome of SRTP authentication (R66). -/
structure RtpPacket where
  payloadType : Nat
  seq : Nat
  ts : Nat
  ssrc : Nat
  marker : Bool
  size : Nat
  unsupported : Bool
  ntp64 : Option Nat
  authOk : Bool
  au : Option AuInfo
  deriving DecidableEq, Repr

/-- What an RTCP datagram is to SRTCP: its SSRC, its index (RFC 3711), and the outcome of authentication (R66). -/
structure RtcpHead where
  ssrc : Nat
  index : Nat
  authOk : Bool
  deriving DecidableEq, Repr

/-- A membership query (Table 2-4): of MLD or of IGMP, in which version (IGMP 1 to 3, MLD 1 or 2), about which group, 0 for
all, and which of its sources, none for all. -/
structure MembershipQuery where
  mld : Bool
  version : Nat
  group : Nat
  sources : List Nat
  deriving DecidableEq, Repr

/-- What an Ethernet frame carries. -/
inductive EthBody where
  | rtp (pkt : RtpPacket)
  | rtcpSr (head : RtcpHead) (ntp : Nat) (ts : Nat)
  | rtcpBye (head : RtcpHead)
  | rtcpOther (head : RtcpHead)
  | arpRequest (target : Nat)
  | neighbourSolicit (target : Nat)
  | icmpEcho
  | membershipQuery (q : MembershipQuery)
  | other
  deriving DecidableEq, Repr

/-- An Ethernet frame as a port receives it (Table 2-4). Addresses are 128-bit numbers, IPv4 mapped. -/
structure EthPacket where
  size : Nat
  vlan : Option Nat
  stacked : Bool
  fragment : Bool
  options : Bool
  src : Nat
  dst : Nat
  udpDst : Nat
  udpSrc : Nat
  body : EthBody
  deriving DecidableEq, Repr

/-- An `ECHO` block (Table 6-5). -/
structure EchoBlock where
  crc : Nat
  frameLow : Nat
  upper : Bool
  row : Nat
  dropped : Bool
  deriving DecidableEq, Repr

/-- One key's raw values of a scan (R189), in units of 5 fF: the F phase, and the T phase. -/
structure KeySample where
  rawF : Nat
  rawT : Nat
  deriving DecidableEq, Repr

/-- What the coder makes of a picture (R204 to R206), as NAL units: the parameter sets, the recovery point SEI, the slice of every
row at `QP_TARGET` and at `QP_CEIL`, and the skip slice of every row, at most 16 bytes. `reserve` is what its reserve for the
mint annex at its largest holds beyond the annex with its headers. -/
structure RowCosts where
  params : List Bytes
  recovery : Bytes
  atTarget : List Bytes
  atCeil : List Bytes
  skip : List Bytes
  reserve : Nat
  deriving DecidableEq, Repr

/-- `SRC_TILE` with the data blocks that follow it (R230); `overflow` when the elastic buffer overflowed in it. -/
structure SrcTileMsg where
  col : Nat
  row : Nat
  announced : Nat
  received : Nat
  frameLow : Nat
  data : Bytes
  overflow : Bool
  deriving DecidableEq, Repr

/-- A `HEARTBEAT` block (Table 9-6). -/
structure HeartbeatBlock where
  count : Nat
  role : Nat
  pairId : Nat
  arbLow : Bool
  deriving DecidableEq, Repr

/-- The votes of a room-wide commit (R143). -/
inductive Vote where
  | ready | staging | fence
  deriving DecidableEq, Repr

/-- The decisions of a room-wide commit (R143). -/
inductive Decision where
  | settle | settleForced | deferUncounted | deferCounted
  deriving DecidableEq, Repr

/-- The item kinds of a configuration set, with the codes of `SET_READ`: 0 to 4 in this order. -/
inductive SetKind where
  | source | layer | tone | output | fresh
  deriving DecidableEq, Repr

/-- Why a channel freezes (Table 10-7, `MEM_FROZEN`: 1, 2, 3). -/
inductive FreezeCause where
  | uncorrectable | parity | replayExhausted
  deriving DecidableEq, Repr

/-- Service classes of DRAM requests (R243). -/
inductive MemClass where
  | rt | iso | be
  deriving DecidableEq, Repr

/-- Masters of DRAM requests (R243). -/
inductive MemMaster where
  | scanOut | dsiPush | ingest | decode | composition | encode | teller | hostA | hostB | tally | scrub
  deriving DecidableEq, Repr

/-- The class of a master's requests (R243). -/
def MemMaster.cls : MemMaster → MemClass
  | .scanOut | .dsiPush => .rt
  | .ingest | .decode | .composition | .encode => .iso
  | .teller | .hostA | .hostB | .tally | .scrub => .be

/-- A DRAM request as its channel's queue holds it: master, line, age in ns, whether it was promoted, whether it hits an open row, and
how many younger requests went ahead of it for that. -/
structure MemReq where
  master : MemMaster
  line : Nat
  age : Nat
  promoted : Bool
  rowHit : Bool
  passed : Nat
  deriving DecidableEq, Repr

/-- Whose request met an uncorrectable error (R252, R255): scan-out or composition of a tile of an output, the decoder or the jitter
buffer of a source, Kinik ingest of a lane, the encoder at a job, a read or write of a host, or another. -/
inductive Requester where
  | scanOut (o t : Nat)
  | composition (o t : Nat)
  | decoder (src : Fin 256)
  | jitter (src : Fin 256)
  | kinik (l : Fin 48)
  | encoder (j : Fin 16)
  | hostRead (p : Fin 2)
  | hostWrite (p : Fin 2)
  | other (m : MemMaster)
  deriving DecidableEq, Repr

/-- The master of a requester. -/
def Requester.master : Requester → MemMaster
  | .scanOut _ _ => .scanOut
  | .composition _ _ => .composition
  | .decoder _ => .decode
  | .jitter _ | .kinik _ => .ingest
  | .encoder _ => .encode
  | .hostRead p | .hostWrite p => if p = 0 then .hostA else .hostB
  | .other m => m

/-- What corrections a patrol scrub reports (R251, R256): of a row that the scrub corrected, or requests since the last report; or the
uncorrectable error that the scrub finds at an address. -/
inductive ScrubFinding where
  | corrected (rank bankGroup bank row : Nat)
  | met (rank bankGroup bank row : Nat)
  | uncorrectable (addr : Nat)
  deriving DecidableEq, Repr

/-- What a channel holds (R240): ranks, and Gb of each of their devices. -/
structure Geometry where
  ranks : Nat
  gbit : Nat
  deriving DecidableEq, Repr

/-- The outcome of channel training (R240, R249): `geom` by channel. -/
structure TrainingResult where
  populated : BitVec 8
  passed : BitVec 8
  rate : Nat
  geom : List Geometry
  deriving DecidableEq, Repr

/-- The SRAM blocks in the order of Table 10-3. -/
inductive SramBlock where
  | composition | decode | encode | teller | tileBook | scanOut | memCtrl | misc
  deriving DecidableEq, Repr

/-- What a domain's four critical-path monitors report (R372). -/
inductive ReplicaReading where
  | someBelowGuard | allAboveTwice | between
  deriving DecidableEq, Repr

/-- Self-test results of a domain power-up (R258, R371): units of the domain that fail, an SRAM repair, an exhausted
array with the unit that owns it, and an uncorrectable SRAM error; `misc` when the SRAM they are about is the miscellaneous block
of a domain that holds another beside it. -/
structure SelfTest where
  misc : Bool
  failedUnits : List Nat
  repaired : Option (Nat × Nat)
  exhausted : Option (Nat × Nat)
  uncorrectable : Bool
  deriving DecidableEq, Repr, Inhabited

/-- A peer message at its `PEER_MSG_END` (R233): type, length and sequence of its start, the bytes of its data blocks with their
padding, and the CRC and sequence of its end. -/
structure PeerMsgIn where
  type : Nat
  length : Nat
  seq : Nat
  data : Bytes
  crc : Word
  endSeq : Nat
  deriving DecidableEq, Repr

/-- Why a block of the Kinik link is discarded (R221, R223): an invalid header, a type not listed or not allowed, or a full elastic
buffer. -/
inductive BadBlock where
  | header
  | type
  | overflow
  deriving DecidableEq, Repr

/-- Fill of a head's scan-out queue in eighths as a line starts, and of the queue of the head bonded to it (R150, R153). -/
structure LineFill where
  own : Fin 9
  upper : Fin 9
  deriving DecidableEq, Repr

/-- The end of a capture of an encode job: the copied tiles whose CRC does not hold (R202). -/
structure CaptureEnd where
  job : Fin 16
  bad : List Nat
  deriving DecidableEq, Repr

/-- A request that met an error: its address and who made it (R252, R255). -/
structure FailedReq where
  addr : Nat
  asker : Requester
  deriving DecidableEq, Repr

/-- A dual-rail source and the unit that drives it (R299, Table 13-3). -/
structure RailSource where
  id : Fin 16
  inst : BitVec 16
  deriving DecidableEq, Repr

/-- The commands of the block: one constructor per row of spec/opcode_table.json. Every command carries first
the time `dt`, in nanoseconds, that passes between the command before it and itself (log entry 1). -/
inductive Instr where
  /-- `SESSION_OPEN` (R272): Opens a session on the port at the agreed protocol version, closing any session already open there. -/
  | sessionOpen (dt : Nat) (p : Fin 4)
  /-- `SESSION_CLOSE` (R274): Closes the port's open session after answering OK. -/
  | sessionClose (dt : Nat) (p : Fin 4)
  /-- `DEVICE_INFO_GET` (R287): Returns the device identity and capacity status record. -/
  | deviceInfoGet (dt : Nat) (p : Fin 4)
  /-- `DEVICE_RESET` (R291): Answers OK and then requests a WARM reset within 1 ms. -/
  | deviceReset (dt : Nat) (p : Fin 4)
  /-- `FIRMWARE_STAGE` (R351): Authenticates a firmware image and stores it in flash as the staged image, or removes the staged image. -/
  | firmwareStage (dt : Nat) (p : Fin 4)
  /-- `FIRMWARE_STATUS_GET` (R287): Returns the running and staged firmware versions and the last staging status. -/
  | firmwareStatusGet (dt : Nat) (p : Fin 4)
  /-- `SOURCE_SET` (R61): Writes source descriptors into the shadow set, or holds the writes while a commit is pending. -/
  | sourceSet (dt : Nat) (p : Fin 4)
  /-- `SOURCE_STATUS_GET` (R63): Returns per-source subscription state, evidence, last mint and counters. -/
  | sourceStatusGet (dt : Nat) (p : Fin 4)
  /-- `SURFACE_SET` (R292): Describes a host surface, withdraws its published frames and unsignals its fences. -/
  | surfaceSet (dt : Nat) (p : Fin 4)
  /-- `SURFACE_PUBLISH` (R72): Publishes a surface buffer, signals its fence, computes its signature and mints the frame. -/
  | surfacePublish (dt : Nat) (p : Fin 4)
  /-- `SOURCE_PARAMS_SET` (R82): Holds out-of-band parameter sets for a source, or clears the held sets. -/
  | sourceParamsSet (dt : Nat) (p : Fin 4)
  /-- `DECODE_RESTART` (R97): Allows a stopped stream with RESTART set to HOST to restart at its next random-access point. -/
  | decodeRestart (dt : Nat) (p : Fin 4)
  /-- `ROOM_TIME_CONFIG` (R425): Sets the room-time discipline, optionally sets room time, and schedules frame-clock changes. -/
  | roomTimeConfig (dt : Nat) (p : Fin 4)
  /-- `ROOM_TIME_STATUS` (R287): Returns the room-time state, discipline, traceability and offset. -/
  | roomTimeStatus (dt : Nat) (p : Fin 4)
  /-- `ROOM_TIME_STEP_BACK` (R55): Accepts a backward step of room time, which is performed at the next room frame start. -/
  | roomTimeStepBack (dt : Nat) (p : Fin 4)
  /-- `DECODE_STATUS_GET` (R95): Returns the decoder state, core, cost and damage counts of each RTP source. -/
  | decodeStatusGet (dt : Nat) (p : Fin 4)
  /-- `LAYER_SET` (R99): Writes layer descriptors into the shadow set, or holds the writes while a commit is pending. -/
  | layerSet (dt : Nat) (p : Fin 4)
  /-- `LAYER_STRIPE` (R294): Replaces a shadow-set layer by 2 to 4 stripes taken from disabled descriptors. -/
  | layerStripe (dt : Nat) (p : Fin 4)
  /-- `TONE_PROFILE_SET` (R108): Writes tone profiles 1 to 63 into the shadow set. -/
  | toneProfileSet (dt : Nat) (p : Fin 4)
  /-- `COMPOSE_STATUS_GET` (R121): Returns per-output round counts, lateness and staging state. -/
  | composeStatusGet (dt : Nat) (p : Fin 4)
  /-- `TILE_RECORD_GET` (R116): Returns the current tile records of a range of tiles of one output. -/
  | tileRecordGet (dt : Nat) (p : Fin 4)
  /-- `OUTPUT_SET` (R151): Writes head or panel output settings into the shadow set. -/
  | outputSet (dt : Nat) (p : Fin 4)
  /-- `OUTPUT_STATUS_GET` (R154): Returns the per-output state, frame or TE counts, link and echo status. -/
  | outputStatusGet (dt : Nat) (p : Fin 4)
  /-- `OUTPUT_EVENTS_SET` (R155): Sets the session's head and panel event enables and match lines. -/
  | outputEventsSet (dt : Nat) (p : Fin 4)
  /-- `PANEL_INIT_SET` (R185): Sets the host initialisation entries that apply from a panel's next start. -/
  | panelInitSet (dt : Nat) (p : Fin 4)
  /-- `COMMIT` (R134): Accepts a commit for a group, assigns its sequence number and begins clearing it. -/
  | commit (dt : Nat) (p : Fin 4)
  /-- `COMMIT_STATUS_GET` (R137): Returns the state of the pending commit, or of the last commit. -/
  | commitStatusGet (dt : Nat) (p : Fin 4)
  /-- `COMMIT_CANCEL` (R141): Cancels a pending commit that has not yet been sampled for settlement. -/
  | commitCancel (dt : Nat) (p : Fin 4)
  /-- `COMMIT_GROUP_SET` (R130): Configures the master, outputs, settlement line and deferral limit of a commit group. -/
  | commitGroupSet (dt : Nat) (p : Fin 4)
  /-- `ROOM_COMMIT` (R143): Starts a room-wide commit as coordinator by sending ROOM_PREPARE to the participants. -/
  | roomCommit (dt : Nat) (p : Fin 4)
  /-- `SET_COPY` (R129): Copies the active set over the shadow set. -/
  | setCopy (dt : Nat) (p : Fin 4)
  /-- `SET_READ` (R127): Returns items of the active or the shadow set. -/
  | setRead (dt : Nat) (p : Fin 4)
  /-- `FRESH_POLICY_SET` (R50): Writes the per-output void colours, legend scale and echo miss limit into the shadow set. -/
  | freshPolicySet (dt : Nat) (p : Fin 4)
  /-- `FRESH_STATUS_GET` (R51): Returns an output's voided layers with their reasons and ages, its echo state and any colour replacement. -/
  | freshStatusGet (dt : Nat) (p : Fin 4)
  /-- `FRESH_PROOF_RUN` (R46): Starts the assay proof test on the selected outputs and holds the response until the results are known. -/
  | freshProofRun (dt : Nat) (p : Fin 4)
  /-- `ENCODE_SET` (R198): Configures an encode job; the change acts when accepted. -/
  | encodeSet (dt : Nat) (p : Fin 4)
  /-- `ENCODE_STATUS_GET` (R199): Returns the state, core, level and counters of each encode job. -/
  | encodeStatusGet (dt : Nat) (p : Fin 4)
  /-- `ENCODE_REFRESH` (R205): Makes the job's next picture an IDR picture. -/
  | encodeRefresh (dt : Nat) (p : Fin 4)
  /-- `KEY_GROUP_SET` (R188): Sets a key group's header and key words, to act at its next scan. -/
  | keyGroupSet (dt : Nat) (p : Fin 4)
  /-- `KEY_STATE_GET` (R196): Returns key states, flags, deltas and baselines of a group. -/
  | keyStateGet (dt : Nat) (p : Fin 4)
  /-- `KEY_REFERENCE_STORE` (R193): Stores a group's factory reference, the mean of 64 scans, in flash. -/
  | keyReferenceStore (dt : Nat) (p : Fin 4)
  /-- `KEY_RAW_GET` (R196): Returns a group's raw values, dF and dT. -/
  | keyRawGet (dt : Nat) (p : Fin 4)
  /-- `LEDGER_INFO_GET` (R319): Returns the ledger sequence pointers, power-cycle count and operating time. -/
  | ledgerInfoGet (dt : Nat) (p : Fin 4)
  /-- `LEDGER_READ` (R295): Returns ledger records from flash or the ring, starting at the first valid sequence requested. -/
  | ledgerRead (dt : Nat) (p : Fin 4)
  /-- `LEDGER_NOTE` (R321): Writes a host note record to the ledger, limited to 100 notes per port per second. -/
  | ledgerNote (dt : Nat) (p : Fin 4)
  /-- `HEALTH_GET` (R303): Returns the health record. -/
  | healthGet (dt : Nat) (p : Fin 4)
  /-- `FAULT_SEVERITY_SET` (R302): Sets fault-source severities, keeping every dual-rail source at 3 or above. -/
  | faultSeveritySet (dt : Nat) (p : Fin 4)
  /-- `FAULT_LOG_GET` (R301): Returns records of the Auditor fault log. -/
  | faultLogGet (dt : Nat) (p : Fin 4)
  /-- `SAFE_EXIT` (R310): Accepts an exit from safe state, to take effect at the next room frame start, when the exit conditions hold. -/
  | safeExit (dt : Nat) (p : Fin 4)
  /-- `POWER_STATE_SET` (R375): Requests a change to RUN, DIM with a domain mask, NIGHT or OFF. -/
  | powerStateSet (dt : Nat) (p : Fin 4)
  /-- `POWER_STATUS_GET` (R287): Returns the power state, the domains that are on, throttling and the last wake source. -/
  | powerStatusGet (dt : Nat) (p : Fin 4)
  /-- `LOOP_ENVELOPE_SET` (R314): Sets the software envelopes of the voltage and thermal loops per domain. -/
  | loopEnvelopeSet (dt : Nat) (p : Fin 4)
  /-- `WAKE_SOURCES_SET` (R377): Sets the wake-source mask and the room-time alarm. -/
  | wakeSourcesSet (dt : Nat) (p : Fin 4)
  /-- `PAIR_CONFIG_SET` (R334): Stores the PAIR_ID, twin port and pairing enable in flash for the next reset. -/
  | pairConfigSet (dt : Nat) (p : Fin 4)
  /-- `PAIR_STATUS_GET` (R342): Returns the pair role, ARB, heartbeat and mirroring state. -/
  | pairStatusGet (dt : Nat) (p : Fin 4)
  /-- `PAIR_SWITCH` (R344): Starts the hand-over of the active role to the twin at a chosen frame start. -/
  | pairSwitch (dt : Nat) (p : Fin 4)
  /-- `PEER_STATUS_GET` (R287): Returns the state of each peer port and of its partner. -/
  | peerStatusGet (dt : Nat) (p : Fin 4)
  /-- `LANE_TABLE_LOAD` (R216): Checks a board lane table and stores it in flash for the next POR, PIN or WARM reset. -/
  | laneTableLoad (dt : Nat) (p : Fin 4)
  /-- `LANE_TABLE_GET` (R216): Returns the lane table in force and any table waiting to be applied. -/
  | laneTableGet (dt : Nat) (p : Fin 4)
  /-- `LANE_STATUS_GET` (R224): Returns the state, partner record, offset and error counts of each lane. -/
  | laneStatusGet (dt : Nat) (p : Fin 4)
  /-- `LANE_TUNE` (R218): Replaces a lane's equalisation words in the table in force and restarts that lane's link. -/
  | laneTune (dt : Nat) (p : Fin 4)
  /-- `ETH_PORT_SET` (R237): Sets an Ethernet port's enable, VLAN, MAC and IP addresses, and repeats membership reports on an address change. -/
  | ethPortSet (dt : Nat) (p : Fin 4)
  /-- `LANE_PRBS` (R238): Starts a far-end PRBS31 board test on a lane whose role is off. -/
  | lanePrbs (dt : Nat) (p : Fin 4)
  /-- `MEM_STATUS_GET` (R260): Returns memory channel records or region records. -/
  | memStatusGet (dt : Nat) (p : Fin 4)
  /-- `MEM_POLICY_SET` (R260): Sets the retraining and refresh envelopes, the error limit, the masks and the region sizes. -/
  | memPolicySet (dt : Nat) (p : Fin 4)
  /-- `MEM_FIXED_DELAYS_SET` (R248): Stores a channel's fixed-delay band table in flash, to apply at the channel's next training. -/
  | memFixedDelaysSet (dt : Nat) (p : Fin 4)
  /-- `MEM_FREEZE_DUMP_GET` (R253): Returns the command capture of a frozen channel. -/
  | memFreezeDumpGet (dt : Nat) (p : Fin 4)
  /-- `LIFECYCLE_GET` (R349): Returns the lifecycle state, debug session state and loaded Vault slots. -/
  | lifecycleGet (dt : Nat) (p : Fin 4)
  /-- `LIFECYCLE_SET` (R349): Requests a lifecycle advance; an advance to RETIRED destroys the keys at once and resets the device. -/
  | lifecycleSet (dt : Nat) (p : Fin 4)
  /-- `VAULT_KEY_LOAD` (R353): Unwraps an SRTP key into a Vault slot and restarts the SRTP contexts that name the slot. -/
  | vaultKeyLoad (dt : Nat) (p : Fin 4)
  /-- `VAULT_REGION_SET` (R355): Sets vault regions and rewrites the affected bursts through the XTS engine. -/
  | vaultRegionSet (dt : Nat) (p : Fin 4)
  /-- `MPU_SET_WRITE` (R359): Writes regions of the non-live MPU set of the host's own master group. -/
  | mpuSetWrite (dt : Nat) (p : Fin 4)
  /-- `MPU_SWAP` (R365): Makes the other MPU set of a group live and advances the group's epoch. -/
  | mpuSwap (dt : Nat) (p : Fin 4)
  /-- `MPU_STATUS_GET` (R365): Returns a group's live set, epoch, drain flag and notice counts. -/
  | mpuStatusGet (dt : Nat) (p : Fin 4)
  /-- `DEBUG_UNLOCK` (R368): Issues a debug challenge, or checks its answer and opens an authenticated debug session. -/
  | debugUnlock (dt : Nat) (p : Fin 4)
  /-- `TALLY_RUN` (R328): Starts a CRC job on a Tally engine, with an optional compare. -/
  | tallyRun (dt : Nat) (p : Fin 4)
  /-- `TALLY_STATUS_GET` (R330): Returns the state and last result of each Tally engine. -/
  | tallyStatusGet (dt : Nat) (p : Fin 4)
  /-- `TALLY_CONTEXT_SAVE` (R332): Stops an engine at a 64-byte boundary and returns its job context. -/
  | tallyContextSave (dt : Nat) (p : Fin 4)
  /-- `TALLY_CONTEXT_RESTORE` (R332): Loads a checked context into an idle engine, which continues the job. -/
  | tallyContextRestore (dt : Nat) (p : Fin 4)
  /-- `UNKNOWN_OPCODE` (R282): A request whose opcode is not listed is answered with NOT_SUPPORTED. -/
  | unknownOpcode (dt : Nat) (p : Fin 4)
  /-- `REQ_BELL` (R262): A W1S write rings request doorbells and latches room time into REQ_TIME of each newly rung slot. -/
  | reqBell (dt : Nat) (p : Fin 4) (bits : BitVec 8)
  /-- `REQUEST_TAKEN` (R263): Teller firmware takes a rung request in round-robin order, copies the slot, clears its doorbell bit and checks it. -/
  | requestTaken (dt : Nat) (desc : Option DescRead)
  /-- `RESP_BELL` (R264): A W1C write frees response slots and resends MSI-X vector 0 if any bit stays set. -/
  | respBell (dt : Nat) (p : Fin 4) (bits : BitVec 8)
  /-- `RESPONSE_POSTED` (R264): A waiting response is posted when a response slot becomes free. -/
  | responsePosted (dt : Nat) (p : Fin 4)
  /-- `EVQ_RD` (R279): A write of the event-queue read index frees records, posts EVENTS_LOST if events were lost, and renotifies. -/
  | evqRd (dt : Nat) (p : Fin 4) (idx : BitVec 10)
  /-- `LATCHING_READ` (R390): A read of a latching register captures its partner registers into the port's latch. -/
  | latchingRead (dt : Nat) (p : Fin 4) (off : BitVec 16)
  /-- `REGISTER_WRITE` (R389): A write to any other window register sets an RW field or is ignored. -/
  | registerWrite (dt : Nat) (p : Fin 4) (off : BitVec 16) (data : Bytes)
  /-- `SPI_INVALID_TRANSACTION` (R399): An SPI transaction with an unknown command or a misaligned offset is ignored until SPI_CS_N rises. -/
  | spiInvalidTransaction (dt : Nat) (cmd : Byte) (off : BitVec 16)
  /-- `HOST_MEMORY_ACCESS` (R360): A host access through BAR 2 is checked line by line against the live MPU set of its group. -/
  | hostMemoryAccess (dt : Nat) (h : Fin 2) (acc : MemAccess)
  /-- `DEBUG_MEMORY_ACCESS` (R369): A debug access to device memory is checked against the live debug set and the Vault blocks. -/
  | debugMemoryAccess (dt : Nat) (target : DebugTarget) (acc : MemAccess)
  /-- `TELLER_HALT_REQUEST` (R369): A Teller halt request is honoured only where the lifecycle allows it, and otherwise denied. -/
  | tellerHaltRequest (dt : Nat)
  /-- `OTP_PROGRAM` (R350): A JTAG instruction that writes an OTP security field once, only in MANUFACTURE. -/
  | otpProgram (dt : Nat) (field : OtpField) (value : Nat)
  /-- `OTP_READ` (R350): A JTAG instruction that returns the two image-key hashes and the security version counter. -/
  | otpRead (dt : Nat)
  /-- `EXTEST` (R367): A JTAG boundary-scan instruction, which works only in MANUFACTURE and DEVELOP. -/
  | extest (dt : Nat)
  /-- `INTEST` (R367): A JTAG internal test instruction, which works only in MANUFACTURE and DEVELOP. -/
  | intest (dt : Nat)
  /-- `BYPASS` (R367): The JTAG bypass instruction, available in every lifecycle state. -/
  | bypass (dt : Nat)
  /-- `IDCODE` (R367): The JTAG identification instruction, available in every lifecycle state. -/
  | idcode (dt : Nat)
  /-- `SAMPLE` (R367): The JTAG sample instruction, available in every lifecycle state. -/
  | sample (dt : Nat)
  /-- `PTP_MESSAGE_RECEIVED` (R54): A PTP message from the selected master updates the offset, and room time is slewed or stepped forward. -/
  | ptpMessageReceived (dt : Nat) (port : Fin 8) (msg : PtpMessage)
  /-- `PTP_SYNC_TIMEOUT` (R425): Three seconds without a Sync message count as loss, and LOCKED room time enters HOLDOVER. -/
  | ptpSyncTimeout (dt : Nat)
  /-- `GENLOCK_IN_EDGE` (R58): A rising edge on GENLOCK_IN is timestamped, counts towards lock and, when it is the frame source, starts a frame. -/
  | genlockInEdge (dt : Nat)
  /-- `GENLOCK_LOSS` (R58): Three expected GENLOCK_IN edges that fail to arrive make the input lost, and the frame clock runs on. -/
  | genlockLoss (dt : Nat)
  /-- `TIME_SYNC` (R234): A peer time-sync message is received, answered, or used to discipline room time under PEER. -/
  | timeSync (dt : Nat) (pp : Fin 4) (msg : TimeSyncMsg)
  /-- `ROOM_FRAME_START` (R424): Room time reaches a formula time: the frame count advances, and scheduled clock changes, steps and safe exits take effect. -/
  | roomFrameStart (dt : Nat)
  /-- `ETH_PACKET_RECEIVED` (R64): An Ethernet frame is filtered, answered or delivered to one descriptor's jitter buffer, and complete access units are released. -/
  | ethPacketReceived (dt : Nat) (port : Fin 8) (pkt : EthPacket)
  /-- `ETH_PORT_LINK` (R236): An Ethernet port's PCS gains or loses block lock or FEC alignment. -/
  | ethPortLink (dt : Nat) (port : Fin 8) (up : Bool)
  /-- `MEMBERSHIP_REPORT_REPEAT` (R65): The second unsolicited membership report is sent 1 s after the first. -/
  | membershipReportRepeat (dt : Nat) (src : Fin 256)
  /-- `RTCP_RR_SEND` (R68): A receiver report is sent every 5 s for a descriptor with RTCP_RR set. -/
  | rtcpRrSend (dt : Nat) (src : Fin 256)
  /-- `JITTER_DEADLINE` (R69): An incomplete access unit reaches its JITTER_DEPTH deadline and is released marked incomplete. -/
  | jitterDeadline (dt : Nat) (src : Fin 256)
  /-- `SSRC_CHANGED` (R69): The locked SSRC has been silent for LOSS_TIMEOUT while another is present, so the buffer locks to the new one. -/
  | ssrcChanged (dt : Nat) (src : Fin 256)
  /-- `SOURCE_LOSS_TIMEOUT` (R78): No access unit, frame or publish arrives for LOSS_TIMEOUT, and the source is declared lost. -/
  | sourceLossTimeout (dt : Nat) (src : Fin 256)
  /-- `DECODE_PICTURE_DONE` (R93): Reconstruction of an access unit completes; findings then fall due, damage is acted on and pictures are output and minted. -/
  | decodePictureDone (dt : Nat) (src : Fin 256)
  /-- `DECODE_RATE_WINDOW` (R87): A 1 s window of a stream ends, and the stream stops as OVERRATE if its sample count exceeds the limit. -/
  | decodeRateWindow (dt : Nat) (src : Fin 256)
  /-- `DAMAGE_SUMMARY_PERIOD` (R94): A 10 s period of a summarised source ends, and a summary record is written if a stop occurred. -/
  | damageSummaryPeriod (dt : Nat) (src : Fin 256)
  /-- `SUMMARY_END` (R94): 60 s without a stop end the summarising of a source. -/
  | summaryEnd (dt : Nat) (src : Fin 256)
  /-- `DECODER_CORE_FAULT` (R88): A decoder core fails in service; its streams stop and the core is marked failed and powered down. -/
  | decoderCoreFault (dt : Nat) (core : Fin 4)
  /-- `SURFACE_RELEASED` (R72): A published buffer stops being in use and is released to the host. -/
  | surfaceReleased (dt : Nat) (surf : Fin 128) (buf : Fin 3)
  /-- `CLEARING_COMPLETE` (R134): Clearing of a commit completes; the commit is rejected, or becomes eligible and staging begins. -/
  | clearingComplete (dt : Nat)
  /-- `STAGING_COMPLETE` (R123): Staging of every tile that a commit can change completes. -/
  | stagingComplete (dt : Nat)
  /-- `SETTLEMENT_LINE` (R139): A group's settlement point arrives, and the pending commit is sampled, deferred, forced or settled. -/
  | settlementLine (dt : Nat) (g : Fin 16)
  /-- `ROUND_COMPLETE` (R120): Every tile of a composition round has been written, so the round waits to publish. -/
  | roundComplete (dt : Nat) (out : Fin 32)
  /-- `HEAD_FRAME_START` (R120): A head's frame start publishes rounds, applies settled commits, starts a round and samples for encoding. -/
  | headFrameStart (dt : Nat) (h : Fin 24)
  /-- `HEAD_LINE_START` (R160): A head line starts; LINE_START and line events are sent, and the assay evaluates tile rows and voids. -/
  | headLineStart (dt : Nat) (h : Fin 24) (fill : LineFill)
  /-- `VOID_EPISODE_END` (R51): A layer has stayed out of void for 1 s and its episode ends. -/
  | voidEpisodeEnd (dt : Nat) (out : Fin 32) (layer : Fin 1024)
  /-- `SCANOUT_UNDERRUN` (R157): A pixel is due and not in the FIFO, so the rest of the tile row is voided and reading moves on. -/
  | scanoutUnderrun (dt : Nat) (h : Fin 24) (upper : Bool) (pixel : Nat)
  /-- `TILE_CRC_VERDICT` (R158): Decoding of a tile's last line gives its CRC verdict, and a mismatch voids and marks the tile. -/
  | tileCrcVerdict (dt : Nat) (o : Fin 32) (tile : Nat) (crc : Word)
  /-- `HEAD_UNLOCKED` (R154): A scanning head's skew exceeds one line, so it stops and relocks. -/
  | headUnlocked (dt : Nat) (h : Fin 24) (skew : Int)
  /-- `ECHO` (R162): A receiver echo block is matched to a kept CRC and decides its tile row. -/
  | echo (dt : Nat) (lane : Fin 48) (blk : EchoBlock)
  /-- `ECHO_DEADLINE` (R43): The end of the second frame after emission passes without echoes, so the frame counts as mismatched. -/
  | echoDeadline (dt : Nat) (h : Fin 24)
  /-- `TE_TAKEN` (R173): A synchronised TE edge starts the round, evaluation, settlement and push of a panel. -/
  | teTaken (dt : Nat) (pn : Fin 8)
  /-- `TE_LOST` (R174): Three TE periods pass without a TE, so the panel is darkened and pushes stop. -/
  | teLost (dt : Nat) (pn : Fin 8)
  /-- `PUSH_COMPLETE` (R179): A panel push has sent its last packet and been acknowledged, if that is required. -/
  | pushComplete (dt : Nat) (pn : Fin 8)
  /-- `PUSH_WINDOW_EXPIRY` (R179): PUSH_WINDOW_US passes since the TE, and the push is abandoned at the next packet boundary. -/
  | pushWindowExpiry (dt : Nat) (pn : Fin 8)
  /-- `PANEL_ACK_RECEIVED` (R177): The panel's acknowledge after a bus turnaround completes the push, or fails it on an error report. -/
  | panelAckReceived (dt : Nat) (pn : Fin 8) (report : BitVec 16)
  /-- `BTA_TIMEOUT` (R179): No acknowledge arrives within 100 µs of the turnaround, and the push is abandoned. -/
  | btaTimeout (dt : Nat) (pn : Fin 8)
  /-- `LP_CONTENTION` (R179): LP contention is detected on data lane 0, and the push is abandoned. -/
  | lpContention (dt : Nat) (pn : Fin 8)
  /-- `PANEL_SEQUENCE_WAIT` (R185): A timed wait of a panel start or stop sequence ends and the next step is taken. -/
  | panelSequenceWait (dt : Nat) (pn : Fin 8)
  /-- `PANEL_START_RETRY` (R185): A panel start that has not reached step 8 within 2 s is retried from step 1. -/
  | panelStartRetry (dt : Nat) (pn : Fin 8)
  /-- `KEY_SCAN` (R192): A group scan completes, and key states, flags, baselines and scan rate are updated. -/
  | keyScan (dt : Nat) (g : Fin 8) (raws : List KeySample)
  /-- `KEY_HELD` (R192): A key has been pressed continuously for hold_limit. -/
  | keyHeld (dt : Nat) (g : Fin 8) (k : Fin 24)
  /-- `KEY_STUCK` (R192): A key has been pressed continuously for stuck_limit, and the event is raised. -/
  | keyStuck (dt : Nat) (g : Fin 8) (k : Fin 24)
  /-- `KEY_RATE_STEP` (R195): 1 s, 10 s or 120 s pass without activity, and the group's scan rate steps down. -/
  | keyRateStep (dt : Nat) (g : Fin 8)
  /-- `ENCODE_CAPTURE_COMPLETE` (R202): Capture of a sampled frame into the input ring completes. `bad` are the tiles whose copy
  does not match their CRC. -/
  | encodeCaptureComplete (dt : Nat) (j : CaptureEnd)
  /-- `ENCODE_PICTURE_CODED` (R206): An access unit has been coded within its budget, with rows kept or carried. -/
  | encodePictureCoded (dt : Nat) (j : Fin 16) (costs : RowCosts)
  /-- `ENCODE_PACKET_SEND` (R210): The next paced RTP packet of an access unit is sent. -/
  | encodePacketSend (dt : Nat) (j : Fin 16)
  /-- `ENCODE_SR_SEND` (R210): An RTCP sender report is sent every 1 s for each stream. -/
  | encodeSrSend (dt : Nat) (j : Fin 16)
  /-- `BLOCK_LOCK_GAINED` (R220): 64 consecutive valid sync headers give block lock on a lane. -/
  | blockLockGained (dt : Nat) (l : Fin 48)
  /-- `BLOCK_LOCK_LOST` (R220): 32 invalid headers within 1,024 blocks lose lock, and hunting restarts. -/
  | blockLockLost (dt : Nat) (l : Fin 48)
  /-- `HUNT_TIMEOUT` (R224): 50 ms pass without block lock, so clock recovery is reset and counted. -/
  | huntTimeout (dt : Nat) (l : Fin 48)
  /-- `CAP` (R224): A partner's complete capability record arrives and is answered with CAP_ACK. -/
  | cap (dt : Nat) (l : Fin 48) (rec : Bytes)
  /-- `CAP_ACK` (R226): A partner's acknowledge completes the exchange, bringing the link UP or INCOMPATIBLE. -/
  | capAck (dt : Nat) (l : Fin 48) (version : Byte) (result : Byte) (crc : Word)
  /-- `CAP_RESEND` (R224): The lane's capability record is resent, every 1 ms in exchange and every 100 ms when incompatible. -/
  | capResend (dt : Nat) (l : Fin 48)
  /-- `TIME_PAIR_SEND` (R229): TIME_HI and TIME_LO are sent on each source lane every millisecond. -/
  | timePairSend (dt : Nat) (l : Fin 48)
  /-- `SRC_FRAME_START` (R230): A front end begins a source frame, discarding any incomplete previous frame. -/
  | srcFrameStart (dt : Nat) (l : Fin 48) (num : Word) (locked : Bool) (follows : Bool)
  /-- `SRC_FRAME_TIME` (R230): A front end gives the capture time of the current frame against a time pair. -/
  | srcFrameTime (dt : Nat) (l : Fin 48) (tag : Byte) (offset : Int)
  /-- `SRC_TILE` (R231): A source tile and its data blocks arrive and are written to the frame buffer. -/
  | srcTile (dt : Nat) (l : Fin 48) (tile : SrcTileMsg)
  /-- `SRC_TILE_CRC` (R231): A tile's CRC arrives and is checked. -/
  | srcTileCrc (dt : Nat) (l : Fin 48) (crc : Word) (frameLow : Byte)
  /-- `SRC_FRAME_END` (R231): A frame's end is checked, and a complete frame is minted. -/
  | srcFrameEnd (dt : Nat) (l : Fin 48) (num : Word) (tiles : Nat)
  /-- `KINIK_UNKNOWN_BLOCK` (R221): An invalid or disallowed block received while locked is discarded and counted. -/
  | kinikUnknownBlock (dt : Nat) (l : Fin 48) (why : BadBlock) (type : Byte)
  /-- `HEARTBEAT_SEND` (R232): Each UP peer lane sends HEARTBEAT every millisecond. -/
  | heartbeatSend (dt : Nat) (pp : Fin 4)
  /-- `HEARTBEAT` (R337): A twin's heartbeat is received, restoring a failed heartbeat and checking ARB and dual active. -/
  | heartbeat (dt : Nat) (pp : Fin 4) (hb : HeartbeatBlock)
  /-- `HEARTBEAT_FAIL` (R337): 8 ms pass without the twin's heartbeat; mirroring stops and the link loss is raised. -/
  | heartbeatFail (dt : Nat)
  /-- `PEER_ACK` (R233): A peer acknowledge frees an outstanding message. -/
  | peerAck (dt : Nat) (pp : Fin 4) (seq : BitVec 16) (result : Byte)
  /-- `PEER_MSG_RESEND` (R233): 100 µs pass without acknowledgement, so the message is resent or, after 3 resends, reported lost. -/
  | peerMsgResend (dt : Nat) (pp : Fin 4)
  /-- `ROOM_PREPARE` (R143): A participant checks its cleared room commit, room time and frame clock, and answers. -/
  | roomPrepare (dt : Nat) (pp : Fin 4) (roomId : Nat) (group : Fin 16) (num : Nat) (den : Nat) (phase : Nat)
  /-- `ROOM_PREPARED` (R143): The coordinator receives a participant's answer and chooses the target frame when every answer is in. -/
  | roomPrepared (dt : Nat) (pp : Fin 4) (roomId : Nat) (result : Nat) (commitSeq : Nat)
  /-- `ROOM_PREPARE_TIMEOUT` (R144): A participant does not answer ROOM_PREPARE within 2 ms, and the room commit is aborted. -/
  | roomPrepareTimeout (dt : Nat)
  /-- `ROOM_VOTE_REQ` (R143): A participant receives the target frame of the vote. -/
  | roomVoteReq (dt : Nat) (pp : Fin 4) (roomId : Nat) (tf : Nat)
  /-- `ROOM_VOTE_POINT` (R143): At T_f minus ROOM_LEAD each unit evaluates its commit and votes. -/
  | roomVotePoint (dt : Nat)
  /-- `ROOM_VOTE` (R143): The coordinator receives a participant's vote. -/
  | roomVote (dt : Nat) (pp : Fin 4) (roomId : Nat) (vote : Vote) (tf : Nat)
  /-- `ROOM_DECISION_POINT` (R143): At T_f minus ROOM_LEAD/2 the coordinator decides to settle or defer and sends ROOM_DECIDE. -/
  | roomDecisionPoint (dt : Nat)
  /-- `ROOM_DECIDE` (R145): A participant receives the decision and settles at T_f, or late. -/
  | roomDecide (dt : Nat) (pp : Fin 4) (roomId : Nat) (dec : Decision) (defers : Nat) (tf : Nat)
  /-- `ROOM_DONE` (R146): The coordinator receives a participant's frame time of effect. -/
  | roomDone (dt : Nat) (pp : Fin 4) (roomId : Nat) (frameTime : Nat) (commitSeq : Nat)
  /-- `ROOM_QUERY` (R145): An in-doubt participant queries every 1 ms, and the coordinator answers with its decision. -/
  | roomQuery (dt : Nat) (received : Option (Fin 4)) (roomId : Nat) (tf : Nat)
  /-- `ROOM_IN_DOUBT_TIMEOUT` (R145): 100 ms pass without a decision, and the in-doubt participant withdraws its commit. -/
  | roomInDoubtTimeout (dt : Nat)
  /-- `ROOM_DONE_WAIT_EXPIRY` (R146): 200 ms after T_f the coordinator completes ROOM_COMMIT with each participant's outcome. -/
  | roomDoneWaitExpiry (dt : Nat)
  /-- `PAIR_PROMOTE` (R336): ARB has read high for the take time, so a healthy standby drives ARB low and becomes active. -/
  | pairPromote (dt : Nat)
  /-- `PAIR_HANDOVER` (R344): The twin receives a hand-over request and answers ready or not. -/
  | pairHandover (dt : Nat) (tf : Nat) (mirrorSeq : Nat)
  /-- `PAIR_HANDOVER_ACK` (R344): The active unit receives the twin's hand-over answer. -/
  | pairHandoverAck (dt : Nat) (tf : Nat) (result : Nat)
  /-- `PAIR_HANDOVER_TIMEOUT` (R344): No hand-over answer arrives within 2 ms, and the switch ends with DENIED. -/
  | pairHandoverTimeout (dt : Nat)
  /-- `PAIR_HANDOVER_RELEASE` (R344): At T_f minus 200 µs the active unit releases ARB, becomes standby and holds its heads. -/
  | pairHandoverRelease (dt : Nat)
  /-- `PAIR_HANDOVER_TAKE` (R344): At T_f minus 100 µs the twin, reading ARB high, takes the active role. -/
  | pairHandoverTake (dt : Nat)
  /-- `PAIR_SWITCH_CONFIRM_EXPIRY` (R344): At T_f plus 100 ms a switch whose twin is not active is answered DENIED. -/
  | pairSwitchConfirmExpiry (dt : Nat)
  /-- `PAIR_RESET_SEND` (R345): The twin has been catching up or stopped for 10 s, so the active unit pulses ARB three times. -/
  | pairResetSend (dt : Nat)
  /-- `MIRROR_WRITE` (R341): The standby applies a mirrored shadow-set write. -/
  | mirrorWrite (dt : Nat) (kind : SetKind) (first : Nat) (count : Nat) (mseq : Nat) (more : Bool) (items : Bytes)
  /-- `MIRROR_SETTLE` (R341): The standby clears, stages and settles a mirrored commit. -/
  | mirrorSettle (dt : Nat) (commitSeq : Nat) (group : Fin 16) (swap : Bool) (mseq : Nat) (frameTime : Nat)
  /-- `MIRROR_SETTING` (R340): The standby applies a mirrored commit group, key group setting or SET_COPY. -/
  | mirrorSetting (dt : Nat) (item : Nat) (index : Nat) (mseq : Nat) (payload : Bytes)
  /-- `MIRROR_KEYS` (R340): The standby takes mirrored key states and flags. -/
  | mirrorKeys (dt : Nat) (g : Fin 8) (multi : Bool) (mseq : Nat) (field : BitVec 128)
  /-- `MIRROR_LEDGER` (R341): Mirrored ledger records from the twin are written with MIRRORED set. -/
  | mirrorLedger (dt : Nat) (recs : List (BitVec 256))
  /-- `MIRROR_SYNC_REQ` (R342): The active unit answers a catch-up request with a snapshot. -/
  | mirrorSyncReq (dt : Nat) (last : Nat)
  /-- `MIRROR_SNAPSHOT` (R342): The standby takes snapshot items of the sets and settings. -/
  | mirrorSnapshot (dt : Nat) (shadow : Bool) (kind : SetKind) (first : Nat) (count : Nat) (mseq : Nat) (items : Bytes)
  /-- `MIRROR_SNAPSHOT_END` (R342): The standby checks the snapshot CRC and becomes in step or starts again. -/
  | mirrorSnapshotEnd (dt : Nat) (mseq : Nat) (crc : Word)
  /-- `QUAD_REF_FAULT` (R215): A quad reference goes absent or off frequency, or returns, and its lanes stop or start. -/
  | quadRefFault (dt : Nat) (q : Fin 12) (ok : Bool)
  /-- `LANE_SELFTEST_DONE` (R238): A lane's loopback self-test ends, and the lane passes or is retired after two failures. -/
  | laneSelftestDone (dt : Nat) (l : Fin 48) (bitErrors : Nat)
  /-- `LANE_PRBS_DONE` (R238): A far-end PRBS test completes and its held response is posted. -/
  | lanePrbsDone (dt : Nat) (l : Fin 48) (errors : Nat) (checked : Nat)
  /-- `REFRESH_DUE` (R246): A rank's refresh interval falls due, and refresh is issued or postponed within its limit. -/
  | refreshDue (dt : Nat) (c : Fin 8) (rank : Fin 2)
  /-- `MR4_READOUT` (R246): A temperature readout every 16 ms adjusts the refresh rate, fixed-delay bands and retraining. -/
  | mr4Readout (dt : Nat) (c : Fin 8) (rank : Fin 2) (temp : Int)
  /-- `RETRAIN_PAUSE` (R247): A retraining pause falls due and re-centres the channel's timing. -/
  | retrainPause (dt : Nat) (c : Fin 8)
  /-- `REQUEST_PROMOTION` (R243): An ISO request older than 2 µs or a BE request older than 20 µs is promoted. -/
  | requestPromotion (dt : Nat) (c : Fin 8) (reqs : List MemReq)
  /-- `MEM_FREEZE` (R252): An uncorrectable error or parity alert in native mode freezes a channel and error-completes its requests. -/
  | memFreeze (dt : Nat) (c : Fin 8) (cause : FreezeCause) (req : FailedReq)
  /-- `MEM_PARITY_REPLAY` (R255): A parity alert in compatibility mode re-arms parity and replays commands. -/
  | memParityReplay (dt : Nat) (c : Fin 8) (alerts : Nat)
  /-- `MEM_RESUME` (R253): Recovery of a frozen channel completes and it resumes, or it is retired. -/
  | memResume (dt : Nat) (c : Fin 8) (testOk : Bool) (linesZeroed : List Nat)
  /-- `MEM_REMAP` (R254): A channel retired in service voids every tile, remaps DRAM and treats all content as lost. -/
  | memRemap (dt : Nat) (c : Fin 8)
  /-- `PATROL_SCRUB` (R251): Each channel is patrol-scrubbed once every 24 h. -/
  | patrolScrub (dt : Nat) (c : Fin 8) (found : List ScrubFinding)
  /-- `CE_HOUR_CHECK` (R256): An hour's corrections on a channel exceed CE_LIMIT, and replacement is requested. -/
  | ceHourCheck (dt : Nat) (c : Fin 8)
  /-- `SELF_REFRESH_ENTRY` (R250): Every tolerance exceeds 200 µs and no request has been queued for 10 µs, so all channels enter self-refresh. -/
  | selfRefreshEntry (dt : Nat)
  /-- `SELF_REFRESH_EXIT` (R250): A request or a falling tolerance brings the channels out of self-refresh. -/
  | selfRefreshExit (dt : Nat)
  /-- `MEM_TRAINING_DONE` (R249): Channel training completes, and channels that failed are retired. -/
  | memTrainingDone (dt : Nat) (res : TrainingResult)
  /-- `SRAM_SCRUB` (R258): An SRAM block is scrubbed every 10 s. -/
  | sramScrub (dt : Nat) (block : SramBlock) (uncorrectable : Option Nat)
  /-- `DUAL_RAIL_CHANGE` (R299): A dual-rail source goes to fault or to a wire fault, and the Auditor reacts by severity. `inst` is the unit it is for (R298). -/
  | dualRailChange (dt : Nat) (id : RailSource) (p : Bool) (n : Bool)
  /-- `DUAL_RAIL_HEALTHY_EXPIRY` (R299): A dual-rail source has read healthy for 1 s and is no longer active. -/
  | dualRailHealthyExpiry (dt : Nat) (id : Fin 16)
  /-- `FAULT_MESSAGE_RECEIVED` (R303): The Auditor logs a coded fault message and applies the reactions of its severity. -/
  | faultMessageReceived (dt : Nat) (msg : Word)
  /-- `FAULT_SUMMARY_TIMER` (R301): A 10 s summary record is written for a source in a burst. -/
  | faultSummaryTimer (dt : Nat) (src : Fin 256)
  /-- `VOLTAGE_LOOP_STEP` (R372): Every 10 µs the domain voltage is moved by 2.5 mV within its effective window. -/
  | voltageLoopStep (dt : Nat) (d : Fin 26) (slack : ReplicaReading)
  /-- `THERMAL_LOOP_STEP` (R374): Every 1 ms the domain clock is throttled or released by the hottest sensor reading. -/
  | thermalLoopStep (dt : Nat) (d : Fin 26) (reading : Int)
  /-- `TAMPER_TRIP` (R357): A tamper monitor trips, asserts an AUDITOR reset and clears every Vault slot. -/
  | tamperTrip (dt : Nat) (m : Fin 4)
  /-- `MPU_NOTICE_CLOSE` (R364): A denied-write notice closes after t_notice and is posted. -/
  | mpuNoticeClose (dt : Nat) (g : Fin 9)
  /-- `EPOCH_DRAINED` (R365): The last older-epoch access of a group completes, and the drain flag returns to 1. -/
  | epochDrained (dt : Nat) (g : Fin 9)
  /-- `TALLY_JOB_DONE` (R330): A Tally job completes, compares its result and posts any held response. -/
  | tallyJobDone (dt : Nat) (e : Fin 2) (readOk : Bool)
  /-- `CONFIG_SCRUB` (R331): Every second Tally engine 1 scrubs both configuration sets against their CRCs. -/
  | configScrub (dt : Nat) (intact : Bool)
  /-- `LEDGER_SPILL` (R323): A page of waiting ledger records is programmed to flash when 8 are waiting or after 100 ms. -/
  | ledgerSpill (dt : Nat) (ok : Bool)
  /-- `OPTIME_MARK` (R320): Every 60 s operating time and room time are recorded and spilled. -/
  | optimeMark (dt : Nat)
  /-- `WAKE_EVENT` (R377): An enabled wake source fires and the device leaves NIGHT, or aborts an entry into it. -/
  | wakeEvent (dt : Nat) (w : Fin 7)
  /-- `POWER_TRANSITION_DONE` (R377): An entry to or exit from a power state completes. -/
  | powerTransitionDone (dt : Nat)
  /-- `DOMAIN_POWER_UP` (R371): Teller firmware ramps, de-isolates, self-tests and restores a domain. -/
  | domainPowerUp (dt : Nat) (d : Fin 26) (test : SelfTest)
  /-- `DOMAIN_POWER_DOWN` (R371): Teller firmware isolates a domain and turns its regulator off. -/
  | domainPowerDown (dt : Nat) (d : Fin 26)
  /-- `POWER_ON_RESET` (R379): The power-on detector resets everything. -/
  | powerOnReset (dt : Nat)
  /-- `PIN_RESET` (R379): RESET_N held low resets everything except AON. -/
  | pinReset (dt : Nat)
  /-- `WATCHDOG_RESET` (R379): The Teller watchdog expires after 500 ms and resets all domains except 0 and 1. -/
  | watchdogReset (dt : Nat)
  /-- `AUDITOR_RESET` (R304): After 10 ms of safe state at severity 4, the Auditor resets the device. -/
  | auditorReset (dt : Nat)
  /-- `PAIR_RESET` (R345): A standby that sees three ARB release pulses within 4 ms resets and starts as standby. -/
  | pairReset (dt : Nat)
  /-- `WARM_RESET` (R379): A warm reset restarts all domains except 0 and 1, with DRAM in self-refresh. -/
  | warmReset (dt : Nat)
  /-- `DOMAIN_RESET` (R379): Teller firmware resets one switched domain to a fresh power-up state. -/
  | domainReset (dt : Nat) (d : Fin 26)
  /-- `START_COMPLETE` (R383): Every start step has finished; ALIVE begins unless the device starts in safe state. -/
  | startComplete (dt : Nat)
  /-- `PERST_RISE` (R384): PERST# rises on a PCI Express port, which answers configuration requests within 100 ms. -/
  | perstRise (dt : Nat) (h : Fin 2)
  /-- `FLASH_WRITE_COMPLETE` (R289): The flash write and verify of a message marked Flash ends, and its response is posted with OK or FLASH_FAILED. -/
  | flashWriteComplete (dt : Nat) (ok : Bool)
  /-- `PEER_MSG_END` (R233): A received peer message with an unknown type, a CRC error or an already delivered sequence is acknowledged with the matching result and discarded. -/
  | peerMsgEnd (dt : Nat) (pp : Fin 4) (msg : PeerMsgIn)
  /-- `ARB_LEVEL_CHANGE` (R336): The ARB line changes level at a paired unit, which starts or cancels that unit's continuous-high take time. -/
  | arbLevelChange (dt : Nat) (high : Bool)
  /-- `THERMAL_TRIP_HOLD_RELEASE` (R304): After a THERMAL_TRIP reset, every junction sensor reads 100 °C or less and the Auditor releases the reset hold. -/
  | thermalTripHoldRelease (dt : Nat)
  /-- `TAMPER_HOLD_RELEASE` (R357): A tripped tamper condition ends, and 1 ms later the monitor releases its reset. -/
  | tamperHoldRelease (dt : Nat)
  /-- `TIME_SYNC_SEND` (R234): Every 10 ms a unit using the PEER discipline sends a TIME_SYNC request on its peer port. -/
  | timeSyncSend (dt : Nat)
  /-- `VAULT_REGION_REWRITE_DONE` (R355): Teller firmware finishes rewriting the affected bursts of a changed vault region through the XTS engine. -/
  | vaultRegionRewriteDone (dt : Nat)
  deriving DecidableEq, Repr

end Sys2Proof
end

