-- ==== Sys2Proof/Config.lean ====
section
/-!
DEFINITION. The free values of the model: what the spec leaves to the implementation, to the content of pictures, or to
cryptography whose bit-level definition it takes from elsewhere. Each is a constant without a body, so that nothing can
be proved of its value; a value that must differ from use to use is applied to the state's counter `draw`. Log entry 3
names them all.
-/
namespace Sys2Proof

/-- Size of the rate adjustment by which room time is slewed towards its source, in parts per 10^9 (R54), which the model
takes within 1 to 500,000. By draw. -/
opaque Config.slew : Nat → Nat
/-- A sample of a decoded picture: what the decoding of H.264 and H.265 gives. By picture (the draw at which it was decoded),
component, column and line. -/
opaque Config.decoded : Nat → Nat → Nat → Nat → Nat
/-- Fraction bits that the scaler's 16-bit intermediates keep of a vertically interpolated sample (R102). By bits of the
sample. -/
opaque Config.lineBits : Nat → Nat
/-- The value of a binary16 code that is no finite number, in units of 2^−24, where a sample holds one. -/
opaque Config.notFinite : Nat → Int
/-- Which of the two codes beside an exact value it is rounded to: of binary16, and in stage 8 of the encoder's Y, Cb and Cr
(R201). By stage and value. -/
opaque Config.rounding : Nat → Rat → Nat
/-- A sample of RGBA16F under limited range: the spec gives no expansion of floating point. -/
opaque Config.floatRange : Rat → Rat
/-- What the identity matrix makes of Y, Cb and Cr. By component. -/
opaque Config.identityMatrix : Rat → Rat → Rat → Nat → Rat
/-- Where within the error that R107 allows the tables of the EOTF come out. By transfer, component and signal. -/
opaque Config.eotf : Nat → Nat → Rat → Rat → Rat → Nat
/-- The same of the OETF of an output, with the rounding to 10 bits. By `COLOUR`, component and light. -/
opaque Config.oetf : Nat → Nat → Rat → Rat → Rat → Nat
/-- The glyph ROM (R33): whether a glyph's pixel is set. By character code, column and line. -/
opaque Config.glyph : Nat → Nat → Nat → Bool
/-- Sectors used by a stored tile, minus 1 (R119). By pixel words. -/
opaque Config.tileSectors : List Nat → Nat
/-- Which 8 KiB slot of the composed region a slot of a tile is (R119): the allocation within the region is Teller
firmware's own. By output, tile and slot. -/
opaque Config.slotPlace : Nat → Nat → Nat → Nat
/-- Content signature of a frame's luma samples (R27) for formats whose luma the spec does not define bit by bit: a
function of the format and the content. -/
opaque Config.lumaSignature : Nat → Nat → Nat
/-- Whether the signature of an image of `len` bytes verifies under its trailer's key (R351): length, bytes. -/
opaque Config.imageSigned : Nat → Nat → Bool
/-- Whether an image passes its Tally check (R331): the spec does not say where an image carries its CRC. -/
opaque Config.imageTallyOk : Nat → Nat → Bool
/-- The firmware version an image carries, at a place the spec does not give. -/
opaque Config.imageVersion : Nat → Nat → Nat
/-- The SHA-384 hash of an image key (R351). -/
opaque Config.keyHash : Nat → Nat
/-- Unwrap a wrapped key under the provisioning key (R353): none when its integrity check fails. -/
opaque Config.unwrap : Nat → Nat → Option Nat
/-- The nonce of a debug challenge (R368). By draw. -/
opaque Config.challenge : Nat → Nat
/-- HMAC-SHA-256 of a challenge under the debug key (R368). -/
opaque Config.hmac : Nat → Nat → Nat
/-- The serial number of the device (R368). -/
opaque Config.serial : Nat
/-- A byte of Teller's private SRAM as a debug access reads it (R369): the SRAM's content is firmware's own. By draw and place. -/
opaque Config.tellerSram : Nat → Nat → Nat
/-- The Auditor's fused voltage floor of a domain at a clock in eighths, in mV (R373). -/
opaque Config.auditorFloor : Nat → Nat → Nat
/-- The JTAG identification code (R367). -/
opaque Config.idcode : Nat
/-- What the boundary-scan and internal-test instructions shift out (R367). By draw. -/
opaque Config.scanOut : Nat → Nat
/-- Whether a transfer whose place in DRAM the spec leaves to firmware falls on a channel (R241, R252). By draw and
channel. -/
opaque Config.hits : Nat → Nat → Bool
/-- Whether a channel takes a request that hits an open row ahead of an older one, where it may (R243). By draw, channel and requests
left. -/
opaque Config.bypass : Nat → Nat → Nat → Bool
/-- Codes of the master and the class in `MEM_UE`, which the spec does not state. -/
opaque Config.masterCode : MemMaster → Nat
opaque Config.classCode : MemClass → Nat
/-- An entry of a channel's capture buffer (R252): what commands were issued is not in the state. By draw and entry. -/
opaque Config.captured : Nat → Nat → Nat
/-- Post-package repairs a bank group has at manufacture (R256). By channel, and 8 × rank + bank group. -/
opaque Config.repairs : Nat → Nat → Nat
/-- Degrees Celsius of one readout step of mode register 4 (R247). -/
opaque Config.readoutStep : Nat
/-- The cause a unit that stops being active gives in `PAIR_ROLE_CHANGED`: the codes of `PAIR_PROMOTED` name only how a
unit becomes active. By old role. -/
opaque Config.yieldCause : Nat → Nat
/-- Bit errors and similar measured values that nothing in the state determines. By draw. -/
opaque Config.measured : Nat → Nat
/-- The picture order count reported of a stream that stops where no access unit is damaged that has one: at a
discontinuity, a rate window's end, the failure of a core, the loss of DRAM, an access unit whose picture is not known (R91, R95). By draw and source. -/
opaque Config.stopPoc : Nat → Nat → Int
/-- Measured skew of a scanning head in 1/16 line (R154), which the model clips to one line. By draw and head. -/
opaque Config.skew : Nat → Nat → Int
/-- Fill of a panel's push buffer during a push, in KiB (R187). By draw and panel. -/
opaque Config.pushFill : Nat → Nat → Nat
/-- The CRC stored with a factory reference (R193): the spec does not say which. By raw values. -/
opaque Config.refCrc : List Nat → Nat
/-- Whether a factory reference reads back from flash with its CRC (R193). By draw and group. -/
opaque Config.refReads : Nat → Nat → Bool
/-- A byte of a tile coded under R119, which gives the method and no bit stream. By pixel words and place. -/
opaque Config.tileByte : List Nat → Nat → Nat
/-- Upper half of the sequence of a record in flash beside which no anchor of its power cycle is left (R326): the spec gives it none.
By power-cycle count. -/
opaque Config.orphanSeq : Nat → Nat
/-- A measured frequency offset in ppm (R224). By lane. -/
opaque Config.ppm : Nat → Nat → Int
/-- SRTP protection of an RTP payload, with its tag (R210): by suite, master key and salt, packet index and payload. -/
opaque Config.protect : Nat → Nat → Nat → Bytes → Bytes
/-- `FLAGS` of the capability record the K7 sends (Table 9-5): the spec does not say what it declares of itself. -/
opaque Config.capFlags : Nat

/-- What the self-test of a domain finds that powers up by itself (R88, R258, R371): the spec gives no result. By draw and
domain. -/
opaque Config.selfTest : Nat → Nat → SelfTest
/-- Identifier of a held parameter set, as ITU-T H.264 and H.265 code it (R82). By codec (H.265) and bytes. -/
opaque Config.setId : Bool → Bytes → Nat
/-- Identifier of the set that a held parameter set refers to. By codec and bytes. -/
opaque Config.setRefers : Bool → Bytes → Nat
/-- Whether a held parameter set uses an unsupported coding tool. By codec and bytes. -/
opaque Config.setTool : Bool → Bytes → Bool
/-- What a held SPS says. By codec and bytes. -/
opaque Config.setSps : Bool → Bytes → Sps
/-- Sectors used by a block of a stored picture, minus 1 (Table 3-4). By samples. -/
opaque Config.blockSectors : List Nat → Nat
/-- A byte of a block coded under Table 3-4, which gives the method and no bit stream. By samples and place. -/
opaque Config.blockByte : List Nat → Nat → Nat
/-- Where in the decode region a slot of a stream lies (R89): the allocation is Teller firmware's own. By source and slot. -/
opaque Config.picturePlace : Nat → Nat → Nat

end Sys2Proof
end

