-- ==== Sys2Proof/Machine/Bits.lean ====
section
/-!
DEFINITION. Bit fields, byte strings, two's complement numbers, wrapping counters and the CRC of R115.
-/
namespace Sys2Proof

/-! ## Fields of words -/

/-- Bits [hi:lo] of a 32-bit word of a descriptor: `fld x w hi lo` is the field the spec writes w[hi:lo]. -/
def fld {n : Nat} (x : BitVec n) (word hi lo : Nat) : Nat :=
  (x.toNat >>> (32 * word + lo)) % 2 ^ (hi - lo + 1)

/-- A one-bit field. -/
def bit {n : Nat} (x : BitVec n) (word i : Nat) : Bool := fld x word i i == 1

/-- `x` with the field w[hi:lo] replaced. -/
def setFld {n : Nat} (x : BitVec n) (word hi lo v : Nat) : BitVec n :=
  let w := 2 ^ (hi - lo + 1)
  BitVec.ofNat n (x.toNat - (fld x word hi lo) <<< (32 * word + lo) + (v % w) <<< (32 * word + lo))

/-- A field of four words (128 bits) from a word on. -/
def fld128 {n : Nat} (x : BitVec n) (word : Nat) : Nat := (x.toNat >>> (32 * word)) % 2 ^ 128

/-- Bits [hi:lo] of a number. -/
def bitsOf (x hi lo : Nat) : Nat := (x >>> lo) % 2 ^ (hi - lo + 1)

def b2n (b : Bool) : Nat := if b then 1 else 0

/-- Fields packed from bit 0 upward, each given by its value and its width. -/
def packBits : List (Nat × Nat) → Nat
  | [] => 0
  | (v, n) :: r => v % 2 ^ n + 2 ^ n * packBits r

/-! ## Two's complement and wrapping -/

/-- An integer as an n-bit two's complement number. -/
def twos (n : Nat) (i : Int) : Nat := (i % (2 ^ n : Nat)).toNat

/-- The integer an n-bit two's complement number stands for. -/
def signed (n x : Nat) : Int := if x < 2 ^ (n - 1) then (x : Int) else (x : Int) - (2 ^ n : Nat)

def w16 (x : Nat) : Nat := x % 65536
def w32 (x : Nat) : Nat := x % 2 ^ 32
def w64 (x : Nat) : Nat := x % 2 ^ 64
def hi32 (x : Nat) : Nat := (x / 2 ^ 32) % 2 ^ 32

/-- a − b modulo 2^n. -/
def subMod (n a b : Nat) : Nat := (a + 2 ^ n - b % 2 ^ n) % 2 ^ n

/-- Quotient rounded up. -/
def ceilDiv (a b : Nat) : Nat := (a + b - 1) / b

/-- Integer floor of a rational with a positive denominator. -/
def floorDiv (a : Int) (b : Nat) : Int := Int.fdiv a (b : Int)

/-! ## Byte strings -/

/-- `n` bytes of a byte string from byte `off`, as a little-endian number; bytes past the end read zero. -/
def Bytes.at (b : Bytes) (off n : Nat) : Nat := (b.val >>> (8 * off)) % 2 ^ (8 * n)

/-- One byte. -/
def Bytes.byte (b : Bytes) (off : Nat) : Nat := Bytes.at b off 1

/-- The part of a byte string from `off`, `n` bytes. -/
def Bytes.slice (b : Bytes) (off n : Nat) : Bytes := ⟨n, Bytes.at b off n⟩

/-- The part of a byte string from `off` to its end. -/
def Bytes.drop (b : Bytes) (off : Nat) : Bytes := Bytes.slice b off (b.len - off)

/-- A number as `n` little-endian bytes. -/
def leBytes (n v : Nat) : Bytes := ⟨n, v % 2 ^ (8 * n)⟩

/-- Two byte strings, the first at the lower addresses. -/
def Bytes.cat (a b : Bytes) : Bytes := ⟨a.len + b.len, a.val % 2 ^ (8 * a.len) + b.val <<< (8 * a.len)⟩

/-- The empty byte string. -/
def Bytes.none : Bytes := ⟨0, 0⟩

/-- Byte strings one after another. -/
def Bytes.join (l : List Bytes) : Bytes :=
  match l with
  | [] => Bytes.none
  | x :: r => Bytes.cat x (Bytes.join r)

/-- 32-bit words one after another (a status record, R287). -/
def wordsLE (l : List Nat) : Bytes := Bytes.join (l.map (leBytes 4))

/-- The bytes of a byte string, lowest address first. -/
def Bytes.toList (b : Bytes) : List Nat := (List.range b.len).map (Bytes.byte b)

/-- A payload cut or zero-extended to n bits. -/
def Bytes.bits (b : Bytes) (n : Nat) : BitVec n := BitVec.ofNat n b.val

/-- The bytes of a bit vector. -/
def bytesOf {n : Nat} (x : BitVec n) : Bytes := ⟨n / 8, x.toNat⟩

/-! ## CRCs -/

/-- `x` with its low n bits reversed. -/
def revBits (n x : Nat) : Nat :=
  match n with
  | 0 => 0
  | n + 1 => (x % 2) <<< n + revBits n (x / 2)

/-- k steps of the shift register of R328, most significant bit first. -/
def crcShift (width poly : Nat) : Nat → Nat → Nat
  | 0, r => r
  | k + 1, r =>
    crcShift width poly k
      (if r.testBit (width - 1) then ((r <<< 1) ^^^ poly) % 2 ^ width else (r <<< 1) % 2 ^ width)

/-- One byte through the register of R328. -/
def crcByte (width poly : Nat) (refIn : Bool) (reg byte : Nat) : Nat :=
  let b := if refIn then revBits 8 byte else byte
  crcShift width poly 8 (reg ^^^ (b <<< (width - 8)))

/-- The register after a list of bytes. -/
def crcFeed (width poly : Nat) (refIn : Bool) (reg : Nat) (bytes : List Nat) : Nat :=
  bytes.foldl (crcByte width poly refIn) reg

/-- The final transform of R328. -/
def crcFinal (width : Nat) (refOut xorOut : Bool) (reg : Nat) : Nat :=
  let r := if refOut then revBits width reg else reg
  if xorOut then r ^^^ (2 ^ width - 1) else r

/-- The CRC of R115: width 32, polynomial 04C1_1DB7, reflected in and out, all ones in and out. -/
def crc32 (b : Bytes) : Nat :=
  crcFinal 32 true true (crcFeed 32 0x04C11DB7 true 0xFFFFFFFF (Bytes.toList b))

/-! ## Rectangles -/

def Rect.meets (a b : Rect) : Bool := a.x0 ≤ b.x1 && b.x0 ≤ a.x1 && a.y0 ≤ b.y1 && b.y0 ≤ a.y1
/-- A rectangle holds a pixel. -/
def Rect.holds (r : Rect) (x y : Nat) : Bool := r.meets ⟨x, y, x, y⟩
def Rect.within (a b : Rect) : Bool := b.x0 ≤ a.x0 && a.x1 ≤ b.x1 && b.y0 ≤ a.y0 && a.y1 ≤ b.y1
def Rect.cut (a b : Rect) : Rect := ⟨max a.x0 b.x0, max a.y0 b.y0, min a.x1 b.x1, min a.y1 b.y1⟩
def Rect.hull (a b : Rect) : Rect := ⟨min a.x0 b.x0, min a.y0 b.y0, max a.x1 b.x1, max a.y1 b.y1⟩
def Rect.shift (a : Rect) (x y : Nat) : Rect := ⟨a.x0 + x, a.y0 + y, a.x1 + x, a.y1 + y⟩
def Rect.width (a : Rect) : Nat := a.x1 + 1 - a.x0
def Rect.height (a : Rect) : Nat := a.y1 + 1 - a.y0

end Sys2Proof
end

