-- ==== Sys2Proof/Machine/State.lean ====
section
/-!
DEFINITION. The state of the block: everything the spec gives the K7, as plain data, with its value after reset.
The state is cut into one structure per chapter of the spec. A table (`Tbl`) lists only the entries that differ from
their reset value. After each field stand the rule that names it and the file of spec/.
-/
namespace Sys2Proof.Machine

/-! ## Descriptors held as the words software reads and writes -/

/-- Source descriptor, 64 bytes (Table 2-3). -/
abbrev SrcDesc := BitVec 512
/-- Layer descriptor, 64 bytes (Table 4-1). -/
abbrev LayerDesc := BitVec 512
/-- Tone profile, 160 bytes (R108). -/
abbrev ToneProf := BitVec 1280
/-- Output settings, 64 bytes (Tables 6-1 and 7-1). -/
abbrev OutDesc := BitVec 512
/-- Output freshness item, 16 bytes (Table 12-6). -/
abbrev FreshItem := BitVec 128
/-- Commit group, 16 bytes (Table 5-2). -/
abbrev GroupDesc := BitVec 128
/-- Key group setting, 112 bytes (R188). -/
abbrev KeyDesc := BitVec 896
/-- Encode job, 64 bytes (Table 8-1). -/
abbrev EncDesc := BitVec 512
/-- `SURFACE_SET` payload, 40 bytes (Table 12-3). -/
abbrev SurfDesc := BitVec 320
/-- Board lane table, 836 bytes (Table 9-1). -/
abbrev LaneTable := BitVec 6688
/-- `ETH_PORT_SET` payload, 72 bytes (R237). -/
abbrev EthDesc := BitVec 576

/-- The mint of one coded row in a mint annex, with its flags (Table 8-5). -/
structure RowMint where
  /-- `EVIDENCE`, 2 bits (Table 2-5). -/
  evidence : Nat := 2
  /-- `AGED` (R208). -/
  aged : Bool := false
  /-- `VOIDED` (R208). -/
  voided : Bool := false
  /-- `CARRIED` (R206). -/
  carried : Bool := false
  /-- `RELAYED` (R207). -/
  relayed : Bool := false
  /-- `PROOF` (R208). -/
  proof : Bool := false
  /-- `SEQUENCE`, 32 bits (R12). -/
  seq : Nat := 0
  /-- Capture time, 64 bits, ns (R12). -/
  capture : Nat := 0
  deriving DecidableEq, Repr

/-! ## What the encoder sends (R201, R204, R205) -/

/-- The structure of an encoded stream (Table 8-2); what is not listed there as used is off. -/
structure CodingTools where
  /-- Reference pictures, or reference frames; pictures are IDR, then P only, output in decoding order. -/
  references : Nat := 1
  /-- Edge of a CTU or macroblock. -/
  block : Nat := 32
  /-- Lines of a coded row, which is one slice. -/
  rowLines : Nat := 32
  /-- `disable_deblocking_filter_idc` of H.264. -/
  deblockIdc : Nat := 0
  /-- SAO within each slice. -/
  sao : Bool := true
  /-- `slice_loop_filter_across_slices_enabled_flag`. -/
  acrossSlices : Bool := false
  /-- CABAC entropy coding. -/
  cabac : Bool := true
  /-- The 8×8 transform of H.264. -/
  transform8 : Bool := false
  /-- AMP, tiles, wavefront, TMVP, temporal direct. -/
  amp : Bool := false
  /-- Tiles. -/
  tiles : Bool := false
  /-- Wavefront. -/
  wavefront : Bool := false
  /-- TMVP, or temporal direct. -/
  temporal : Bool := false
  /-- B pictures or slices. -/
  bPictures : Bool := false
  /-- Field coding or MBAFF. -/
  field : Bool := false
  /-- Scaling lists. -/
  scalingLists : Bool := false
  /-- Weighted prediction. -/
  weighted : Bool := false
  /-- Long-term references. -/
  longTerm : Bool := false
  deriving DecidableEq, Repr

/-- What the parameter sets of a stream say (R201, R204). -/
structure StreamParams where
  /-- 0 H.265 Main, 1 H.265 Main 10, 2 H.264 High. -/
  codec : Nat := 0
  /-- `level_idc` (R201). -/
  level : Nat := 0
  /-- The High tier of H.265 (R201). -/
  highTier : Bool := false
  /-- Coded width. -/
  width : Nat := 0
  /-- Coded lines, of whole rows. -/
  lines : Nat := 0
  /-- Lines that the cropping removes at the bottom. -/
  crop : Nat := 0
  /-- Bits of a sample, 4:2:0. -/
  depth : Nat := 8
  /-- Colour description of the VUI, with `video_full_range_flag` 0 and chroma location type 0. -/
  colour : Colour := {}
  /-- The tools of Table 8-2. -/
  tools : CodingTools := {}
  deriving DecidableEq, Repr

/-- The samples that a coded picture codes (R200, R201): planes in raster order, chroma at half resolution, within the cropping. -/
structure EncPicture where
  /-- Luma. -/
  luma : List Nat := []
  /-- Cb. -/
  cb : List Nat := []
  /-- Cr. -/
  cr : List Nat := []
  deriving DecidableEq, Repr

/-- What the first packet of an access unit opens (R205 to R207). -/
structure AuHead where
  /-- Picture count, 32 bits (R207). -/
  picture : Nat := 0
  /-- It is an IDR picture (R205). -/
  idr : Bool := false
  /-- Picture number in the refresh cycle (R205). -/
  cycle : Nat := 0
  /-- Recovery count of its recovery point SEI, where it carries one (R205). -/
  recovery : Option Nat := none
  /-- First column and number of columns that are intra-coded (R205). -/
  band : Nat × Nat := (0, 0)
  /-- Columns refreshed before in the cycle: they predict only from columns below this one (R205). -/
  refreshed : Nat := 0
  /-- The slices in address order: whether each row is carried (R206). -/
  carried : List Bool := []
  /-- Room time is traceable (R207). -/
  traceable : Bool := false
  /-- Entries of the annex: first row, rows, mint (Table 8-5). -/
  entries : List (Nat × Nat × RowMint) := []
  /-- The stream's parameters (R201, R204). -/
  stream : StreamParams := {}
  /-- The samples coded. -/
  source : EncPicture := {}
  deriving DecidableEq, Repr

/-! ## What the block sends -/

/-- A membership message (Table 2-4): a record of IGMPv3 or MLDv2 with its kind (1 IS_IN, 2 IS_EX, 3 TO_IN, 4 TO_EX, 5 ALLOW,
6 BLOCK) and its sources, or a message of an older version with its IGMP or ICMPv6 type. -/
inductive Membership where
  | record (kind : Nat) (sources : List Nat)
  | older (type : Nat)
  deriving DecidableEq, Repr

/-- What a frame that the block sends on an Ethernet port carries. -/
inductive EthFrame where
  /-- A membership report of a group (R65). -/
  | membership (group : Nat) (msg : Membership)
  /-- An answer to ARP, neighbour solicitation or ICMP echo (Table 2-4): 1, 2, 3. -/
  | reply (kind : Nat) (dst : Nat)
  /-- An RTCP receiver report of a source (R68). -/
  | rtcpRr (source : Nat) (dst : Nat) (udpPort : Nat)
  /-- An RTP packet of an encode job (R210): sequence, timestamp, marker, payload; under SRTP the payload as protected. -/
  | rtp (job seq ts : Nat) (marker : Bool) (payload : Bytes)
  /-- An RTCP sender report of a job (R210): its wallclock when room time is traceable, the RTP timestamp of that instant, packets
  and payload bytes sent; under SRTP its index. -/
  | rtcpSr (job : Nat) (ntp : Option Nat) (ts packets bytes : Nat) (index : Option Nat)
  /-- An RTCP BYE of a job (R198, R213); under SRTP its index. -/
  | rtcpBye (job : Nat) (index : Option Nat)
  /-- A delay request message of PTP (Table 2-2). -/
  | ptpDelayReq
  deriving DecidableEq, Repr

/-- One transmission of the block: what a party outside sees it send or drive while one command is carried out. -/
inductive Tx where
  /-- An MSI-X write of a vector, host A 0 or host B 1 (R392). -/
  | msix (port vector : Nat)
  /-- Teller firmware writes a response payload into memory of a port's host, at a bus address (R267). -/
  | hostWrite (port addr : Nat) (data : Bytes)
  /-- A control block on a lane: type and payload bytes 0 to 6 (Table 9-6). -/
  | block (lane type : Nat) (payload : Bytes)
  /-- The data blocks of one active line of a head on a lane (R159, R160): its line, and the bytes of each segment. -/
  | line (lane line : Nat) (segments : List Bytes)
  /-- A peer message (R233). -/
  | peer (port type seq : Nat) (payload : Bytes)
  /-- A frame on an Ethernet port, with its VLAN tag, 0 for none (R237). -/
  | eth (port vlan : Nat) (frame : EthFrame)
  /-- An access unit of a job begins (R204 to R207): what its NAL units say, with its mint annex. -/
  | annex (job : Nat) (head : AuHead)
  /-- A DCS command on a DSI link with its parameter bytes (Table 7-6). -/
  | dcs (panel cmd : Nat) (payload : Bytes)
  /-- A DCS long write of a panel push (Table 7-3), data type 0x39: command, payload after it, and the checksum over both. -/
  | long (panel cmd : Nat) (payload : Bytes) (checksum : Nat)
  /-- The data returned by a read: port, value, and whether it completed with an error (R369, R391). -/
  | readData (port : Nat) (value : Nat) (error : Bool)
  /-- A JTAG data register shifted out (R350, R367). -/
  | jtag (value : Nat)
  /-- A voided area as it leaves on an output, replaced by the hatch (R29): its rectangle and reason. -/
  | voidRect (output : Nat) (rect : Rect) (reason : Nat)
  /-- A legend as drawn (R33 to R36): box corner, scale, reason and age line. -/
  | legend (output layer x y scale reason : Nat) (age : String)
  /-- The DSI reset output of a panel (R185): true when released. -/
  | dsiReset (panel : Nat) (high : Bool)
  /-- A host initialisation entry sent to a panel (R185): data type and payload. -/
  | dsiEntry (panel type : Nat) (payload : Bytes)
  /-- The D-PHY initial deskew sequence on the DSI link of a panel (R416). -/
  | dsiDeskew (panel : Nat)
  /-- The DSI link of a panel enters ULPS (Table 7-6). -/
  | dsiUlps (panel : Nat)
  /-- ARB is released for t_pr_pulse and held low again for as long (R345). -/
  | arbPulse
  deriving DecidableEq, Repr

/-! ## Ledger (14_ledger_and_tally.md) -/

/-- A ledger record (Table 14-1). `inst` is `INSTANCE`. -/
structure LedgerRec where
  /-- `DEBUG`, 1 bit (Table 14-1). -/
  debug : Bool := false
  /-- `SAFE`, 1 bit (Table 14-1). -/
  safe : Bool := false
  /-- `MIRRORED`, 1 bit (Table 14-1). -/
  mirrored : Bool := false
  /-- `ORIGIN`, 4 bits (Table 14-1). -/
  origin : Nat := 0
  /-- `INSTANCE`, 8 bits (Table 14-1). -/
  inst : Nat := 0
  /-- Code, 16 bits (Table 14-1). -/
  code : Nat := 0
  /-- Power-cycle count, 32 bits (Table 14-1). -/
  powerCycle : Nat := 0
  /-- Operating time, 48 bits (Table 14-1). -/
  optime : Nat := 0
  /-- Sequence; its low 16 bits stand in the record (Table 14-1). -/
  seq : Nat := 0
  /-- Parameter 0, 32 bits (Table 14-1). -/
  p0 : Nat := 0
  /-- Parameter 1, 32 bits. -/
  p1 : Nat := 0
  /-- Parameter 2, 32 bits. -/
  p2 : Nat := 0
  /-- Parameter 3, 32 bits. -/
  p3 : Nat := 0
  deriving DecidableEq, Repr

/-- A report limit (for example once per source every 10 s): when the record was last written, and what has
accumulated since. -/
structure Limit where
  /-- `now` when the record was last written. -/
  lastAt : Option Nat := none
  /-- Occurrences since. -/
  count : Nat := 0
  /-- A sum or maximum since. -/
  aux : Nat := 0
  deriving DecidableEq, Repr

/-- The ledger. -/
structure LedgerSt where
  /-- Ring of 8,192 records by slot (R322, 14). Reset: empty, the first POR of a device (R325). -/
  ring : Tbl LedgerRec := []
  /-- `now` at which the record of each slot was written (R323, 14). Reset: empty. -/
  ringTimes : Tbl Nat := []
  /-- `LEDGER_NEXT`, 32 bits (Table 14-3, 14). Reset 0 (R325). -/
  next : Nat := 0
  /-- First sequence of the power cycle, 32 bits (Table 14-3, 14). Reset 0 (R325). -/
  cycleFirst : Nat := 0
  /-- Next sequence to spill to flash, 32 bits (R323, 14). Reset 0 (R325). -/
  spilled : Nat := 0
  /-- Sequence of the last anchor of the power cycle, 32 bits (R326, 14). Reset none. -/
  lastAnchor : Option Nat := none
  /-- Records held in the flash region by place, 256 sectors of 2,048 records (R323, 14); of `seq` a record holds the low 16 bits alone.
  Reset: empty region (R325). -/
  flash : Tbl LedgerRec := []
  /-- Place of the next record programmed, 0 to 524,287 (R323, 14). Reset 0. -/
  flashPos : Nat := 0
  /-- Room of the records lost before a spill: first sequence and count (R324, 14). Reset none. -/
  lost : Option (Nat × Nat) := none
  /-- Whether the last flash write failed (R274, R324, 14). Reset false. -/
  flashFailing : Bool := false
  /-- Erase cycles of each of 256 flash sectors (R316, R323, 13). Reset 0. -/
  erases : Tbl Nat := []
  /-- Power-cycle count, 32 bits (R320, 14). Reset 1, the first POR (R325). -/
  powerCycle : Nat := 1
  /-- Operating time at the last POR, 48 bits in 1/256 s (R320, 14). Reset 0 (R325). -/
  opBase : Nat := 0
  /-- `now` at the last POR (R320, 14). Reset 0. -/
  porAt : Nat := 0
  /-- `now` at the last `OPTIME_MARK` of the power cycle (R320, 14). Reset none. -/
  markAt : Option Nat := none
  /-- Report limits by record code and unit (R157, R179, R223 and others). Reset: nothing written. -/
  limits : Tbl Limit := []
  deriving DecidableEq, Repr

/-! ## Room time (02_sources_and_mints.md) -/

/-- Room-time states in the order of R53. -/
inductive RtState where
  | unset | locked | holdover | free
  deriving DecidableEq, Repr

/-- Discipline sources, with the codes of Table 12-4 in this order. -/
inductive Discipline where
  | ptp | peer | genlock | free
  deriving DecidableEq, Repr

/-- The frame-clock fields (R57, R60). -/
structure FrameClock where
  /-- `FRAME_NUM`, 32 bits (R57). Reset 60 (R57). -/
  num : Nat := 60
  /-- `FRAME_DEN`, 32 bits (R57). Reset 1 (R57). -/
  den : Nat := 1
  /-- `PHASE`, 32 bits, ns (R57). Reset 0 (R57). -/
  phase : Nat := 0
  /-- The source is GENLOCK_IN (R57). Reset `ROOM_TIME` (R57). -/
  genlockIn : Bool := false
  deriving DecidableEq, Repr

/-- Room time, the room frame clock and genlock. -/
structure TimeSt where
  /-- The model's own count of ns since the model began, which every timer is measured on (log entry 1). Reset 0. -/
  now : Nat := 0
  /-- Room time, 64 bits, ns (R53, 02). Reset 0 (R425). -/
  room : Nat := 0
  /-- Room-time state (R53, R425, 02). Reset `UNSET` (R425). -/
  state : RtState := .unset
  /-- `DISCIPLINE` (R425, 02). Reset `FREE` (R425). -/
  disc : Discipline := .free
  /-- `DISC_PORT` (Table 12-4, 12). Reset 0: DESIGN CHOICE, log entry 12. -/
  discPort : Nat := 0
  /-- `PTP_DOMAIN` (Table 12-4, 12). Reset 0: DESIGN CHOICE, log entry 12. -/
  ptpDomain : Nat := 0
  /-- `PTP_TRANSPORT` (Table 12-4, 12). Reset 0: DESIGN CHOICE, log entry 12. -/
  ptpTransport : Nat := 0
  /-- Traceability of room time (R53, 02). Reset false. -/
  traceable : Bool := false
  /-- Rate of room time against its crystal while it follows a source or holds over, parts per 10^9 (R53, R54, R425, 02).
  Reset 0. -/
  rate : Int := 0
  /-- Offset of the source's time to room time, signed ns (R54, 02). Reset 0. -/
  offset : Int := 0
  /-- `ROOM_TIME_AHEAD` (R54, 02). Reset false. -/
  ahead : Bool := false
  /-- Last Sync message of the selected master, `now` ns (R425, 02). Reset none. -/
  lastSync : Option Nat := none
  /-- `currentUtcOffset` when valid, s (R56, 02). Reset none. -/
  utcOffset : Option Int := none
  /-- `t1` of the outstanding `TIME_SYNC` request (R234, 09). Reset none. -/
  syncT1 : Option Nat := none
  /-- The frame clock in force (R57, 02). Reset 60, 1, 0, `ROOM_TIME` (R57). -/
  clock : FrameClock := {}
  /-- A frame-clock change accepted and not yet in force (R60, 02). Reset none. -/
  clockNext : Option FrameClock := none
  /-- A backward step accepted and not yet performed, in ns (R55, 02). Reset none. -/
  stepBack : Option Nat := none
  /-- `ROOM_FRAME_N`, 32 bits (R395, 18). Reset 0. -/
  frameN : Nat := 0
  /-- Room time of the last room frame start, 64 bits (R395, 18). Reset 0. -/
  frameT : Nat := 0
  /-- GENLOCK_IN in lock (R58, 02). Reset false. -/
  glLock : Bool := false
  /-- Consecutive good edges of GENLOCK_IN (R58, 02). Reset 0. -/
  glEdges : Nat := 0
  /-- Measured period of GENLOCK_IN, ns (R58, 02). Reset 0. -/
  glPeriod : Nat := 0
  /-- Last edge of GENLOCK_IN, `now` ns (R58, 02). Reset none. -/
  glLast : Option Nat := none
  /-- Formula times up to this room time have passed (R424, 02). Reset 0: that of frame 0 is room time 0 (log entry 25). -/
  framePast : Nat := 0
  /-- GENLOCK_IN was lost, and a frame clock on it runs on until it is in the input's phase again (R58, 02). Reset false. -/
  glRunOn : Bool := false
  /-- Next frame start of a frame clock that runs on, `now` ns (R58, 02). Reset 0. -/
  glNext : Nat := 0
  /-- Until when GENLOCK_OUT is high, `now` ns (R59, 02). Reset 0, low. -/
  glOutUntil : Nat := 0
  deriving DecidableEq, Repr

/-! ## Mailboxes and sessions (11_mailboxes.md, 18_host_registers.md) -/

/-- A request taken from a slot (Table 11-2, R263). -/
structure Request where
  /-- `MAJOR`, 8 bits (Table 11-2). -/
  major : Nat := 0
  /-- `MINOR`, 8 bits (Table 11-2). -/
  minor : Nat := 0
  /-- `FLAGS`, 16 bits (Table 11-2). -/
  flags : Nat := 0
  /-- `OPCODE`, 16 bits (Table 11-2). -/
  opcode : Nat := 0
  /-- `TAG`, 16 bits (Table 11-2). -/
  tag : Nat := 0
  /-- `LENGTH`, 32 bits (Table 11-2). -/
  length : Nat := 0
  /-- `SESSION`, 16 bits (Table 11-2). -/
  session : Nat := 0
  /-- The payload, at most 240 bytes in the slot or read from its buffer (R266 to R268). -/
  payload : Bytes := ⟨0, 0⟩
  /-- `REQ_TIME` of its slot (R262). -/
  time : Nat := 0
  /-- With `DESC`: `RESP_CAP`. -/
  respCap : Option Nat := none
  /-- With `DESC` on a PCI Express port: `REQ_ADDR` and `RESP_ADDR`, 64 bits each, and the device addresses they are where they lie in
  the aperture of device memory (R267, R359). -/
  reqAddr : Nat := 0
  /-- `RESP_ADDR`, 64 bits (R267). -/
  respAddr : Nat := 0
  /-- Device address of the request payload, where it lies in device memory. -/
  reqDevice : Option Nat := none
  /-- Device address of the response buffer, where it lies in device memory. -/
  respDevice : Option Nat := none
  /-- A response buffer is given: `DESC` on a PCI Express port with `RESP_CAP` not zero (R267). -/
  buffered : Bool := false
  /-- The write of the response buffer will fail (R268). -/
  writeFails : Bool := false
  deriving DecidableEq, Repr

/-- A response as its slot holds it (Table 11-2). -/
structure Response where
  /-- `MAJOR`, 8 bits (Table 11-2). -/
  major : Nat := 0
  /-- `MINOR`, 8 bits (Table 11-2). -/
  minor : Nat := 0
  /-- `FLAGS`, 16 bits (Table 11-2). -/
  flags : Nat := 0
  /-- `OPCODE`, 16 bits (Table 11-2). -/
  opcode : Nat := 0
  /-- `TAG`, 16 bits (Table 11-2). -/
  tag : Nat := 0
  /-- `STATUS`, 16 bits (Table 12-1). -/
  status : Nat := 0
  /-- `SESSION`, 16 bits (Table 11-2). -/
  session : Nat := 0
  /-- The payload (R266). -/
  payload : Bytes := ⟨0, 0⟩
  /-- Bus address of host memory, or device address, to which the payload goes as the response is posted (R267). -/
  toHost : Option Nat := none
  /-- Device address to which the payload goes as the response is posted. -/
  toDevice : Option Nat := none
  deriving DecidableEq, Repr

/-- An event record (Table 11-5). -/
structure EventRec where
  /-- `EVENT`, 16 bits (Table 11-5). -/
  event : Nat := 0
  /-- `FLAGS`, 16 bits (Table 11-5). -/
  flags : Nat := 0
  /-- `EV_SEQ`, 32 bits (Table 11-5). -/
  seq : Nat := 0
  /-- `EV_TIME`, 64 bits (Table 11-5). -/
  time : Nat := 0
  /-- Parameter 0, 32 bits (Table 12-12). -/
  p0 : Nat := 0
  /-- Parameter 1, 32 bits. -/
  p1 : Nat := 0
  /-- Parameter 2, 32 bits. -/
  p2 : Nat := 0
  /-- Parameter 3, 32 bits. -/
  p3 : Nat := 0
  deriving DecidableEq, Repr

/-- One partner port: its session, slots, doorbells, event queue and latches. -/
structure PortSt where
  /-- `CUR_SESSION`, 16 bits (R274, 11). Reset 0. -/
  session : Nat := 0
  /-- Agreed major and minor version (R272, 11). Reset 0: no session. -/
  major : Nat := 0
  /-- Agreed minor version, 8 bits (R272, 11). Reset 0: no session. -/
  minor : Nat := 0
  /-- Requests served by the session (Table 11-7, 11). Reset 0. -/
  served : Nat := 0
  /-- Request slots, 8 of 256 bytes (R261, 11). Reset: DESIGN CHOICE zero, log entry 12. -/
  slots : Tbl (BitVec 2048) := []
  /-- `REQ_BELL`, 8 bits (R262, 11). Reset 0 (Table 18-3). -/
  reqBell : BitVec 8 := 0
  /-- Rung slots in the order Teller takes them (R263, 11). Reset empty. -/
  ring : List Nat := []
  /-- `REQ_TIME` of each slot, 64 bits (R262, 11). Reset 0 (Table 18-3). -/
  reqTime : Tbl Nat := []
  /-- The request Teller has taken and not yet answered (R263, R276, 11). Reset none. -/
  inHand : Option Request := none
  /-- Response slots, 8 (R264, 11). Reset: DESIGN CHOICE empty, log entry 12. -/
  resp : Tbl Response := []
  /-- `RESP_BELL`, 8 bits (R264, 11). Reset 0 (Table 18-3). -/
  respBell : BitVec 8 := 0
  /-- Responses waiting for a slot, at most 32 (R264, 11). Reset empty. -/
  waiting : List Response := []
  /-- Held requests of the session, at most 8 (R277, 11). Reset empty. -/
  held : List Request := []
  /-- `EVQ_WR`, 10 bits (R279, 11). Reset 0 (Table 18-3). -/
  evWr : Nat := 0
  /-- `EVQ_RD`, 10 bits (R279, 11). Reset 0 (Table 18-3). -/
  evRd : Nat := 0
  /-- Event queue, ring of 1,024 records (R279, 11). Reset: DESIGN CHOICE zero, log entry 12. -/
  evq : Tbl EventRec := []
  /-- `EV_SEQ` of the next event, 32 bits (Table 11-5, 11). Reset 0. -/
  evSeq : Nat := 0
  /-- Events discarded and not yet reported: count, first `EV_SEQ`, first `EV_TIME` (R281, 11). Reset none. -/
  evLost : Option (Nat × Nat × Nat) := none
  /-- `OUTPUT_EVENTS_SET` of the session, 68 bytes (R155, 06). Reset 0: nothing enabled. -/
  evEnable : BitVec 544 := 0
  /-- Latches of latched pairs by register offset (R390, 18). Reset 0 (R390). -/
  latch : Tbl Nat := []
  /-- `LEDGER_PAGE`, 4 bits (R398, 18). Reset 0 (Table 18-7). -/
  ledgerPage : Nat := 0
  /-- MSI-X table: address, data and mask words of 2 entries, 32 bytes (R391, 18). Reset: PCI Express, both masked
  (log entry 12). -/
  msixTable : BitVec 256 := BitVec.ofNat 256 (2 ^ 96 + 2 ^ 224)
  /-- MSI-X pending bits (R392, 18). Reset 0. -/
  msixPending : BitVec 2 := 0
  /-- `now` times of the port's notes of the last second (Table 12-8, 12). Reset empty. -/
  notes : List Nat := []
  deriving DecidableEq, Repr

/-- The mailboxes. -/
structure MailSt where
  /-- The four partner ports (R261, 11). -/
  ports : Tbl PortSt := []
  /-- Port whose turn it is (R263, 11). Reset 0: DESIGN CHOICE, log entry 12. -/
  turn : Nat := 0
  /-- Next session number, 16 bits, held in AON (R274, 11). Reset 1: no record in flash (R274). -/
  nextSession : Nat := 1
  /-- First number of the block reserved last (R274, 11). Reset none. -/
  block : Option Nat := none
  deriving DecidableEq, Repr

/-! ## Configuration sets and commits (05_commit_and_sets.md) -/

/-- One complete configuration set (Table 5-1). Unlisted items hold their reset values. -/
structure ConfigSet where
  /-- 256 source descriptors of 64 bytes (R61, 02). Reset: Table 2-3. -/
  sources : Tbl SrcDesc := []
  /-- 1,024 layer descriptors of 64 bytes (R99, 04). Reset: Table 4-1. -/
  layers : Tbl LayerDesc := []
  /-- Tone profiles 1 to 63 of 160 bytes (R108, 04). Reset: identity matrix and curve (R108). -/
  tones : Tbl ToneProf := []
  /-- 32 output settings of 64 bytes (R151, R171). Reset: Tables 6-1 and 7-1. -/
  outputs : Tbl OutDesc := []
  /-- 32 freshness items of 16 bytes (R50, 01). Reset: Table 1-7. -/
  fresh : Tbl FreshItem := []
  deriving DecidableEq, Repr

/-- A source frame with its mint (Table 1-1, R76, R77). -/
structure Frame where
  /-- Source, 0 to 255. -/
  source : Nat := 0
  /-- Row of Table 2-5 that its capture time is from (R74). -/
  row : Nat := 6
  /-- `EVIDENCE`, 2 bits (Table 2-5). -/
  evidence : Nat := 3
  /-- `RELAYED` (R207). -/
  relayed : Bool := false
  /-- `CARRIED` (R206). -/
  carried : Bool := false
  /-- `SEQUENCE`, 32 bits (R12). -/
  seq : Nat := 0
  /-- Capture time, 64 bits, ns (R12). -/
  capture : Nat := 0
  /-- Arrival time, 64 bits, ns (R75). -/
  arrival : Nat := 0
  /-- Content signature of the luma samples (R27). -/
  signature : Nat := 0
  /-- Width in samples (R102). -/
  width : Nat := 0
  /-- Height in samples (R102). -/
  height : Nat := 0
  /-- Pixel format code of Table 4-3, or 5 for a decoded picture (Table 3-4). -/
  format : Nat := 5
  /-- Buffer of a host surface or of a Kinik source. -/
  buffer : Nat := 0
  /-- Mints of coded rows that an annex gives (R118). -/
  rows : List AnnexEntry := []
  /-- Bits of a sample of a decoded picture, and the draw at which it was decoded, which tells it from every other. -/
  depth : Nat := 8
  /-- Which decoded picture holds its samples. -/
  picture : Nat := 0
  /-- Offsets of the conformance cropping window in that picture (R98). -/
  left : Nat := 0
  /-- Lines above the window. -/
  top : Nat := 0
  /-- The picture has no chroma (4:0:0). -/
  mono : Bool := false
  /-- The tiles of a Kinik frame, as received (R230). -/
  tiles : List (Nat × Bytes) := []
  /-- It was minted before a backward step of room time: never composed again (R55). -/
  gone : Bool := false
  /-- The colour description its source gives (Table 4-1). -/
  colour : Colour := {}
  deriving DecidableEq, Repr

/-- A write to the shadow set held while a commit is pending (R7, R129). -/
structure HeldWrite where
  /-- Kind of item. -/
  kind : SetKind
  /-- Index of the item. -/
  index : Nat
  /-- The descriptor written. -/
  value : Nat
  deriving DecidableEq, Repr

/-- Commit states, in the order of R137. -/
inductive CommitState where
  | clearing | staging | waiting | deferred | settled | cancelled | rejected | withdrawn
  deriving DecidableEq, Repr

/-- A commit (R134, Table 5-3). -/
structure Commit where
  /-- `COMMIT_SEQ`, 32 bits (Table 5-3). -/
  seq : Nat := 0
  /-- Commit group, 0 to 15 (R131). -/
  group : Nat := 0
  /-- Swap mode: `MODE` 1 (R128). -/
  swap : Bool := false
  /-- `WAIT_SETTLE` (Table 5-3). -/
  waitSettle : Bool := false
  /-- Id of the room-wide commit (R143). -/
  room : Option Nat := none
  /-- Port and request of `COMMIT`; none for a mirrored commit. -/
  port : Nat := 0
  /-- The held `COMMIT` (R277). -/
  req : Option Request := none
  /-- State (Table 12-13). -/
  state : CommitState := .clearing
  /-- `now` at the end of clearing (R136, R139). -/
  eligibleAt : Option Nat := none
  /-- Every staged record is written (R124). -/
  stagingDone : Bool := false
  /-- Layers changed (Table 5-6). -/
  changes : Nat := 0
  /-- Deferrals (R137). -/
  defers : Nat := 0
  /-- Deferrals for staging (R142). -/
  stageDefers : Nat := 0
  /-- Consecutive deferrals for staging (R142). -/
  stageRun : Nat := 0
  /-- `COMMIT_STAGING_LATE` has been written (R142). -/
  stageLate : Bool := false
  /-- Status reported (R141). -/
  status : Nat := 0
  /-- `GROUP_FRAME` of the frame start of effect (R140). -/
  groupFrame : Nat := 0
  /-- Room time of the frame start of effect (R140). -/
  frameTime : Nat := 0
  /-- Layers not ready at the settlement (R138). -/
  notReady : Nat := 0
  /-- The lowest layer not ready at the settlement (R140 step 5). -/
  lowestNotReady : Nat := 0
  /-- Held writes discarded at the settlement (R129). -/
  heldDiscarded : Nat := 0
  /-- The staging pass's snapshot (R123). -/
  snap : List Frame := []
  /-- The output whose frame start or TE it takes effect at; none for a room frame start (R133, R139). -/
  master : Option Nat := none
  /-- Room time of the sampling that settled it (R141). -/
  sampledAt : Nat := 0
  /-- `COMMIT_SETTLED` has been reported (R140). -/
  reported : Bool := false
  deriving DecidableEq, Repr

/-- The configuration sets, the commit groups and the pending commit. -/
structure SetsSt where
  /-- The active set (R127, 05). -/
  active : ConfigSet := {}
  /-- The shadow set (R127, 05). -/
  shadow : ConfigSet := {}
  /-- Held writes in order of acceptance, at most 4,096 (R129, 05). Reset empty. -/
  held : List HeldWrite := []
  /-- 16 commit groups of 16 bytes (R130, 05). Reset: R130. -/
  groups : Tbl GroupDesc := []
  /-- Next commit sequence number, 32 bits (R134, 05). Reset 0: DESIGN CHOICE, log entry 12. -/
  seq : Nat := 0
  /-- The pending commit (R129, 05). Reset none. -/
  pending : Option Commit := none
  /-- The last commit (R137, 05). Reset none. -/
  last : Option Commit := none
  /-- A settled commit whose outputs have not all taken effect: the commit and the outputs still to take it
  (R139, R140, 05). Reset none. -/
  effect : Option (Commit × List Nat) := none
  /-- The restored active set waits for the first room frame start (R381, 17). Reset true: the reset set takes effect
  in the same way. -/
  restorePending : Bool := true
  /-- Layers committed not ready by a forced commit (R140, 05). Reset none. -/
  notReady : List Nat := []
  /-- Whether the scrubbed CRC of the sets holds (R331, R381). Reset true. -/
  crcOk : Bool := true
  deriving DecidableEq, Repr

/-! ## Sources (02_sources_and_mints.md) and decoding (03_decoding.md) -/

/-- A packet held in a jitter buffer (R69), with what Table 2-5 gave at its arrival (R76). -/
structure HeldPacket where
  /-- Extended sequence number (R69). -/
  ext : Nat
  /-- Room time of arrival (R69). -/
  arrival : Nat
  /-- Row of Table 2-5 available at arrival (R74, R76). -/
  row : Nat
  /-- `EVIDENCE` of that row, 2 bits. -/
  evidence : Nat
  /-- Capture time of that row, 64 bits. -/
  capture : Nat
  /-- The packet. -/
  pkt : RtpPacket
  deriving DecidableEq, Repr

/-- An access unit released to the decoder (R69, R76). -/
structure AuUnit where
  /-- RTP timestamp, 32 bits (R69). -/
  ts : Nat
  /-- Packets missing (R91). -/
  missing : Nat := 0
  /-- A packet is missing before its end (R91). -/
  incomplete : Bool := false
  /-- Arrival time of the first packet (R75). -/
  arrival : Nat := 0
  /-- Capture time (R74). -/
  capture : Nat := 0
  /-- Row of Table 2-5 that the capture time is from (R74). -/
  row : Nat := 6
  /-- `EVIDENCE`, 2 bits (Table 2-5). -/
  evidence : Nat := 3
  /-- Bytes of the unit (R86). -/
  bytes : Nat := 0
  /-- The run-ahead has parsed it (R93). -/
  parsed : Bool := false
  /-- What the unit is (log entry 5). -/
  info : Option AuInfo := none
  deriving DecidableEq, Repr

/-- A replay window of SRTP or SRTCP (R66): the highest packet index authenticated, whose upper bits are the rollover
counter, and the indices of the last 128 that were received. -/
structure ReplayWin where
  /-- Highest index (RFC 3711). -/
  top : Option Int := none
  /-- Indices received among the last 128 (RFC 3711). -/
  seen : List Int := []
  deriving DecidableEq, Repr

/-- A multicast membership (R65): Ethernet port, group and source filter, 0 for any source. -/
structure Join where
  /-- Ethernet port. -/
  port : Nat
  /-- Group address, 128 bits. -/
  group : Nat
  /-- Source filter, 128 bits. -/
  filter : Nat
  deriving DecidableEq, Repr

/-- What a source's subscription holds. -/
structure SrcRun where
  /-- Whether a subscription is in force (R63, 02). Reset false. -/
  subscribed : Bool := false
  /-- Count of subscriptions (Table 2-7, 02). Reset 0. -/
  subCount : Nat := 0
  /-- Next `SEQUENCE`, 32 bits (R12, R63). Reset 0 (R63). -/
  nextSeq : Nat := 0
  /-- Frames minted in the subscription (Table 2-7). Reset 0. -/
  minted : Nat := 0
  /-- The newest minted frame that may be composed (R24, R120). Reset none. -/
  frame : Option Frame := none
  /-- The newest frame of each buffer of a host surface (R138, R117). Reset none. -/
  bufFrames : Tbl Frame := []
  /-- The last mint (R63). Reset none. -/
  lastMint : Option Frame := none
  /-- Locked SSRC (R69). Reset none. -/
  ssrc : Option Nat := none
  /-- Another SSRC seen while the locked one is silent (R69). Reset none. -/
  otherSsrc : Option Nat := none
  /-- `now` at the last packet of the locked SSRC (R69). Reset 0. -/
  ssrcAt : Nat := 0
  /-- Position P of the jitter buffer, extended (R69). Reset none. -/
  pos : Option Nat := none
  /-- Packets held, in extended sequence order (R69). Reset empty. -/
  packets : List HeldPacket := []
  /-- RTP timestamp of the last access unit released (R69). Reset none. -/
  lastTs : Option Nat := none
  /-- RTP sequence number of the last packet received (R91). Reset 0. -/
  lastRtpSeq : Nat := 0
  /-- Counters of `SOURCE_STATUS_GET`: lost, reordered, duplicate, late, clamped, authentication-failed (R63). Reset 0. -/
  cLost : Nat := 0
  /-- Packets reordered, 32 bits (R63). Reset 0. -/
  cReorder : Nat := 0
  /-- Packets duplicate, 32 bits (R63). Reset 0. -/
  cDup : Nat := 0
  /-- Packets late, 32 bits (R63). Reset 0. -/
  cLate : Nat := 0
  /-- Capture times clamped, 32 bits (R63, R75). Reset 0. -/
  cClamp : Nat := 0
  /-- Packets that failed authentication, 32 bits (R63, R66). Reset 0. -/
  cAuth : Nat := 0
  /-- Kinik frames whose time names none of the last 16 pairs (R231). Reset 0. -/
  cTag : Nat := 0
  /-- Loss condition in force, codes of R78, and when it began (`now`). Reset none. -/
  lost : Option (Nat × Nat) := none
  /-- Admission failure of a Kinik source or a placement failure (R70). Reset false. -/
  notAdmitted : Bool := false
  /-- Room time of the last release, frame or publish (R78). Reset 0. -/
  lastArrival : Nat := 0
  /-- Freeze counting: consecutive frames with one signature (R27). Reset 0. -/
  freezeRun : Nat := 0
  /-- Last sender report: NTP time, RTP timestamp, `now` (R74). Reset none. -/
  sr : Option (Nat × Nat × Nat) := none
  /-- Where receiver reports go: address and port (R68). Reset none. -/
  rrTo : Option (Nat × Nat) := none
  /-- The group the subscription has joined (R65). Reset none. -/
  joined : Option Join := none
  /-- A second membership report is due (R65). Reset false. -/
  reportDue : Bool := false
  /-- The SRTP context is restarted at the next packet (R353). Reset false. -/
  srtpRestart : Bool := false
  /-- SRTP contexts by SSRC, with rollover counter and replay window (R66, R353). Reset none. -/
  srtp : Tbl ReplayWin := []
  /-- SRTCP contexts by SSRC (R66, R353). Reset none. -/
  srtcp : Tbl ReplayWin := []
  deriving DecidableEq, Repr

/-- Decoder states (Table 3-7), in its order. -/
inductive DecState where
  | idle | waitRap | recovering | running | stopped
  deriving DecidableEq, Repr

/-- A decoded picture in the DPB or awaiting output (R81, R92). -/
structure DpbPic where
  /-- Picture order count (R81). -/
  poc : Int
  /-- How it is named as a reference. -/
  ref : RefName
  /-- It is a reference (R81). -/
  isRef : Bool
  /-- It waits for output (R81). -/
  waiting : Bool
  /-- It was decoded before recovery was complete (R92). -/
  recovering : Bool := false
  /-- It is a frame inferred from a gap of `frame_num`, which does not exist (R92). -/
  absent : Bool := false
  /-- Pictures that follow it in decoding order (R81). -/
  latency : Nat := 0
  /-- The frame it is minted as. -/
  frame : Frame := {}
  deriving DecidableEq, Repr

/-- A decoded picture stored in the decode region (R89). -/
structure StoredPic where
  /-- Source. -/
  source : Nat
  /-- Which picture. -/
  picture : Nat
  /-- The slot of the stream that it lies in. -/
  slot : Nat
  deriving DecidableEq, Repr

/-- The decoder of one stream. -/
structure DecRun where
  /-- State (Table 3-7, 03). Reset `IDLE`. -/
  state : DecState := .idle
  /-- Core holding the stream (R84). Reset none. -/
  core : Option Nat := none
  /-- Admission cost, luma samples per second (R84). Reset 0. -/
  cost : Nat := 0
  /-- `profile_idc`, 8 bits (Table 12-13). Reset 0. -/
  profile : Nat := 0
  /-- `level_idc`, 8 bits (Table 12-13). Reset 0. -/
  level : Nat := 0
  /-- Ledger code and POC of the last damage (R95). Reset 0. -/
  lastClass : Nat := 0
  /-- Order count at the last damage, signed 32 bits (Table 12-13). Reset 0. -/
  lastPoc : Int := 0
  /-- Counts of discarded access units, stops and restarts (R95). Reset 0. -/
  discarded : Nat := 0
  /-- Stops, 32 bits (Table 12-13). Reset 0. -/
  stops : Nat := 0
  /-- Restarts, 32 bits (Table 12-13). Reset 0. -/
  restarts : Nat := 0
  /-- `now` at the stop (R96). Reset 0. -/
  stoppedAt : Nat := 0
  /-- Parameter sets in the decoder: held ones loaded at the start, and in-band ones (R82). Reset none. -/
  sets : List ParamSet := []
  /-- Type and bytes of the parameter set that failed as UNSUPPORTED (R96). Reset none. -/
  failedSet : Option (Nat × Bytes) := none
  /-- `SOURCE_PARAMS_SET` has given sets since the stop (R96). Reset false. -/
  heldAfter : Bool := false
  /-- A restart is permitted at the next random-access point (R96). Reset false. -/
  restartOk : Bool := false
  /-- Access units released and not yet due (R93). Reset empty. -/
  queue : List AuUnit := []
  /-- Decoded pictures held (R89, R92). Reset empty. -/
  dpb : List DpbPic := []
  /-- Active sequence parameter set (R81). Reset none. -/
  sps : Option Sps := none
  /-- Pictures still to decode before the recovery point (R95). Reset none. -/
  recoverTo : Option Int := none
  /-- RASL pictures are discarded until the next non-RASL picture (R92). Reset false. -/
  dropRasl : Bool := false
  /-- `frame_num` of the previous reference picture (R92). Reset none. -/
  prevFrameNum : Option Nat := none
  /-- Start of the 1 s window and samples decoded in it (R87). Reset none. -/
  window : Option (Nat × Nat) := none
  /-- `now` times of stops of the last 60 s (R94). Reset empty. -/
  stopTimes : List Nat := []
  /-- Summarising since, with the stops, the last class and POC of the period (R94). Reset none. -/
  summary : Option (Nat × Nat × Nat × Int) := none
  /-- The first mint since the last stop, while summarising: sequence, loss duration in ms, evidence (R94). Reset none. -/
  resumed : Option (Nat × Nat × Nat) := none
  /-- POC or `frame_num` of the picture at which decoding started, and the references decoded while `RECOVERING` (R92).
  Reset 0, none. -/
  startKey : Int := 0
  /-- Pictures decoded in recovery (R92). Reset none. -/
  seen : List RefName := []
  deriving DecidableEq, Repr

/-- A decoder or encoder core, or another unit with a self-test. -/
structure CoreSt where
  /-- The core has failed (R88, R315). Reset false. -/
  failed : Bool := false
  deriving DecidableEq, Repr

/-- A host surface (R72, R138, R292). -/
structure SurfSt where
  /-- Its description, `SURFACE_SET` payload (Table 12-3). Reset none: never described. -/
  desc : Option SurfDesc := none
  /-- Newest published buffer (R72). Reset none. -/
  newest : Option Nat := none
  /-- Fence of each buffer (R138). Reset unsignalled. -/
  fence : BitVec 3 := 0
  /-- Buffers published and not yet released (R72). Reset none. -/
  inUse : BitVec 3 := 0
  deriving DecidableEq, Repr

/-- A Kinik source frame being assembled (R230, R231). -/
structure KinikFrame where
  /-- Frame number, 16 bits (R230). -/
  num : Nat := 0
  /-- `TIME_LOCKED` and `TIME_FOLLOWS` of its start. -/
  locked : Bool := false
  /-- The frame number follows the one before (R230). -/
  follows : Bool := false
  /-- Capture time, once `SRC_FRAME_TIME` names one of the last 16 pairs; `badTag` when it names none. -/
  capture : Option Nat := none
  /-- Its time pair is not among the last 16 (R231). -/
  badTag : Bool := false
  /-- Tiles received: index and content. -/
  tiles : List (Nat × Bytes) := []
  /-- Tile whose CRC is still to come. -/
  openTile : Option Nat := none
  deriving DecidableEq, Repr

/-- Sources and decoding. -/
structure SourcesSt where
  /-- Per source descriptor (R63, 02). -/
  run : Tbl SrcRun := []
  /-- Per stream decoder (R95, 03). -/
  dec : Tbl DecRun := []
  /-- Held parameter sets per source (R82, 03). Reset none. -/
  params : Tbl Bytes := []
  /-- Four decoder cores (R83, R88, 03). Reset not failed. -/
  cores : Tbl CoreSt := []
  /-- Access units decoded on each core in the last second: room time and bytes (R86). Reset none. -/
  coreBits : Tbl (List (Nat × Nat)) := []
  /-- Decoded pictures stored in the decode region (R89, 03). Reset none. -/
  stored : List StoredPic := []
  /-- 128 host surfaces (R72, 02). -/
  surf : Tbl SurfSt := []
  /-- Kinik frame assembly per lane (R71, 02). Reset none. -/
  kinik : Tbl KinikFrame := []
  /-- Buffer of each Kinik source in use, 0 to 2 (R71, 02). Reset 0. -/
  kinikBuf : Tbl Nat := []
  /-- Bytes in the regulator of jitter-buffer writes, and `now` when they were counted (R259; log entry 58). Reset 0. -/
  jitterFill : Nat := 0
  /-- `now` when `jitterFill` was counted. Reset 0. -/
  jitterAt : Nat := 0
  deriving DecidableEq, Repr

/-! ## Composition and the tile book (04_composition.md, 01_live_guarantee.md) -/

/-- A live rectangle of a tile record with its `STATE` bits (Table 4-6). -/
structure LiveRect where
  /-- `LAYER`, 10 bits (Table 4-6). -/
  layer : Nat := 0
  /-- `X0`, `Y0`, `X1`, `Y1`, 6 and 5 bits each (Table 4-6). -/
  rect : Rect := ⟨0, 0, 0, 0⟩
  /-- `STAMP`, 16 bits (Table 4-6). -/
  stamp : Nat := 0
  /-- `AGED`, 1 bit (Table 4-6). -/
  aged : Bool := false
  /-- 0 normal, 1 not ready, 2 no frame. -/
  state : Nat := 0
  /-- The capture time the stamp was taken from, 64 bits; it is not in the record (log entry 58). -/
  cap : Nat := 0
  /-- `EVIDENCE` of that mint, 2 bits (R208); it is not in the record (log entry 58). -/
  evidence : Nat := 0
  deriving DecidableEq, Repr

/-- The dense form (Table 4-7). -/
structure DenseForm where
  /-- `STAMP`, 16 bits (Table 4-7). -/
  stamp : Nat := 0
  /-- `AGED`, 1 bit (Table 4-7). -/
  aged : Bool := false
  /-- `STATE`, 2 bits (Table 4-5). -/
  state : Nat := 0
  /-- `LISTED` and `LAYERS`, 16 of 10 bits (Table 4-7). -/
  layers : List Nat := []
  /-- A listed layer carries a stamp (R34). -/
  stamped : Bool := false
  /-- The oldest capture time, of which the stamp was taken, 64 bits; it is not in the record (log entry 58). -/
  cap : Nat := 0
  /-- The highest `EVIDENCE` of the listed layers' mints, 2 bits (R208); it is not in the record (log entry 58). -/
  evidence : Nat := 0
  deriving DecidableEq, Repr

/-- A tile record (Table 4-5). The all-zero record is the default. -/
structure TileRec where
  /-- `TILE_CRC`, 32 bits (Table 4-5). Reset 0. -/
  crc : Nat := 0
  /-- `SET_TAG`, 8 bits (Table 4-5). Reset 0. -/
  tag : Nat := 0
  /-- `SECTORS`, 6 bits (Table 4-5). Reset 0. -/
  sectors : Nat := 0
  /-- `SLOT`, 2 bits (Table 4-5). Reset 0. -/
  slot : Nat := 0
  /-- `COUNT`, `RECT0` to `RECT3` and their states, 4 of 49 bits (Table 4-5). Reset none. -/
  rects : List LiveRect := []
  /-- `DENSE` and the dense form, 196 bits (Table 4-7). Reset none. -/
  dense : Option DenseForm := none
  /-- The 2,048 pixel words in the slot the record names, in raster order (R113, R115). None: all zero. -/
  pix : List Nat := []
  /-- Surfaces and buffers the tile is composed from (R72). Reset none. -/
  bufs : List (Nat × Nat) := []
  /-- Decoded pictures the tile is composed from (R89). Reset none. -/
  pics : List Nat := []
  deriving DecidableEq, Repr

/-- What the tile book, the assay and scan-out hold of one tile. -/
structure TileSt where
  /-- The current record (R116). Reset all zero (R427). -/
  record : TileRec := {}
  /-- Required tag, 8 bits (R125). Reset 0 (R427). -/
  reqTag : Nat := 0
  /-- The written flag (R427). Reset false. -/
  written : Bool := false
  /-- The tile mismatches its required tag and was recorded (R125). Reset false. -/
  mismatch : Bool := false
  /-- The tile is voided as FAULT until recomposed: CRC mismatch (R158), remap (R254). Reset false. -/
  fault : Bool := false
  deriving DecidableEq, Repr

/-- A legend anchor (R35): tile, point and scale 0 for none. -/
structure Anchor where
  /-- Tile of the anchor (R35). -/
  tile : Nat := 0
  /-- Column of the box. -/
  x : Nat := 0
  /-- Line of the box. -/
  y : Nat := 0
  /-- Scale, 1 to 4 (R34). -/
  scale : Nat := 0
  deriving DecidableEq, Repr

/-- A composition round of an output (R120). -/
structure Round where
  /-- Room time of the start (R121). -/
  startedAt : Nat := 0
  /-- The tiles it composes (R120). -/
  tiles : List Nat := []
  /-- The frames it composes from (R120). -/
  frames : List Frame := []
  /-- The tiles written (R121). -/
  recs : List (Nat × TileRec) := []
  /-- Every tile is written (R121). -/
  done : Bool := false
  /-- `now` at the frame start it missed (R121). -/
  dueAt : Option Nat := none
  deriving DecidableEq, Repr

/-- Composition of one output. -/
structure OutComp where
  /-- Tiles marked since the last snapshot (R120, R122). Reset none. -/
  marks : List Nat := []
  /-- The round in progress or waiting to publish (R120). Reset none. -/
  round : Option Round := none
  /-- Counts of rounds, late rounds and the largest lateness in µs (R121). Reset 0. -/
  rounds : Nat := 0
  /-- Late rounds, 32 bits (Table 12-13). Reset 0. -/
  lateRounds : Nat := 0
  /-- Largest lateness (Table 12-13). Reset 0. -/
  lateMax : Nat := 0
  /-- Staged records of the pending or settled commit (R123). Reset none. -/
  staged : List (Nat × TileRec) := []
  /-- Marks kept for the first round after the settlement of a commit whose staging is late (R142). Reset none. -/
  lateMarks : List Nat := []
  deriving DecidableEq, Repr

/-- The region of the proof test as it leaves an output. -/
structure RegionOut where
  /-- CRC register, 32 bits (R47). -/
  reg : Nat := 0xFFFFFFFF
  /-- Line of the codes held. -/
  line : Nat := 0
  /-- Codes of that line within the region, by column. -/
  codes : Tbl Nat := []
  deriving DecidableEq, Repr

/-- A void episode (R51). -/
structure Episode where
  /-- Layer, or 0xFFFF for a whole output (R51). -/
  layer : Nat := 0
  /-- Output, 0 to 31 (R51). -/
  output : Nat := 0
  /-- Reason (Table 1-5). -/
  reason : Nat := 0
  /-- Parameter 2 of its record (Table 1-8). -/
  p2 : Nat := 0
  /-- Parameter 3 of its record (Table 1-8). -/
  p3 : Nat := 0
  /-- Room time of its begin (R51). -/
  begunAt : Nat := 0
  /-- t_eval of the first evaluation out of void (R51). -/
  clearSince : Option Nat := none
  deriving DecidableEq, Repr

/-- A voided area as the assay last found it (R23, R29). `layer` is none for a FAULT no layer carries. -/
structure VoidArea where
  /-- Layer, none for a whole tile (R29). -/
  layer : Option Nat := none
  /-- Reason (Table 1-5). -/
  reason : Nat := 1
  /-- Age in ms, where there is one (R33). -/
  age : Option Nat := none
  /-- Tile. -/
  tile : Nat := 0
  /-- Rectangle on the output (R29). -/
  rect : Rect := ⟨0, 0, 0, 0⟩
  deriving DecidableEq, Repr

/-- The assay proof test in progress (R46 to R49). -/
structure Proof where
  /-- Port of the request (R46). -/
  port : Nat := 0
  /-- Tag of the request. -/
  tag : Nat := 0
  /-- Outputs, 32 bits (R46). -/
  mask : Nat := 0
  /-- Tile column of the region (R46). -/
  col : Nat := 0
  /-- Tile row of the region (R46). -/
  row : Nat := 0
  /-- Room time at which the test began on each output (R46). -/
  starts : Tbl Nat := []
  /-- Test frames completed per output, and results found. -/
  frames : Tbl Nat := []
  /-- Results by output (R47). -/
  results : Tbl Nat := []
  /-- First head frame of the test per head, first TE count per panel. -/
  first : Tbl Nat := []
  /-- The region as it leaves in the present test frame, per output: CRC register over the lines before the last, and the
  codes of the last (R47). -/
  region : Tbl RegionOut := []
  deriving DecidableEq, Repr

/-- Composition, the tile book and the assay. -/
structure ComposeSt where
  /-- 131,072 tiles, at key 16,384 × output + tile (R114, R116). -/
  tiles : Tbl TileSt := []
  /-- Composition of each of 32 outputs (R120). -/
  out : Tbl OutComp := []
  /-- Legend anchor per layer (R35). Reset none. -/
  anchors : Tbl Anchor := []
  /-- `SEQUENCE` composed last per layer (R51). Reset 0. -/
  layerSeq : Tbl Nat := []
  /-- Open void episodes (R51). Reset none. -/
  episodes : List Episode := []
  /-- Voids of each tile row as last evaluated, at key 128 × output + row (R38). Reset none. -/
  voids : Tbl (List VoidArea) := []
  /-- Outputs whose void colours are replaced, 32 bits (R32). Reset 0. -/
  replaced : BitVec 32 := 0
  /-- The proof test in progress (R49). Reset none. -/
  proof : Option Proof := none
  /-- Composition engines out of service, 16 bits (R258). Reset 0. -/
  enginesOut : BitVec 16 := 0
  /-- Heads whose queue is out of service, 24 bits (R258, R317). Reset 0. -/
  headsOut : BitVec 24 := 0
  deriving DecidableEq, Repr

/-! ## Wall heads (06_wall_heads.md) -/

/-- Head states, in the order of Table 12-13. -/
inductive HeadState where
  | off | locking | scanning | unlocked
  deriving DecidableEq, Repr

/-- A kept row CRC (R42, R161) with the verdict of its echo. -/
structure KeptRow where
  /-- Frame, 32 bits (R42). -/
  frame : Nat
  /-- The upper lane of a bonded head (R42). -/
  upper : Bool
  /-- Tile row (R42). -/
  row : Nat
  /-- CRC, 32 bits (R42). -/
  crc : Nat
  /-- The echo matched (R43). -/
  verdict : Option Bool
  /-- Cause of a mismatch: 1 CRC differs, 2 no echo in time, 3 `DROPPED` (Table of record 0x4110). -/
  cause : Nat := 0
  deriving DecidableEq, Repr

/-- A legend as drawn (R33 to R36). -/
structure Legend where
  /-- Lead layer of the legend (R35). -/
  layer : Nat := 0
  /-- Column of its box (R35). -/
  x : Nat := 0
  /-- Line of its box (R35). -/
  y : Nat := 0
  /-- Scale, 1 to 4 (R34). -/
  scale : Nat := 1
  /-- Reason shown (R33). -/
  reason : Nat := 1
  /-- Third line (R33). -/
  age : String := ""
  deriving DecidableEq, Repr

/-- What leaves on a lane of a head: the CRC register over the lines of the tile row before this one, and the codes of this
line. -/
structure LaneOut where
  /-- The upper lane of a bonded head. -/
  upper : Bool
  /-- Register of the running row CRC, 32 bits (R161). -/
  reg : Nat
  /-- Codes of the line not yet sent. -/
  codes : List Nat
  deriving DecidableEq, Repr

/-- One wall head. -/
structure HeadRun where
  /-- State (R154). Reset `OFF` (R154). -/
  state : HeadState := .off
  /-- Frame count, 32 bits (R160). Reset 0. -/
  frame : Nat := 0
  /-- `RASTER_ID`, 16 bits (R160). Reset 0: DESIGN CHOICE, log entry 12. -/
  rasterId : Nat := 0
  /-- Measured skew in 1/16 line (R154). Reset 0. -/
  skew : Int := 0
  /-- The next line to start: 0 to `V_TOTAL` − 1 (R151). Reset none. -/
  line : Option Nat := none
  /-- Room frame starts the synthesiser has held lock for (R154). Reset 0. -/
  held : Nat := 0
  /-- `HEAD_STOP` to send at the next frame start: reason (R154, R60). Reset none. -/
  stopNext : Option Nat := none
  /-- Output settings a scanning head keeps until it stops at the frame start where a settlement takes effect (R154).
  Reset none: the active ones. -/
  under : Option OutDesc := none
  /-- Stopped by safe state (R308). Reset false. -/
  safeStopped : Bool := false
  /-- Held on a standby (R338). Reset false. -/
  standbyHeld : Bool := false
  /-- Rows of the frame voided after an underrun (R157), per lane. Reset none. -/
  underrunRows : List (Bool × Nat) := []
  /-- Counts of tiles voided and underruns in the frame (Table 6-3). Reset 0. -/
  frameVoids : Nat := 0
  /-- Underruns of the present frame (R157). Reset 0. -/
  frameUnderruns : Nat := 0
  /-- Counts of underruns and CRC mismatches (R154). Reset 0. -/
  underruns : Nat := 0
  /-- CRC mismatches, 32 bits (Table 12-13). Reset 0. -/
  crcMismatches : Nat := 0
  /-- Lowest queue fill since the last read, in 1/8 (R154). Reset 8. -/
  lowFill : Nat := 8
  /-- The queue raises panic (R156, R244). Reset false. -/
  panic : Bool := false
  /-- Kept CRCs of the last three frames (R42). Reset none. -/
  kept : List KeptRow := []
  /-- Frames of the last three already counted as mismatched or as matched (R43). Reset none. -/
  decided : List Nat := []
  /-- Consecutive mismatched frames (R43, R44). Reset 0. -/
  missRun : Nat := 0
  /-- `PRESENT_MISMATCH` raised (R44). Reset false. -/
  mismatchRaised : Bool := false
  /-- The receivers declare echo (R45, R163). Reset false: unproven. -/
  proven : Bool := false
  /-- Echoes discarded (R162). Reset 0. -/
  echoDiscarded : Nat := 0
  /-- Legends as drawn in the frame, each from the evaluation of its anchor's row (R36). Reset none. -/
  legends : List Legend := []
  /-- The line that leaves on each lane, and the CRC of the lines of its row before it (R42). Reset none. -/
  laneOut : List LaneOut := []
  deriving DecidableEq, Repr

/-! ## Console panels and keys (07_console_positions.md) -/

/-- Panel states, in the order of R186. -/
inductive PanelState where
  | off | starting | running | dark | stopping
  deriving DecidableEq, Repr

/-- A push in progress (R175 to R179): the TE count and `now` of its TE, its rectangles in the order sent, whether it is a
full push, its bytes, and whether it carries the region of the proof test. -/
structure Push where
  /-- TE count at its start (R175). -/
  te : Nat := 0
  /-- Its rectangles, in the order sent (R176). -/
  rects : List Rect := []
  /-- It is a full push (R174). -/
  full : Bool := false
  /-- Bytes of its rectangles (R177). -/
  bytes : Nat := 0
  /-- It carries the region of a proof test (R48). -/
  proof : Bool := false
  /-- `now` of its TE (R175). -/
  startedAt : Nat := 0
  /-- The CRC of each rectangle's bytes in the order sent (R178). -/
  crcs : List Nat := []
  /-- Of a proof test's region: its CRC as sent, and the Auditor's reference (R48, R178). -/
  region : Option (Nat × Nat) := none
  /-- Its content is that of the Auditor's renderer (R184). -/
  rendered : Bool := false
  deriving DecidableEq, Repr

/-- One console panel. -/
structure PanelRun where
  /-- State (R186). Reset `OFF`. -/
  state : PanelState := .off
  /-- Step of Table 7-6 reached. Reset 0. -/
  step : Nat := 0
  /-- `now` at the beginning of the start (R185). Reset 0. -/
  startedAt : Nat := 0
  /-- `now` at the end of the wait in progress (Table 7-6). Reset 0. -/
  waitUntil : Nat := 0
  /-- Host entries of the start in progress that are still to send, 20 bytes each (R185). Reset none. -/
  entries : Bytes := ⟨0, 0⟩
  /-- A start follows the stop in progress (R185). Reset false. -/
  restart : Bool := false
  /-- Reason of the stop (Table 7-11). Reset 0. -/
  stopReason : Nat := 0
  /-- Starts retried, 32 bits (R185). Reset 0. -/
  retries : Nat := 0
  /-- TEs taken (R186) and ignored (R173). Reset 0. -/
  teCount : Nat := 0
  /-- TEs ignored, 32 bits (R173). Reset 0. -/
  teIgnored : Nat := 0
  /-- Last TE taken, `now` ns (R173). Reset none. -/
  lastTe : Option Nat := none
  /-- Measured TE period, µs (R173). Reset 0. -/
  period : Nat := 0
  /-- TE is lost (R174). Reset false. -/
  teLost : Bool := false
  /-- TEs taken since the start or the loss (R174, Table 7-6). Reset 0. -/
  teGood : Nat := 0
  /-- BL_KEEPp toggles (R181). Reset false. -/
  keep : Bool := false
  /-- Pushes completed, 32 bits (Table 12-13). Reset 0. -/
  pushes : Nat := 0
  /-- Full pushes completed, 32 bits (Table 12-13). Reset 0. -/
  fullPushes : Nat := 0
  /-- Abandonments by cause of R179: 1 to 4. Reset 0. -/
  abandons : Tbl Nat := []
  /-- Run of abandoned pushes (R183). Reset 0. -/
  failRun : Nat := 0
  /-- Largest push time since the last read, µs (R186). Reset 0. -/
  largest : Nat := 0
  /-- `now` at the last full push completed (R180). Reset none. -/
  lastFull : Option Nat := none
  /-- The push in progress (R175). Reset none. -/
  push : Option Push := none
  /-- Rectangles of an abandoned push (R179). Reset none. -/
  redo : List Rect := []
  /-- Legends drawn at the last evaluation (R40). Reset none. -/
  legends : List Legend := []
  /-- A full push is due (R174, R184). Reset false. -/
  fullDue : Bool := false
  /-- A safe-state void push is due or repeated (R184). Reset false. -/
  voidDue : Bool := false
  /-- `now` at the darkening (R183). Reset none. -/
  darkAt : Option Nat := none
  /-- `PANEL_PUSH_FAIL` raised (R183). Reset false. -/
  failRaised : Bool := false
  /-- A full push of composed content must complete before a start ends: TE returned, or safe state ended (R174, R181, R184).
  Reset false. -/
  fullOwed : Bool := false
  /-- The push buffer raises panic while a push is in progress (R187, R244). Reset false. -/
  panic : Bool := false
  /-- Settings a panel keeps until its first TE after a settlement, or while it stops (R185). Reset none: the active ones. -/
  under : Option OutDesc := none
  deriving DecidableEq, Repr

/-- One key (R192 to R194). Reset: released, no flag, no baseline (R193: AON holds none after POR). -/
structure KeyRun where
  /-- Debounced state (R192). -/
  pressed : Bool := false
  /-- Consecutive scans towards a change of state, and towards `HOVER` (R192, R191). -/
  count : Nat := 0
  /-- Consecutive scans towards `HOVER` (R191). Reset 0. -/
  hoverCount : Nat := 0
  /-- Flags of Table 7-9. -/
  presentAtStart : Bool := false
  /-- `HELD` (Table 7-9). Reset false. -/
  held : Bool := false
  /-- `STUCK` (Table 7-9). Reset false. -/
  stuck : Bool := false
  /-- `WET` (Table 7-9). Reset false. -/
  wet : Bool := false
  /-- `HOVER` (Table 7-9). Reset false. -/
  hover : Bool := false
  /-- `NEG_DRIFT` (Table 7-9). Reset false. -/
  negDrift : Bool := false
  /-- Baseline, in 1/1,000,000,000 of 5 fF, so that a rate in 5 fF/s over a time in ns is exact (R193, R194). -/
  base : Option Nat := none
  /-- Raw value, dF and dT of the last scan (R189). -/
  raw : Nat := 0
  /-- dF of the last scan (R189). Reset 0. -/
  dF : Int := 0
  /-- dT of the last scan (R189). Reset 0. -/
  dT : Int := 0
  /-- `now` at the press (R192). -/
  pressedAt : Nat := 0
  /-- Since when the delta keeps one sign, `now`, and that sign (R194). -/
  signSince : Nat := 0
  /-- Sign of the delta (R194). Reset 0. -/
  sign : Int := 0
  /-- Scans of the formation of the baseline, the sum of the first 8, and those that reached the threshold against the
  factory reference (R193). -/
  scans : Nat := 0
  /-- Sum of the scans taken so far for the baseline (R193). Reset 0. -/
  sum : Nat := 0
  /-- Scans near the stored reference (R193). Reset 0. -/
  refHits : Nat := 0
  /-- Raw values of the last 64 scans, newest first (R193). -/
  recent : List Nat := []
  deriving DecidableEq, Repr

/-- A factory reference in flash (R193). -/
structure KeyRef where
  /-- Raw value of each of 24 keys, 16 bits. -/
  raws : List Nat := []
  /-- CRC stored with them, 32 bits. -/
  crc : Nat := 0
  deriving DecidableEq, Repr

/-- One key group (R188, R195). -/
structure KeyGroup where
  /-- Setting in force, 112 bytes (Tables 7-7, 7-8). Reset none: those tables. -/
  setting : Option KeyDesc := none
  /-- Setting accepted, in force from the next scan (R188). Reset none. -/
  nextSetting : Option KeyDesc := none
  /-- 24 keys (R188). -/
  keys : Tbl KeyRun := []
  /-- Scan-rate code (R195). Reset 0: `SCAN_HIGH`. -/
  rate : Nat := 0
  /-- `now` at the last scan with activity (R195). Reset 0. -/
  activeAt : Nat := 0
  /-- `now` at the last scan (R194). Reset none. -/
  lastScan : Option Nat := none
  /-- `MULTI` (Table 7-9). Reset false. -/
  multi : Bool := false
  /-- The stored reference failed its CRC when the baselines began to form (R193). Reset false. -/
  refBad : Bool := false
  deriving DecidableEq, Repr

/-! ## Encoding (08_encoding.md) -/

/-- Job states, in the order of R199. -/
inductive EncState where
  | off | running | inputIdle | stopped
  deriving DecidableEq, Repr

/-- A tile copied for an output input (R202): its sectors and record as current at the frame start, and what the assay makes of it
in that frame. -/
structure CapTile where
  /-- The tile record, with the pixels of the slot it names. -/
  record : TileRec := {}
  /-- t_eval of its row in that frame (R38). -/
  tEval : Nat := 0
  /-- It lies in a proof region (R46). -/
  proof : Bool := false
  /-- Its voided areas. -/
  areas : List VoidArea := []
  /-- The legends anchored in it. -/
  legends : List Legend := []
  /-- Its voided areas where the copied CRC mismatches (R202). -/
  broken : List VoidArea := []
  /-- The legends anchored in it where the copied CRC mismatches. -/
  brokenLegends : List Legend := []
  deriving DecidableEq, Repr

/-- A picture captured for a job (R202, R203): its time, the frame it reads of a layer input or the tiles copied of an output, the
settings they are read under, and whether the capture is complete. -/
structure Capture where
  /-- Capture time of the picture (R202). -/
  time : Nat := 0
  /-- Frame of a layer input (R203). -/
  frame : Option Frame := none
  /-- The active set at the capture. -/
  set : ConfigSet := {}
  /-- The settings of the output sampled, as in force. -/
  out : OutDesc := 0
  /-- The pair of void colours of that output (R30, R32). -/
  pair : Triple × Triple := ((0, 0, 0), (0, 0, 0))
  /-- The tiles of that output, in raster order (R202). -/
  tiles : List CapTile := []
  /-- The capture is complete (R202). -/
  done : Bool := false
  deriving DecidableEq, Repr

/-- An RTP packet still to send: timestamp, marker, payload, and the access unit it opens (R210). -/
structure EncPacket where
  /-- RTP timestamp, 32 bits (R210). -/
  ts : Nat := 0
  /-- Marker bit (R210). -/
  marker : Bool := false
  /-- A NAL unit or a fragment of one (R210). -/
  payload : Bytes := ⟨0, 0⟩
  /-- The access unit it opens (R210). -/
  opens : Option AuHead := none
  deriving DecidableEq, Repr

/-- One encode job. -/
structure EncRun where
  /-- State (R199, Table 12-13). Reset `OFF`. -/
  state : EncState := .off
  /-- Core (R211). Reset none. -/
  core : Option Nat := none
  /-- Cost in kpx/s (R211, Table 12-13). Reset 0. -/
  cost : Nat := 0
  /-- `level_idc` (R201). Reset 0. -/
  level : Nat := 0
  /-- Pictures coded, 32 bits (Table 12-13). Reset 0. -/
  pictures : Nat := 0
  /-- Captures dropped, 32 bits (R202). Reset 0. -/
  capDropped : Nat := 0
  /-- Pictures dropped, 32 bits (R206). Reset 0. -/
  picDropped : Nat := 0
  /-- Rows carried, 32 bits (R206). Reset 0. -/
  rowsCarried : Nat := 0
  /-- Quantiser of the last picture (Table 12-13). Reset 0. -/
  lastQp : Nat := 0
  /-- Bytes of the last second's access units with their times (R206). Reset none. -/
  sent : List (Nat × Nat) := []
  /-- Frames of the output since the job was enabled (R202). Reset 0. -/
  frames : Nat := 0
  /-- Input ring, at most two pictures (R202). Reset empty. -/
  ring : List Capture := []
  /-- Capture time of the last picture's frame (R203). Reset none. -/
  lastFrameAt : Option Nat := none
  /-- The next picture is an IDR picture (R205). Reset true. -/
  needIdr : Bool := true
  /-- Picture of the gradual-refresh cycle (R205). Reset 0. -/
  cycle : Nat := 0
  /-- First carried row of the previous picture (R206). Reset none. -/
  carriedFrom : Option Nat := none
  /-- Mint of each coded row of the previous picture (R206). Reset none. -/
  rowMints : List RowMint := []
  /-- Packets still to send, in order (R210). Reset none. -/
  packets : List EncPacket := []
  /-- The SRTP context is restarted at the next packet, and its rollover counter (R353, R210). Reset false, 0. -/
  srtpRestart : Bool := false
  /-- Rollover counter of SRTP, 32 bits (R210). Reset 0. -/
  srtpRoc : Nat := 0
  /-- RTP sequence number, 16 bits (R210). Reset 0. -/
  rtpSeq : Nat := 0
  /-- Pictures sent, 32 bits (R213). Reset 0. -/
  sentPictures : Nat := 0
  /-- RTP packets of the stream, 32 bits (R210). Reset 0. -/
  sentPackets : Nat := 0
  /-- RTP payload bytes of the stream, 32 bits (R210). Reset 0. -/
  sentBytes : Nat := 0
  /-- SRTCP packets of the stream, 31 bits: the index of the next (R210). Reset 0. -/
  srtcp : Nat := 0
  deriving DecidableEq, Repr

/-! ## Lanes and links (09_lanes_and_links.md) -/

/-- Lane states, in the order of Table 9-4. -/
inductive LaneState where
  | off | selftest | hunting | exchange | up | incompatible | retired
  deriving DecidableEq, Repr

/-- One serial lane. -/
structure LaneRun where
  /-- State (Table 9-4). Reset `OFF`. -/
  state : LaneState := .off
  /-- Agreed version (R226). Reset 0. -/
  version : Nat := 0
  /-- Partner's capability record (R225). Reset none. -/
  partner : Option Bytes := none
  /-- `CAP_ACK` sent with OK and received with OK (R224). Reset false. -/
  ackSent : Bool := false
  /-- `CAP_ACK` received with OK (R224). Reset false. -/
  ackRcvd : Bool := false
  /-- Measured frequency offset, ppm (Table 12-13). Reset 0. -/
  ppm : Int := 0
  /-- Invalid headers, 32 bits (Table 12-13). Reset 0. -/
  badHeaders : Nat := 0
  /-- Lock losses, 32 bits (Table 12-13). Reset 0. -/
  lockLosses : Nat := 0
  /-- Lock losses since the last record (Table 9-10). Reset 0. -/
  lossesSince : Nat := 0
  /-- Clock-recovery resets, 32 bits (R224). Reset 0. -/
  crResets : Nat := 0
  /-- Elastic-buffer overflows, 32 bits (R223). Reset 0. -/
  overflows : Nat := 0
  /-- Blocks discarded, 32 bits (R221). Reset 0. -/
  unknown : Nat := 0
  /-- RS-FEC codewords corrected, 32 bits (Table 12-13). Reset 0. -/
  fecCorrected : Nat := 0
  /-- RS-FEC codewords not corrected, 32 bits (Table 12-13). Reset 0. -/
  fecUncorrected : Nat := 0
  /-- Self-tests failed in a row (R238). Reset 0. -/
  testFails : Nat := 0
  /-- Tag of the next time pair and the last 16 pairs sent (R229, R231). Reset 0, none. -/
  tag : Nat := 0
  /-- The last 16 time pairs: tag and room time (R229). Reset none. -/
  pairs : List (Nat × Nat) := []
  /-- A far-end PRBS test in progress: port and tag (R238). Reset none. -/
  prbs : Option (Nat × Nat) := none
  deriving DecidableEq, Repr

/-- One Ethernet port. -/
structure EthRun where
  /-- `ETH_PORT_SET` in force, 72 bytes (R237). Reset none: DESIGN CHOICE, log entry 12. -/
  setting : Option EthDesc := none
  /-- `UP` (R236). Reset false. -/
  up : Bool := false
  /-- Packets dropped (R64). Reset 0. -/
  dropped : Nat := 0
  /-- `now` of the last IGMPv1 query (Table 2-4, RFC 3376). Reset none. -/
  igmp1 : Option Nat := none
  /-- `now` of the last general IGMPv2 query (Table 2-4, RFC 3376). Reset none. -/
  igmp2 : Option Nat := none
  /-- `now` of the last general MLDv1 query (Table 2-4, RFC 3810). Reset none. -/
  mld1 : Option Nat := none
  deriving DecidableEq, Repr

/-- A peer message sent and not acknowledged (R233). -/
structure PeerTx where
  /-- Sequence, 16 bits (R233). -/
  seq : Nat
  /-- Type (Table 9-7). -/
  type : Nat
  /-- Payload (Table 9-7). -/
  payload : Bytes
  /-- `now` when it was sent last (R233). -/
  sentAt : Nat
  /-- Times it was sent again (R233). -/
  resends : Nat
  deriving DecidableEq, Repr

/-- One peer port. -/
structure PeerRun where
  /-- Sequence of the next message, 16 bits (R233). Reset 0: DESIGN CHOICE, log entry 12. -/
  txSeq : Nat := 0
  /-- Messages without acknowledgement, at most 8 (R233). Reset none. -/
  outstanding : List PeerTx := []
  /-- Messages waiting for one of the 8 places (R233). Reset none. -/
  queue : List (Nat × Bytes) := []
  /-- Sequences delivered, the last 64 (R233). Reset none. -/
  delivered : List Nat := []
  /-- The sequence to deliver next, 16 bits (R233). Reset none: the first message decides. -/
  next : Option Nat := none
  /-- Sequences received and not delivered, with `now` of their arrival, oldest first (R233). Reset none. -/
  waiting : List (Nat × Nat) := []
  /-- Messages given up, 32 bits (R233). Reset 0. -/
  lost : Nat := 0
  /-- Heartbeats sent, 32 bits (R337). Reset 0. -/
  hbCount : Nat := 0
  deriving DecidableEq, Repr

/-- The coordinator of a room-wide commit (R143 to R146). -/
structure RoomCo where
  /-- Id, 32 bits (R143). -/
  roomId : Nat := 0
  /-- Participating peer ports, and the coordinator's group. -/
  mask : Nat := 0
  /-- Commit group (R143). -/
  group : Nat := 0
  /-- Port and tag of the held `ROOM_COMMIT`. -/
  port : Nat := 0
  /-- Tag of the held request. -/
  tag : Nat := 0
  /-- `now` at the start (R144). -/
  startedAt : Nat := 0
  /-- Participants that answered prepared. -/
  prepared : List Nat := []
  /-- The target frame, once chosen. -/
  tf : Option Nat := none
  /-- Votes for the target frame, and the coordinator's own. -/
  votes : List (Nat × Vote) := []
  /-- The coordinator's own vote (R144). -/
  own : Option Vote := none
  /-- Counted deferrals, consecutive decisions with a missing vote, and decisions made. -/
  defers : Nat := 0
  /-- Consecutive decisions with a missing vote (R144). -/
  missing : Nat := 0
  /-- Decisions made (R144). -/
  decisions : Nat := 0
  /-- The last decision. -/
  decided : Option Decision := none
  /-- Frame times of effect, by participant (R146). -/
  doneTimes : List (Nat × Nat) := []
  deriving DecidableEq, Repr

/-- A participant of a room-wide commit (R143, R145). -/
structure RoomPart where
  /-- Id, 32 bits (R143). -/
  roomId : Nat := 0
  /-- Peer port of the coordinator. -/
  coord : Nat := 0
  /-- The target frame, once asked to vote. -/
  tf : Option Nat := none
  /-- Vote given (R144). -/
  vote : Option Vote := none
  /-- The decision to settle, and whether it came late. -/
  decided : Option Decision := none
  /-- The decision came late (R145). -/
  settleLate : Bool := false
  /-- `now` at the first query of an in-doubt participant. -/
  doubtSince : Option Nat := none
  deriving DecidableEq, Repr

/-- Lanes, Ethernet ports, peers and room-wide commits. -/
structure LinksSt where
  /-- The board lane table in force, 836 bytes (R216). Reset: the default table (R214). -/
  table : Option LaneTable := none
  /-- The table stored in flash (R216). Reset none. -/
  stored : Option LaneTable := none
  /-- The stored table has not been applied yet (R216). Reset false. -/
  waiting : Bool := false
  /-- A reset that applies the lane table has begun and start step 6 has not applied it yet (R216, R383). Reset true. -/
  applyDue : Bool := true
  /-- 48 serial lanes (09). Reset: `LaneRun`. -/
  lanes : Tbl LaneRun := []
  /-- Quad references absent or off frequency, 12 bits (R215). Reset 0. -/
  refBad : BitVec 12 := 0
  /-- Ethernet ports by lane (09). Reset: `EthRun`. -/
  eth : Tbl EthRun := []
  /-- Peer ports by lane (09). Reset: `PeerRun`. -/
  peers : Tbl PeerRun := []
  /-- The room-wide commit this unit coordinates (R143). Reset none. -/
  roomCo : Option RoomCo := none
  /-- The room-wide commit this unit takes part in (R143). Reset none. -/
  roomPart : Option RoomPart := none
  /-- Encoder cores (R212). Reset not failed. -/
  encCores : Tbl CoreSt := []
  deriving DecidableEq, Repr

/-! ## Redundant pair (15_redundant_pairs.md) -/

/-- Roles, with the codes of Table 12-13. -/
inductive Role where
  | none | active | standby
  deriving DecidableEq, Repr

/-- Mirroring states, in the order of Table 12-13. -/
inductive Mirror where
  | inStep | catchingUp | stopped
  deriving DecidableEq, Repr

/-- A mirrored change that waits on a standby for an earlier mirrored commit to settle (R340, R341). -/
inductive MirrorOp where
  | write (kind : SetKind) (first : Nat) (items : List Nat)
  | settle (seq group : Nat) (swap : Bool)
  | group (index : Nat) (x : GroupDesc)
  | copy
  /-- The shadow set of a snapshot (R342). -/
  | shadow (x : ConfigSet)
  deriving DecidableEq, Repr

/-- A snapshot being received on a standby (R342): its mirror sequence, the active and the shadow set so far. -/
structure Snapshot where
  /-- Mirror sequence, 32 bits (R342). -/
  mseq : Nat := 0
  /-- The active set so far (R342). -/
  active : ConfigSet := {}
  /-- The shadow set so far (R342). -/
  shadow : ConfigSet := {}
  deriving DecidableEq, Repr

/-- A manual switch in progress (R344). -/
structure Switch where
  /-- T_f, 64 bits (R344). -/
  tf : Nat := 0
  /-- `now` at which `PAIR_HANDOVER` was sent. -/
  startedAt : Nat := 0
  /-- Port of the request (R344). -/
  port : Nat := 0
  /-- Tag of the request. -/
  tag : Nat := 0
  /-- The twin is ready (R344). -/
  ready : Bool := false
  /-- ARB is released (R344). -/
  released : Bool := false
  deriving DecidableEq, Repr

/-- The pair. -/
structure PairSt where
  /-- Configuration in flash: `PAIR_ID`, twin port, enabled (R334). Reset 0, 0, disabled: DESIGN CHOICE for an empty
  flash, log entry 12; the twin port's default is 0 (R334). -/
  cfgId : Nat := 0
  /-- Twin port, in flash (R334). Reset 0 (R334). -/
  cfgPort : Nat := 0
  /-- Enabled, in flash (R334). Reset disabled: DESIGN CHOICE for an empty flash, log entry 12. -/
  cfgOn : Bool := false
  /-- The configuration in force since the last reset (Table 12-9). -/
  id : Nat := 0
  /-- Twin port in force (R334). Reset 0. -/
  port : Nat := 0
  /-- The pair is enabled (R334). Reset false. -/
  enabled : Bool := false
  /-- Role (Table 12-13). Reset none. -/
  role : Role := .none
  /-- Level of ARB as read, and since when it is high, `now` (R336). Reset high since 0: DESIGN CHOICE, log entry 12. -/
  arbHigh : Bool := true
  /-- `now` since which ARB reads as it does (R336). Reset 0: DESIGN CHOICE, log entry 12. -/
  arbSince : Nat := 0
  /-- `now` of the releases of t_pr_pulse seen in the last 4 ms (R345). Reset none. -/
  arbPulses : List Nat := []
  /-- This unit drives ARB low (R335). Reset false: released. -/
  driveLow : Bool := false
  /-- ARB has been seen low since the reset (R336). Reset false. -/
  seenLow : Bool := false
  /-- Last heartbeat, `now`, and its count (R337). Reset none. -/
  hbLast : Option Nat := none
  /-- Count of the last heartbeat, 32 bits (R337). Reset 0. -/
  hbCount : Nat := 0
  /-- Heartbeats have failed (R337). Reset false. -/
  hbFailed : Bool := false
  /-- `now` of that failure (R337). Reset 0. -/
  hbFailedAt : Nat := 0
  /-- Consecutive heartbeats of the twin with role active (R339) and with ARB disagreeing (R337). Reset 0. -/
  dualRun : Nat := 0
  /-- Consecutive heartbeats that disagree with ARB (R337). Reset 0. -/
  arbDisagree : Nat := 0
  /-- Mirroring (R342), and `now` at which it entered that state (R345). Reset stopped, 0. -/
  mirror : Mirror := .stopped
  /-- `now` at which mirroring entered its state (R345). Reset 0. -/
  mirrorSince : Nat := 0
  /-- Mirror sequence sent last, or applied last on a standby, 32 bits (R342). Reset 0: DESIGN CHOICE, log entry 12. -/
  mseq : Nat := 0
  /-- The next own ledger record to mirror, 32 bits (R340). Reset 0. -/
  ledgerSent : Nat := 0
  /-- `now` at the last pulses of a pair reset (R345). Reset none. -/
  pulsesAt : Option Nat := none
  /-- Items of a mirrored write whose last message is still to come (R343). Reset none. -/
  parts : List HeldWrite := []
  /-- Mirrored changes that wait for a mirrored commit to settle (R341). Reset none. -/
  later : List MirrorOp := []
  /-- The snapshot being received (R342). Reset none. -/
  snapshot : Option Snapshot := none
  /-- The manual switch in progress (R344). Reset none. -/
  switch : Option Switch := none
  /-- A hand-over accepted by this unit as the twin: T_f (R344). Reset none. -/
  takeAt : Option Nat := none
  /-- `now` before which ARB is not taken (R344). Reset 0. -/
  holdOff : Nat := 0
  /-- Mirrored key states per group: the 128-bit field and `MULTI` (R341). Reset none. -/
  keys : Tbl (BitVec 128 × Bool) := []
  /-- The twin is incompatible (R337). Reset false. -/
  incompatible : Bool := false
  /-- The fault of the pair link is raised (R337). Reset false. -/
  linkRaised : Bool := false
  deriving DecidableEq, Repr

/-! ## Memory (10_memory.md) -/

/-- Channel states, in the order of R260. -/
inductive ChanState where
  | absent | training | run | selfRefresh | frozen | retired
  deriving DecidableEq, Repr

/-- One rank of a channel (R246). -/
structure RankSt where
  /-- Last readout of mode register 4 in °C, and whether there was one since the start (R246, R381). Reset 25 °C: DESIGN
  CHOICE, log entry 12; none. -/
  temp : Int := 25
  /-- There was a readout since the start (R381). Reset false. -/
  read : Bool := false
  /-- The rank has been above 85 °C and not yet cool for 1 s, and since when it is at or below 82 °C (R246). Reset no. -/
  hot : Bool := false
  /-- Since when it is at or below 82 °C, `now` (R246). Reset none. -/
  coolSince : Option Nat := none
  /-- Refresh at 2× (R246, R381). Reset 2× (R381). -/
  doubled : Bool := true
  /-- Postponed refresh intervals, at most 4 (R244). Reset 0. -/
  postponed : Nat := 0
  deriving DecidableEq, Repr

/-- One entry of a freeze capture (R252). -/
structure CaptureEntry where
  /-- Command (R252). -/
  cmd : Nat := 0
  /-- Rank (R252). -/
  rank : Nat := 0
  /-- Bank group (R252). -/
  bankGroup : Nat := 0
  /-- Bank (R252). -/
  bank : Nat := 0
  /-- Row (R252). -/
  row : Nat := 0
  /-- Master group (R252). -/
  master : Nat := 0
  /-- Class (R252). -/
  cls : Nat := 0
  /-- Memory clock (R252). -/
  clock : Nat := 0
  deriving DecidableEq, Repr

/-- One DDR5 channel. -/
structure ChanRun where
  /-- State (R260). Reset `TRAINING`. -/
  state : ChanState := .training
  /-- Size in MiB, 16 bits, and rate in MT/s, 16 bits, as trained (R240). Reset 0: not trained. -/
  sizeMiB : Nat := 0
  /-- Rate in MT/s, 16 bits (R240). Reset 0: not trained. -/
  rate : Nat := 0
  /-- Compatibility mode in force, and fixed-delay operation (R255, R248). Reset no. -/
  compat : Bool := false
  /-- Fixed-delay operation (R248). Reset false. -/
  fixed : Bool := false
  /-- Its second rank carries data, or is kept in self-refresh and never selected (R240). Reset no: not trained. -/
  twoRanks : Bool := false
  /-- Its second rank is kept in self-refresh and never selected (R240). Reset false. -/
  idleRank : Bool := false
  /-- Ranks (R240, R246). -/
  ranks : Tbl RankSt := []
  /-- Corrections, corrections of the hour, uncorrectable errors, freezes, replays and pauses, 32 bits each (R251, R256,
  R260). Reset 0. -/
  corrections : Nat := 0
  /-- `now` times of the corrections of the last hour (R256). Reset none. -/
  corrTimes : List Nat := []
  /-- `now` of the last `MEM_CE_THRESHOLD` (R256). Reset none. -/
  ceAt : Option Nat := none
  /-- Uncorrectable errors, 32 bits (Table 12-13). Reset 0. -/
  uncorrectable : Nat := 0
  /-- Freezes, 32 bits (Table 12-13). Reset 0. -/
  freezes : Nat := 0
  /-- Replays, 32 bits (Table 12-13). Reset 0. -/
  replays : Nat := 0
  /-- Retraining pauses, 32 bits (Table 12-13). Reset 0. -/
  pauses : Nat := 0
  /-- `now` times of the freezes of the last 10 minutes, and `now` of the last (R253). Reset none, 0. -/
  freezeTimes : List Nat := []
  /-- `now` of the last freeze (R253). Reset 0. -/
  frozenAt : Nat := 0
  /-- Post-package repairs used by bank group, at key 8 × rank + bank group, and a row found without any left (R256).
  Reset none, no. -/
  repairsUsed : Tbl Nat := []
  /-- A row was found with no repair left (R256). Reset false. -/
  repairShort : Bool := false
  /-- `now` times of the corrections of each row in 24 h (R256), at key rank + 2 × (bank group + 8 × (bank + 4 × row)).
  Reset none. -/
  rowHits : Tbl (List Nat) := []
  /-- Panic time in ns at the last read (R260). Reset 0. -/
  panicRead : Nat := 0
  /-- Interval to the next retraining pause in ms, `now` and readout at the last pause, and a pause that is due (R247).
  Reset 0: set at training. -/
  interval : Nat := 0
  /-- `now` of the last pause (R247). Reset 0. -/
  lastPause : Nat := 0
  /-- Readout at the last pause, °C (R247). Reset 25 °C: DESIGN CHOICE, log entry 12. -/
  pauseTemp : Int := 25
  /-- A pause is due (R247). Reset false. -/
  pauseDue : Bool := false
  /-- The fixed-delay table taken at training, and the entry whose delays are in force (R248). Reset none: not trained. -/
  table : Option Bytes := none
  /-- The entry of Table 10-2 in force (R248). Reset none. -/
  delay : Option Bytes := none
  /-- The requests that wait, in the order in which the channel serves them (R243). Reset none. -/
  queue : List MemReq := []
  /-- Commands captured at the last freeze, at most 64 (R252). Reset none. -/
  capture : List CaptureEntry := []
  deriving DecidableEq, Repr

/-- Memory. -/
structure MemSt where
  /-- DRAM content: rising addresses, no entry equal to what an unlisted address reads as (R241). Reset empty; an
  unlisted byte reads as zero: DESIGN CHOICE, log entry 13. -/
  dram : List Host.Cell := []
  /-- 8 channels (10). Reset: `ChanRun`. -/
  chans : Tbl ChanRun := []
  /-- `MEM_POLICY_SET`, 16 bytes (Table 10-5). Reset: that table. -/
  policy : Option (BitVec 128) := none
  /-- Word 2 of the policy in force since the last reset that applies it (R260). -/
  regions : Option Word := none
  /-- Fixed-delay tables in flash by channel (R248). Reset none. -/
  delays : Tbl Bytes := []
  /-- Bytes that debug accesses have written to Teller's private SRAM, 4 MiB (Table 10-3, R369), by place; what others hold is
  firmware's own (log entry 58). Reset none. -/
  teller : Tbl Nat := []
  /-- Channels of the map by which the content of DRAM is laid (R241). Reset none: no map. -/
  laid : List Nat := []
  /-- All channels in self-refresh (R250). Reset false. -/
  selfRefresh : Bool := false
  /-- `now` at the last DRAM request (R250). Reset 0. -/
  lastReq : Nat := 0
  /-- Since when panic is raised, `now`, and the ns spent in panic before (R244, R260). Reset none, 0. -/
  panicFrom : Option Nat := none
  /-- ns spent in panic before (R260). Reset 0. -/
  panicNs : Nat := 0
  /-- The retirement of a channel in service waits for its remap (R254). Reset none. -/
  remapDue : Option Nat := none
  deriving DecidableEq, Repr

/-! ## Faults and safe state (13_faults_and_safe_state.md) -/

/-- A record of the Auditor's fault log (R301). -/
structure FaultRec where
  /-- Coded message, 32 bits (Table 13-3). -/
  msg : Nat
  /-- Severity, 0 to 4. -/
  severity : Nat
  /-- Room time, 64 bits. -/
  time : Nat
  deriving DecidableEq, Repr

/-- Safe state (R306, R309). -/
structure SafeSt where
  /-- Coded message of the first fault (R309). -/
  msg : Nat
  /-- Its severity (R309). -/
  severity : Nat
  /-- `now` of entry (R310). -/
  since : Nat
  /-- Further faults (R309). -/
  faults : Nat
  deriving DecidableEq, Repr

/-- A fault source that is active (R299, R300). -/
structure ActiveFault where
  /-- Source id, 8 bits (R298). -/
  source : Nat
  /-- Parameter (Table 13-3). -/
  param : Nat
  /-- Severity when it was raised (R302). -/
  severity : Nat
  /-- `now` when it was raised (R300). -/
  since : Nat
  /-- Coded message (Table 13-3). -/
  msg : Nat
  deriving DecidableEq, Repr

/-- Faults, safe state and service. -/
structure FaultSt where
  /-- Severities set by `FAULT_SEVERITY_SET` (R302). Reset: Tables 13-1 and 13-2. -/
  severity : Tbl Nat := []
  /-- Dual-rail signals of 16 sources: (positive, negative) (R299). Reset (0, 1) healthy: DESIGN CHOICE, log entry 12. -/
  rails : Tbl (Bool × Bool) := []
  /-- The unit a dual-rail source is in fault for, 16 bits (R298). Reset 0. -/
  railInst : Tbl Nat := []
  /-- `now` since which a dual-rail source reads healthy (R299). Reset 0. -/
  healthySince : Tbl Nat := []
  /-- Sources that are active (R299, R300). Reset none. -/
  active : List ActiveFault := []
  /-- Fault log, oldest first, at most 1,024 (R301). Reset empty. -/
  log : List FaultRec := []
  /-- `now` times of each source's messages in the last 10 s (R301). Reset none. -/
  bursts : Tbl (List Nat) := []
  /-- Safe state (R306). Reset none. -/
  safe : Option SafeSt := none
  /-- An accepted exit waiting for the next room frame start: port, session (R310). Reset none. -/
  exit : Option (Nat × Nat) := none
  /-- `AUDITOR_LOCKSTEP` or `FABRIC_WATCHDOG` raised since the last reset (R310). Reset false. -/
  auditorBad : Bool := false
  /-- An AUDITOR reset is due, 10 ms after entry, for a fault: `now` and source (R304). Reset none. -/
  resetDue : Option (Nat × Nat) := none
  /-- ALIVE toggles (R311). Reset false. -/
  alive : Bool := false
  /-- Service causes, 9 bits, in flash (R313). Reset 0: DESIGN CHOICE for an empty flash, log entry 12. -/
  service : BitVec 9 := 0
  /-- Adaptive loops held at a limit, 4 bits (R314). Reset 0. -/
  override : BitVec 4 := 0
  /-- `HEALTH_SEQ`, 32 bits (R396). Reset 0. -/
  healthSeq : Nat := 0
  /-- The health words as last reported (R303, R396). Reset zero. -/
  healthSeen : List Nat := []
  /-- Hours with a junction above 105 °C, in ms, in flash (R316). Reset 0. -/
  hotMs : Nat := 0
  /-- Held in reset: by a thermal trip, by a tamper monitor, or for good by a failed SRAM or firmware check. -/
  thermalHold : Bool := false
  /-- Held in reset by a tamper monitor: `now` at which it was released (R357). Reset none. -/
  tamperHold : Option Nat := none
  /-- Held in reset for good by a failed SRAM or firmware check (R352). Reset false. -/
  dead : Bool := false
  deriving DecidableEq, Repr

/-! ## Protection (16_protection_and_secrets.md) and Tally (14) -/

/-- Lifecycle states (Table 16-1). -/
inductive Lifecycle where
  | manufacture | develop | field | retired
  deriving DecidableEq, Repr

/-- A firmware image (R351): its version, its CRC, its bytes. -/
structure Image where
  /-- Security version (R351). -/
  version : Nat := 0
  /-- CRC of the image (R331). -/
  crc : Nat := 0
  /-- The image. -/
  bytes : Bytes := ⟨0, 0⟩
  deriving DecidableEq, Repr

/-- A debug session (R368). -/
structure DebugSt where
  /-- Challenge outstanding (R368). Reset none. -/
  challenge : Option Nat := none
  /-- `now` since which a session is open (R368). Reset none. -/
  openSince : Option Nat := none
  /-- Failed answers (R368). Reset 0. -/
  failures : Nat := 0
  deriving DecidableEq, Repr

/-- A notice of denied writes (R364). -/
structure Notice where
  /-- Set of the region (R364). -/
  set : Nat := 0
  /-- Writes denied (R364). -/
  count : Nat := 0
  /-- 4 KiB window of the first (R364). -/
  window : Nat := 0
  /-- `now` of the first (R364). -/
  openedAt : Nat := 0
  deriving DecidableEq, Repr

/-- One master group's protection unit (R359, R365). -/
structure MpuGroup where
  /-- Regions at key 32 × set + region: base, log2 size, attributes (R, W, secure). Reset: R361. -/
  regions : Tbl (BitVec 128) := []
  /-- Live set, 0 or 1 (Table 12-13). Reset 0. -/
  live : Nat := 0
  /-- `MPU_EPOCH`, 32 bits (Table 18-6). Reset 0. -/
  epoch : Nat := 0
  /-- The group has drained since the last change (R362). Reset true. -/
  drained : Bool := true
  /-- `SPEC_DENIED`, 32 bits (R363). Reset 0. -/
  spec : Nat := 0
  /-- The notice being collected (R364). Reset none. -/
  noticeOpen : Option Notice := none
  /-- Notices, 32 bits (Table 18-6). Reset 0. -/
  notices : Nat := 0
  /-- The last notice (Table 18-6). Reset zero. -/
  lastNotice : Notice := {}
  /-- Writes discarded in NIGHT or by a frozen channel (R252, R376). Reset 0. -/
  discarded : Nat := 0
  deriving DecidableEq, Repr

/-- A Tally job or context (Tables 14-5, 14-6). -/
structure TallyCtx where
  /-- `COMPARE` (Table 14-5). -/
  compare : Bool := false
  /-- `REF_IN` (Table 14-5). -/
  refIn : Bool := false
  /-- `REF_OUT` (Table 14-5). -/
  refOut : Bool := false
  /-- `XOR_OUT` (Table 14-5). -/
  xorOut : Bool := false
  /-- Width, 8, 16 or 32 (Table 14-5). -/
  width : Nat := 32
  /-- Polynomial, 32 bits (Table 14-5). -/
  poly : Nat := 0
  /-- Address, 64 bits (Table 14-5). -/
  addr : Nat := 0
  /-- Bytes that remain, 32 bits (Table 14-6). -/
  remaining : Nat := 0
  /-- Register, 32 bits (Table 14-6). -/
  reg : Nat := 0
  /-- Expected value, 32 bits (Table 14-5). -/
  expected : Nat := 0
  deriving DecidableEq, Repr

/-- One Tally engine. -/
structure TallyRun where
  /-- 0 idle, 1 running, 2 done (Table 12-13). Reset idle. -/
  state : Nat := 0
  /-- Context of the job (Table 14-6). Reset zero. -/
  ctx : TallyCtx := {}
  /-- Port of the job, tag of the request, whether its response is held. -/
  port : Nat := 0
  /-- Tag of the request, and whether its response is held (R328). Reset none. -/
  tag : Option (Nat × Bool) := none
  /-- Last result, 32 bits (Table 12-13). Reset 0. -/
  result : Nat := 0
  /-- Mismatches, 32 bits as read (Table 12-13). Reset 0. -/
  mismatches : Nat := 0
  deriving DecidableEq, Repr

/-- Lifecycle, Vault, MPUs, debug and Tally. -/
structure SecSt where
  /-- Lifecycle in OTP (R349). Reset MANUFACTURE: DESIGN CHOICE for an unprogrammed part, log entry 12. -/
  lifecycle : Lifecycle := .manufacture
  /-- An accepted advance waiting for a reset: state and port (R349). Reset none. -/
  lifecycleNext : Option (Lifecycle × Nat) := none
  /-- OTP fields written: prodHash 0, devHash 1, provKey 2, debugKey 3, secVersion 4 (R350). Reset unprogrammed. -/
  otp : Tbl Nat := []
  /-- OTP keys are destroyed (R350). Reset false. -/
  keysDestroyed : Bool := false
  /-- The image that runs (R352). Reset: DESIGN CHOICE, log entry 15. -/
  running : Image := {}
  /-- The image staged in flash (R351). Reset none: DESIGN CHOICE, log entry 15. -/
  staged : Option Image := none
  /-- Result of the last staging (Table 12-13). Reset 0. -/
  stageStatus : Nat := 0
  /-- 64 Vault slots (R353). Reset empty. -/
  slots : Tbl Nat := []
  /-- Vault regions 0 to 7: enable, base, size (R355). Reset disabled. -/
  vault : Tbl (BitVec 160) := []
  /-- Regions whose bursts are being rewritten (R355). Reset none. -/
  rewriting : List Nat := []
  /-- XTS key generation: which POR made the key (R354). Reset 0. -/
  xtsKey : Nat := 0
  /-- `now` times of tamper resets of the last 10 min, and their count in this power cycle (R358). Reset none. -/
  tamperTimes : List Nat := []
  /-- Tamper resets of this power cycle, 8 bits (R358). Reset 0. -/
  tamperCount : Nat := 0
  /-- The Vault is locked (R358). Reset false. -/
  vaultLocked : Bool := false
  /-- Debug (R368). Reset: closed. -/
  dbg : DebugSt := {}
  /-- 9 master groups (R359). Reset: `MpuGroup`. -/
  mpu : Tbl MpuGroup := []
  /-- 2 Tally engines (R328). Reset: idle. -/
  tally : Tbl TallyRun := []
  /-- JTAG instruction in force (R367): 0 BYPASS, 1 IDCODE, 2 SAMPLE, 3 EXTEST, 4 INTEST, 5 OTP_READ, 6 OTP_PROGRAM.
  Reset IDCODE: PRESUMED, log entry 14. -/
  jtag : Nat := 1
  /-- `now` at which a halt of Teller was honoured (R369). Reset none: it runs. -/
  halted : Option Nat := none
  deriving DecidableEq, Repr

/-! ## Power, clocks and reset (17_power_clocks_reset.md) -/

/-- Power states, in the order of Table 17-2. -/
inductive PowerState where
  | run | dim | night | off
  deriving DecidableEq, Repr

/-- One power domain. -/
structure DomainSt where
  /-- On (R370). Reset off; start step 7 turns on what is needed (R383). -/
  on : Bool := false
  /-- Regulator voltage in units of 0.5 mV (R370, R372). Reset 770 mV, the midpoint of the fuse window (R381). -/
  hmv : Nat := 1540
  /-- Clock in eighths of full clock (R374). Reset 8. -/
  clock : Nat := 8
  /-- When the clock last changed, for the 10 ms of a release (R374). -/
  clockAt : Nat := 0
  /-- Lower envelope of voltage, 16 bits, mV (R314). Reset 680 (Table 13-6). -/
  loMv : Nat := 680
  /-- Upper envelope of voltage, 16 bits, mV (R314). Reset 860 (Table 13-6). -/
  hiMv : Nat := 860
  /-- Lower envelope of the throttle threshold, °C (R374). Reset 95 (R374). -/
  loC : Nat := 95
  /-- Upper envelope of the throttle threshold, °C (R374). Reset 100 (R374). -/
  hiC : Nat := 100
  /-- A safety limit is held (R314). Reset false. -/
  heldLimit : Bool := false
  /-- The clock is throttled (R374). Reset false. -/
  throttled : Bool := false
  /-- Junction temperature, °C (R374). Reset 25: DESIGN CHOICE, log entry 12. -/
  temp : Int := 25
  deriving DecidableEq, Repr

/-- A power transition in progress (R375 to R377). -/
structure Transition where
  /-- Target state (R375). -/
  target : PowerState
  /-- DIM mask, 32 bits (R375). -/
  mask : Nat
  /-- Wake cause (R377). -/
  wake : Nat
  /-- Step reached (R376). -/
  step : Nat
  deriving DecidableEq, Repr

/-- A flash write in progress (R289): port, tag, opcode of its message and what it stores. -/
structure FlashJob where
  /-- Port of its message (R289). -/
  port : Nat
  /-- The message (R289). -/
  req : Request
  /-- Image it stores (R351). -/
  image : Option Image := none
  deriving DecidableEq, Repr

/-- Power, clocks and resets. -/
structure PowerSt where
  /-- Power state (Table 17-2). Reset RUN (R381). -/
  state : PowerState := .run
  /-- DIM mask in force (R375). Reset 0. -/
  mask : Nat := 0
  /-- State and mask to return to from NIGHT (R376). Reset RUN, 0. -/
  back : PowerState := .run
  /-- DIM mask to return to from NIGHT (R376). Reset 0. -/
  backMask : Nat := 0
  /-- The transition in progress (R375). Reset none. -/
  transition : Option Transition := none
  /-- Last wake cause, 8 bits (R377). Reset 0xFF: none. -/
  lastWake : Nat := 0xFF
  /-- 26 power domains (Table 17-1). Reset: `DomainSt`. -/
  domains : Tbl DomainSt := []
  /-- `WAKE_SOURCES_SET`: mask, alarm (R377). Reset 0: DESIGN CHOICE, log entry 12. -/
  wakeMask : Nat := 0
  /-- Alarm of `WAKE_SOURCES_SET`, 64 bits (R377). Reset 0: DESIGN CHOICE, log entry 12. -/
  alarm : Nat := 0
  /-- `RESET_KIND` by rank, and its detail (R393). Reset 1 (Table 18-2), 0. -/
  resetKind : Nat := 1
  /-- `RESET_DETAIL`, 8 bits (R393). Reset 0 (Table 18-2). -/
  resetDetail : Nat := 0
  /-- Last completed start step, and start complete (R383). Reset 0, false (Table 18-2). -/
  step : Nat := 0
  /-- Start is complete (R383). Reset false (Table 18-2). -/
  started : Bool := false
  /-- The device starts in safe state: the coded message of the last AUDITOR reset's cause (R304). Reset none. -/
  startInSafe : Option Nat := none
  /-- `now` at the release of the reset, and at the last start of Teller (R383, R393). Reset 0. -/
  resetAt : Nat := 0
  /-- `now` at the start of Teller firmware, from which `TELLER_BEAT` counts (R393). Reset none. -/
  tellerAt : Option Nat := none
  /-- `now` times of AUDITOR resets of the last 10 min (R304). Reset none. -/
  auditorTimes : List Nat := []
  /-- Ledger records Teller firmware writes at start step 4 for what the last resets did: code and parameters (R141,
  R357, R381 and others). Reset none. -/
  due : List (Nat × List Nat) := []
  /-- Coded fault messages sent at start step 4 (R357, Table 13-2). Reset none. -/
  dueFaults : List Nat := []
  /-- A WARM reset is due: the port that asked (R291). Reset none. -/
  warmDue : Option Nat := none
  /-- A start that re-examines the service causes is in progress: POR, PIN or WARM (R313). Reset true: POR. -/
  reexamine : Bool := true
  /-- PERST# of each PCI Express port is high (R384). Reset low. -/
  perst : BitVec 2 := 0
  /-- The flash write in progress (R289). Reset none. -/
  flash : Option FlashJob := none
  deriving DecidableEq, Repr

/-! ## The whole state -/

/-- The state of the block. -/
structure State where
  /-- Commands waiting, first in first out. Reset empty. -/
  pending : List Instr := []
  /-- Room time and clocks (02). Reset: `TimeSt`. -/
  time : TimeSt := {}
  /-- The ledger (14). Reset: `LedgerSt`. -/
  ledger : LedgerSt := {}
  /-- Mailboxes (11). Reset: `MailSt`. -/
  mail : MailSt := {}
  /-- Configuration sets and commits (05). Reset: `SetsSt`. -/
  sets : SetsSt := {}
  /-- Sources and surfaces (02, 03). Reset: `SourcesSt`. -/
  src : SourcesSt := {}
  /-- Composition, tile book, assay (01, 04). Reset: `ComposeSt`. -/
  comp : ComposeSt := {}
  /-- 24 wall heads (06). -/
  heads : Tbl HeadRun := []
  /-- 8 console panels (07). -/
  panels : Tbl PanelRun := []
  /-- Host initialisation entries of each panel (R185). Reset none. -/
  panelInit : Tbl Bytes := []
  /-- 8 key groups (07). -/
  keys : Tbl KeyGroup := []
  /-- Factory references in flash: 24 raw values and a CRC per group (R193). Reset none. -/
  keyRef : Tbl KeyRef := []
  /-- 16 encode jobs: fields (Table 8-1) and run state (08). -/
  encJobs : Tbl EncDesc := []
  /-- 16 encode jobs as they run (08). Reset: `EncRun`. -/
  enc : Tbl EncRun := []
  /-- Lanes and links (09). Reset: `LinksSt`. -/
  links : LinksSt := {}
  /-- The pair (15). Reset: `PairSt`. -/
  pair : PairSt := {}
  /-- Memory (10). Reset: `MemSt`. -/
  mem : MemSt := {}
  /-- Faults and safe state (13). Reset: `FaultSt`. -/
  fault : FaultSt := {}
  /-- Protection and Tally (14, 16). Reset: `SecSt`. -/
  sec : SecSt := {}
  /-- Power and reset (17). Reset: `PowerSt`. -/
  power : PowerSt := {}
  /-- What the block sent or drove while the last command was carried out (the model's own; log entry 2). Reset none. -/
  out : List Tx := []
  /-- The model's own counter, to which the free values of Config are applied (log entry 3). Reset 0: DESIGN CHOICE. -/
  draw : Nat := 0
  deriving DecidableEq, Repr

/-- The K7's manual names nothing that stops the block for good without a state to show it: a device held in reset is a
state (`FaultSt.dead`). No meaning raises a fault. -/
inductive Fault where
  /-- Kept for the interface; no command raises it. Safe: nothing can be proved from it. -/
  | none
  deriving DecidableEq, Repr

/-- Why a command has no meaning. -/
inductive Refusal where
  /-- Raised by the dispatch of a command not modelled yet. Safe: the model stops where the hardware goes on. -/
  | notModelled (mnemonic : String)
  deriving DecidableEq, Repr

/-- The machine at the release of the first power-on reset (R379 to R383): nothing started, every host-visible item at
its default, flash empty. -/
def State.reset : State := {}

end Sys2Proof.Machine
end

