-- ==== Sys2Proof/Machine/Table.lean ====
section
/-!
DEFINITION. Operations on sparse tables (`Tbl`) and on short lists: reading with a default, writing in canonical form,
removing. A table never lists an entry that equals the default its reader names.
-/
namespace Sys2Proof

/-- The entry at a key, if the table lists one. -/
def Tbl.find {α : Type} (t : Tbl α) (k : Nat) : Option α :=
  match t with
  | [] => none
  | (k', v) :: r => if k' = k then some v else Tbl.find r k

/-- What a key reads as: its entry, or the default. -/
def Tbl.get {α : Type} (t : Tbl α) (d : α) (k : Nat) : α := (Tbl.find t k).getD d

/-- Whether the table lists a key. -/
def Tbl.has {α : Type} (t : Tbl α) (k : Nat) : Bool := (Tbl.find t k).isSome

/-- List a value at a key, keys rising. -/
def Tbl.put {α : Type} (t : Tbl α) (k : Nat) (v : α) : Tbl α :=
  match t with
  | [] => [(k, v)]
  | (k', v') :: r =>
    if k < k' then (k, v) :: (k', v') :: r
    else if k = k' then (k, v) :: r
    else (k', v') :: Tbl.put r k v

/-- Remove a key. -/
def Tbl.del {α : Type} (t : Tbl α) (k : Nat) : Tbl α :=
  match t with
  | [] => []
  | (k', v') :: r => if k' = k then Tbl.del r k else (k', v') :: Tbl.del r k

/-- Write a value: the default removes the entry, any other value lists it. -/
def Tbl.set {α : Type} [DecidableEq α] (t : Tbl α) (d : α) (k : Nat) (v : α) : Tbl α :=
  if v = d then Tbl.del t k else Tbl.put t k v

/-- Change the value at a key by a function of what it reads as. -/
def Tbl.upd {α : Type} [DecidableEq α] (t : Tbl α) (d : α) (k : Nat) (f : α → α) : Tbl α :=
  Tbl.set t d k (f (Tbl.get t d k))

/-- Change every listed value, dropping those that become the default. -/
def Tbl.mapAll {α : Type} [DecidableEq α] (t : Tbl α) (d : α) (f : Nat → α → α) : Tbl α :=
  (t.map (fun e => (e.1, f e.1 e.2))).filter (fun e => decide (e.2 ≠ d))

/-- List a value at a key, or remove the key. -/
def Tbl.opt {α : Type} (t : Tbl α) (k : Nat) (v : Option α) : Tbl α :=
  match v with
  | some v => Tbl.put t k v
  | none => Tbl.del t k

/-- The canonical form: keys strictly rising, no entry equal to the default. -/
def Tbl.canon {α : Type} [DecidableEq α] (d : α) : Tbl α → Bool
  | [] => true
  | [(_, v)] => decide (v ≠ d)
  | (k, v) :: (k', v') :: r => decide (k < k') && decide (v ≠ d) && Tbl.canon d ((k', v') :: r)

/-- Fold a state change over a list, first element first. -/
def each {σ α : Type} (l : List α) (s : σ) (f : σ → α → σ) : σ := l.foldl f s

/-- The numbers below `n`, rising. -/
def upTo (n : Nat) : List Nat := List.range n

/-- The `n` numbers from `a`. -/
def from' (a n : Nat) : List Nat := (List.range n).map (a + ·)

/-- How many elements of a list satisfy a test. -/
def countIf {α : Type} (l : List α) (p : α → Bool) : Nat := (l.filter p).length

/-- The sum of a list. -/
def sumOf (l : List Nat) : Nat := l.foldl (· + ·) 0

/-- The largest of a list of integers, 0 for none. -/
def maxInt (l : List Int) : Int :=
  match l with
  | [] => 0
  | x :: r => r.foldl max x

/-- Add a number to a list of distinct numbers, kept rising. -/
def insertNat (l : List Nat) (k : Nat) : List Nat :=
  match l with
  | [] => [k]
  | x :: r => if k < x then k :: x :: r else if k = x then x :: r else x :: insertNat r k

/-- Put an element before the first one it does not come after. -/
def insertBy {α : Type} (le : α → α → Bool) (x : α) : List α → List α
  | [] => [x]
  | y :: r => if le x y then x :: y :: r else y :: insertBy le x r

/-- A list in order; elements of equal rank keep theirs. -/
def sortBy {α : Type} (le : α → α → Bool) : List α → List α
  | [] => []
  | x :: r => insertBy le x (sortBy le r)

/-- Numbers of a bit mask, rising. -/
def maskBits (n mask : Nat) : List Nat := (List.range n).filter (fun i => mask.testBit i)

/-- The mask that has the bits of a list. -/
def maskOf (l : List Nat) : Nat := l.foldl (fun m i => m ||| 1 <<< i) 0

end Sys2Proof
end

