-- ==== Sys2Proof/Machine/Operands.lean ====
section
/-!
DEFINITION. Every operand form the spec gives: the fields of the descriptors (named as in their tables), their reset
values, the payload forms of R285 and R286, and the room a response has (R267).
-/
namespace Sys2Proof.Machine

/-- 32-bit words as an n-bit descriptor, word 0 lowest. -/
def ofWords (n : Nat) (l : List Nat) : BitVec n := BitVec.ofNat n (wordsLE l).val

/-! ## Statuses (R284, Table 12-1) -/

def stOk : Nat := 0x0000
def stBusy : Nat := 0x0001
def stVersion : Nat := 0x0002
def stDenied : Nat := 0x0003
def stNoResource : Nat := 0x0004
def stZeroField : Nat := 0x0005
def stLinebufShort : Nat := 0x0006
def stDeferred : Nat := 0x0007
def stStale : Nat := 0x0008
def stBadLength : Nat := 0x0009
def stNotSupported : Nat := 0x000A
def stLiveCrowded : Nat := 0x0100
def stRoomAborted : Nat := 0x0101
def stStandby : Nat := 0x0102
def stFlashFailed : Nat := 0x0103

/-! ## Source descriptor (Table 2-3) -/

def srcMotion (d : SrcDesc) : Bool := bit d 0 31
def srcAnnex (d : SrcDesc) : Bool := bit d 0 30
def srcRestart (d : SrcDesc) : Nat := fld d 0 29 28
def srcArrivalOnly (d : SrcDesc) : Bool := bit d 0 27
def srcSsrcMatch (d : SrcDesc) : Bool := bit d 0 26
def srcRtcpRr (d : SrcDesc) : Bool := bit d 0 25
def srcPort (d : SrcDesc) : Nat := fld d 0 23 16
def srcKind (d : SrcDesc) : Nat := fld d 0 3 0
def srcLossTimeout (d : SrcDesc) : Nat := fld d 1 31 16
def srcFreezeFrames (d : SrcDesc) : Nat := fld d 1 15 0
def srcPeriod (d : SrcDesc) : Nat := fld d 2 23 0
def srcJitter (d : SrcDesc) : Nat := fld d 3 31 16
def srcAssumedAge (d : SrcDesc) : Nat := fld d 3 15 0
/-- `GROUP_ADDR` as a number, its first byte in network order the most significant (R61). -/
def srcGroup (d : SrcDesc) : Nat :=
  (Bytes.toList ⟨16, fld128 d 4⟩).foldl (fun a b => a * 256 + b) 0
/-- `SOURCE_FILTER`, in network order. -/
def srcFilter (d : SrcDesc) : Nat :=
  (Bytes.toList ⟨16, fld128 d 8⟩).foldl (fun a b => a * 256 + b) 0
def srcPayloadType (d : SrcDesc) : Nat := fld d 12 22 16
def srcUdpPort (d : SrcDesc) : Nat := fld d 12 15 0
def srcSsrc (d : SrcDesc) : Nat := fld d 13 31 0
def srcNtp64 (d : SrcDesc) : Nat := fld d 14 29 24
def srcTsRef (d : SrcDesc) : Nat := fld d 14 21 20
def srcSrtp (d : SrcDesc) : Nat := fld d 14 17 16
def srcKeySlot (d : SrcDesc) : Nat := fld d 14 7 0
def srcMediaclk (d : SrcDesc) : Nat := fld d 15 31 0

/-- Kinds of Table 2-3: OFF, RTP H.264, RTP H.265, KINIK, HOST. -/
def kindOff : Nat := 0
def kindH264 : Nat := 1
def kindH265 : Nat := 2
def kindKinik : Nat := 3
def kindHost : Nat := 4
def kindIsRtp (k : Nat) : Bool := k == kindH264 || k == kindH265

def srcReset : SrcDesc :=
  ofWords 512 [0, 500 <<< 16 ||| 150, 40000, 40 <<< 16 ||| 100, 0, 0, 0, 0, 0, 0, 0, 0, 96 <<< 16, 0, 0, 0]

/-- Default age bound of R13: three nominal periods, rounded up to a millisecond, never below 100 ms. -/
def defaultBound (d : SrcDesc) : Nat := max 100 (ceilDiv (3 * srcPeriod d) 1000)

/-! ## Layer descriptor (Table 4-1) -/

def layEnable (d : LayerDesc) : Bool := bit d 0 31
def layLive (d : LayerDesc) : Bool := bit d 0 30
def layBlend (d : LayerDesc) : Nat := fld d 0 29 28
def layPremult (d : LayerDesc) : Bool := bit d 0 27
def layOutput (d : LayerDesc) : Nat := fld d 0 20 16
def laySource (d : LayerDesc) : Nat := fld d 0 15 8
def layZ (d : LayerDesc) : Nat := fld d 0 7 0
def layBuffer (d : LayerDesc) : Nat := fld d 1 19 18
def layStepExplicit (d : LayerDesc) : Bool := bit d 1 17
def layBoundDefault (d : LayerDesc) : Bool := bit d 1 16
def layAgeBound (d : LayerDesc) : Nat := fld d 1 15 0
def layCropY (d : LayerDesc) : Nat := fld d 2 31 16
def layCropX (d : LayerDesc) : Nat := fld d 2 15 0
def layCropH (d : LayerDesc) : Nat := fld d 3 31 16
def layCropW (d : LayerDesc) : Nat := fld d 3 15 0
def layDstY (d : LayerDesc) : Int := signed 16 (fld d 4 31 16)
def layDstX (d : LayerDesc) : Int := signed 16 (fld d 4 15 0)
def layDstH (d : LayerDesc) : Nat := fld d 5 31 16
def layDstW (d : LayerDesc) : Nat := fld d 5 15 0
def layStepXRaw (d : LayerDesc) : Nat := fld d 6 23 0
def layStepYRaw (d : LayerDesc) : Nat := fld d 7 23 0
def layPhaseY (d : LayerDesc) : Int := signed 16 (fld d 8 31 16)
def layPhaseX (d : LayerDesc) : Int := signed 16 (fld d 8 15 0)
def layAlpha (d : LayerDesc) : Nat := fld d 9 31 16
def layStriped (d : LayerDesc) : Bool := bit d 9 15
def layLead (d : LayerDesc) : Nat := fld d 9 9 0
def layTone (d : LayerDesc) : Nat := fld d 10 21 16
def layRange (d : LayerDesc) : Nat := fld d 10 13 12
def layMatrix (d : LayerDesc) : Nat := fld d 10 11 8
def layTransfer (d : LayerDesc) : Nat := fld d 10 7 4
def layPrimaries (d : LayerDesc) : Nat := fld d 10 3 0

def layerReset : LayerDesc :=
  ofWords 512 [1 <<< 30, 1 <<< 16, 0, 0, 0, 0, 0, 0, 0, 0xFFFF <<< 16, 0, 0, 0, 0, 0, 0]

/-- A scaler step in units of 2^-20 (R102): as written, or the crop over the destination rounded half up. -/
def scaleStep (explicit : Bool) (raw crop dst : Nat) : Nat :=
  if explicit then raw else if dst = 0 then 0 else (2 * (crop <<< 20) + dst) / (2 * dst)

def layStepX (d : LayerDesc) : Nat := scaleStep (layStepExplicit d) (layStepXRaw d) (layCropW d) (layDstW d)
def layStepY (d : LayerDesc) : Nat := scaleStep (layStepExplicit d) (layStepYRaw d) (layCropH d) (layDstH d)

/-- The exact source position of R102 for output position `x` of a destination, in units of 2^-21. -/
def sourcePos (crop0 : Nat) (phase : Int) (step x : Nat) : Int :=
  (crop0 : Int) * 2097152 + phase * 512 + ((2 * x + 1) * step : Nat) - 1048576

/-- The two samples beside a position in units of 1/`unit` and the weight in 1/64 of the second, clamped to `lo` to `hi`
(R102). -/
def tapsAt (unit : Nat) (p lo hi : Int) : Nat × Nat × Nat :=
  let i := Int.fdiv p unit
  let w := Int.fdiv ((p - i * unit) * 64 + ((unit / 2 : Nat) : Int)) unit
  let (i, w) := if w = 64 then (i + 1, 0) else (i, w)
  let clamp (v : Int) : Nat := (max lo (min v hi)).toNat
  (clamp i, clamp (i + 1), w.toNat)

/-- The two source samples and the weight of R102 for output position `x` of a destination. -/
def scaleTaps (crop0 cropN : Nat) (phase : Int) (step x : Nat) : Nat × Nat × Nat :=
  tapsAt 2097152 (sourcePos crop0 phase step x) crop0 ((crop0 + cropN : Nat) - 1)

/-- The same for a chroma plane at half resolution whose samples lie `off` half luma samples behind every other luma sample
(R103). -/
def chromaTaps (crop0 cropN : Nat) (phase : Int) (step off x : Nat) : Nat × Nat × Nat :=
  tapsAt 4194304 (sourcePos crop0 phase step x - ((off * 1048576 : Nat) : Int)) ((crop0 / 2 : Nat) : Int)
    (((crop0 + cropN - 1) / 2 : Nat) : Int)

/-- Offset of the chroma samples from the luma samples of a location type, in half luma samples: across, down (R103;
ITU-T H.273). -/
def chromaOffset (loc : Nat) : Nat × Nat :=
  (loc % 2, if loc < 2 then 1 else if loc < 4 then 0 else 2)

/-! ## Tone profile (R108) -/

/-- Point k of the identity curve, P[k] = 2^(−10 + k/4), in binary16. -/
def identityCurve (k : Nat) : Nat := ((5 + k / 4) <<< 10) + [0, 194, 424, 698].getD (k % 4) 0

/-- The identity matrix and curve (R108). -/
def toneReset : ToneProf :=
  (Bytes.join ([0x3C00, 0, 0, 0, 0x3C00, 0, 0, 0, 0x3C00].map (leBytes 2)
    ++ (List.range 65).map (fun k => leBytes 2 (identityCurve k)))).bits 1280

/-- Coefficient i of the gamut matrix and point k of the curve, binary16 codes. -/
def toneMatrix (t : ToneProf) (i : Nat) : Nat := Bytes.at (bytesOf t) (2 * i) 2
def tonePoint (t : ToneProf) (k : Nat) : Nat := Bytes.at (bytesOf t) (18 + 2 * k) 2

/-- A binary16 code that is finite. -/
def f16Finite (x : Nat) : Bool := bitsOf x 14 10 != 31
/-- A finite binary16 value in units of 2^-24, with its sign. -/
def f16Value (x : Nat) : Int :=
  let e := bitsOf x 14 10
  let m := bitsOf x 9 0
  let v : Nat := if e = 0 then m else (1024 + m) <<< (e - 1)
  if x.testBit 15 then -(v : Int) else v

/-! ## Output settings (Tables 6-1 and 7-1) -/

def isHead (o : Nat) : Bool := o < 24
def isPanel (o : Nat) : Bool := 24 ≤ o && o < 32

def outEnable (d : OutDesc) : Bool := bit d 0 31
def outColour (d : OutDesc) : Nat := fld d 0 29 28
def headBond (d : OutDesc) : Bool := bit d 0 30
def headWireRange (d : OutDesc) : Bool := bit d 0 27
def headHPol (d : OutDesc) : Bool := bit d 0 26
def headVPol (d : OutDesc) : Bool := bit d 0 25
def headHActive (d : OutDesc) : Nat := fld d 1 31 16
def headHTotal (d : OutDesc) : Nat := fld d 1 15 0
def headVActive (d : OutDesc) : Nat := fld d 2 31 16
def headVTotal (d : OutDesc) : Nat := fld d 2 15 0
def headHFront (d : OutDesc) : Nat := fld d 3 31 16
def headHSync (d : OutDesc) : Nat := fld d 3 15 0
def headVFront (d : OutDesc) : Nat := fld d 4 31 16
def headVSync (d : OutDesc) : Nat := fld d 4 15 0
def headPclk (d : OutDesc) : Nat := fld d 5 23 0

def panelTePol (d : OutDesc) : Bool := bit d 0 27
def panelBtaAck (d : OutDesc) : Bool := bit d 0 26
def panelLanes (d : OutDesc) : Nat := fld d 0 18 16
def panelAddrMode (d : OutDesc) : Nat := fld d 0 15 8
def panelFailLimit (d : OutDesc) : Nat := fld d 0 7 0
def panelHActive (d : OutDesc) : Nat := fld d 1 31 16
def panelVActive (d : OutDesc) : Nat := fld d 1 15 0
def panelMbps (d : OutDesc) : Nat := fld d 2 31 16
def panelTePeriod (d : OutDesc) : Nat := fld d 2 15 0
def panelWindow (d : OutDesc) : Nat := fld d 3 31 16
def panelRefreshMax (d : OutDesc) : Nat := fld d 3 15 0
def panelSleepOut (d : OutDesc) : Nat := fld d 4 15 0

/-- Background components, binary16. -/
def outBgR (d : OutDesc) : Nat := fld d 6 15 0
def outBgG (d : OutDesc) : Nat := fld d 6 31 16
def outBgB (d : OutDesc) : Nat := fld d 7 15 0

def headReset : OutDesc :=
  ofWords 512 [0, 3840 <<< 16 ||| 4400, 2160 <<< 16 ||| 2250, 176 <<< 16 ||| 88, 8 <<< 16 ||| 10, 594000]
def panelReset : OutDesc :=
  ofWords 512 [1 <<< 26 ||| 4 <<< 16 ||| 3, 2560 <<< 16 ||| 1600, 2500 <<< 16 ||| 16667, 14000 <<< 16 ||| 2000, 120]
def outReset (o : Nat) : OutDesc := if isHead o then headReset else panelReset

/-- Width and height of an output's active area. -/
def outW (o : Nat) (d : OutDesc) : Nat := if isHead o then headHActive d else panelHActive d
def outH (o : Nat) (d : OutDesc) : Nat := if isHead o then headVActive d else panelVActive d
/-- Tile columns, rows and tiles of an output (R114). -/
def outCols (o : Nat) (d : OutDesc) : Nat := ceilDiv (outW o d) 64
def outRows (o : Nat) (d : OutDesc) : Nat := ceilDiv (outH o d) 32
def outTiles (o : Nat) (d : OutDesc) : Nat := outCols o d * outRows o d

/-- Bytes of a full-panel push (R171). -/
def panelFullBytes (d : OutDesc) : Nat := panelVActive d * (3 * panelHActive d + 7) + 22

/-! ## Freshness item (Table 12-6) -/

def freshColour (f : FreshItem) (b : Bool) (c : Nat) : Nat := Bytes.at (bytesOf f) ((if b then 6 else 0) + 2 * c) 2
def freshScale (f : FreshItem) : Nat := Bytes.byte (bytesOf f) 12
def freshLimit (f : FreshItem) : Nat := Bytes.byte (bytesOf f) 13
def freshReset : FreshItem := ofWords 128 [0, 0x3C00 <<< 16, 0x3800, 3 <<< 8 ||| 2]

/-! ## Commit group (Table 5-2) -/

def grpMaster (g : GroupDesc) : Nat := fld g 0 23 16
def grpSettleDefault (g : GroupDesc) : Bool := bit g 0 15
def grpDeferLimit (g : GroupDesc) : Nat := fld g 0 7 0
def grpMask (g : GroupDesc) : Nat := fld g 1 31 0
def grpLine (g : GroupDesc) : Nat := fld g 2 15 0
def grpLead (g : GroupDesc) : Nat := fld g 3 15 0

/-- Group g after POR (R130). Groups 1 to 7 are empty. -/
def groupReset (g : Nat) : GroupDesc :=
  let (m, mask) := if g = 0 then (0, 0x00FFFFFF) else if 8 ≤ g then (16 + g, 1 <<< (16 + g)) else (0, 0)
  ofWords 128 [m <<< 16 ||| 1 <<< 15 ||| 3, mask, 0, 500]

/-! ## Key group (Tables 7-7 and 7-8) -/

def keyGrpEnable (d : KeyDesc) : Bool := bit d 0 31
def keyGlove (d : KeyDesc) : Bool := bit d 0 30
def keyStoredRef (d : KeyDesc) : Bool := bit d 0 29
def keyScanFloor (d : KeyDesc) : Nat := fld d 0 19 18
def keyScanHigh (d : KeyDesc) : Nat := fld d 0 17 16
def keyDebounce (d : KeyDesc) : Nat := fld d 0 11 8
def keyMultiLimit (d : KeyDesc) : Nat := fld d 0 4 0
def keyHoldLimit (d : KeyDesc) : Nat := fld d 1 31 16
def keyStuckLimit (d : KeyDesc) : Nat := fld d 1 15 0
def keyTrackMin (d : KeyDesc) : Nat := fld d 2 31 16
def keyTrackMax (d : KeyDesc) : Nat := fld d 2 15 0
def keyWaterK (d : KeyDesc) : Nat := fld d 3 31 24
def keyGlovePct (d : KeyDesc) : Nat := fld d 3 23 16
def keyEnable (d : KeyDesc) (k : Nat) : Bool := bit d (4 + k) 31
def keyFt (d : KeyDesc) (k : Nat) : Bool := bit d (4 + k) 30
def keyPress (d : KeyDesc) (k : Nat) : Nat := fld d (4 + k) 15 0

def keyReset : KeyDesc :=
  ofWords 896 ([3 <<< 18 ||| 3 <<< 8 ||| 4, 60 <<< 16 ||| 600, 1 <<< 16 ||| 20, 32 <<< 24 ||| 40 <<< 16]
    ++ List.replicate 24 200)

/-- The setting of a group that scans now. -/
def KeyGroup.set (x : KeyGroup) : KeyDesc := x.setting.getD keyReset

/-- Press threshold (R191): `PRESS`, in GLOVE scaled and rounded up. -/
def pressThreshold (d : KeyDesc) (k : Nat) : Nat :=
  if keyGlove d then ceilDiv (keyPress d k * keyGlovePct d) 100 else keyPress d k
/-- Release threshold (R192): 60 % of the press threshold, rounded down. -/
def releaseThreshold (d : KeyDesc) (k : Nat) : Nat := pressThreshold d k * 60 / 100

/-! ## Configuration sets (Table 5-1) -/

def ConfigSet.source (c : ConfigSet) (i : Nat) : SrcDesc := Tbl.get c.sources srcReset i
def ConfigSet.layer (c : ConfigSet) (i : Nat) : LayerDesc := Tbl.get c.layers layerReset i
def ConfigSet.tone (c : ConfigSet) (i : Nat) : ToneProf := Tbl.get c.tones toneReset i
def ConfigSet.output (c : ConfigSet) (o : Nat) : OutDesc := Tbl.get c.outputs (outReset o) o
def ConfigSet.freshness (c : ConfigSet) (o : Nat) : FreshItem := Tbl.get c.fresh freshReset o

/-- Highest index of an item kind. -/
def kindLast : SetKind → Nat
  | .source => 255 | .layer => 1023 | .tone => 63 | .output => 31 | .fresh => 31
/-- Size of an item in bytes. -/
def kindSize : SetKind → Nat
  | .source => 64 | .layer => 64 | .tone => 160 | .output => 64 | .fresh => 16
/-- Code of `SET_READ` and of `COMMIT_REJECTED`. -/
def kindCode : SetKind → Nat
  | .source => 0 | .layer => 1 | .tone => 2 | .output => 3 | .fresh => 4
def kindOfCode : Nat → Option SetKind
  | 0 => some .source | 1 => some .layer | 2 => some .tone | 3 => some .output | 4 => some .fresh | _ => none

/-- Bits [hi:lo] of word w, as a mask. -/
def wordMask (w hi lo : Nat) : Nat := (2 ^ (hi - lo + 1) - 1) <<< (32 * w + lo)
/-- The words from `w` to the end of an item of `n` words, as a mask. -/
def tailMask (w n : Nat) : Nat := (2 ^ (32 * (n - w)) - 1) <<< (32 * w)

/-- The reserved bits of an item: writes to them are ignored and they read zero (R4). -/
def reservedBits (k : SetKind) (i : Nat) : Nat :=
  match k with
  | .source => sumOf [wordMask 0 24 24, wordMask 0 15 4, wordMask 2 31 24, wordMask 12 31 23, wordMask 14 31 30,
      wordMask 14 23 22, wordMask 14 19 18, wordMask 14 15 8]
  | .layer => sumOf [wordMask 0 26 21, wordMask 1 31 20, wordMask 6 31 24, wordMask 7 31 24, wordMask 9 14 10,
      wordMask 10 31 22, wordMask 10 15 14, tailMask 11 16]
  | .tone => tailMask 37 40
  | .output =>
    if isHead i then sumOf [wordMask 0 24 0, wordMask 5 31 24, wordMask 7 31 16, tailMask 8 16]
    else sumOf [wordMask 0 30 30, wordMask 0 25 19, wordMask 4 31 16, wordMask 5 31 0, wordMask 7 31 16, tailMask 8 16]
  | .fresh => wordMask 3 31 16

/-- The value an item keeps of a written one. -/
def itemKept (k : SetKind) (i v : Nat) : Nat := v - (v &&& reservedBits k i)

/-- Write one item of a set. -/
def ConfigSet.write (c : ConfigSet) (k : SetKind) (i v : Nat) : ConfigSet :=
  let v := itemKept k i v
  match k with
  | .source => { c with sources := Tbl.set c.sources srcReset i (BitVec.ofNat 512 v) }
  | .layer => { c with layers := Tbl.set c.layers layerReset i (BitVec.ofNat 512 v) }
  | .tone => { c with tones := Tbl.set c.tones toneReset i (BitVec.ofNat 1280 v) }
  | .output => { c with outputs := Tbl.set c.outputs (outReset i) i (BitVec.ofNat 512 v) }
  | .fresh => { c with fresh := Tbl.set c.fresh freshReset i (BitVec.ofNat 128 v) }

/-- The value of one item as `SET_READ` returns it. Tone profile 0 is fixed (R110); it reads as the identity. -/
def ConfigSet.read (c : ConfigSet) (k : SetKind) (i : Nat) : Nat :=
  match k with
  | .source => (c.source i).toNat
  | .layer => (c.layer i).toNat
  | .tone => (c.tone i).toNat
  | .output => (c.output i).toNat
  | .fresh => (c.freshness i).toNat

/-- Indices of the layers a set lists as enabled, rising. An unlisted layer is disabled (Table 4-1). -/
def ConfigSet.enabledLayers (c : ConfigSet) : List Nat :=
  (c.layers.filter (fun e => layEnable e.2)).map (·.1)

/-- Outputs a set lists as enabled, rising. -/
def ConfigSet.enabledOutputs (c : ConfigSet) : List Nat :=
  (c.outputs.filter (fun e => outEnable e.2)).map (·.1)

/-- Sources a set lists as enabled (KIND not OFF), rising. -/
def ConfigSet.enabledSources (c : ConfigSet) : List Nat :=
  (c.sources.filter (fun e => srcKind e.2 != 0)).map (·.1)

/-- Effective age bound of a layer (R13). -/
def ConfigSet.bound (c : ConfigSet) (l : Nat) : Nat :=
  let d := c.layer l
  if layBoundDefault d then defaultBound (c.source (laySource d)) else layAgeBound d

/-! ## Payload forms -/

/-- A word of a request payload. -/
def Request.u8 (r : Request) (off : Nat) : Nat := Bytes.at r.payload off 1
def Request.u16 (r : Request) (off : Nat) : Nat := Bytes.at r.payload off 2
def Request.u32 (r : Request) (off : Nat) : Nat := Bytes.at r.payload off 4
def Request.u64 (r : Request) (off : Nat) : Nat := Bytes.at r.payload off 8

/-- Bytes a response payload may have (R267): the descriptor's buffer, or 240 inline. -/
def Request.room (r : Request) : Nat :=
  match r.respCap with
  | some c => if c = 0 then 240 else c
  | none => 240

/-- An item-list write (R285): the status of a payload that cannot be taken, or the first index and the items. -/
def itemList (r : Request) (size last : Nat) : Nat ⊕ (Nat × List Nat) :=
  if r.length = 0 then .inr (0, [])
  else
    let first := r.u16 0
    let n := r.u16 2
    if r.length ≠ 4 + n * size then .inl stBadLength
    else if n = 0 then .inr (first, [])
    else if last < first + n - 1 then .inl stNotSupported
    else .inr (first, (List.range n).map (fun i => Bytes.at r.payload (4 + i * size) size))

/-- The indices a list read returns (R286), of a list of `total` records, `size` bytes each; none when `FIRST` lies
beyond the last item. -/
def cutList (first count total size room : Nat) : Option (List Nat) :=
  if first ≠ 0 ∧ total ≤ first then none
  else some (from' first (min (min count (total - first)) ((room - 4) / size)))

/-- The payload of a list response: the count, then the records. -/
def listPayload (recs : List Bytes) : Bytes := Bytes.cat (leBytes 4 recs.length) (Bytes.join recs)

/-- A frame's mint in the layout of Table 1-1. -/
def mintWords (f : Frame) : List Nat :=
  [f.source + (f.evidence + b2n f.carried * 16 + b2n f.relayed * 32) <<< 8, w32 f.seq, w32 f.capture, hi32 f.capture]

/-! ## Board lane table (Tables 9-1 to 9-3) -/

/-- Role of a lane in the default table (R214). -/
def defaultRole (l : Nat) : Nat :=
  if l < 24 then 1 else if l < 32 then 4 else if l < 44 then 2 else if l < 48 then 3 else 0
def defaultProtocol (q : Nat) : Nat := if q = 6 ∨ q = 7 then 1 else 2
def defaultFec (q : Nat) : Nat := if q = 6 ∨ q = 7 then 1 else 0

def tabFormat (t : LaneTable) : Nat := fld t 0 15 0
def tabLanes (t : LaneTable) : Nat := fld t 0 31 16
def tabBoard (t : LaneTable) : Nat := fld t 1 31 0
def tabRevision (t : LaneTable) : Nat := fld t 2 31 0
def tabFec (t : LaneTable) (q : Nat) : Nat := fld t (4 + q) 23 16
def tabRate (t : LaneTable) (q : Nat) : Nat := fld t (4 + q) 15 8
def tabProtocol (t : LaneTable) (q : Nat) : Nat := fld t (4 + q) 7 0
def tabRole (t : LaneTable) (l : Nat) : Nat := fld t (16 + 4 * l) 31 28
def tabWord (t : LaneTable) (l i : Nat) : Nat := fld t (16 + 4 * l + i) 31 0
def tabCrc (t : LaneTable) : Nat := fld t 208 31 0

/-- Words 1 to 3 of a lane entry at their reset values (Table 9-3). -/
def defaultTune : List Nat := [4 <<< 16 ||| 51 <<< 8 ||| 8, 8 <<< 4 ||| 8, 0]

/-- The default table (R214), with its CRC. -/
def defaultLaneTable : LaneTable :=
  let body := wordsLE ([1 ||| 48 <<< 16, 0, 0, 0]
    ++ (upTo 12).map (fun q => defaultFec q <<< 16 ||| 1 <<< 8 ||| defaultProtocol q)
    ++ (upTo 48).flatMap (fun l => (defaultRole l <<< 28) :: defaultTune))
  (Bytes.cat body (leBytes 4 (crc32 body))).bits 6688

def LinksSt.role (k : LinksSt) (l : Nat) : Nat :=
  match k.table with | some t => tabRole t l | none => defaultRole l
def LinksSt.protocol (k : LinksSt) (q : Nat) : Nat :=
  match k.table with | some t => tabProtocol t q | none => defaultProtocol q
/-- Line rate of a lane: true at 25.78125 Gb/s. -/
def LinksSt.fast (k : LinksSt) (l : Nat) : Bool :=
  match k.table with | some t => tabRate t (l / 4) == 1 | none => true
def LinksSt.lane (k : LinksSt) (l : Nat) : LaneRun := Tbl.get k.lanes {} l

/-- The lanes that hold a role, rising: head, Ethernet port and peer port n is the n-th (R214). -/
def LinksSt.lanesOf (k : LinksSt) (role : Nat) : List Nat := (upTo 48).filter (fun l => k.role l == role)
/-- The lane of the n-th unit of a role, unless it is retired (R238). -/
def LinksSt.laneOf (k : LinksSt) (role n : Nat) : Option Nat :=
  match (k.lanesOf role)[n]? with
  | some l => if (k.lane l).state = .retired then none else some l
  | none => none
/-- The unit number of a lane within its role. -/
def LinksSt.unitOf (k : LinksSt) (l : Nat) : Nat := countIf (upTo l) (fun m => k.role m == k.role l)

/-! ## Encode job (Table 8-1) -/

def encEnable (d : EncDesc) : Bool := bit d 0 31
def encCodec (d : EncDesc) : Nat := fld d 0 30 29
def encLayerInput (d : EncDesc) : Bool := bit d 0 28
def encRotate (d : EncDesc) : Nat := fld d 0 27 26
def encColour (d : EncDesc) : Nat := fld d 0 25 24
def encInput (d : EncDesc) : Nat := fld d 0 9 0
def encWidth (d : EncDesc) : Nat := fld d 1 31 16
def encHeight (d : EncDesc) : Nat := fld d 1 15 0
def encRateDiv (d : EncDesc) : Nat := fld d 2 31 24
def encMinInterval (d : EncDesc) : Nat := fld d 2 15 0
def encGrPictures (d : EncDesc) : Nat := fld d 3 31 24
def encQpTarget (d : EncDesc) : Nat := fld d 3 21 16
def encQpCeil (d : EncDesc) : Nat := fld d 3 13 8
def encCapPicture (d : EncDesc) : Nat := fld d 4 31 0
def encCapSecond (d : EncDesc) : Nat := fld d 5 31 0
def encPort (d : EncDesc) : Nat := fld d 6 31 24
def encPayloadType (d : EncDesc) : Nat := fld d 6 22 16
def encUdpPort (d : EncDesc) : Nat := fld d 6 15 0
def encSsrc (d : EncDesc) : Nat := fld d 7 31 0
def encDest (d : EncDesc) : Nat := (Bytes.toList ⟨16, fld128 d 8⟩).foldl (fun a b => a * 256 + b) 0
def encSrcPort (d : EncDesc) : Nat := fld d 12 31 16
def encDscp (d : EncDesc) : Nat := fld d 12 15 10
def encHops (d : EncDesc) : Nat := fld d 12 7 0
def encSrtp (d : EncDesc) : Nat := fld d 13 17 16
def encKeySlot (d : EncDesc) : Nat := fld d 13 7 0
def encMediaclk (d : EncDesc) : Nat := fld d 14 31 0
def encMtu (d : EncDesc) : Nat := fld d 15 15 0

def encReset : EncDesc :=
  ofWords 512 [0, 1920 <<< 16 ||| 1080, 2 <<< 24 ||| 40, 30 <<< 24 ||| 28 <<< 16 ||| 40 <<< 8, 200000, 24000,
    96 <<< 16, 0, 0, 0, 0, 0, 64, 0, 0, 1500]

/-! ## Ethernet port setting (R237) -/

def ethPort (d : EthDesc) : Nat := Bytes.at (bytesOf d) 0 1
def ethOn (d : EthDesc) : Bool := (Bytes.at (bytesOf d) 1 1).testBit 0
def ethVlan (d : EthDesc) : Nat := Bytes.at (bytesOf d) 2 2
/-- `n` bytes at `off` as a number in network order. -/
def ethNet (d : EthDesc) (off n : Nat) : Nat :=
  (Bytes.toList (Bytes.slice (bytesOf d) off n)).foldl (fun a b => a * 256 + b) 0
/-- An IPv4 address written as ::ffff:a.b.c.d, or 0 for an absent one. -/
def mapped4 (a : Nat) : Nat := if a = 0 then 0 else 0xFFFF <<< 32 ||| a
/-- The port's own unicast addresses that are present. -/
def ethOwn (d : EthDesc) : List Nat :=
  [mapped4 (ethNet d 16 4), ethNet d 24 16, ethNet d 40 16].filter (· ≠ 0)
/-- Whether an address is multicast: IPv4 224.0.0.0/4 mapped, or IPv6 ff00::/8. -/
def isMulticast (a : Nat) : Bool := a >>> 120 == 0xFF || (a >>> 32 == 0xFFFF && (a >>> 28) % 16 == 14)

/-! ## Memory policy (Table 10-5) and regions (Table 10-1) -/

def memReset : BitVec 128 :=
  ofWords 128 [200 <<< 16 ||| 50, 256 <<< 16 ||| 2 <<< 8 ||| 1, 2 <<< 24 ||| 4 <<< 16 ||| 8 <<< 8 ||| 3, 0]
def memRetrainHi (m : BitVec 128) : Nat := fld m 0 31 16
def memRetrainLo (m : BitVec 128) : Nat := fld m 0 15 0
def memCeLimit (m : BitVec 128) : Nat := fld m 1 31 16
def memRefreshHi (m : BitVec 128) : Nat := fld m 1 11 8
def memRefreshLo (m : BitVec 128) : Nat := fld m 1 3 0
def memRegionWord (m : BitVec 128) : Word := BitVec.ofNat 32 (fld m 2 31 0)
def memFixed (m : BitVec 128) : Nat := fld m 3 15 8
def memCompat (m : BitVec 128) : Nat := fld m 3 7 0

/-- One gibibyte. -/
def gib : Nat := 2 ^ 30

/-- The policy in force (R260). -/
def MemSt.pol (m : MemSt) : BitVec 128 := m.policy.getD memReset
/-- The region sizes in force since the last reset that applies them (R260). -/
def MemSt.regionWord (m : MemSt) : Word := m.regions.getD (memRegionWord memReset)

/-- Channels in service with a known size (R241). -/
def MemSt.inService (m : MemSt) : List Nat :=
  (upTo 8).filter (fun c =>
    let x := Tbl.get m.chans {} c
    decide (x.state ≠ .absent ∧ x.state ≠ .retired ∧ x.sizeMiB ≠ 0))
/-- Size of one channel in bytes: every channel in service has the same (R240). -/
def MemSt.chanSize (m : MemSt) : Nat :=
  match m.inService with | [] => 0 | c :: _ => 2 ^ 20 * (Tbl.get m.chans {} c).sizeMiB
/-- Bytes of DRAM: n × S (R241). -/
def MemSt.capacity (m : MemSt) : Nat := m.inService.length * m.chanSize

/-- Sizes of the reserved regions from the top downward: Teller, composed, decode, source, encode (Table 10-1). -/
def regionSizes (w : Word) : List Nat :=
  [gib, gib * bitsOf w.toNat 7 0, gib * bitsOf w.toNat 15 8, gib * bitsOf w.toNat 23 16, gib * bitsOf w.toNat 31 24]

/-- Base and size of each region, in the order Teller, composed, decode, source, encode, host. -/
def regionMap (w : Word) (cap : Nat) : List (Nat × Nat) :=
  let rec go (top : Nat) : List Nat → List (Nat × Nat)
    | [] => [(0, top)]
    | z :: r => (top - z, min z top) :: go (top - z) r
  go cap (regionSizes w)

/-- Size of the host region, which begins at address 0 (R242). -/
def MemSt.hostSize (m : MemSt) : Nat := m.capacity - sumOf (regionSizes m.regionWord)
/-- Base and size of the Teller region. -/
def MemSt.tellerBase (m : MemSt) : Nat := m.capacity - gib

/-- The channel and the offset within it of a device address (R241), when the address exists. -/
def MemSt.locate (m : MemSt) (addr : Nat) : Option (Nat × Nat) :=
  if m.capacity ≤ addr then none
  else
    let l := m.inService
    let n := l.length
    let g := addr / 4096
    let c := (g % n + g / n / 64) % n
    some (l.getD c 0, g / n * 4096 + addr % 4096)

/-! ## Surface description (Table 12-3) -/

def surfFormat (d : SurfDesc) : Nat := Bytes.byte (bytesOf d) 1
def surfPrimaries (d : SurfDesc) : Nat := Bytes.byte (bytesOf d) 2
def surfTransfer (d : SurfDesc) : Nat := Bytes.byte (bytesOf d) 3
def surfMatrix (d : SurfDesc) : Nat := Bytes.byte (bytesOf d) 4
def surfRange (d : SurfDesc) : Nat := Bytes.byte (bytesOf d) 5
def surfW (d : SurfDesc) : Nat := Bytes.at (bytesOf d) 8 2
def surfH (d : SurfDesc) : Nat := Bytes.at (bytesOf d) 10 2
def surfPitch (d : SurfDesc) : Nat := Bytes.at (bytesOf d) 12 4
def surfBuffer (d : SurfDesc) (b : Nat) : Nat := Bytes.at (bytesOf d) (16 + 8 * b) 8
/-- Bytes of one pixel of a packed format, of one luma sample of a planar one (Table 4-3). -/
def formatBytes (f : Nat) : Nat := match f with | 0 => 4 | 1 => 4 | 2 => 8 | 3 => 1 | 4 => 2 | _ => 0
def formatPlanar (f : Nat) : Bool := f == 3 || f == 4
/-- Bytes a host-surface buffer occupies (R426). -/
def bufferBytes (d : SurfDesc) : Nat :=
  if formatPlanar (surfFormat d) then surfPitch d * (surfH d + ceilDiv (surfH d) 2) else surfPitch d * surfH d

end Sys2Proof.Machine
end

