-- ==== Sys2Proof/Machine/Flags.lean ====
section
/-!
DEFINITION. Every status and flag word the spec computes from the state: the health words of `HEALTH_GET` and of the
safety registers, default severities and service causes, notification conditions.
-/
namespace Sys2Proof.Machine

/-! ## Accessors of per-unit state -/

def State.port (s : State) (p : Nat) : PortSt := Tbl.get s.mail.ports {} p
def State.head (s : State) (h : Nat) : HeadRun := Tbl.get s.heads {} h
def State.panel (s : State) (p : Nat) : PanelRun := Tbl.get s.panels {} p
def State.srcRun (s : State) (i : Nat) : SrcRun := Tbl.get s.src.run {} i
def State.decRun (s : State) (i : Nat) : DecRun := Tbl.get s.src.dec {} i
def State.surface (s : State) (i : Nat) : SurfSt := Tbl.get s.src.surf {} i
def State.tile (s : State) (o t : Nat) : TileSt := Tbl.get s.comp.tiles {} (16384 * o + t)
def State.outComp (s : State) (o : Nat) : OutComp := Tbl.get s.comp.out {} o
def State.group (s : State) (g : Nat) : GroupDesc := Tbl.get s.sets.groups (groupReset g) g
def State.encJob (s : State) (j : Nat) : EncDesc := Tbl.get s.encJobs encReset j
def State.encRun (s : State) (j : Nat) : EncRun := Tbl.get s.enc {} j
def State.chan (s : State) (c : Nat) : ChanRun := Tbl.get s.mem.chans {} c
def State.domain (s : State) (d : Nat) : DomainSt := Tbl.get s.power.domains {} d
def State.keyGroup (s : State) (g : Nat) : KeyGroup := Tbl.get s.keys {} g
def State.mpu (s : State) (g : Nat) : MpuGroup := Tbl.get s.sec.mpu {} g

/-- Settings an output works under: the active ones, or those a head keeps until its frame start and a panel until its TE
(R154, R185). -/
def State.outSet (s : State) (o : Nat) : OutDesc :=
  (if isHead o then (s.head o).under else (s.panel (o - 24)).under).getD (s.sets.active.output o)

/-- Safe state (R306). -/
def State.inSafe (s : State) : Bool := s.fault.safe.isSome

/-- Held in reset by a thermal trip, a tamper monitor or a failed check (R304, R357, R258). -/
def State.heldInReset (s : State) : Bool := s.fault.dead || s.fault.thermalHold || s.fault.tamperHold.isSome

/-- A head scans out (R154). -/
def State.scanning (s : State) (h : Nat) : Bool := decide ((s.head h).state = .scanning)

/-- Head h is the upper head of a bonded pair in force. -/
def upperOfBond (c : ConfigSet) (h : Nat) : Bool :=
  h % 2 == 1 && outEnable (c.output (h - 1)) && headBond (c.output (h - 1))

/-- The lanes that carry a head: its own, and the next head's when it is bonded (R150). -/
def State.headLanes (s : State) (h : Nat) : List Nat :=
  let own := (s.links.laneOf 1 h).toList
  if headBond (s.outSet h) then own ++ (s.links.laneOf 1 (h + 1)).toList else own

/-- Operating time, 48 bits, in 1/256 s (R320). -/
def State.optime (s : State) : Nat :=
  (s.ledger.opBase + (s.time.now - s.ledger.porAt) * 256 / 1000000000) % 2 ^ 48

/-- Frozen channels (R252). -/
def State.frozenChans (s : State) : List Nat := (upTo 8).filter (fun c => decide ((s.chan c).state = .frozen))

/-- The frozen channels that a transfer falls on whose place the spec leaves open. -/
def State.frozenHits (s : State) : List Nat := s.frozenChans.filter (Config.hits s.draw)

/-- The debug set the hardware makes live (R367): open 0, locked 1. -/
def State.debugSet (s : State) : Nat :=
  match s.sec.lifecycle with
  | .manufacture => 0
  | .develop => if s.sec.dbg.openSince.isSome then 0 else 1
  | .field | .retired => 1

/-- The live set of a group. -/
def State.liveSet (s : State) (g : Nat) : Nat := if g = 3 then s.debugSet else (s.mpu g).live

/-! ## Fault severities and service causes (Tables 13-1, 13-2; R316) -/

def isDualRail (src : Nat) : Bool := src < 0x10

/-- A reading of a dual-rail source: healthy, in fault, or a wire fault (R299). -/
def railKind (r : Bool × Bool) : Option Nat :=
  match r with | (false, true) => none | (true, false) => some 0 | _ => some 3

/-- A reading of one source: the reserved ones, 0x00A on, are raised only by a wire fault (Table 13-1). -/
def railReading (id : Nat) (r : Bool × Bool) : Option Nat :=
  match railKind r with
  | some k => if 0x00A ≤ id ∧ k = 0 then none else some k
  | none => none

/-- Default severity of a source. -/
def defaultSeverity (src : Nat) : Nat :=
  if src < 0x10 then (if src = 0x004 ∨ src = 0x006 ∨ src = 0x008 ∨ src = 0x009 then 4 else 3)
  else match src with
    | 0x010 => 1 | 0x011 => 0 | 0x012 => 0 | 0x013 => 1 | 0x014 => 0 | 0x015 => 1 | 0x016 => 1
    | 0x020 => 1 | 0x021 => 1 | 0x022 => 1 | 0x023 => 2 | 0x024 => 2 | 0x025 => 2
    | 0x028 => 1 | 0x02A => 2 | 0x030 => 1 | 0x031 => 2 | 0x032 => 2 | 0x040 => 2 | 0x041 => 2
    | 0x050 => 0 | 0x051 => 2 | 0x060 => 2 | 0x061 => 1 | 0x070 => 1 | 0x071 => 1
    | 0x080 => 0 | 0x081 => 0 | 0x082 => 0 | _ => 0

/-- Index of an SRAM block in Table 10-3. -/
def sramIndex : SramBlock → Nat
  | .composition => 0 | .decode => 1 | .encode => 2 | .teller => 3 | .tileBook => 4 | .scanOut => 5 | .memCtrl => 6
  | .misc => 7

/-- Severity the Auditor applies (R302, R305). -/
def State.severityOf (s : State) (src param : Nat) : Nat :=
  let set := Tbl.get s.fault.severity (defaultSeverity src) src
  if src = 0x028 ∧ (param = 3 ∨ param = 6 ∨ param = 7) then max set 4 else set

/-- Bit of the service-cause mask of a source (R316). -/
def serviceCause (src : Nat) : Option Nat :=
  match src with
  | 0x023 => some 0 | 0x031 => some 1 | 0x040 => some 2 | 0x041 => some 3 | 0x02A => some 4 | 0x024 => some 5
  | 0x051 => some 6 | 0x060 => some 7 | 0x025 => some 8 | _ => none

/-- Faults that stop the heads instead of having them rendered (R308). -/
def stopsHeads (src : Nat) : Bool := src == 0x006 || src == 0x002 || src == 0x005

/-! ## Health words (Table 12-13) -/

/-- Echo state of a head: matching 0, mismatched 1, unproven 2. -/
def State.echoState (s : State) (h : Nat) : Nat :=
  if !(s.head h).proven then 2 else if (s.head h).missRun = 0 then 0 else 1

/-- Enabled heads that are unproven (R45), as a mask. -/
def State.unproven (s : State) : Nat :=
  maskOf ((upTo 24).filter (fun h => outEnable (s.outSet h) && !upperOfBond s.sets.active h && !(s.head h).proven))

def State.channelsIn (s : State) : Nat :=
  countIf (upTo 8) (fun c => decide ((s.chan c).state ≠ .absent ∧ (s.chan c).state ≠ .retired))
def State.lanesRetired (s : State) : Nat := countIf s.links.lanes (fun e => decide (e.2.state = .retired))
def State.coresFailed (s : State) : Nat :=
  maskOf ((upTo 4).filter (fun c => (Tbl.get s.src.cores {} c).failed))
    + maskOf ((upTo 2).filter (fun c => (Tbl.get s.links.encCores {} c).failed)) <<< 4
def State.enginesOut (s : State) : Nat := countIf (upTo 16) (fun e => s.comp.enginesOut.toNat.testBit e)
/-- Highest junction temperature, °C. -/
def State.hottest (s : State) : Int := maxInt ((upTo 26).map (fun d => (s.domain d).temp))
def State.activeFaults (s : State) : Nat := countIf s.fault.active (fun a => decide (1 ≤ a.severity))

/-- The first steps of a start after POR or PIN, before start step 4 is complete (Table 17-5). -/
def State.beforeStep4 (s : State) : Bool :=
  decide (s.power.resetKind ≤ 2) && decide (s.power.step < 4) && !s.power.started

/-- SERVICE_N is driven low: a service cause is set, and Teller firmware has read the causes (R313, Table 19-6). -/
def State.serviceLow (s : State) : Bool :=
  decide (s.fault.service ≠ 0) && !s.beforeStep4 && decide (s.power.state ≠ .off)

/-- The words of `HEALTH_GET`, in the order of Table 12-13. -/
def State.healthWords (s : State) : List Nat :=
  [b2n s.inSafe, b2n s.serviceLow, s.fault.service.toNat, s.fault.override.toNat, s.comp.replaced.toNat,
   s.unproven, b2n s.time.ahead, s.channelsIn, s.lanesRetired, s.coresFailed, s.enginesOut, twos 32 s.hottest,
   s.activeFaults, 0, 0, 0]

/-- First index at which two lists of words differ. -/
def firstDiff (a b : List Nat) : Option Nat :=
  (List.range a.length).find? (fun i => a.getD i 0 != b.getD i 0)

/-! ## Discipline and room-time codes -/

def rtCode : RtState → Nat | .unset => 0 | .locked => 1 | .holdover => 2 | .free => 3
def discCode : Discipline → Nat | .ptp => 0 | .peer => 1 | .genlock => 2 | .free => 3
def discOfCode : Nat → Option Discipline
  | 0 => some .ptp | 1 => some .peer | 2 => some .genlock | 3 => some .free | _ => none
def powerCode : PowerState → Nat | .run => 0 | .dim => 1 | .night => 2 | .off => 3
def roleCode : Role → Nat | .none => 0 | .active => 1 | .standby => 2
def laneCode : LaneState → Nat
  | .off => 0 | .selftest => 1 | .hunting => 2 | .exchange => 3 | .up => 4 | .incompatible => 5 | .retired => 6
def headCode : HeadState → Nat | .off => 0 | .locking => 1 | .scanning => 2 | .unlocked => 3
def panelCode : PanelState → Nat | .off => 0 | .starting => 1 | .running => 2 | .dark => 3 | .stopping => 4
def commitCode : CommitState → Nat
  | .clearing => 0 | .staging => 1 | .waiting => 2 | .deferred => 3 | .settled => 4 | .cancelled => 5 | .rejected => 6
  | .withdrawn => 7
def decCode : DecState → Nat | .idle => 0 | .waitRap => 1 | .recovering => 2 | .running => 3 | .stopped => 4
def encCode : EncState → Nat | .off => 0 | .running => 1 | .inputIdle => 2 | .stopped => 3
def chanCode : ChanState → Nat
  | .absent => 0 | .training => 1 | .run => 2 | .selfRefresh => 3 | .frozen => 4 | .retired => 5
def lifeCode : Lifecycle → Nat | .manufacture => 0 | .develop => 1 | .field => 2 | .retired => 3
def lifeOfCode : Nat → Option Lifecycle
  | 0 => some .manufacture | 1 => some .develop | 2 => some .field | 3 => some .retired | _ => none
def mirrorCode : Mirror → Nat | .inStep => 0 | .catchingUp => 1 | .stopped => 2

/-! ## Formula times (R57, R424) -/

/-- Formula time of frame n. -/
def FrameClock.start (k : FrameClock) (n : Nat) : Nat := ceilDiv (n * 1000000000 * k.den) k.num + k.phase

/-- The last formula time up to a room time. -/
def FrameClock.upTo (k : FrameClock) (t : Nat) : Option Nat :=
  if t < k.phase then none else some (k.start ((t - k.phase) * k.num / (1000000000 * k.den)))

/-- The first formula time after a room time. -/
def FrameClock.after (k : FrameClock) (t : Nat) : Nat :=
  if t < k.phase then k.phase else k.start ((t - k.phase) * k.num / (1000000000 * k.den) + 1)

end Sys2Proof.Machine
end

