-- ==== Sys2Proof/Machine/Ops.lean ====
section
/-!
DEFINITION. The named operations that every meaning is made of: passing time, writing the ledger, posting events and
responses, raising faults, entering safe state, stopping heads.
-/
namespace Sys2Proof.Machine

/-! ## Time -/

/-- Room time gained while `dt` ns pass (R53, R54): exactly `dt` while nothing is followed; at the corrected rate while a
source is followed, and at the last one in holdover. -/
def State.roomGain (s : State) (dt : Nat) : Nat :=
  match s.time.state with
  | .unset | .free => dt
  | .locked | .holdover => (max 0 ((dt : Int) + floorDiv ((dt : Int) * s.time.rate) 1000000000)).toNat

/-- Begin a command: `dt` ns pass, what was sent before is forgotten, the free values move on (log entries 1 to 3). -/
def State.elapse (s : State) (dt : Nat) : State :=
  { s with
    out := []
    draw := s.draw + 65536
    time := { s.time with now := s.time.now + dt, room := w64 (s.time.room + s.roomGain dt) } }

/-- Send or drive something (log entry 2). -/
def State.send (s : State) (x : Tx) : State := { s with out := s.out ++ [x] }

/-! ## Writing back one unit -/

def State.setPort (s : State) (p : Nat) (q : PortSt) : State :=
  { s with mail := { s.mail with ports := Tbl.set s.mail.ports {} p q } }
def State.setHead (s : State) (h : Nat) (x : HeadRun) : State := { s with heads := Tbl.set s.heads {} h x }
def State.setPanel (s : State) (p : Nat) (x : PanelRun) : State := { s with panels := Tbl.set s.panels {} p x }
def State.setSrc (s : State) (i : Nat) (x : SrcRun) : State :=
  { s with src := { s.src with run := Tbl.set s.src.run {} i x } }
def State.setDec (s : State) (i : Nat) (x : DecRun) : State :=
  { s with src := { s.src with dec := Tbl.set s.src.dec {} i x } }
def State.setSurface (s : State) (i : Nat) (x : SurfSt) : State :=
  { s with src := { s.src with surf := Tbl.set s.src.surf {} i x } }
def State.setTile (s : State) (o t : Nat) (x : TileSt) : State :=
  { s with comp := { s.comp with tiles := Tbl.set s.comp.tiles {} (16384 * o + t) x } }
def State.setOutComp (s : State) (o : Nat) (x : OutComp) : State :=
  { s with comp := { s.comp with out := Tbl.set s.comp.out {} o x } }
def State.setEncRun (s : State) (j : Nat) (x : EncRun) : State := { s with enc := Tbl.set s.enc {} j x }
def State.setKeyGroup (s : State) (g : Nat) (x : KeyGroup) : State := { s with keys := Tbl.set s.keys {} g x }
def State.setLane (s : State) (l : Nat) (x : LaneRun) : State :=
  { s with links := { s.links with lanes := Tbl.set s.links.lanes {} l x } }
def State.setChan (s : State) (c : Nat) (x : ChanRun) : State :=
  { s with mem := { s.mem with chans := Tbl.set s.mem.chans {} c x } }
def State.setDomain (s : State) (d : Nat) (x : DomainSt) : State :=
  { s with power := { s.power with domains := Tbl.set s.power.domains {} d x } }
def State.setMpu (s : State) (g : Nat) (x : MpuGroup) : State :=
  { s with sec := { s.sec with mpu := Tbl.set s.sec.mpu {} g x } }
def State.peer (s : State) (p : Nat) : PeerRun := Tbl.get s.links.peers {} p
def State.setPeer (s : State) (p : Nat) (x : PeerRun) : State :=
  { s with links := { s.links with peers := Tbl.set s.links.peers {} p x } }

def State.eth (s : State) (port : Nat) : EthRun := Tbl.get s.links.eth {} port
def State.setEth (s : State) (port : Nat) (x : EthRun) : State :=
  { s with links := { s.links with eth := Tbl.set s.links.eth {} port x } }

/-! ## Ethernet (R236, R237) -/

/-- Send a frame on an Ethernet port, with the port's tag. Nothing leaves a port that is not enabled or not `UP`. -/
def State.ethSend (s : State) (port : Nat) (f : EthFrame) : State :=
  match (s.eth port).setting with
  | some d => if ethOn d && (s.eth port).up then s.send (.eth port (ethVlan d) f) else s
  | none => s

/-- Whether an address lies in a prefix of a host address that is present. -/
def inSubnet (width own len dst : Nat) : Bool :=
  own != 0 && own >>> (width - min len width) == dst >>> (width - min len width)

/-- The port has a route to a destination on its link (R210, R237). -/
def ethRoute (d : EthDesc) (dst : Nat) : Bool :=
  if isMulticast dst then true
  else if dst >>> 32 = 0xFFFF then
    inSubnet 32 (ethNet d 16 4) (Bytes.byte (bytesOf d) 10) (dst % 2 ^ 32) || ethNet d 20 4 != 0
  else
    inSubnet 128 (ethNet d 24 16) (Bytes.byte (bytesOf d) 11) dst
      || inSubnet 128 (ethNet d 40 16) (Bytes.byte (bytesOf d) 12) dst || ethNet d 56 16 != 0

/-- A port has a route to a destination, under the setting in force. -/
def State.routed (s : State) (port dst : Nat) : Bool :=
  match (s.eth port).setting with | some d => ethRoute d dst | none => false

/-- Send a frame to a destination, where the port has a route to it. -/
def State.ethSendTo (s : State) (port dst : Nat) (f : EthFrame) : State :=
  if s.routed port dst then s.ethSend port f else s

/-- A job can send: its port is enabled and `UP` with a route, and its SRTP key is loaded (R210). -/
def State.encSends (s : State) (j : Nat) : Bool :=
  let d := s.encJob j
  let e := s.eth (encPort d)
  (match e.setting with | some x => ethOn x && e.up && ethRoute x (encDest d) | none => false)
    && (encSrtp d == 0 || Tbl.has s.sec.slots (encKeySlot d))

/-- Picture rate of a job as a fraction (R211). -/
def State.encRate (s : State) (d : EncDesc) : Nat × Nat :=
  if encLayerInput d then (1000, encMinInterval d)
  else if isHead (encInput d) then (s.time.clock.num, s.time.clock.den * encRateDiv d)
  else (1000000, panelTePeriod (s.outSet (encInput d)) * encRateDiv d)

/-- Cost of a job in luma samples per second, rounded up (R211). -/
def State.encCost (s : State) (d : EncDesc) : Nat :=
  ceilDiv (encWidth d * encHeight d * (s.encRate d).1) (s.encRate d).2

/-- After a change of an output's frame rate: the cost of every job that a core holds follows it (R211). -/
def State.encReprice (s : State) : State :=
  { s with enc := Tbl.mapAll s.enc {} (fun j x => if x.core.isSome then { x with cost := s.encCost (s.encJob j) } else x) }

/-! ## Panic -/

/-- Note whether any scan-out queue or any buffer of a push in progress raises panic (R244). -/
def State.notePanic (s : State) : State :=
  let on := s.heads.any (fun e => e.2.panic) || s.panels.any (fun e => e.2.push.isSome && e.2.panic)
  match s.mem.panicFrom with
  | some t =>
    if on then s
    else { s with mem := { s.mem with panicFrom := none, panicNs := s.mem.panicNs + (s.time.now - t) } }
  | none => if on then { s with mem := { s.mem with panicFrom := some s.time.now } } else s

/-- Look at the push buffer of a panel, 16 KiB: below 25 % full it raises panic, which ends at 37.5 % (R187, R244). How full
memory keeps it is free (log entry 3). -/
def State.lookPush (s : State) (p : Nat) : State :=
  let x := s.panel p
  let kib := Config.pushFill s.draw p % 17
  if x.push.isNone then s
  else s.setPanel p { x with panic := decide (kib < 4) || (x.panic && decide (kib < 6)) }

/-- Look at every push buffer. -/
def State.lookPushes (s : State) : State := (each (upTo 8) s State.lookPush).notePanic

/-! ## Ledger (R319 to R326) -/

/-- Write one record into the ring (R322): its slot and time, the pointer, and the loss of a record not yet spilled (R324). -/
def State.putRecord (s : State) (r : LedgerRec) : State :=
  let g := s.ledger
  let lose := subMod 32 g.next g.spilled ≥ 8192
  { s with ledger := { g with
      ring := Tbl.put g.ring (g.next % 8192) r
      ringTimes := Tbl.set g.ringTimes 0 (g.next % 8192) s.time.now
      next := w32 (g.next + 1)
      spilled := if lose then w32 (g.spilled + 1) else g.spilled
      lost := if lose then some ((g.lost.getD (g.spilled, 0)).1, (g.lost.getD (g.spilled, 0)).2 + 1) else g.lost } }

/-- The record the next sequence number would make, stamped with flags, power cycle and operating time (Table 14-1). -/
def State.makeRecord (s : State) (origin inst code : Nat) (ps : List Nat) : LedgerRec :=
  { debug := s.sec.dbg.openSince.isSome
    safe := s.inSafe
    origin := origin
    inst := inst
    code := code
    powerCycle := s.ledger.powerCycle
    optime := s.optime
    seq := s.ledger.next
    p0 := w32 (ps.getD 0 0)
    p1 := w32 (ps.getD 1 0)
    p2 := w32 (ps.getD 2 0)
    p3 := w32 (ps.getD 3 0) }

/-- The full sequence an anchor carries (R326). A record taken from the twin is none: its parameters are the twin's (R341). -/
def LedgerRec.anchorSeq (r : LedgerRec) : Option Nat :=
  if r.mirrored then none
  else if r.code = 0x0F01 then some r.p1
  else if r.code = 0x0F03 then some r.p0
  else none

/-- The anchors of a power cycle in a list of records: place and full sequence. -/
def anchorsOf (cycle : Nat) (l : List (Nat × LedgerRec)) : List (Nat × Nat) :=
  l.filterMap (fun e => if e.2.powerCycle = cycle then e.2.anchorSeq.map (fun a => (e.1, a)) else none)

/-- The full sequence of a record by the nearest anchor of its power cycle, at place i of `l` (R326); where one before and one after
are equally near, the one before gives it. -/
def fullSeq (l : List (Nat × LedgerRec)) (i : Nat) (r : LedgerRec) : Nat :=
  let marks := anchorsOf r.powerCycle l
  let q := r.seq % 65536
  let ahead (a : Nat) : Nat := w32 (a + subMod 16 q (a % 65536))
  let behind (a : Nat) : Nat := subMod 32 a (subMod 16 (a % 65536) q)
  match (marks.filter (fun m => decide (m.1 ≤ i))).getLast?, marks.find? (fun m => decide (i < m.1)) with
  | some b, some a => if i - b.1 ≤ a.1 - i then ahead b.2 else behind a.2
  | some b, none => ahead b.2
  | none, some a => behind a.2
  | none, none => w16 (Config.orphanSeq r.powerCycle) * 65536 + q

/-- The records in flash in the order they were programmed, each with its full sequence (R323, R326). -/
def LedgerSt.inFlash (g : LedgerSt) : List (Nat × LedgerRec) :=
  let l := ((g.flash.filter (fun e => decide (g.flashPos ≤ e.1))) ++ (g.flash.filter (fun e => decide (e.1 < g.flashPos)))).map (·.2)
  let places := (upTo l.length).zip l
  places.map (fun e => (fullSeq places e.1 e.2, e.2))

/-- The first record of a power cycle (R325): the sequence continues 8,192 after the newest record in flash, or at 0
when flash holds none; nothing once the cycle has started. -/
def State.ledgerStart (s : State) : State :=
  match s.ledger.lastAnchor with
  | some _ => s
  | none =>
    let newest := (s.ledger.inFlash.getLast?).map (·.1)
    let first := match newest with | some n => w32 (n + 8192) | none => 0
    let s1 := { s with ledger := { s.ledger with
      ring := [], ringTimes := [], next := first, cycleFirst := first, spilled := first, lost := none, lastAnchor := some first } }
    s1.putRecord (s1.makeRecord 0 0 0x0F01 [newest.getD 0, first, s1.optime, b2n newest.isNone])

/-- Write an anchor when the sequence has advanced by 4,096 since the last one (R326). -/
def State.anchor (s : State) : State :=
  match s.ledger.lastAnchor with
  | some a =>
    if subMod 32 s.ledger.next a ≥ 4096 then
      let own := s.ledger.next
      let s1 := s.putRecord (s.makeRecord 0 0 0x0F03 [own, s.ledger.powerCycle, s.optime, 0])
      { s1 with ledger := { s1.ledger with lastAnchor := some own } }
    else s
  | none => s

/-- Write a ledger record with an origin and its number (R319, R321). -/
def State.logFrom (s : State) (origin inst code : Nat) (ps : List Nat) : State :=
  let s1 := s.ledgerStart
  (s1.putRecord (s1.makeRecord origin inst code ps)).anchor

/-- Write a ledger record as Teller firmware. -/
def State.log (s : State) (code : Nat) (ps : List Nat) : State := s.logFrom 0 0 code ps

/-- Key of a report limit. -/
def limitKey (code unit : Nat) : Nat := code * 65536 + unit

/-- A record written at most once per unit every `period` ns: counts `n` more (and keeps `aux`), and writes now, with
the count since the last record as argument of `mk`, when the period has passed. -/
def State.logLimited (s : State) (code unit period n aux : Nat) (mk : Nat → Nat → List Nat) : State :=
  let k := limitKey code unit
  let l := Tbl.get s.ledger.limits {} k
  let l : Limit := { l with count := l.count + n, aux := max l.aux aux }
  let due := match l.lastAt with | none => true | some t => t + period ≤ s.time.now
  if due then
    let s1 := { s with ledger := { s.ledger with
      limits := Tbl.set s.ledger.limits {} k { lastAt := some s.time.now, count := 0, aux := 0 } } }
    s1.log code (mk l.count l.aux)
  else { s with ledger := { s.ledger with limits := Tbl.set s.ledger.limits {} k l } }

/-- 10 s. -/
def tenSeconds : Nat := 10000000000

/-! ## Notification (R392) -/

/-- Bit 0 of the vector control word of an MSI-X entry: the vector is masked. -/
def msixMasked (q : PortSt) (v : Nat) : Bool := bit q.msixTable (4 * v + 3) 0

/-- Send a vector of a host port, or set its pending bit while it is masked. Ports 2 and 3 have none (Table 11-1). -/
def State.notify (s : State) (p v : Nat) : State :=
  if 2 ≤ p then s
  else
    let q := s.port p
    if msixMasked q v then s.setPort p { q with msixPending := q.msixPending ||| BitVec.ofNat 2 (1 <<< v) }
    else s.send (.msix p v)

/-! ## Events (R279 to R281) -/

/-- Records waiting in an event queue. -/
def evUsed (q : PortSt) : Nat := (q.evWr + 1024 - q.evRd) % 1024

/-- Put a record into the queue, which has room, and notify when it was empty. -/
def State.pushEvent (s : State) (p : Nat) (event flags time : Nat) (ps : List Nat) : State :=
  let q := s.port p
  let r : EventRec := {
    event := event, flags := flags, seq := q.evSeq, time := time,
    p0 := w32 (ps.getD 0 0), p1 := w32 (ps.getD 1 0), p2 := w32 (ps.getD 2 0), p3 := w32 (ps.getD 3 0) }
  let s1 := s.setPort p { q with
    evq := Tbl.put q.evq q.evWr r, evWr := (q.evWr + 1) % 1024, evSeq := w32 (q.evSeq + 1) }
  if evUsed q = 0 then s1.notify p 1 else s1

/-- Discard an event: its sequence is consumed and the loss is counted (R281). -/
def State.dropEvent (s : State) (p time : Nat) : State :=
  let q := s.port p
  let lost := match q.evLost with
    | none => (1, q.evSeq, time)
    | some (n, f, t) => (n + 1, f, t)
  s.setPort p { q with evSeq := w32 (q.evSeq + 1), evLost := some lost }

/-- Post an event to the session of one port, at the room time of its condition. No event is newer than an
`EVENTS_LOST` still to come, so while one is due the event is discarded as well. -/
def State.postEventAt (s : State) (p event flags time : Nat) (ps : List Nat) : State :=
  let q := s.port p
  if q.session = 0 then s
  else if evUsed q = 1023 ∨ q.evLost.isSome then s.dropEvent p time
  else s.pushEvent p event flags time ps

def State.postEvent (s : State) (p event : Nat) (ps : List Nat) : State := s.postEventAt p event 0 s.time.room ps

/-- Post an event to every session, in port order. -/
def State.postAll (s : State) (event : Nat) (ps : List Nat) : State :=
  each (upTo 4) s (fun s p => s.postEvent p event ps)

/-- Post an event to the sessions whose enables satisfy a test (R155, R280). -/
def State.postEnabled (s : State) (event : Nat) (test : BitVec 544 → Bool) (ps : List Nat) : State :=
  each (upTo 4) s (fun s p => if test (s.port p).evEnable then s.postEvent p event ps else s)

/-- Post `EVENTS_LOST` once two records are free, and write it to the ledger at most once per port every 10 s
(R281). -/
def State.postLost (s : State) (p : Nat) : State :=
  let q := s.port p
  match q.evLost with
  | some (n, f, t) =>
    if evUsed q + 2 ≤ 1023 then
      let s1 := (s.setPort p { q with evLost := none }).pushEvent p 0x0002 0 s.time.room [n, f, w32 t, 0]
      s1.logLimited 0xC010 p tenSeconds n (2 ^ 32 - f) (fun n a => [p, q.session, n, 2 ^ 32 - a])
    else s
  | none => s

/-! ## Responses (R264, R266, R422) -/

/-- Write a response into the lowest free slot and set its bit (R264); a payload for a buffer in host memory goes there first (R267). -/
def State.fillSlot (s : State) (p : Nat) (r : Response) : State :=
  let s := match r.toHost with | some a => s.send (.hostWrite p a r.payload) | none => s
  let q := s.port p
  match (upTo 8).find? (fun i => !q.respBell.toNat.testBit i) with
  | some i =>
    let s1 := s.setPort p { q with
      resp := Tbl.put q.resp i r, respBell := q.respBell ||| BitVec.ofNat 8 (1 <<< i) }
    if q.respBell = 0 then s1.notify p 0 else s1
  | none => s

/-- Post a response, or keep it in order behind those that wait (R264). One whose payload goes to device memory is posted by
`RESPONSE_POSTED` (log entry 58). -/
def State.postResponse (s : State) (p : Nat) (r : Response) : State :=
  let q := s.port p
  if q.respBell = 0xFF ∨ q.waiting ≠ [] ∨ r.toDevice.isSome then s.setPort p { q with waiting := q.waiting ++ [r] }
  else s.fillSlot p r

/-- A request other than `SESSION_OPEN` named the open session of its port (R422). -/
def Request.inSession (r : Request) (q : PortSt) : Bool :=
  r.opcode != 0x0001 && r.session != 0 && r.session == q.session

/-- The response to a request (Table 11-2, R422): the session's version and number when the request named the open
session, and otherwise the request's own version and session 0. With a response buffer the payload goes there (R267). -/
def makeResponse (q : PortSt) (r : Request) (status : Nat) (payload : Bytes) (held : Bool) : Response :=
  let inSession := r.inSession q
  let writes := r.buffered && payload.len != 0
  let fails : Bool := writes && r.respDevice.isNone && r.writeFails
  { major := if inSession then q.major else r.major
    minor := if inSession then q.minor else r.minor
    flags := b2n r.buffered + 2 * b2n held + 4 * b2n fails
    opcode := r.opcode
    tag := r.tag
    status := status
    session := if inSession then q.session else 0
    payload := payload
    toHost := if writes && r.respDevice.isNone && !fails then some r.respAddr else none
    toDevice := if writes then r.respDevice else none }

/-- Answer a request of a port (R276: its effect is in force from here). -/
def State.answer (s : State) (p : Nat) (r : Request) (status : Nat) (payload : Bytes) : State :=
  let q := s.port p
  let s1 := if r.inSession q then s.setPort p { q with served := w32 (q.served + 1) } else s
  s1.postResponse p (makeResponse q r status payload false)

/-- Answer with a status and no payload. -/
def State.status (s : State) (p : Nat) (r : Request) (st : Nat) : State := s.answer p r st Bytes.none

/-- Whether the session of a port can hold one more response (R277). -/
def State.canHold (s : State) (p : Nat) : Bool := (s.port p).held.length < 8

/-- Hold the response of a request: `REQUEST_HELD` is posted (R277). -/
def State.hold (s : State) (p : Nat) (r : Request) (job : Nat) : State :=
  let q := s.port p
  (s.setPort p { q with held := q.held ++ [r], served := w32 (q.served + 1) }).postEvent p 0x0001 [r.opcode, r.tag, job, 0]

/-- Post the held response of the request with an opcode and a tag, if the session still holds it (R277). -/
def State.release (s : State) (p opcode tag status : Nat) (payload : Bytes) : State :=
  let q := s.port p
  match q.held.find? (fun r => r.opcode == opcode && r.tag == tag) with
  | some r =>
    let q1 := { q with held := q.held.erase r }
    (s.setPort p q1).postResponse p (makeResponse q1 r status payload true)
  | none => s

/-! ## Health (R303, R396) -/

/-- Post `HEALTH_CHANGED` with the first word that changed; the active-faults word when none did and `force` asks for
the event (R303). -/
def State.notifyHealth (s : State) (force : Bool) : State :=
  let now := s.healthWords
  let seen := if s.fault.healthSeen = [] then List.replicate 16 0 else s.fault.healthSeen
  match firstDiff now seen with
  | some i =>
    { s with fault := { s.fault with healthSeen := now, healthSeq := w32 (s.fault.healthSeq + 1) } }.postAll 0x0A01
      [i, now.getD i 0]
  | none =>
    if force then
      { s with fault := { s.fault with healthSeq := w32 (s.fault.healthSeq + 1) } }.postAll 0x0A01 [12, now.getD 12 0]
    else s

/-! ## Stopping a head (R154, R308) -/

/-- Send a control block on every lane of a head. -/
def State.sendHead (s : State) (h type : Nat) (payload : Bytes) : State :=
  each (s.headLanes h) s (fun s l => s.send (.block l type payload))

/-- `HEAD_STOP` with a reason: it names the last frame sent; a head held on a standby sends none (R338). Teller firmware
writes `HEAD_STOPPED`. -/
def State.sendHeadStop (s : State) (h reason : Nat) : State :=
  let x := s.head h
  let s1 := if x.standbyHeld then s
    else s.sendHead h 0x43 (Bytes.join [leBytes 4 x.frame, leBytes 1 reason, leBytes 2 0])
  s1.log 0x4002 [h, reason, x.frame, 0]

/-- An output stops emitting: nothing of it is voided any more, and its open episodes begin their second out of void (log
entry 58). -/
def State.endVoids (s : State) (o : Nat) : State :=
  { s with comp := { s.comp with
    voids := s.comp.voids.filter (fun e => e.1 / 128 != o)
    episodes := s.comp.episodes.map (fun e =>
      if e.output = o then { e with clearSince := some (e.clearSince.getD s.time.room) } else e) } }

/-- The queue of the upper lane of a bonded head, which is that of the next head, is empty of demands (R150). -/
def State.calmUpper (s : State) (h : Nat) : State :=
  if headBond (s.outSet h) then s.setHead (h + 1) { s.head (h + 1) with panic := false } else s

/-- A head leaves scanning for another state. -/
def State.stopHead (s : State) (h reason : Nat) (st : HeadState) : State :=
  let s1 := ((s.sendHeadStop h reason).calmUpper h).endVoids h
  let x := s1.head h
  (s1.setHead h { x with
    state := st, line := none, held := 0, stopNext := none, panic := false, under := none }).notePanic

/-! ## The proof test's end (R47, R49) -/

/-- Finish the proof test when every output selected has a result: the held response is posted. -/
def State.proofFinish (s : State) : State :=
  match s.comp.proof with
  | some pr =>
    if (maskBits 32 pr.mask).all (fun o => Tbl.has pr.results o) then
      let payload := Bytes.join ((upTo 32).map (fun o => leBytes 1 (Tbl.get pr.results 0xFF o)))
      { s with comp := { s.comp with proof := none } }.release pr.port 0x0603 pr.tag stOk payload
    else s
  | none => s

/-- Give an output its result; `PROOF_RESULT` is written for each output tested. -/
def State.proofResult (s : State) (o result : Nat) : State :=
  match s.comp.proof with
  | some pr =>
    if Tbl.has pr.results o ∨ !pr.mask.testBit o then s
    else
      let s1 := { s with comp := { s.comp with proof := some { pr with results := Tbl.put pr.results o result } } }
      let s2 := if result = 0xFF then s1 else s1.log 0x4120 [o, result, pr.col + pr.row <<< 16, 0]
      s2.proofFinish
  | none => s

/-- An output stops emitting before both its test frames completed: it is not tested (log entry 19). -/
def State.proofDrop (s : State) (o : Nat) : State :=
  match s.comp.proof with
  | some pr => if Tbl.get pr.frames 0 o < 2 then s.proofResult o 0xFF else s
  | none => s

/-- A test in progress ends at safe state: outputs whose two test frames did not both complete report 0xFF
(Table 13-5). -/
def State.proofAbort (s : State) : State :=
  match s.comp.proof with
  | some pr =>
    each ((maskBits 32 pr.mask).filter (fun o => Tbl.get pr.frames 0 o < 2)) s (fun s o => s.proofResult o 0xFF)
  | none => s

/-! ## Encode jobs stop (R213) -/

/-- Send an RTCP packet of a job where the job can send: under SRTP it has the next SRTCP index (R210). -/
def State.encSendRtcp (s : State) (j : Nat) (f : Option Nat → EthFrame) : State :=
  let x := s.encRun j
  let d := s.encJob j
  if !s.encSends j then s
  else if encSrtp d = 0 then s.ethSend (encPort d) (f none)
  else (s.setEncRun j { x with srtcp := (x.srtcp + 1) % 2 ^ 31 }).ethSend (encPort d) (f (some x.srtcp))

/-- Stop a job: nothing more is sent but an RTCP BYE, where the job can send; `ENCODE_STOPPED` gives the reason. -/
def State.stopJob (s : State) (j reason : Nat) (st : EncState) : State :=
  let x := s.encRun j
  let s1 := s.setEncRun j { x with
    state := st, core := if st = .stopped then x.core else none, packets := [], ring := [],
    rowMints := [], carriedFrom := none, needIdr := true }
  (s1.encSendRtcp j (.rtcpBye j)).log 0xB002 [j, reason, x.sentPictures, 0]

/-! ## Safe state (R306 to R309) -/

/-- What safe state does to a panel (R184): the push is abandoned and BL_KEEPp stops. -/
def State.safePanel (s : State) (p : Nat) : State :=
  let x := s.panel p
  match x.state with
  | .running | .dark =>
    let s1 := s.setPanel p { x with
      push := none, keep := false, voidDue := true,
      darkAt := if x.keep then some s.time.now else x.darkAt }
    if x.keep then s1.log 0x4043 [p, 3, x.teCount, 0] else s1
  | .starting => s.setPanel p { x with push := none, voidDue := true }
  | _ => s

/-- A fault of R308 stops a head until safe state ends; one that does not scan yet does not begin. -/
def State.safeHead (s : State) (h : Nat) : State :=
  if s.scanning h then
    let s1 := s.stopHead h 4 .off
    s1.setHead h { s1.head h with safeStopped := true }
  else match (s.head h).state with
  | .locking | .unlocked => s.setHead h { s.head h with state := .off, held := 0, safeStopped := true }
  | _ => s

/-- The renderer takes over a scanning head at once (R39, R306): what is left of the tile row leaving is voided. -/
def State.rendererCuts (s : State) (h : Nat) : State :=
  let d := s.outSet h
  match (s.head h).line with
  | some k =>
    if s.scanning h ∧ 0 < k ∧ k < outH h d ∧ k % 32 ≠ 0 ∧ !(s.head h).standbyHeld then
      s.send (.voidRect h ⟨0, k, outW h d - 1, min (k / 32 * 32 + 31) (outH h d - 1)⟩ 1)
    else s
  | none => s

/-- Stop being the active unit: ARB is released and the unit is standby (R335, R339, R344). -/
def State.yieldRole (s : State) : State :=
  if s.pair.role = .active then
    { s with pair := { s.pair with role := .standby, driveLow := false, dualRun := 0, arbDisagree := 0 } }.postAll 0x0C01
      [1, 2, Config.yieldCause 1, s.pair.port]
  else { s with pair := { s.pair with driveLow := false } }

/-- The Auditor is not sound: BL_KEEPp of every panel stops, until the next start after a reset (Table 7-4). -/
def State.dropKeeps (s : State) : State :=
  each (upTo 8) s (fun s p =>
    let x := s.panel p
    if x.keep then s.setPanel p { x with keep := false, darkAt := some s.time.now } else s)

/-- Enter safe state for a coded message (Table 13-5). -/
def State.enterSafe (s : State) (msg sev : Nat) : State :=
  let src := msg % 256
  let stops := stopsHeads src
  let mask := maskOf ((upTo 24).filter (fun h => stops && s.scanning h))
  let s1 := { s with fault := { s.fault with
    safe := some { msg := msg, severity := sev, since := s.time.now, faults := 0 }, alive := false } }
  let s2 := if stops then each (upTo 24) s1 State.safeHead else each (upTo 24) s1 State.rendererCuts
  let s3 := each (upTo 8) s2 State.safePanel
  let s4 := each (upTo 16) s3 (fun s j =>
    match (s.encRun j).state with
    | .running | .inputIdle => s.stopJob j 3 .stopped
    | _ => s)
  (s4.notePanic.logFrom 1 0 0x8010 [msg, sev, w32 s.time.room, mask]).proofAbort

/-- A further fault of severity 3 or 4 in safe state (R309, R310): it cancels an accepted exit, and one of R308 stops
the heads. -/
def State.furtherSafe (s : State) (msg : Nat) : State :=
  let s1 := match s.fault.exit with
    | some (p, _) => { s with fault := { s.fault with exit := none } }.log 0x8012 [p, msg, 0, 0]
    | none => s
  if stopsHeads (msg % 256) then each (upTo 24) s1 State.safeHead else s1

/-! ## The Auditor (R299 to R305) -/

/-- Append a record to the fault log, a ring of 1,024 (R301). -/
def State.faultLog (s : State) (msg sev : Nat) : State :=
  let l := s.fault.log ++ [{ msg := msg, severity := sev, time := s.time.room }]
  { s with fault := { s.fault with log := l.drop (l.length - 1024) } }

/-- Copy a fault record to the ledger, or count it in the summary of a burst of more than 8 messages in 10 s
(R301). -/
def State.faultRecord (s : State) (msg sev : Nat) (since : Nat) : State :=
  let src := msg % 256
  let recent := ((Tbl.get s.fault.bursts [] src).filter (fun t => s.time.now < t + tenSeconds)) ++ [s.time.now]
  let s1 := { s with fault := { s.fault with bursts := Tbl.set s.fault.bursts [] src recent } }
  if 8 < recent.length then
    let k := limitKey 0x8003 src
    let l := Tbl.get s.ledger.limits {} k
    let l' : Limit := {
      lastAt := some (l.lastAt.getD s.time.now), count := l.count + 1,
      aux := max (l.aux / 2 ^ 32) sev * 2 ^ 32 + msg }
    { s1 with ledger := { s1.ledger with limits := Tbl.set s1.ledger.limits {} k l' } }
  else if bitsOf msg 15 10 = 1 then
    s1.log 0x8002 [msg, (s.time.now - since) / 1000000, 0, 0]
  else s1.log 0x8001 [msg, sev, w32 s.time.room, 0]

/-- The service request of a source (R303, R313, R315): the record for a source of R316 whatever its severity; the
cause from severity 2 on. -/
def State.serviceFor (s : State) (src param msg sev : Nat) : State :=
  match serviceCause src with
  | some b =>
    let s1 := s.log 0x8030 [b, param, msg, 0]
    if 2 ≤ sev then
      { s1 with fault := { s1.fault with service := s1.fault.service ||| BitVec.ofNat 9 (1 <<< b) } }
    else s1
  | none => s

/-- The Auditor receives a coded message: it logs it and reacts by severity (R300 to R305, Tables 13-3 and 13-4). Entering
safe state, it releases ARB with ALIVE (R335); events of one instant go in code order (R296). -/
def State.auditor (s : State) (msg : Nat) : State :=
  let src := msg % 256
  let kind := bitsOf msg 15 10
  let param := bitsOf msg 31 16
  let sev := s.severityOf src param
  let same (a : ActiveFault) : Bool := a.source == src && (isDualRail src || a.param == param)
  let old := s.fault.active.find? same
  let rest := s.fault.active.filter (fun a => !same a)
  let s1 := s.faultLog msg sev
  if kind = 1 then
    let s2 := { s1 with fault := { s1.fault with active := rest } }
    let s3 := s2.faultRecord msg sev ((old.map (·.since)).getD s.time.now)
    s3.notifyHealth (decide (1 ≤ (old.map (·.severity)).getD 0))
  else
    let now := s.time.now
    let entry : ActiveFault := match old with
      | some a => { a with severity := max a.severity sev, param := param, msg := msg }
      | none => { source := src, param := param, severity := sev, since := now, msg := msg }
    let s2 := if kind = 2 then s1 else { s1 with fault := { s1.fault with active := rest ++ [entry] } }
    let s3 := { s2 with fault := { s2.fault with
      auditorBad := s2.fault.auditorBad || src == 0x006 || src == 0x008
      safe := s2.fault.safe.map (fun (x : SafeSt) => { x with faults := x.faults + 1 })
      resetDue := if 4 ≤ sev then some (s2.fault.resetDue.getD (now + 10000000, msg)) else s2.fault.resetDue } }
    let s4 := (s3.faultRecord msg sev now).serviceFor src param msg sev
    let entered : Bool := decide (3 ≤ sev) && !s4.inSafe
    let s5 := if 3 ≤ sev then (if s4.inSafe then s4.furtherSafe msg else s4.enterSafe msg sev) else s4
    let s6 := (if src = 0x006 ∨ src = 0x008 then s5.dropKeeps else s5).notifyHealth (decide (1 ≤ sev))
    let s7 := if entered then s6.postAll 0x0A02 [1, src, kind, param] else s6
    let s8 := if 2 ≤ sev then s7.postAll 0x0A03 [(serviceCause src).getD 0xFF, param] else s7
    if entered then s8.yieldRole else s8

/-- The coded message of Table 13-3. -/
def faultMsg (src kind param : Nat) : Nat := w16 param * 65536 + (kind % 64) * 1024 + src % 256

/-- A unit raises a condition that lasts. -/
def State.raised (s : State) (src param : Nat) : State := s.auditor (faultMsg src 0 param)
/-- A condition ends: `CLEARED` is sent for a source that is active. -/
def State.cleared (s : State) (src param : Nat) : State :=
  if s.fault.active.any (fun a => a.source == src && a.param == w16 param) then s.auditor (faultMsg src 1 param) else s
/-- A happening without duration. -/
def State.happened (s : State) (src param : Nat) : State := s.auditor (faultMsg src 2 param)

/-- Change the set of override bits; `HEALTH_CHANGED` follows a change (R314). -/
def State.setOverride (s : State) (b : Nat) (on : Bool) : State :=
  let m : BitVec 4 := BitVec.ofNat 4 (1 <<< b)
  let v := if on then s.fault.override ||| m else s.fault.override &&& ~~~m
  if v = s.fault.override then s
  else { s with fault := { s.fault with override := v } }.notifyHealth true

/-- An override of an adaptive loop (R314): the record at the first, and then at most once every 10 s per loop. -/
def State.overridden (s : State) (loop unit lo hi held : Nat) : State :=
  (s.logLimited 0x8020 loop tenSeconds 1 0 (fun n _ => [loop + unit <<< 8, w16 lo + w16 hi <<< 16, held, n])).setOverride
    loop true

/-! ## Spilling the ledger (R323, R324) -/

/-- Program the oldest waiting record. Beginning a sector erases the one after it. -/
def LedgerSt.programOne (g : LedgerSt) : LedgerSt :=
  match Tbl.find g.ring (g.spilled % 8192) with
  | none => g
  | some r =>
    let sector := (g.flashPos / 2048 + 1) % 256
    let begins : Bool := g.flashPos % 2048 == 0
    let kept := if begins then g.flash.filter (fun e => e.1 / 2048 != sector) else g.flash
    { g with
      flash := Tbl.put kept g.flashPos r
      flashPos := (g.flashPos + 1) % 524288
      spilled := w32 (g.spilled + 1)
      erases := if begins then Tbl.upd g.erases 0 sector (· + 1) else g.erases }

/-- Program up to `n` waiting records. -/
def LedgerSt.program (g : LedgerSt) : Nat → LedgerSt
  | 0 => g
  | n + 1 => if g.spilled = g.next then g else LedgerSt.program g.programOne n

/-- A flash sector that has reached 80,000 erase cycles is reported (R316 bit 7). -/
def State.checkWear (s before : State) : State :=
  each s.ledger.erases s (fun s e =>
    if 80000 ≤ e.2 ∧ Tbl.get before.ledger.erases 0 e.1 < 80000 then s.raised 0x060 e.1 else s)

/-- Spilling resumed: the records lost meanwhile are reported (R324). -/
def State.reportLost (s : State) : State :=
  match s.ledger.lost with
  | some (f, n) =>
    let cause := if s.ledger.flashFailing then 1 else 2
    { s with ledger := { s.ledger with lost := none, flashFailing := false } }.log 0x0F10 [f, n, cause, 0]
  | none => { s with ledger := { s.ledger with flashFailing := false } }

/-- Spill up to `n` records, when the flash takes them (R323). -/
def State.spill (s : State) (n : Nat) : State :=
  { s with ledger := s.ledger.program n }.checkWear s

/-- A flash write fails (R324): `FLASH_ERROR` is raised for the sector. -/
def State.flashError (s : State) : State :=
  { s with ledger := { s.ledger with flashFailing := true } }.happened 0x061 (s.ledger.flashPos / 2048)

/-- Spill everything that waits at once (R274, R320), unless flash writes fail. -/
def State.spillNow (s : State) : State :=
  if s.ledger.flashFailing then s else s.spill (subMod 32 s.ledger.next s.ledger.spilled)

/-- `LEDGER_RING_OLDEST` (Table 14-3). -/
def State.ringOldest (s : State) : Nat :=
  if subMod 32 s.ledger.next s.ledger.cycleFirst ≤ 8192 then s.ledger.cycleFirst else subMod 32 s.ledger.next 8192

/-- `LEDGER_OLDEST` (Table 14-3). -/
def State.ledgerOldest (s : State) : Nat :=
  match s.ledger.inFlash.head? with
  | some e => e.1
  | none => s.ringOldest

/-! ## Sessions (R273, R274) -/

/-- End the debug session (R368), with the cause of `DEBUG_SESSION_CLOSED`. -/
def State.closeDebug (s : State) (cause : Nat) : State :=
  match s.sec.dbg.openSince with
  | some t =>
    { s with sec := { s.sec with dbg := { s.sec.dbg with openSince := none } } }.log 0xA041
      [cause, (s.time.now - t) / 1000000000, 0, 0]
  | none => s

/-- Close the session of a port: held responses are discarded, event enables end, the queue is emptied (R273).
`cause` is 1 for `SESSION_CLOSE`, 2 when replaced. -/
def State.closeSession (s : State) (p cause : Nat) : State :=
  let q := s.port p
  if q.session = 0 then s
  else
    (s.setPort p { q with
      session := 0, major := 0, minor := 0, served := 0, held := [], evEnable := 0, evWr := 0, evRd := 0, evq := [],
      evSeq := 0, evLost := none }).log 0xC002 [p, q.session, cause, q.served]

/-! ## Serving a message (R276) -/

/-- Teller firmware runs: the device is not held in reset and not OFF, and debug has not halted it (R369). -/
def State.tellerUp (s : State) : Bool :=
  !s.heldInReset && decide (s.power.state ≠ .off) && s.sec.halted.isNone

/-- Carry out a message: the request in hand on the port, when it is this message, is taken out of hand and answered or
held by `f`. With no such request in hand there is nothing to carry out (log entry 6). -/
def State.serve (s : State) (dt : Nat) (p : Fin 4) (op : Nat) (f : State → Request → State) : State :=
  let s1 := s.elapse dt
  let q := s1.port p
  match q.inHand with
  | some r => if r.opcode = op ∧ s1.tellerUp then f (s1.setPort p { q with inHand := none }) r else s1
  | none => s1

/-- A message marked Flash is carried out when no other flash write is in progress; until then it stays in hand
(R289). -/
def State.serveFlash (s : State) (dt : Nat) (p : Fin 4) (op : Nat) (f : State → Request → State) : State :=
  if s.power.flash.isSome then s.elapse dt else s.serve dt p op f

/-- Begin the flash write of a message; `FLASH_WRITE_COMPLETE` answers it (R289). -/
def State.beginFlash (s : State) (p : Nat) (r : Request) (image : Option Image) : State :=
  { s with power := { s.power with flash := some { port := p, req := r, image := image } } }

/-- The windows of the partner ports can be reached: the device is not held in reset and not OFF. -/
def State.windowUp (s : State) : Bool := !s.heldInReset && decide (s.power.state ≠ .off)

end Sys2Proof.Machine
end

