-- ==== Sys2Proof/Machine/Domains.lean ====
section
/-!
DEFINITION. Power domains (R370, R371, R373): the effective voltage window, and switching a domain on or off.
-/
namespace Sys2Proof.Machine

/-- Bounds in mV of the safety limits of a domain's voltage: the fuse window, and the Auditor floor at its clock (R373). -/
def State.safeVolts (s : State) (d : Nat) : Nat × Nat :=
  (max 680 (min (Config.auditorFloor d (s.domain d).clock) 860), 860)

/-- A software envelope cut by safety limits (R314): the window, and whether the intersection is empty, when the nearest
safety limit is held. -/
def cutWindow (lo hi safeLo safeHi : Nat) : Nat × Nat × Bool :=
  if max lo safeLo ≤ min hi safeHi then (max lo safeLo, min hi safeHi, false)
  else if hi < safeLo then (safeLo, safeLo, true)
  else (safeHi, safeHi, true)

/-- The effective voltage window of a domain (R373). -/
def State.voltWindow (s : State) (d : Nat) : Nat × Nat × Bool :=
  cutWindow (s.domain d).loMv (s.domain d).hiMv (s.safeVolts d).1 (s.safeVolts d).2

/-- Midpoint of the effective window in units of 0.5 mV, which needs no rounding (R371, R381). -/
def State.midVolts (s : State) (d : Nat) : Nat := (s.voltWindow d).1 + (s.voltWindow d).2.1

/-- Switch a domain on at the midpoint of its window and at full clock, to which a domain that went off throttled returns (R374);
`DOMAIN_POWER` records it. -/
def State.domainOn (s : State) (d cause : Nat) : State :=
  if (s.domain d).on then s
  else
    let x := s.domain d
    let s1 := s.setDomain d { x with on := true, clock := 8, throttled := false, hmv := s.midVolts d }
    (s1.log 0x0020 [d, 1, cause, (s.midVolts d) / 2]).cleared 0x050 d

/-- Switch a domain off. -/
def State.domainOff (s : State) (d cause : Nat) : State :=
  if (s.domain d).on then
    let x := s.domain d
    (s.setDomain d { x with on := false }).log 0x0020 [d, 0, cause, x.hmv / 2]
  else s

/-! ## Self-tests (R258, R371) -/

/-- The SRAM block of a domain (Tables 10-3, 17-1): of Fabric the tile book or the miscellaneous block. -/
def domainBlock (d : Nat) (misc : Bool) : Option SramBlock :=
  if d < 2 then some .misc else if d = 2 then some .teller else if d = 3 then some (if misc then .misc else .tileBook)
  else if 4 ≤ d ∧ d < 8 then some .decode else if d = 8 then some .encode
  else if 9 ≤ d ∧ d < 13 then some .composition else if d = 13 then some .scanOut
  else if 14 ≤ d ∧ d < 18 then some .memCtrl else none

/-- A macro has no spare left (R258): its engine or head's queue is out of service, or the device stays in reset. A core that owns
it fails beside this. -/
def State.macroExhausted (s : State) (block : SramBlock) (arr unit : Nat) : State :=
  let s1 := (s.log 0x6051 [sramIndex block, arr, unit, 0]).raised 0x02A (sramIndex block)
  match block with
  | .composition =>
    { s1 with comp := { s1.comp with enginesOut := s1.comp.enginesOut ||| BitVec.ofNat 16 (1 <<< unit) } }
  | .scanOut =>
    { s1 with comp := { s1.comp with headsOut := s1.comp.headsOut ||| BitVec.ofNat 24 (1 <<< unit) } }
  | .decode | .encode => s1
  | _ => { s1 with fault := { s1.fault with dead := true, alive := false } }

/-- What the self-test of a domain does to its SRAM (R258, R371), and the cores of a decoder or encoder domain that fail. -/
def State.testDomain (s : State) (d : Nat) (t : SelfTest) : State × List Nat :=
  match domainBlock d t.misc with
  | none => (s, [])
  | some b =>
    let s1 := match t.repaired with
      | some (m, n) => s.log 0x6050 [sramIndex b, m, n, 0]
      | none => s
    let s2 := match t.exhausted with
      | some (m, u) => s1.macroExhausted b m u
      | none => s1
    let s3 := if t.uncorrectable then s2.happened 0x028 (sramIndex b) else s2
    let units := (t.failedUnits ++ (t.exhausted.map (·.2)).toList).foldl insertNat []
    (s3, if 4 ≤ d ∧ d < 8 then (if units = [] then [] else [d - 4])
      else if d = 8 then units.filter (fun u => decide (u < 2)) else [])

/-- The self-test of a domain that comes up by itself, of which the result is free. -/
def State.testOf (s : State) (d : Nat) : SelfTest := Config.selfTest s.draw d

/-- Number of the quad pair's domain of a lane. -/
def lanePair (l : Nat) : Nat := 18 + l / 8

/-- The night lane pair (Table 17-2): the pair of the PTP port under `PTP`, else of Ethernet port 0. -/
def State.nightPair (s : State) : Option Nat :=
  ((s.links.lanesOf 4)[if s.time.disc = .ptp then s.time.discPort else 0]?).map lanePair

/-- A power state with a mask keeps a domain off (Table 17-2). -/
def State.masks (s : State) (st : PowerState) (mask d : Nat) : Bool :=
  match st with
  | .run => false
  | .dim => mask.testBit d
  | .night => decide (4 ≤ d ∧ d < 24) && s.nightPair != some d
  | .off => d != 0

/-- The power state in force keeps a domain off. -/
def State.maskedOff (s : State) (d : Nat) : Bool := s.masks s.power.state s.power.mask d

/-- Every composition group is switched off (Table 17-2): layers age and nothing is composed. -/
def State.composeOff (s : State) : Bool := [9, 10, 11, 12].all s.maskedOff

end Sys2Proof.Machine
end

