-- ==== Sys2Proof/Machine/Start.lean ====
section
/-!
DEFINITION. Start-up (R383, R384): reaching a start step, what Teller firmware does at step 4, and the return of the
host-visible configuration to its defaults (R380, Table 17-4).
-/
namespace Sys2Proof.Machine

/-- Host-visible configuration returns to its defaults (first row of Table 17-4). Key baselines and debounced states,
which AON holds, are kept. -/
def State.configDefaults (s : State) : State :=
  { s with
    sets := { s.sets with
      active := {}, shadow := {}, held := [], groups := [], effect := none, crcOk := true, restorePending := true }
    src := { s.src with run := [], dec := [], params := [], surf := [], kinik := [], kinikBuf := [] }
    panelInit := []
    encJobs := []
    enc := []
    keys := Tbl.mapAll s.keys {} (fun _ e => { e with setting := none, nextSetting := none })
    time := { s.time with
      disc := .free, discPort := 0, ptpDomain := 0, ptpTransport := 0, clock := {}, clockNext := none, stepBack := none }
    links := { s.links with eth := Tbl.mapAll s.links.eth {} (fun _ e => { e with setting := none }) }
    mem := { s.mem with policy := none, regions := none }
    fault := { s.fault with severity := [] }
    power := { s.power with wakeMask := 0, alarm := 0 }
    sec := { s.sec with slots := [], mpu := Tbl.del (Tbl.del s.sec.mpu 0) 1 } }

/-- Touch scanning restarts at `SCAN_HIGH` (R381). -/
def State.keysFast (s : State) : State :=
  { s with keys := Tbl.mapAll s.keys {} (fun _ g => { g with rate := keyScanHigh g.set }) }

/-- The configuration failed its CRC at a restart (R381): it is discarded as at PIN, and the state of room time follows. -/
def State.configLost (s : State) : State :=
  let old := s.time.state
  let st : RtState := if old = .unset then .unset else .free
  let s1 := s.configDefaults.log 0x0003
    [s.power.resetKind, w32 (Config.measured s.draw), w32 (Config.measured (s.draw + 1)), 0]
  let s2 := { s1 with time := { s1.time with state := st, traceable := false, offset := 0, ahead := false } }
  if st = old then s2 else s2.log 0x1052 [rtCode old, rtCode st, 3, 0]

/-- Times of AUDITOR resets within the last 10 minutes. -/
def State.auditorRecent (s : State) : List Nat :=
  s.power.auditorTimes.filter (fun t => decide (s.time.now < t + 600000000000))

/-- Start step 4 (Table 17-5): the ledger scan, the configuration check of R381, `RESET_RECORDED`, and the records and
messages due for what the resets did. A dual-rail source still in fault is raised anew. -/
def State.tellerStart (s : State) : State :=
  let s1 := s.ledgerStart
  let s2 := s1.log 0x0001 [s1.power.resetKind, s1.power.resetDetail, s1.auditorRecent.length, w32 s1.time.room]
  let s3 := if s2.sets.crcOk then s2 else s2.configLost
  let s4 := each s3.power.due { s3 with power := { s3.power with due := [], dueFaults := [] } }
    (fun s d => s.log d.1 d.2)
  let s5 := match s4.power.startInSafe with
    | some msg =>
      { s4 with fault := { s4.fault with
        safe := some { msg := msg, severity := 4, since := s4.time.now, faults := 0 } } }.log 0x8014
        [s4.auditorRecent.length, msg, 0, 0]
    | none => s4
  let s6 := each s3.power.dueFaults s5 State.auditor
  each (upTo 16) s6 (fun s id =>
    match railReading id (Tbl.get s.fault.rails (false, true) id) with
    | some k =>
      if s.fault.active.any (fun a => a.source == id) then s
      else s.auditor (faultMsg id k (Tbl.get s.fault.railInst 0 id))
    | none => s)

/-- Domains that come up without Teller firmware: Auditor and Host PCIe in step 2, Teller in step 3 (Table 17-5). -/
def State.earlyDomains (s : State) : State :=
  each [1, 2, 25] s (fun s d => s.setDomain d { s.domain d with on := true })

/-- Domains without decoder or encoder cores are tested (R258). -/
def State.testDomains (s : State) (l : List Nat) : State := each l s (fun s d => (s.testDomain d (s.testOf d)).1)

/-- The start reaches step `n`: nothing when it has been reached already. In step 5 Fabric and the memory pairs come up. Every domain
that comes up is tested; what the tests of step 2 and 3 find is recorded from step 4 on. -/
def State.reach (s : State) (n : Nat) : State :=
  if n ≤ s.power.step then s
  else
    let old := s.power.step
    let s1 := { s with power := { s.power with
      step := n
      tellerAt := if 3 ≤ n then some (s.power.tellerAt.getD s.time.now) else s.power.tellerAt } }
    let fresh (l : List Nat) : List Nat := l.filter (fun d => !(s.domain d).on)
    let s2 := if old < 4 ∧ 4 ≤ n then s1.earlyDomains.tellerStart.testDomains (fresh [1, 2]) else s1
    if old < 5 ∧ 5 ≤ n then (each [3, 14, 15, 16, 17] s2 (fun s d => s.domainOn d 1)).testDomains (fresh [3, 14, 15, 16, 17])
    else s2

end Sys2Proof.Machine
end

