-- ==== Sys2Proof/Machine/Dram.lean ====
section
/-!
DEFINITION. Device memory (R241, R356, R360): bytes of DRAM in one canonical form, and the checks of the memory
protection units.
-/
namespace Sys2Proof.Machine

/-! ## Bytes -/

/-- The form of memory: addresses strictly rising, and no entry equal to what an unlisted address reads as, zero. -/
def Memory.wf : List Host.Cell → Bool
  | [] => true
  | [(_, v)] => v != 0
  | (a, v) :: (b, w) :: r => decide (a < b) && v != 0 && Memory.wf ((b, w) :: r)

/-- Read one byte; an unlisted address reads zero (log entry 13). -/
def Memory.read (m : List Host.Cell) (a : Nat) : BitVec 8 :=
  match m with
  | [] => 0
  | (b, v) :: r => if b = a then v else Memory.read r a

/-- List a byte at an address. -/
def Memory.insert (m : List Host.Cell) (a : Nat) (v : BitVec 8) : List Host.Cell :=
  match m with
  | [] => [(a, v)]
  | (b, w) :: r =>
    if a < b then (a, v) :: (b, w) :: r
    else if a = b then (a, v) :: r
    else (b, w) :: Memory.insert r a v

/-- Unlist an address. -/
def Memory.erase (m : List Host.Cell) (a : Nat) : List Host.Cell :=
  match m with
  | [] => []
  | (b, w) :: r => if a = b then Memory.erase r a else (b, w) :: Memory.erase r a

/-- Write one byte: writing zero unlists the address. -/
def Memory.write (m : List Host.Cell) (a : Nat) (v : BitVec 8) : List Host.Cell :=
  if v = 0 then Memory.erase m a else Memory.insert m a v

/-- Write the bytes of a number, lowest first, at the addresses of a list. -/
def Memory.writeAll (m : List Host.Cell) (addrs : List Nat) (data : Nat) : List Host.Cell :=
  match addrs with
  | [] => m
  | a :: r => Memory.writeAll (Memory.write m a (BitVec.ofNat 8 data)) r (data / 256)

/-- Write bytes at offsets from an address. -/
def Memory.writeAt (m : List Host.Cell) (a : Nat) (bytes : List (Nat × Nat)) : List Host.Cell :=
  bytes.foldl (fun m e => Memory.write m (a + e.1) (BitVec.ofNat 8 e.2)) m

/-- Bytes from an address, as a number read little-endian. -/
def Memory.readAll (m : List Host.Cell) (a : Nat) : Nat → Nat
  | 0 => 0
  | n + 1 => (Memory.read m a).toNat + 256 * Memory.readAll m (a + 1) n

/-- Keep only the addresses that satisfy a test. -/
def Memory.keep (m : List Host.Cell) (p : Nat → Bool) : List Host.Cell := m.filter (fun c => p c.1)

/-! ## Where an access ends (R241, R252, R376) -/

/-- No access reaches DRAM: one of its four domains is off, in NIGHT or in DIM (R250, R375, R376). Every surface spans every
channel. -/
def State.dramAsleep (s : State) : Bool := (from' 14 4).any (fun d => s.maskedOff d || !(s.domain d).on)

/-- Place the channels in use in self-refresh, or bring them out (R250). -/
def State.sleepDram (s : State) (on : Bool) : State :=
  { s with mem := { s.mem with
    selfRefresh := on
    chans := Tbl.mapAll s.mem.chans {} (fun _ x =>
      match on, x.state with
      | true, .run => { x with state := .selfRefresh, queue := [] }
      | false, .selfRefresh => { x with state := .run }
      | _, _ => x) } }

/-- A request of a master arrives: it begins the exit from self-refresh, unless the domains are off (R250). -/
def State.dramRequest (s : State) : State :=
  let s1 := if s.mem.selfRefresh && !s.dramAsleep then s.sleepDram false else s
  { s1 with mem := { s1.mem with lastReq := s1.time.now } }

/-- The address exists and its channel answers: it is neither frozen nor in training. -/
def State.dramAnswers (s : State) (a : Nat) : Bool :=
  !s.dramAsleep &&
  match s.mem.locate a with
  | none => false
  | some (c, _) =>
    match (s.chan c).state with
    | .run | .selfRefresh => true
    | _ => false

/-! ## Memory protection (R356, R359 to R369) -/

/-- Size of the key area (R354). -/
def keyArea : Nat := 2 ^ 26
/-- Start of the key area, the top 64 MiB of the Teller region (R354). -/
def MemSt.keyBase (m : MemSt) : Nat := m.capacity - keyArea

/-- Vault region setting: enabled, base, size (R355). -/
def vaultOn (v : BitVec 160) : Bool := fld v 0 7 0 != 0
def vaultBase (v : BitVec 160) : Nat := (v.toNat >>> 32) % 2 ^ 64
def vaultSize (v : BitVec 160) : Nat := (v.toNat >>> 96) % 2 ^ 64

/-- A setting with its base moved from a map whose Teller region began at `old` to one where it begins at `new` (R355). -/
def vaultMoved (old new : Nat) (v : BitVec 160) : BitVec 160 :=
  if vaultOn v then BitVec.ofNat 160 (v.toNat - vaultBase v <<< 32 + w64 (vaultBase v + new - old) <<< 32) else v

/-- A line lies in the key area or in an enabled vault region (R356). -/
def State.vaulted (s : State) (line : Nat) : Bool :=
  (decide (s.mem.keyBase ≤ line) && decide (line < s.mem.capacity))
    || s.sec.vault.any (fun e =>
      vaultOn e.2 && decide (vaultBase e.2 < line + 64) && decide (line < vaultBase e.2 + vaultSize e.2))

/-- Entry of an MPU region (`MPU_SET_WRITE`). -/
def regBase (r : BitVec 128) : Nat := r.toNat % 2 ^ 64
def regLog (r : BitVec 128) : Nat := fld r 2 7 0
def regRead (r : BitVec 128) : Bool := bit r 2 8
def regWrite (r : BitVec 128) : Bool := bit r 2 9
def regSecure (r : BitVec 128) : Bool := bit r 2 10

/-- A region's entry from its fields. -/
def mkRegion (base log : Nat) (rd wr sec : Bool) : BitVec 128 :=
  BitVec.ofNat 128 (base + (log + b2n rd <<< 8 + b2n wr <<< 9 + b2n sec <<< 10) <<< 64)

/-- The region covers a 64-byte line. -/
def regCovers (r : BitVec 128) (line : Nat) : Bool :=
  decide (regBase r ≤ line) && decide (line + 64 ≤ regBase r + 2 ^ regLog r)

/-- One set of a group. -/
def MpuGroup.set (g : MpuGroup) (n : Nat) : List (BitVec 128) :=
  (g.regions.filter (fun e => e.1 / 32 == n)).map (·.2)

/-- Whether the MPU allows a non-secure access of a group to one line (R360, R356). -/
def State.mpuAllows (s : State) (g : Nat) (write : Bool) (line : Nat) : Bool :=
  !s.vaulted line &&
  (if g = 3 then
    decide (s.debugSet = 0) || (!write && decide (line + 64 ≤ s.mem.hostSize))
  else
    ((s.mpu g).set (s.mpu g).live).any (fun r =>
      regCovers r line && (if write then regWrite r else regRead r) && !regSecure r))

/-- The 64-byte lines of a byte range. -/
def linesOf (addr len : Nat) : List Nat :=
  if len = 0 then [] else (upTo ((addr + len - 1) / 64 - addr / 64 + 1)).map (fun i => (addr / 64 + i) * 64)

/-- The fewest aligned power-of-two blocks that cover exactly `size` bytes from `base` (R361), of at least 4 KiB. -/
def coverBlocks (base size : Nat) : Nat → List (Nat × Nat)
  | 0 => []
  | fuel + 1 =>
    if size < 4096 then []
    else
      let fits := (upTo 37).filter (fun k => decide (12 ≤ k) && base % 2 ^ k == 0 && decide (2 ^ k ≤ size))
      match fits.getLast? with
      | some k => (base, k) :: coverBlocks (base + 2 ^ k) (size - 2 ^ k) fuel
      | none => []

/-- Set 0 from blocks of regions with their permissions. -/
def mkSet (l : List (Nat × Nat × Bool × Bool × Bool)) : Tbl (BitVec 128) :=
  ((upTo 32).zip l).map (fun e => (e.1, mkRegion e.2.1 e.2.2.1 e.2.2.2.1 e.2.2.2.2.1 e.2.2.2.2.2))

/-- Blocks of a byte range with permissions. -/
def blocksOf (base size : Nat) (rd wr sec : Bool) : List (Nat × Nat × Bool × Bool × Bool) :=
  (coverBlocks base size 40).map (fun b => (b.1, b.2, rd, wr, sec))

/-- The regions a Teller-owned group uses (R361, Table 10-1), and the host region for reading: permissions of Teller,
composed, decode, source, encode. -/
def groupUse (g : Nat) : List (Bool × Bool) :=
  let no := (false, false)
  let rd := (true, false)
  let rw := (true, true)
  match g with
  | 2 => [rw, rw, rw, rw, rw]
  | 4 => [no, no, no, rw, no]
  | 5 => [no, no, rw, rd, no]
  | 6 => [no, rw, rd, rd, no]
  | 7 => [no, rd, no, no, no]
  | 8 => [no, rd, rd, rd, rw]
  | _ => [no, no, no, no, no]

/-- The default sets of a group over the present map (R361). -/
def State.defaultSets (s : State) (g : Nat) : MpuGroup :=
  let map := regionMap s.mem.regionWord s.mem.capacity
  if g < 2 then { regions := mkSet (blocksOf 0 s.mem.hostSize true true false) }
  else
    let own := (map.zip (groupUse g)).flatMap (fun e =>
      if e.2.1 then blocksOf e.1.1 e.1.2 e.2.1 e.2.2 (g == 2) else [])
    { regions := mkSet (own ++ blocksOf 0 s.mem.hostSize true false false) }

/-! ## Denied accesses (R362, R364) -/

/-- Close the open notice of a group (R364). -/
def State.closeNotice (s : State) (g : Nat) : State :=
  let m := s.mpu g
  match m.noticeOpen with
  | some n =>
    ((s.setMpu g { m with noticeOpen := none, notices := w32 (m.notices + 1), lastNotice := n }).happened 0x081 g).log
      0xA031 [g + n.set <<< 8, n.count, w32 n.window, hi32 n.window]
  | none => s

/-- A posted write of a group is denied (R364). -/
def State.deniedWrite (s : State) (g line : Nat) : State :=
  let m := s.mpu g
  let w := line / 4096 * 4096
  let fresh : Notice := { set := s.liveSet g, count := 1, window := w, openedAt := s.time.now }
  match m.noticeOpen with
  | some n =>
    if n.window = w then s.setMpu g { m with noticeOpen := some { n with count := n.count + 1 } }
    else
      let s1 := s.closeNotice g
      s1.setMpu g { s1.mpu g with noticeOpen := some fresh }
  | none => s.setMpu g { m with noticeOpen := some fresh }

/-- A read of a group is denied precisely (R362). -/
def State.deniedRead (s : State) (g line : Nat) : State :=
  let w := line / 4096 * 4096
  (s.happened 0x081 g).logLimited 0xA030 g tenSeconds 1 0 (fun n _ => [g, n, w32 w, hi32 w])

/-- A debug access or halt request is denied (R369): kind 1 memory, 2 halt. -/
def State.deniedDebug (s : State) (kind addr : Nat) : State :=
  (s.happened 0x082 3).logLimited 0xA042 0 tenSeconds 1 0 (fun n _ => [n, kind, w32 (addr / 4096 * 4096), 0])

end Sys2Proof.Machine
end

