-- ==== Sys2Proof/Machine/Mpu.lean ====
section
/-!
DEFINITION. Accesses to device memory by hosts and debug, and the messages of the memory protection units
(16_protection_and_secrets.md).
-/
namespace Sys2Proof.Machine

/-- The bytes of one line that lie in a range. -/
def lineBytes (addr len line : Nat) : List Nat :=
  from' (max addr line) (min (addr + len) (line + 64) - max addr line)

/-- Read one line's bytes of a range into their places of the value. -/
def State.readLine (s : State) (addr len line : Nat) : Nat :=
  sumOf ((lineBytes addr len line).map (fun a => (Memory.read s.mem.dram a).toNat <<< (8 * (a - addr))))

/-- Write one line's bytes of a range. -/
def State.writeLine (s : State) (acc : MemAccess) (line : Nat) : State :=
  let l := lineBytes acc.addr acc.len line
  { s with mem := { s.mem with
    dram := Memory.writeAll s.mem.dram l (acc.data >>> (8 * (max acc.addr line - acc.addr))) } }

/-- A host write that is discarded and counted (R252, R376). -/
def State.discardWrite (s : State) (g : Nat) : State :=
  s.setMpu g { s.mpu g with discarded := (s.mpu g).discarded + 1 }

/-- A host write to one line (R360, R364). -/
def State.hostWriteLine (s : State) (g : Nat) (acc : MemAccess) (line : Nat) : State :=
  if s.dramAsleep then s.discardWrite g
  else if !s.mpuAllows g true line then s.deniedWrite g line
  else if s.dramAnswers line then s.dramRequest.writeLine acc line
  else s.discardWrite g

/-- A host read of one line, with the value and the error so far. -/
def State.hostReadLine (g : Nat) (acc : MemAccess) (x : State × Nat × Bool) (line : Nat) : State × Nat × Bool :=
  let (s, v, err) := x
  if s.dramAsleep then (s, v, true)
  else if !s.mpuAllows g false line then (s.deniedRead g line, v, true)
  else if s.dramAnswers line then
    (s.dramRequest, v + s.readLine acc.addr acc.len line, err)
  else (s, v, true)

/-- `HOST_MEMORY_ACCESS` (R360, R391): line by line through BAR 2; a read that meets a denial or an error completes with
Completer Abort. -/
def execHostMemoryAccess (dt : Nat) (h : Fin 2) (acc : MemAccess) (s : State) : Host.Outcome State Fault Refusal :=
  let s1 := s.elapse dt
  if !s1.windowUp then .next s1
  else if acc.write then .next (each (linesOf acc.addr acc.len) s1 (fun s l => s.hostWriteLine h acc l))
  else
    let r := (linesOf acc.addr acc.len).foldl (State.hostReadLine h acc) (s1, 0, false)
    .next (r.1.send (.readData h r.2.1 r.2.2))

/-- Sizes of the SRAM blocks in KiB (Table 10-3). -/
def sramKiB : SramBlock → Nat
  | .composition => 16384 | .decode => 12288 | .encode => 6144 | .teller => 4096 | .tileBook => 4096 | .scanOut => 4096
  | .memCtrl => 1024 | .misc => 1024

/-- Teller's private SRAM after a debug write. -/
def State.writeTeller (s : State) (acc : MemAccess) : State :=
  { s with mem := { s.mem with
    teller := (upTo acc.len).foldl (fun t i => Tbl.put t (acc.addr + i) (acc.data / 256 ^ i % 256)) s.mem.teller } }

/-- Bytes of Teller's private SRAM as a debug read finds them: those that debug wrote, or firmware's own. -/
def State.readTeller (s : State) (addr len : Nat) : Nat :=
  sumOf ((upTo len).map (fun i =>
    (Tbl.get s.mem.teller (Config.tellerSram s.draw (addr + i) % 256) (addr + i)) <<< (8 * i)))

/-- Whether a debug access to a target is allowed at a line (R356, R367, R369). -/
def State.debugAllowed (s : State) (target : DebugTarget) (write : Bool) (line : Nat) : Bool :=
  match target with
  | .vaultSlot | .otpKey => false
  | .tellerSram => decide (s.debugSet = 0) && decide (line < sramKiB .teller * 1024)
  | .memory => s.mpuAllows 3 write line

/-- `DEBUG_MEMORY_ACCESS` (R369): a denied access is an error response, reads zero and writes nothing. -/
def execDebugMemoryAccess (dt : Nat) (target : DebugTarget) (acc : MemAccess) (s : State) :
    Host.Outcome State Fault Refusal :=
  let s1 := s.elapse dt
  let lines := linesOf acc.addr acc.len
  if !s1.windowUp then .next s1
  else if lines.any (fun l => !s1.debugAllowed target acc.write l) then
    .next ((s1.deniedDebug 1 acc.addr).send (.readData 3 0 true))
  else
    match target with
    | .memory =>
      if lines.any (fun l => !s1.dramAnswers l) then .next (s1.send (.readData 3 0 true))
      else if acc.write then .next ((each lines s1.dramRequest (fun s l => s.writeLine acc l)).send (.readData 3 0 false))
      else .next (s1.dramRequest.send (.readData 3 (sumOf (lines.map (s1.readLine acc.addr acc.len))) false))
    | _ =>
      if acc.write then .next ((s1.writeTeller acc).send (.readData 3 0 false))
      else .next (s1.send (.readData 3 (s1.readTeller acc.addr acc.len) false))

/-- `TELLER_HALT_REQUEST` (R369, Table 16-1). -/
def execTellerHaltRequest (dt : Nat) (s : State) : Host.Outcome State Fault Refusal :=
  let s1 := s.elapse dt
  if s1.debugSet = 0 then
    .next { s1 with sec := { s1.sec with halted := some (s1.sec.halted.getD s1.time.now) } }
  else .next (s1.deniedDebug 2 0)

/-! ## Messages -/

/-- Whether a region entry that grants something has a legal geometry. -/
def regionLegal (r : BitVec 128) : Bool :=
  (!regRead r && !regWrite r)
    || (decide (12 ≤ regLog r ∧ regLog r ≤ 36) && regBase r % 2 ^ regLog r == 0
      && decide (regBase r + 2 ^ regLog r ≤ 2 ^ 36))

/-- A region that grants write into the system reservation (R242). -/
def MemSt.writesReservation (m : MemSt) (r : BitVec 128) : Bool :=
  regWrite r && decide (m.hostSize < regBase r + 2 ^ regLog r) && decide (regBase r < m.capacity)

/-- `MPU_SET_WRITE` (R359, R365). -/
def execMpuSetWrite (dt : Nat) (p : Fin 4) (s : State) : Host.Outcome State Fault Refusal :=
  .next (s.serve dt p 0x0F05 (fun s r =>
    let g := r.u8 0
    let set := r.u8 1
    let first := r.u8 2
    let n := r.u8 3
    let items := (upTo n).map (fun i => BitVec.ofNat 128 (Bytes.at r.payload (4 + 16 * i) 16))
    if r.length = 0 then s.status p r stOk
    else if r.length ≠ 4 + 16 * n then s.status p r stBadLength
    else if g ≠ p then s.status p r stDenied
    else if 1 < set ∨ 32 < first + n then s.status p r stNotSupported
    else if set = (s.mpu g).live then s.status p r stDenied
    else if items.any (fun x => !regionLegal x) then s.status p r stNotSupported
    else if items.any (fun x => s.mem.writesReservation x) then s.status p r stDenied
    else
      let m := s.mpu g
      let regions := ((upTo n).zip items).foldl (fun t e => Tbl.set t 0 (32 * set + first + e.1) e.2) m.regions
      (s.setMpu g { m with regions := regions }).status p r stOk))

/-- `MPU_SWAP` (R359, R365). -/
def execMpuSwap (dt : Nat) (p : Fin 4) (s : State) : Host.Outcome State Fault Refusal :=
  .next (s.serve dt p 0x0F06 (fun s r =>
    let g := r.u8 0
    if g ≠ p then s.status p r stDenied
    else
      let m := s.mpu g
      let m' := { m with live := 1 - m.live, epoch := w32 (m.epoch + 1), drained := false }
      (s.setMpu g m').answer p r stOk (leBytes 4 m'.epoch)))

/-- `MPU_STATUS_GET` (R365, Table 12-13). -/
def execMpuStatusGet (dt : Nat) (p : Fin 4) (s : State) : Host.Outcome State Fault Refusal :=
  .next (s.serve dt p 0x0F07 (fun s r =>
    let g := r.u8 0
    if 8 < g then s.status p r stNotSupported
    else
      let m := s.mpu g
      s.answer p r stOk (wordsLE [g, s.liveSet g, m.epoch, b2n m.drained, m.spec, m.notices, w32 m.lastNotice.window,
        hi32 m.lastNotice.window])))

/-- `MPU_NOTICE_CLOSE` (R364): t_notice, 1 ms, after it opened. -/
def execMpuNoticeClose (dt : Nat) (g : Fin 9) (s : State) : Host.Outcome State Fault Refusal :=
  let s1 := s.elapse dt
  match (s1.mpu g).noticeOpen with
  | some n => if n.openedAt + 1000000 ≤ s1.time.now then .next (s1.closeNotice g) else .next s1
  | none => .next s1

/-- `EPOCH_DRAINED` (R365). -/
def execEpochDrained (dt : Nat) (g : Fin 9) (s : State) : Host.Outcome State Fault Refusal :=
  let s1 := s.elapse dt
  .next (s1.setMpu g { s1.mpu g with drained := true })

end Sys2Proof.Machine
end

