-- ==== Sys2Proof/Machine/Opcodes.lean ====
section
/-!
DEFINITION. The message catalogue as a table (Tables 12-2 to 12-10): for each opcode the lowest version, the ports that
may send it, its payload's length, its fixed response length, and the classes of R288, R289, R376 and R384.
-/
namespace Sys2Proof.Machine

/-- Allowed lengths of a request payload (R270). -/
inductive LenKind where
  /-- No payload. -/
  | empty
  /-- A fixed layout. -/
  | fixed (n : Nat)
  /-- An item-list write of items of `size` bytes (R285). -/
  | items (size : Nat)
  /-- Another list or byte string, whose message checks the length itself. -/
  | var
  deriving DecidableEq, Repr

/-- One message of the catalogue. `ports` has a bit per partner port; `resp` is the response's length, or the length
below which even an empty list does not fit. -/
structure OpRow where
  op : Nat
  major : Nat
  minor : Nat
  ports : Nat
  len : LenKind
  resp : Nat
  /-- Answered STANDBY on the standby of a pair (R288). -/
  mirrored : Bool
  /-- Served between start step 4 and start complete (R384). -/
  early : Bool
  /-- Needs a domain that is off in NIGHT (R376). -/
  awake : Bool
  deriving DecidableEq, Repr

def portsAB : Nat := 3
def portsABS : Nat := 7
def portsABD : Nat := 11
def portsAll : Nat := 15

/-- Session, device, source and room-time messages (Tables 12-2 and 12-3). -/
def catalogueA : List OpRow := [
  ⟨0x0001, 2, 0, portsAll, .fixed 16, 16, false, true, false⟩,
  ⟨0x0002, 2, 0, portsAll, .empty, 0, false, true, false⟩,
  ⟨0x0101, 2, 0, portsAll, .empty, 48, false, true, false⟩,
  ⟨0x0102, 2, 0, portsABS, .fixed 4, 0, false, false, false⟩,
  ⟨0x0103, 3, 0, portsAB, .var, 8, false, false, false⟩,
  ⟨0x0104, 3, 0, portsAll, .empty, 16, false, true, false⟩,
  ⟨0x0201, 2, 0, portsAB, .items 64, 0, true, false, false⟩,
  ⟨0x0202, 2, 0, portsAll, .fixed 4, 4, false, true, false⟩,
  ⟨0x0204, 2, 0, portsAB, .fixed 40, 0, false, false, false⟩,
  ⟨0x0205, 2, 0, portsAB, .fixed 16, 0, false, false, true⟩,
  ⟨0x0206, 2, 0, portsAB, .var, 0, false, false, false⟩,
  ⟨0x0207, 2, 4, portsAB, .fixed 4, 0, false, false, false⟩,
  ⟨0x0208, 2, 0, portsAB, .fixed 32, 0, false, false, false⟩,
  ⟨0x0209, 2, 0, portsAll, .empty, 32, false, true, false⟩,
  ⟨0x020A, 3, 2, portsAB, .empty, 8, false, false, false⟩,
  ⟨0x020B, 2, 4, portsAll, .fixed 4, 4, false, true, false⟩]

/-- Layer, output and commit messages (Table 12-5). -/
def catalogueB : List OpRow := [
  ⟨0x0301, 2, 0, portsAB, .items 64, 0, true, false, false⟩,
  ⟨0x0303, 3, 0, portsAB, .fixed 4, 8, true, false, false⟩,
  ⟨0x0304, 2, 4, portsAB, .items 160, 0, true, false, false⟩,
  ⟨0x0305, 3, 0, portsAll, .fixed 4, 4, false, true, false⟩,
  ⟨0x0306, 3, 0, portsABD, .fixed 8, 4, false, true, true⟩,
  ⟨0x0401, 2, 0, portsAB, .items 64, 0, true, false, false⟩,
  ⟨0x0402, 2, 0, portsAll, .fixed 4, 4, false, true, false⟩,
  ⟨0x0403, 2, 0, portsAB, .fixed 68, 0, false, false, false⟩,
  ⟨0x0404, 2, 0, portsAB, .var, 0, false, false, false⟩,
  ⟨0x0501, 2, 0, portsAB, .fixed 8, 28, true, false, true⟩,
  ⟨0x0502, 2, 0, portsAll, .empty, 36, false, true, false⟩,
  ⟨0x0503, 2, 0, portsAB, .empty, 4, true, false, false⟩,
  ⟨0x0504, 2, 0, portsAB, .fixed 20, 0, true, false, false⟩,
  ⟨0x0505, 3, 0, portsAB, .fixed 4, 48, true, false, true⟩,
  ⟨0x0506, 2, 0, portsAB, .empty, 0, true, false, false⟩,
  ⟨0x0507, 2, 0, portsAll, .fixed 8, 4, false, false, false⟩]

/-- Freshness, encode and key messages (Tables 12-6 and 12-7). -/
def catalogueC : List OpRow := [
  ⟨0x0601, 2, 0, portsAB, .items 16, 0, true, false, false⟩,
  ⟨0x0602, 2, 0, portsAll, .fixed 4, 8, false, true, false⟩,
  ⟨0x0603, 3, 0, portsAB, .fixed 8, 32, false, false, true⟩,
  ⟨0x0701, 2, 0, portsAB, .fixed 68, 0, false, false, true⟩,
  ⟨0x0702, 2, 0, portsAll, .fixed 4, 4, false, true, false⟩,
  ⟨0x0703, 2, 0, portsAB, .fixed 4, 0, false, false, false⟩,
  ⟨0x0801, 2, 0, portsAB, .items 112, 0, true, false, false⟩,
  ⟨0x0802, 2, 0, portsABS, .fixed 4, 200, false, true, false⟩,
  ⟨0x0803, 3, 0, portsAB, .fixed 4, 0, false, false, false⟩,
  ⟨0x0804, 2, 0, portsABD, .fixed 4, 196, false, true, false⟩]

/-- Ledger, health and power messages (Table 12-8). -/
def catalogueD : List OpRow := [
  ⟨0x0901, 2, 0, portsAll, .empty, 24, false, true, false⟩,
  ⟨0x0902, 2, 0, portsAll, .fixed 8, 8, false, false, false⟩,
  ⟨0x0903, 3, 2, portsABS, .fixed 16, 0, false, false, false⟩,
  ⟨0x0A01, 2, 0, portsAll, .empty, 64, false, true, false⟩,
  ⟨0x0A02, 3, 0, portsAB, .items 1, 0, false, false, false⟩,
  ⟨0x0A03, 2, 0, portsAll, .fixed 4, 4, false, true, false⟩,
  ⟨0x0A04, 2, 0, portsAB, .empty, 0, false, false, false⟩,
  ⟨0x0B01, 2, 0, portsABS, .fixed 8, 0, false, false, false⟩,
  ⟨0x0B02, 2, 0, portsAll, .empty, 24, false, true, false⟩,
  ⟨0x0B03, 3, 0, portsAB, .items 8, 0, false, false, false⟩,
  ⟨0x0B04, 3, 0, portsABS, .fixed 16, 0, false, false, false⟩]

/-- Pair, lane and memory messages (Table 12-9). -/
def catalogueE : List OpRow := [
  ⟨0x0C01, 2, 0, portsAB, .fixed 4, 0, false, false, false⟩,
  ⟨0x0C02, 2, 0, portsAll, .empty, 24, false, true, false⟩,
  ⟨0x0C03, 2, 0, portsABS, .fixed 4, 0, false, false, true⟩,
  ⟨0x0C04, 3, 0, portsAll, .fixed 4, 4, false, true, false⟩,
  ⟨0x0D01, 3, 0, portsAB, .fixed 836, 0, false, false, false⟩,
  ⟨0x0D02, 3, 0, portsAB, .empty, 1676, false, true, false⟩,
  ⟨0x0D03, 2, 0, portsAll, .fixed 4, 4, false, true, false⟩,
  ⟨0x0D04, 3, 0, portsABD, .fixed 16, 0, false, false, true⟩,
  ⟨0x0D05, 2, 0, portsAB, .fixed 72, 0, false, false, false⟩,
  ⟨0x0D06, 3, 0, portsABD, .fixed 8, 16, false, false, true⟩,
  ⟨0x0E01, 2, 0, portsAll, .fixed 6, 4, false, true, false⟩,
  ⟨0x0E02, 2, 0, portsAB, .fixed 16, 0, false, false, false⟩,
  ⟨0x0E03, 3, 0, portsAB, .var, 0, false, false, false⟩,
  ⟨0x0E04, 3, 0, portsABD, .fixed 4, 4, false, true, true⟩]

/-- Security and Tally messages (Table 12-10). -/
def catalogueF : List OpRow := [
  ⟨0x0F01, 2, 0, portsAll, .empty, 12, false, true, false⟩,
  ⟨0x0F02, 3, 0, portsAB, .fixed 8, 0, false, false, false⟩,
  ⟨0x0F03, 2, 0, portsAB, .fixed 68, 0, false, false, false⟩,
  ⟨0x0F04, 3, 0, portsAB, .items 20, 0, false, false, true⟩,
  ⟨0x0F05, 3, 0, portsAB, .var, 0, false, false, false⟩,
  ⟨0x0F06, 3, 0, portsAB, .fixed 4, 4, false, false, false⟩,
  ⟨0x0F07, 3, 0, portsABD, .fixed 4, 32, false, true, false⟩,
  ⟨0x0F08, 3, 0, 8, .fixed 36, 32, false, false, false⟩,
  ⟨0x1001, 3, 0, portsAB, .fixed 32, 8, false, false, true⟩,
  ⟨0x1002, 3, 0, portsAll, .empty, 32, false, true, false⟩,
  ⟨0x1003, 3, 0, portsAB, .fixed 4, 32, false, false, false⟩,
  ⟨0x1004, 3, 0, portsAB, .fixed 36, 0, false, false, true⟩]

def catalogue : List OpRow := catalogueA ++ catalogueB ++ catalogueC ++ catalogueD ++ catalogueE ++ catalogueF

/-- The row of an opcode, if the catalogue lists it (R282). -/
def opRow (op : Nat) : Option OpRow := catalogue.find? (fun r => r.op == op)

/-- Whether a message is carried at an agreed version (R283): every later minor of its major, and every 3.x version for
a message of 2.x. -/
def OpRow.carriedAt (r : OpRow) (major minor : Nat) : Bool :=
  if r.major = major then decide (r.minor ≤ minor) else decide (r.major < major)

end Sys2Proof.Machine
end

