-- ==== Sys2Proof/Machine/Pins.lean ====
section
/-!
DEFINITION. The output pins the block drives (Table 19-6 and the rules that move them), each as the state gives it: no pin
holds anything of its own.
-/
namespace Sys2Proof.Machine

/-- The output pins of Table 19-6: ALIVE (R311), BL_KEEPp (R181), ARB (R335), SERVICE_N (R313), SUP_IRQ_N (R261), SPI_MISO,
DSIp_RST_N (R185), GENLOCK_OUT (R59), MEMc_RESET_N, QSPI_CS_N, and the transmitters of the lanes, the DSI links and the PCI Express
ports. -/
inductive Pin where
  | alive | blKeep (p : Fin 8) | arb | serviceN | supIrqN | spiMiso | dsiRstN (p : Fin 8) | genlockOut | memResetN (c : Fin 8)
  | qspiCsN | laneTx (l : Fin 48) | dsiTx (p : Fin 8) | pcieTx (h : Fin 2)
  deriving DecidableEq, Repr

/-- What a pin does: driven low or high; released, which is high impedance for a push-pull output; a square wave; a square
wave that rests at its last level, which is low before its first edge (R311, R181, R409); a transmitter in electrical idle; at work
under the protocol of its interface. -/
inductive PinState where
  | low | high | released | toggling | resting | idle | active
  deriving DecidableEq, Repr

/-- SUP_IRQ_N is driven low: on the supervisor's port `RESP_BELL` is not zero or the event queue is not empty (R261). It is
released while the device is held in reset or OFF (Table 19-6). -/
def State.supIrqLow (s : State) : Bool :=
  let q := s.port 2
  s.windowUp && (decide (q.respBell ≠ 0) || decide (q.evWr ≠ q.evRd))

/-- DSIp_RST_N is high from step 2 of a panel's start to the end of its stop (Table 7-6). -/
def State.dsiHigh (s : State) (p : Nat) : Bool :=
  let x := s.panel p
  match x.state with
  | .off => false
  | .starting => decide (2 ≤ x.step)
  | _ => true

/-- OFF, or from POR or PIN until start step 2 has brought the Auditor up (Table 19-6). -/
def State.auditorDown (s : State) : Bool :=
  decide (s.power.state = .off) || (decide (s.power.resetKind ≤ 2) && decide (s.power.step < 2) && !s.power.started)

/-- Memory has come up: start step 5 is reached. -/
def State.memoryUp (s : State) : Bool := s.windowUp && (decide (5 ≤ s.power.step) || s.power.started)

/-- The output pins (R409). A domain that is off sends nothing, and its DSI links are in ULPS (R371); a
lane that is `OFF` or retired sends nothing (Table 9-4). -/
def State.pin (s : State) : Pin → PinState
  | .alive => if s.auditorDown then .released else if s.fault.alive then .toggling else .resting
  | .blKeep p => if s.auditorDown then .released else if (s.panel p).keep then .toggling else .resting
  | .arb => if s.pair.driveLow && decide (s.power.state ≠ .off) then .low else .released
  | .serviceN => if s.serviceLow then .low else .released
  | .supIrqN => if s.supIrqLow then .low else .released
  | .dsiRstN p => if s.windowUp && s.dsiHigh p then .high else .low
  | .genlockOut => if s.windowUp && decide (s.time.now < s.time.glOutUntil) then .high else .low
  | .spiMiso => if s.windowUp && (s.power.started || decide (2 ≤ s.power.step)) then .active else .released
  | .memResetN _ => if s.power.state ≠ .off ∧ (s.memoryUp ∨ s.mem.selfRefresh) then .high else .low
  | .qspiCsN => if s.windowUp then .active else .high
  | .laneTx l =>
    let st := (s.links.lane l).state
    if s.windowUp && (s.domain (18 + l / 8)).on && decide (st ≠ .off ∧ st ≠ .retired) then .active else .idle
  | .dsiTx _ => if s.windowUp && (s.domain 24).on then .active else .idle
  | .pcieTx _ => if s.windowUp && (s.domain 25).on then .active else .idle

end Sys2Proof.Machine
end

