-- ==== Sys2Proof/Machine/Registers.lean ====
section
/-!
DEFINITION. The host register window (18_host_registers.md): what every offset reads as, latched pairs, and writes.
-/
namespace Sys2Proof.Machine

/-! ## Records as bytes -/

/-- A ledger record in the layout of Table 14-1. -/
def LedgerRec.bytes (r : LedgerRec) : Bytes :=
  wordsLE [
    r.code % 65536 + (r.inst % 256) <<< 16 + (r.origin % 16) <<< 24 + b2n r.mirrored <<< 28 + b2n r.safe <<< 29
      + b2n r.debug <<< 30,
    w32 r.powerCycle, w32 r.optime, w16 r.seq <<< 16 + hi32 r.optime % 65536, r.p0, r.p1, r.p2, r.p3]

/-- The record 32 bytes spell, as a mirrored record arrives (Table 14-1). -/
def LedgerRec.ofBits (b : BitVec 256) : LedgerRec :=
  { debug := bit b 0 30, safe := bit b 0 29, mirrored := bit b 0 28, origin := fld b 0 27 24, inst := fld b 0 23 16,
    code := fld b 0 15 0, powerCycle := fld b 1 31 0, optime := fld b 2 31 0 + fld b 3 15 0 <<< 32,
    seq := fld b 3 31 16, p0 := fld b 4 31 0, p1 := fld b 5 31 0, p2 := fld b 6 31 0, p3 := fld b 7 31 0 }

/-- An event record in the layout of Table 11-5. -/
def EventRec.bytes (e : EventRec) : Bytes :=
  Bytes.join [leBytes 2 e.event, leBytes 2 e.flags, leBytes 4 e.seq, leBytes 8 e.time,
    wordsLE [e.p0, e.p1, e.p2, e.p3]]

/-- A response slot: the header of Table 11-2 and, unless the payload went to the response buffer, the payload. -/
def Response.bytes (r : Response) : Bytes :=
  let h := Bytes.join [leBytes 1 r.major, leBytes 1 r.minor, leBytes 2 r.flags, leBytes 2 r.opcode, leBytes 2 r.tag,
    leBytes 4 r.payload.len, leBytes 2 r.status, leBytes 2 r.session]
  if r.flags.testBit 0 then h else Bytes.cat h r.payload

/-! ## Reading -/

/-- Master group of a port's MPU block (R397): none on the supervisor port. -/
def portGroup (p : Nat) : Option Nat := if p = 2 then none else some p

/-- Identity block (Table 18-2). -/
def State.identityWord (s : State) (p off : Nat) : Nat :=
  match off with
  | 0x00 => 0x00007240
  | 0x04 => 0xA1
  | 0x08 => p
  | 0x0C => if 3 ≤ s.power.step then s.sec.running.version else 0
  | 0x10 => s.power.resetKind + (w16 s.power.resetDetail) <<< 8
  | 0x14 => b2n s.power.started <<< 31 + s.power.step
  | 0x18 => s.ledger.powerCycle
  | 0x1C => match s.power.tellerAt with | some t => w32 ((s.sec.halted.getD s.time.now - t) / 1000000) | none => 0
  | _ => 0

/-- Session block (Table 18-3), latched words apart. -/
def State.sessionWord (s : State) (p off : Nat) : Nat :=
  let q := s.port p
  match off with
  | 0x100 => q.session
  | 0x104 => q.reqBell.toNat
  | 0x108 => q.respBell.toNat
  | 0x10C => q.evWr
  | 0x110 => q.evRd
  | _ => if 0x120 ≤ off ∧ off < 0x160 ∧ off % 8 = 0 then w32 (Tbl.get q.reqTime 0 ((off - 0x120) / 8)) else 0

/-- Time block (Table 18-4), latched words apart. -/
def State.timeWord (s : State) (off : Nat) : Nat :=
  match off with
  | 0x200 => w32 s.time.room
  | 0x208 => rtCode s.time.state + b2n s.time.traceable <<< 2 + b2n s.time.ahead <<< 3 + b2n s.time.glLock <<< 4
      + discCode s.time.disc <<< 8
  | 0x20C => w32 s.time.frameN
  | 0x218 => w32 s.optime
  | _ => 0

/-- Health block (Table 18-5). -/
def State.healthBlock (s : State) (off : Nat) : Nat :=
  match off with
  | 0x300 => b2n s.inSafe + b2n s.fault.alive <<< 1 + b2n s.serviceLow <<< 2 + roleCode s.pair.role <<< 4
      + powerCode s.power.state <<< 8 + (min s.activeFaults 255) <<< 16
  | 0x304 => match s.fault.safe with | some x => x.msg | none => 0
  | 0x308 => s.fault.service.toNat
  | 0x30C => s.fault.override.toNat
  | 0x310 => s.fault.healthSeq
  | _ => 0

/-- MPU block (Table 18-6), latched words apart; zero on the supervisor port (R397). -/
def State.mpuWord (s : State) (p off : Nat) : Nat :=
  match portGroup p with
  | none => 0
  | some g =>
    match off with
    | 0x400 => (s.mpu g).epoch
    | 0x408 => (s.mpu g).spec
    | 0x40C => (s.mpu g).notices
    | _ => 0

/-- Ledger pointers and page (Table 18-7). -/
def State.ledgerWord (s : State) (p off : Nat) : Nat :=
  if off = 0x500 then s.ledger.next
  else if off = 0x504 then s.ringOldest
  else if off = 0x508 then s.ledgerOldest
  else if off = 0x50C then (s.port p).ledgerPage
  else 0

/-- A byte of the slots, the ledger window and the event queue (Table 18-1). -/
def State.areaByte (s : State) (p off : Nat) : Nat :=
  let q := s.port p
  if 0x1000 ≤ off ∧ off < 0x1800 then
    ((Tbl.get q.slots 0 ((off - 0x1000) / 256)).toNat >>> (8 * (off % 256))) % 256
  else if 0x1800 ≤ off ∧ off < 0x2000 then
    Bytes.byte (Tbl.get q.resp {} ((off - 0x1800) / 256)).bytes (off % 256)
  else if 0x4000 ≤ off ∧ off < 0x8000 then
    match Tbl.find s.ledger.ring (512 * q.ledgerPage + (off - 0x4000) / 32) with
    | some r => Bytes.byte r.bytes (off % 32)
    | none => 0
  else if 0x8000 ≤ off ∧ off < 0x10000 then
    Bytes.byte (Tbl.get q.evq {} ((off - 0x8000) / 32)).bytes (off % 32)
  else if 0x0800 ≤ off ∧ off < 0x0820 ∧ p < 2 then (q.msixTable.toNat >>> (8 * (off - 0x0800))) % 256
  else if off = 0x0C00 ∧ p < 2 then q.msixPending.toNat
  else 0

/-- The registers a latching register captures, with their live values (R390). -/
def State.latchOf (s : State) (p off : Nat) : List (Nat × Nat) :=
  if 0x120 ≤ off ∧ off < 0x160 ∧ off % 8 = 0 then
    [(off + 4, hi32 (Tbl.get (s.port p).reqTime 0 ((off - 0x120) / 8)))]
  else match off with
  | 0x200 => [(0x204, hi32 s.time.room)]
  | 0x20C => [(0x210, w32 s.time.frameT), (0x214, hi32 s.time.frameT)]
  | 0x218 => [(0x21C, hi32 s.optime % 65536)]
  | 0x400 =>
    match portGroup p with
    | some g => [(0x404, b2n (s.mpu g).drained + s.liveSet g <<< 1)]
    | none => []
  | 0x40C =>
    match portGroup p with
    | some g =>
      let n := (s.mpu g).lastNotice
      [(0x410, g + n.set <<< 8), (0x414, w32 n.count), (0x418, w32 n.window), (0x41C, hi32 n.window)]
    | none => []
  | _ => []

/-- Registers served by a latch (Tables 18-3, 18-4, 18-6). -/
def latched (off : Nat) : Bool :=
  (decide (0x120 ≤ off ∧ off < 0x160) && off % 8 == 4) || [0x204, 0x210, 0x214, 0x21C, 0x404].contains off
    || (decide (0x410 ≤ off ∧ off < 0x420) && off % 4 == 0)

/-- Any register may be read before the first latching read on a port has been made: the notice group reads its own
group then only once it is latched. -/
def State.registerWord (s : State) (p off : Nat) : Nat :=
  if latched off then Tbl.get (s.port p).latch 0 off
  else if off < 0x100 then s.identityWord p off
  else if off < 0x200 then s.sessionWord p off
  else if off < 0x300 then s.timeWord off
  else if off < 0x400 then s.healthBlock off
  else if off < 0x500 then s.mpuWord p off
  else if off < 0x600 then s.ledgerWord p off
  else 0

/-- What a 32-bit read at an offset returns (R388, R389). A misaligned read of the register blocks, which R389 does not
define, reads as a reserved offset. -/
def State.windowWord (s : State) (p off : Nat) : Nat :=
  if off < 0x800 then (if off % 4 = 0 then s.registerWord p off else 0)
  else sumOf ((upTo 4).map (fun i => s.areaByte p ((off + i) % 65536) <<< (8 * i)))

/-- `LATCHING_READ` (R390): the read returns its word and captures the registers it names. -/
def execLatchingRead (dt : Nat) (p : Fin 4) (off : BitVec 16) (s : State) : Host.Outcome State Fault Refusal :=
  let s1 := s.elapse dt
  if !s1.windowUp then .next s1
  else
    let o := off.toNat
    let q := s1.port p
    let s2 := s1.setPort p { q with latch := each (s1.latchOf p o) q.latch (fun t e => Tbl.set t 0 e.1 e.2) }
    .next (s2.send (.readData p (s1.windowWord p o) false))

/-! ## Doorbells and indices -/

/-- Ring request doorbells: room time is latched for each newly rung slot (R262, R394). -/
def State.ringBells (s : State) (p : Nat) (bits : BitVec 8) : State :=
  let q := s.port p
  let new := (upTo 8).filter (fun i => bits.toNat.testBit i && !q.reqBell.toNat.testBit i)
  s.setPort p { q with
    reqBell := q.reqBell ||| bits
    ring := q.ring ++ new
    reqTime := each new q.reqTime (fun t i => Tbl.set t 0 i s.time.room) }

/-- Clear response bits (R264, R392). -/
def State.clearResp (s : State) (p : Nat) (bits : BitVec 8) : State :=
  let q := s.port p
  let left := q.respBell &&& ~~~bits
  let s1 := s.setPort p { q with respBell := left }
  if left = 0 then s1 else s1.notify p 0

/-- Advance `EVQ_RD` within its range (R394); events lost are reported, and a queue left non-empty notifies (R281,
R392). -/
def State.advanceRd (s : State) (p idx : Nat) : State :=
  let q := s.port p
  if (idx + 1024 - q.evRd) % 1024 ≤ evUsed q then
    let q1 := { q with evRd := idx }
    let s1 := s.setPort p q1
    (if evUsed q1 = 0 then s1 else s1.notify p 1).postLost p
  else s

/-- `REQ_BELL` (R262). -/
def execReqBell (dt : Nat) (p : Fin 4) (bits : BitVec 8) (s : State) : Host.Outcome State Fault Refusal :=
  let s1 := s.elapse dt
  .next (if s1.windowUp then s1.ringBells p bits else s1)

/-- `RESP_BELL` (R264). -/
def execRespBell (dt : Nat) (p : Fin 4) (bits : BitVec 8) (s : State) : Host.Outcome State Fault Refusal :=
  let s1 := s.elapse dt
  .next (if s1.windowUp then s1.clearResp p bits else s1)

/-- `EVQ_RD` (R279). -/
def execEvqRd (dt : Nat) (p : Fin 4) (idx : BitVec 10) (s : State) : Host.Outcome State Fault Refusal :=
  let s1 := s.elapse dt
  .next (if s1.windowUp then s1.advanceRd p idx.toNat else s1)

/-! ## Writing -/

/-- Byte `i` of a bit vector replaced. -/
def setByte {n : Nat} (x : BitVec n) (i v : Nat) : BitVec n :=
  let old := (x.toNat >>> (8 * i)) % 256
  BitVec.ofNat n (x.toNat - old <<< (8 * i) + (v % 256) <<< (8 * i))

/-- Write one byte of a request slot. -/
def PortSt.writeSlot (q : PortSt) (off v : Nat) : PortSt :=
  { q with slots := Tbl.upd q.slots 0 ((off - 0x1000) / 256) (fun x => setByte x (off % 256) v) }

/-- A vector that loses its mask while it is pending is sent (R392, PCI Express). -/
def State.unmask (s : State) (p v : Nat) : State :=
  let q := s.port p
  if q.msixPending.toNat.testBit v && !msixMasked q v then
    (s.setPort p { q with msixPending := q.msixPending &&& ~~~(BitVec.ofNat 2 (1 <<< v)) }).send (.msix p v)
  else s

/-- Write one aligned 32-bit word of the window outside the slots (R389). -/
def State.writeWord (s : State) (p off v : Nat) : State :=
  match off with
  | 0x104 => s.ringBells p (BitVec.ofNat 8 v)
  | 0x108 => s.clearResp p (BitVec.ofNat 8 v)
  | 0x110 => s.advanceRd p (v % 1024)
  | 0x50C => s.setPort p { s.port p with ledgerPage := v % 16 }
  | _ =>
    if 0x800 ≤ off ∧ off < 0x820 ∧ p < 2 then
      let q := s.port p
      let w := (off - 0x800) / 4
      let v' := if w % 4 = 3 then v % 2 else v
      ((s.setPort p { q with msixTable := setFld q.msixTable w 31 0 v' }).unmask p 0).unmask p 1
    else s

/-- `REGISTER_WRITE` (R389): request slots take any size and alignment; a register takes an aligned word, or two as an
aligned 64-bit access, lower offset first; anything else is ignored. -/
def execRegisterWrite (dt : Nat) (p : Fin 4) (off : BitVec 16) (data : Bytes) (s : State) :
    Host.Outcome State Fault Refusal :=
  let s1 := s.elapse dt
  let o := off.toNat
  if !s1.windowUp then .next s1
  else if 0x1000 ≤ o ∧ o < 0x1800 then
    .next (s1.setPort p (each (upTo (min data.len (0x1800 - o))) (s1.port p)
      (fun q i => q.writeSlot (o + i) (Bytes.byte data i))))
  else if data.len = 4 ∧ o % 4 = 0 then .next (s1.writeWord p o (Bytes.at data 0 4))
  else if data.len = 8 ∧ o % 8 = 0 then
    .next ((s1.writeWord p o (Bytes.at data 0 4)).writeWord p (o + 4) (Bytes.at data 4 4))
  else .next s1

/-- `SPI_INVALID_TRANSACTION` (R399): ignored up to SPI_CS_N rising, with SPI_MISO low throughout. A transaction that is
neither of an unknown command nor misaligned is not one. -/
def execSpiInvalidTransaction (dt : Nat) (cmd : Byte) (off : BitVec 16) (s : State) :
    Host.Outcome State Fault Refusal :=
  let s1 := s.elapse dt
  if (cmd = 0x02 ∨ cmd = 0x0B) ∧ off.toNat % 4 = 0 then .next s1 else .next (s1.send (.readData 2 0 false))

end Sys2Proof.Machine
end

