-- ==== Sys2Proof/Machine/Mailbox.lean ====
section
/-!
DEFINITION. Mailboxes and sessions (11_mailboxes.md): taking a request and its checks, responses, opening and closing a
session.
-/
namespace Sys2Proof.Machine

/-! ## Taking a request (R263, R269) -/

/-- The device address of a bus address that lies in a port's aperture of device memory, BAR 2, of 64 GiB (R391). -/
def deviceAddr (bar2 addr : Nat) : Option Nat := if bar2 ≤ addr ∧ addr < bar2 + 2 ^ 36 then some (addr - bar2) else none

/-- The request a slot of a port holds, with its descriptor, and the payload as Teller firmware reads it from the slot or from host
memory (Table 11-2, R267). Only the PCI Express ports have descriptors. -/
def parseRequest (p : Nat) (slot : BitVec 2048) (time : Nat) (desc : Option DescRead) : Request :=
  let b := bytesOf slot
  let flags := Bytes.at b 2 2
  let length := Bytes.at b 8 4
  let byDesc := flags.testBit 0
  let cap := Bytes.at b 32 4
  let device (addr : Nat) : Option Nat := if byDesc && decide (p < 2) then desc.bind (fun d => deviceAddr d.bar2 addr) else none
  { major := Bytes.at b 0 1
    minor := Bytes.at b 1 1
    flags := flags
    opcode := Bytes.at b 4 2
    tag := Bytes.at b 6 2
    length := length
    session := Bytes.at b 14 2
    payload :=
      if byDesc then
        match desc.bind (·.payload) with
        | some x => Bytes.slice x 0 length
        | none => Bytes.none
      else Bytes.slice b 16 (min length 240)
    time := time
    respCap := if byDesc then some cap else none
    reqAddr := if byDesc then Bytes.at b 16 8 else 0
    respAddr := if byDesc then Bytes.at b 24 8 else 0
    reqDevice := device (Bytes.at b 16 8)
    respDevice := device (Bytes.at b 24 8)
    buffered := byDesc && decide (p < 2) && cap != 0
    writeFails := byDesc && (match desc with | some d => d.writeFails | none => false) }

/-- Messages of port 3 that the lifecycle state denies (R367). -/
def State.debugDenies (s : State) (op : Nat) : Bool :=
  match s.sec.lifecycle with
  | .manufacture => false
  | .develop => s.sec.dbg.openSince.isNone && (op == 0x0D04 || op == 0x0D06)
  | .field | .retired => op == 0x0D04 || op == 0x0D06 || op == 0x0F08

/-- Bytes of device memory that Teller firmware can reach for the host of a port: allowed under the host's MPU set, on channels that
answer (R268, R360). -/
def State.deviceOk (s : State) (p : Nat) (write : Bool) (addr len : Nat) : Bool :=
  (linesOf addr len).all (fun l => s.mpuAllows p write l && s.dramAnswers l)

/-- Whether the buffers of a descriptor can be used (R268): the payload can be read and the response buffer written, each in device
memory or in memory of the host. -/
def State.buffersOk (s : State) (p : Nat) (r : Request) (desc : Option DescRead) : Bool :=
  match r.respCap with
  | none => true
  | some cap =>
    (r.length == 0 || match r.reqDevice with
      | some a => s.deviceOk p false a r.length
      | none => (match desc with | some d => d.payload.isSome | none => false))
    && (cap == 0 || match r.respDevice with
      | some a => s.deviceOk p true a cap
      | none => (match desc with | some d => d.writable | none => false))

/-- Whether a payload's length is allowed (R270, R285). -/
def lengthOk (k : LenKind) (r : Request) : Bool :=
  match k with
  | .empty => r.length == 0
  | .fixed m => r.length == m
  | .items z => r.length == 0 || (decide (4 ≤ r.length) && r.length == 4 + r.u16 2 * z)
  | .var => true

/-- Checks 1 to 7 of Table 11-3 as far as no buffer is touched: the status of the first that fails, or none. -/
def State.headerCheck (s : State) (p : Nat) (r : Request) : Option Nat :=
  let q := s.port p
  let byDesc := r.respCap.isSome
  let opening := r.opcode == 0x0001
  if byDesc && decide (2 ≤ p) then some stNotSupported
  else if (!byDesc && decide (240 < r.length)) || decide (16777216 < r.length) then some stBadLength
  else if (if opening then r.session ≠ 0 else r.session = 0 ∨ r.session ≠ q.session) then some stStale
  else if !opening && (r.major != q.major || r.minor != q.minor) then some stVersion
  else match opRow r.opcode with
  | none => none
  | some row =>
    if !opening && !row.carriedAt q.major q.minor then some stNotSupported
    else if !row.ports.testBit p || (p == 3 && s.debugDenies r.opcode) then some stDenied
    else if decide (r.room < row.resp) then some stBadLength
    else none

/-- Checks 1 to 8 of Table 11-3, then BUSY before start is complete (R384), BUSY in NIGHT (R376) and STANDBY (R288): the
status of the first that fails, or none. -/
def State.requestCheck (s : State) (p : Nat) (r : Request) (desc : Option DescRead) : Option Nat :=
  match s.headerCheck p r, opRow r.opcode with
  | some st, _ => some st
  | none, none => none
  | none, some row =>
    if !s.buffersOk p r desc then some stDenied
    else if !lengthOk row.len r then some stBadLength
    else if !s.power.started && !row.early then some stBusy
    else if s.power.state = .night ∧ row.awake then some stBusy
    else if s.pair.role = .standby ∧ row.mirrored then some stStandby
    else none

/-- Read the payload of a request that lies in device memory, as the master of the port's host (R268): a denied line is noted (R362). -/
def State.readPayload (s : State) (p : Nat) (r : Request) : State × Request :=
  match s.headerCheck p r, r.reqDevice with
  | none, some a =>
    let x := (linesOf a r.length).foldl (State.hostReadLine p ⟨a, r.length, false, 0⟩) (s, 0, false)
    (x.1, { r with payload := ⟨r.length, x.2.1⟩ })
  | _, _ => (s, r)

/-- Whether Teller firmware may take a request from a port: one rings, none is in hand, the held-back responses have room
(R264), its flash write or the clearing of its commit has ended (R276), and NIGHT does not wait for the wake that the doorbell causes (R377). -/
def State.mayTake (s : State) (p : Nat) : Bool :=
  let q := s.port p
  q.ring != [] && q.inHand.isNone && decide (q.waiting.length < 32)
    && (match s.power.flash with | some j => j.port != p | none => true)
    && (match s.sets.pending with | some c => decide (c.state ≠ .clearing) || c.port != p || c.req.isNone | none => true)
    && !(decide (s.power.state = .night) && decide (p < 3) && s.power.wakeMask.testBit (1 + p))

/-- The port Teller firmware serves next, round robin (R263). -/
def State.nextPort (s : State) : Option Nat :=
  ((upTo 4).map (fun i => (s.mail.turn + i) % 4)).find? s.mayTake

/-- Take the next request of a port: the slot is copied, its bit cleared, and it is checked. One that passes is in
hand. -/
def State.takeFrom (s : State) (p : Nat) (desc : Option DescRead) : State :=
  let q := s.port p
  match q.ring with
  | [] => s
  | i :: rest =>
    let r0 := parseRequest p (Tbl.get q.slots 0 i) (Tbl.get q.reqTime 0 i) desc
    let s1 := s.setPort p { q with
      ring := rest, reqBell := q.reqBell &&& ~~~(BitVec.ofNat 8 (1 <<< i)) }
    let (s2, r) := { s1 with mail := { s1.mail with turn := (p + 1) % 4 } }.readPayload p r0
    match s2.requestCheck p r desc with
    | some st => s2.status p r st
    | none => s2.setPort p { s2.port p with inHand := some r }

/-- `REQUEST_TAKEN` (R263): start step 4 is the first at which Teller firmware takes a request (R384). -/
def execRequestTaken (dt : Nat) (desc : Option DescRead) (s : State) : Host.Outcome State Fault Refusal :=
  let s1 := s.elapse dt
  if !s1.tellerUp then .next s1
  else
    let s2 := s1.reach 4
    match s2.nextPort with
    | some p => .next (s2.takeFrom p desc)
    | none => .next s2

/-- `UNKNOWN_OPCODE` (R282). -/
def execUnknownOpcode (dt : Nat) (p : Fin 4) (s : State) : Host.Outcome State Fault Refusal :=
  let s1 := s.elapse dt
  let q := s1.port p
  match q.inHand with
  | some r =>
    if (opRow r.opcode).isNone then .next ((s1.setPort p { q with inHand := none }).status p r stNotSupported)
    else .next s1
  | none => .next s1

/-- Write the payload of a response into its buffer in device memory, as the master of the port's host (R267, R268): whether a line
could not be written is told in the response. -/
def State.writePayload (s : State) (p : Nat) (r : Response) : State × Response :=
  match r.toDevice with
  | some a =>
    let n := r.payload.len
    (each (linesOf a n) s (fun s l => s.hostWriteLine p ⟨a, n, true, r.payload.val⟩ l),
      if s.deviceOk p true a n then r else { r with flags := r.flags + 4 })
  | none => (s, r)

/-- `RESPONSE_POSTED` (R264): the oldest waiting response takes the lowest free slot. -/
def execResponsePosted (dt : Nat) (p : Fin 4) (s : State) : Host.Outcome State Fault Refusal :=
  let s1 := s.elapse dt
  let q := s1.port p
  match q.waiting with
  | r :: rest =>
    if q.respBell = 0xFF then .next s1
    else
      let (s2, r2) := (s1.setPort p { q with waiting := rest }).writePayload p r
      .next (s2.fillSlot p r2)
  | [] => .next s1

/-! ## Sessions (R271 to R274) -/

/-- The highest common major (R272). -/
def agreedMajor (lo hi : Nat) : Option Nat :=
  if lo ≤ 3 ∧ 3 ≤ hi then some 3 else if lo ≤ 2 ∧ 2 ≤ hi then some 2 else none

/-- Highest minor the device serves of a major. -/
def deviceMinor (major : Nat) : Nat := if major = 3 then 2 else 6

/-- The agreed minor (R272). -/
def agreedMinor (major majorMax minorMax : Nat) : Nat :=
  if major = majorMax then min minorMax (deviceMinor major) else deviceMinor major

/-- First number of the block a session number lies in: 1, 256, 512 and so on (R274). -/
def blockOf (n : Nat) : Nat := if n < 256 then 1 else n / 256 * 256

/-- The number after a session number: 1 to 65,535, skipping 0. -/
def afterSession (n : Nat) : Nat := if 65535 ≤ n then 1 else n + 1

/-- Reserve the block of the next session number before its first number is issued (R274): `SESSION_BLOCK` is spilled at
once, or `FLASH_ERROR` is raised while flash writes fail. -/
def State.reserveBlock (s : State) (p : Nat) : State :=
  let n := s.mail.nextSession
  if s.mail.block = some (blockOf n) then s
  else
    let s1 := { s with mail := { s.mail with block := some (blockOf n) } }.log 0xC004 [n, p, 0, 0]
    if s1.ledger.flashFailing then s1.flashError
    else s1.spillNow

/-- Open the session: the response carries the new session's version and number (R422). -/
def State.openSession (s : State) (p : Nat) (r : Request) (major : Nat) : State :=
  let minor := agreedMinor major (r.u8 0) (r.u8 1)
  let old := (s.port p).session
  let s1 := (s.closeSession p 2).reserveBlock p
  let n := s1.mail.nextSession
  let client := r.u32 4
  let s2 := { s1 with mail := { s1.mail with nextSession := afterSession n } }
  let s3 := s2.setPort p { s2.port p with
    session := n, major := major, minor := minor, served := 0, evWr := 0, evRd := 0, evSeq := 0, evq := [],
    evLost := none, evEnable := 0 }
  let s4 := s3.log 0xC001 [p, n, major * 256 + minor, client]
  let payload := Bytes.join [leBytes 1 major, leBytes 1 minor, leBytes 1 3, leBytes 1 2, leBytes 2 n, leBytes 2 p,
    leBytes 4 s4.ledger.powerCycle, leBytes 4 old]
  s4.postResponse p { makeResponse (s4.port p) r stOk payload false with major := major, minor := minor, session := n }

/-- `SESSION_OPEN` (R271 to R273). -/
def execSessionOpen (dt : Nat) (p : Fin 4) (s : State) : Host.Outcome State Fault Refusal :=
  .next (s.serve dt p 0x0001 (fun s r =>
    match agreedMajor (r.u8 2) (r.u8 0) with
    | some major => s.openSession p r major
    | none =>
      (s.log 0xC003 [p, r.u8 2 * 256 + r.u8 0, r.u8 1, r.u32 4]).answer p r stVersion
        (Bytes.join [leBytes 1 2, leBytes 1 0, leBytes 1 3, leBytes 1 2, leBytes 2 0, leBytes 2 p, leBytes 8 0])))

/-- `SESSION_CLOSE` (R274): answered OK before the close; on port 3 it ends the debug session (R368). -/
def execSessionClose (dt : Nat) (p : Fin 4) (s : State) : Host.Outcome State Fault Refusal :=
  .next (s.serve dt p 0x0002 (fun s r =>
    let s1 := (s.status p r stOk).closeSession p 1
    if p = 3 then s1.closeDebug 4 else s1))

end Sys2Proof.Machine
end

