-- ==== Sys2Proof/Machine/Colour.lean ====
section
/-!
DEFINITION. Arithmetic on light (R102, R107 to R113): exact values of binary16 codes, rounding to one of the two codes beside an
exact value, the transfer functions of Table 4-4 within the error the spec allows their tables, and blending. Which code within
those limits results is free (log entries 3 and 54).
-/
namespace Sys2Proof.Machine

/-- Three exact values, in the order R, G, B or Y, Cb, Cr. -/
abbrev Light := Rat × Rat × Rat

/-- Component 0, 1 or 2. -/
def part (t : Light) (k : Nat) : Rat := if k = 0 then t.1 else if k = 1 then t.2.1 else t.2.2
/-- Three components by their number. -/
def ofParts (f : Nat → Nat) : Triple := (f 0, f 1, f 2)

/-! ## Binary16 -/

/-- The value of a binary16 code, in units of 2^−24: free where the code is no finite number. -/
def halfUnits (c : Nat) : Int := if f16Finite c then f16Value c else Config.notFinite c
/-- The value of a binary16 code. -/
def half (c : Nat) : Rat := (halfUnits c : Rat) / 2 ^ 24
def halves (t : Triple) : Light := (half t.1, half t.2.1, half t.2.2)

/-- The greatest finite code at or below a value that is not negative. -/
def halfDown (x : Rat) : Nat :=
  let q := (x * 2 ^ 24).floor.toNat
  let e := q.log2 - 10
  min 0x7BFF (if q < 1024 then q else (e + 1) <<< 10 + q >>> e - 1024)

/-- The least finite code at or above a value that is not negative; the greatest where there is none. -/
def halfUp (x : Rat) : Nat :=
  let c := halfDown x
  if half c < x then min 0x7BFF (c + 1) else c

/-- A code from that below one value to that above another. -/
def inBand (free : Nat) (lo hi : Rat) : Nat := halfDown lo + free % (max (halfUp hi) (halfDown lo) + 1 - halfDown lo)

/-- A value rounded to one of the codes beside it; 0 where it is negative. What is above 65,504 has no code that the spec gives.
`op` names the stage: 0 linear light, 1 matrix, 2 tone curve, 3 scaling by T / M, 4 αp, 5 Cp, 6 D. -/
def rounded (op : Nat) (x : Rat) : Nat :=
  if x ≤ 0 then 0
  else if 65504 < x then Config.rounding op x % 0x7C00
  else inBand (Config.rounding op x) x x

/-- A value rounded to the nearest code, with its sign; halfway, either. -/
def nearestHalf (x : Rat) : Nat :=
  let y := if x < 0 then -x else x
  let a := halfDown y
  let b := halfUp y
  let c := if y - half a < half b - y then a else if half b - y < y - half a then b
    else if Config.rounding 7 x % 2 = 0 then a else b
  if x < 0 then 32768 + c else c

/-- Two binary16 samples with the weight of the second in 1/64 (R102): one alone where the weight is 0. -/
def mixHalf (a b w : Nat) : Nat :=
  if w = 0 then a else nearestHalf ((half a * (64 - w : Nat) + half b * w) / 64)

/-! ## Powers and logarithms, to better than 1 part in 10^9 -/

/-- ln 2. -/
def ln2 : Rat := 12786308645202655660 / 2 ^ 64

/-- Bits of the binary logarithm of m / 2^64, from 1 to 2, by squaring. -/
def lgBits : Nat → Nat → Nat
  | 0, _ => 0
  | n + 1, m =>
    let q := (m * m) >>> 64
    if 2 ^ 65 ≤ q then 2 ^ n + lgBits n (q >>> 1) else lgBits n q

/-- The binary logarithm of a value above 0. -/
def lg (x : Rat) : Rat :=
  let q := (x * 2 ^ 80).floor.toNat
  let e := q.log2
  let m := if 64 ≤ e then q >>> (e - 64) else q <<< (64 - e)
  (e : Rat) - 80 + (lgBits 40 m : Rat) / 2 ^ 40

/-- One, in units of 2^−64. -/
def one64 : Nat := 2 ^ 64

/-- 1 + t/1 × (1 + t/2 × (1 + …)) to n terms, in units of 2^−64. -/
def horner (t n : Nat) : Nat := (upTo n).foldr (fun k acc => one64 + t * acc / ((k + 1) * one64)) one64

/-- 2 to a power. -/
def exp2 (y : Rat) : Rat :=
  let i := y.floor
  let h : Rat := horner ((y - i) * ln2 * 2 ^ 64).floor.toNat 24 / one64
  if 0 ≤ i then h * 2 ^ i.toNat else h / 2 ^ (-i).toNat

/-- A value to a power: 0 for one that is not above 0. -/
def pow (x p : Rat) : Rat := if x ≤ 0 then 0 else exp2 (p * lg x)

/-! ## The functions of Table 4-4, 1.0 being reference white -/

/-- SMPTE ST 2084: c1, c2 and c3. -/
def pqC1 : Rat := 3424 / 4096
def pqC2 : Rat := 2413 / 128
def pqC3 : Rat := 2392 / 128
/-- Light of a PQ signal of 0 to 1. -/
def pqLight (v : Rat) : Rat :=
  let x := pow v (32 / 2523)
  pow (max 0 (x - pqC1) / (pqC2 - pqC3 * x)) (8192 / 1305) * 10000 / 203
/-- PQ signal of a light. -/
def pqSignal (l : Rat) : Rat :=
  let y := pow (min 1 (l * 203 / 10000)) (1305 / 8192)
  pow ((pqC1 + pqC2 * y) / (1 + pqC3 * y)) (2523 / 32)

/-- ITU-R BT.2100 HLG: a, b and c. -/
def hlgA : Rat := 17883277 / 100000000
def hlgB : Rat := 28466892 / 100000000
def hlgC : Rat := 55991073 / 100000000
/-- The inverse OETF of a signal. -/
def hlgScene (v : Rat) : Rat :=
  if v ≤ 0 then 0 else if v ≤ 1 / 2 then v * v / 3 else (exp2 ((v - hlgC) / hlgA / ln2) + hlgB) / 12
/-- Luminance of a light under BT.2020 primaries. -/
def lightness (t : Light) : Rat := (2627 * t.1 + 6780 * t.2.1 + 593 * t.2.2) / 10000
/-- Light of component `k` of an HLG signal: the OOTF of gamma 1.2 and 1,000 cd/m². -/
def hlgLight (t : Light) (k : Nat) : Rat :=
  let e : Light := (hlgScene t.1, hlgScene t.2.1, hlgScene t.2.2)
  pow (lightness e) (1 / 5) * part e k * 1000 / 203
/-- HLG signal of component `k` of a light. -/
def hlgSignal (t : Light) (k : Nat) : Rat :=
  let f (l : Rat) : Rat := min 1 (l * 203 / 1000)
  let y := lightness (f t.1, f t.2.1, f t.2.2)
  let e := f (part t k) * pow y (-1 / 6)
  if e ≤ 1 / 12 then pow (3 * e) (1 / 2) else hlgA * ln2 * lg (12 * e - hlgB) + hlgC

/-- The EOTF: the light of component `k` of a signal, as the function has it. -/
def eotfExact (transfer : Nat) (t : Light) (k : Nat) : Rat :=
  let v := part t k
  match transfer with
  | 1 => pow v (12 / 5)
  | 2 => pqLight (min 1 v)
  | 3 => hlgLight t k
  | 4 => v
  | _ => if v ≤ 4045 / 100000 then v * 100 / 1292 else pow ((v + 55 / 1000) / (1055 / 1000)) (12 / 5)

/-- The EOTF in binary16 (R107): nothing below 0; within 0.1 % of the function where the light is at least 2^−10; below it,
no more than that; above the range of PQ, no less than its end. -/
def eotf (transfer : Nat) (t : Light) (k : Nat) : Nat :=
  let x := eotfExact transfer t k
  let free := Config.eotf transfer k t.1 t.2.1 t.2.2
  if transfer = 4 then rounded 0 (min x 65504)
  else if x ≤ 0 then 0
  else if x < 1 / 1024 then inBand free 0 (1001 / 1024000)
  else if transfer = 2 ∧ 1 < part t k then inBand free (x * 999 / 1000) 65504
  else inBand free (min 65504 (x * 999 / 1000)) (min 65504 (x * 1001 / 1000))

/-- The OETF of an output of `COLOUR` 0 BT.1886, 1 PQ, 2 HLG: the signal of component `k` of a light. -/
def oetfExact (colour : Nat) (t : Light) (k : Nat) : Rat :=
  match colour with
  | 0 => pow (min 1 (part t k)) (5 / 12)
  | 1 => pqSignal (part t k)
  | _ => hlgSignal t k

/-- The 10-bit code of component `k` of a light on an output (R113), within the error of R107. -/
def oetf (colour : Nat) (t : Light) (k : Nat) : Nat :=
  let x := part t k
  let v := oetfExact colour t k
  let free := Config.oetf colour k t.1 t.2.1 t.2.2
  if x ≤ 0 then 0
  else
    let lo := if x < 1 / 1024 then 0 else min 1023 (v * 1023 * 999 / 1000).floor.toNat
    let hi := min 1023 (-(-(v * 1023 * 1001 / 1000)).floor).toNat
    lo + free % (max hi lo + 1 - lo)

/-! ## Range and matrix (R107 step 2) -/

/-- A sample of `bits` bits as a signal: `diff` where it is a colour difference. -/
def signalOf (range bits : Nat) (diff : Bool) (v : Nat) : Rat :=
  let up : Rat := 2 ^ (bits - 8)
  if range = 1 then (if diff then ((v : Rat) - 128 * up) / (224 * up) else ((v : Rat) - 16 * up) / (219 * up))
  else if diff then ((v : Rat) - 128 * up) / (256 * up - 1) else (v : Rat) / (256 * up - 1)

/-- Y'CbCr to R'G'B' with the red and blue weights of a matrix. -/
def toRgb (kr kb : Rat) (t : Light) : Light :=
  let r := t.1 + 2 * (1 - kr) * t.2.2
  let b := t.1 + 2 * (1 - kb) * t.2.1
  (r, (t.1 - kr * r - kb * b) / (1 - kr - kb), b)

/-- By `MATRIX`: BT.709, BT.2020 non-constant lightness; what identity makes of Y, Cb and Cr the spec does not say. -/
def matrixed (matrix : Nat) (t : Light) : Light :=
  match matrix with
  | 1 => toRgb (2126 / 10000) (722 / 10000) t
  | 2 => toRgb (2627 / 10000) (593 / 10000) t
  | _ => (Config.identityMatrix t.1 t.2.1 t.2.2 0, Config.identityMatrix t.1 t.2.1 t.2.2 1, Config.identityMatrix t.1 t.2.1 t.2.2 2)

/-! ## Matrix and tone curve (R107 to R110) -/

/-- A gamut matrix, row by row, applied and clipped to 0 to 65,504. -/
def gamutApplied (m : Nat → Rat) (t : Triple) : Triple :=
  ofParts (fun k => rounded 1 (min 65504 (m (3 * k) * half t.1 + m (3 * k + 1) * half t.2.1 + m (3 * k + 2) * half t.2.2)))

/-- The conversion of ITU-R BT.2087 from BT.709 to BT.2020 primaries, in units of 10^−4 (log entry 54). -/
def bt2087 : List Int := [6274, 3293, 433, 691, 9195, 114, 164, 880, 8956]

/-- The adjugate of that matrix, of which the quotient by the determinant is the conversion back. -/
def bt2087Adj (k : Nat) : Int :=
  let m (i j : Nat) : Int := bt2087.getD (3 * (i % 3) + j % 3) 0
  let i := k % 3
  let j := k / 3
  m (i + 1) (j + 1) * m (i + 2) (j + 2) - m (i + 1) (j + 2) * m (i + 2) (j + 1)

/-- Its determinant. -/
def bt2087Det : Int :=
  bt2087.getD 0 0 * bt2087Adj 0 + bt2087.getD 1 0 * bt2087Adj 3 + bt2087.getD 2 0 * bt2087Adj 6

/-- The matrix of profile 0 between the primaries of code 1, BT.709, and code 2, BT.2020 (R110). -/
def primaryMatrix (toWide : Bool) (k : Nat) : Rat :=
  if toWide then (bt2087.getD k 0 : Rat) / 10000 else (10000 * bt2087Adj k : Rat) / (bt2087Det : Rat)

/-- The point of a curve at or below a code of at least 2^−10, from its exponent and mantissa: k such that
2^(−10 + k/4) ≤ M. -/
def curvePoint (m : Nat) : Nat :=
  let e := m / 1024
  let frac := m % 1024
  4 * (e - 5) + (if frac < 194 then 0 else if frac < 425 then 1 else if frac < 699 then 2 else 3)

/-- T (R109): along a line between two points in log2(M); below the first point in proportion; beyond the last that one. -/
def toneOf (p : Nat → Nat) (m : Nat) : Nat :=
  let x := half m
  if 64 < x then p 64
  else if x < 1 / 1024 then rounded 2 (x * half (p 0) * 1024)
  else
    let k := curvePoint m
    let a := half (p k)
    let f := 4 * (lg x + 10) - k
    rounded 2 (a + (half (p (min 64 (k + 1))) - a) * max 0 (min 1 f))

/-- The tone curve on M = max(R, G, B): each component times T / M. -/
def toned (p : Nat → Nat) (t : Triple) : Triple :=
  let m := max t.1 (max t.2.1 t.2.2)
  if m = 0 then (0, 0, 0)
  else
    let r := half (toneOf p m) / half m
    (rounded 3 (half t.1 * r), rounded 3 (half t.2.1 * r), rounded 3 (half t.2.2 * r))

/-! ## Blending (R111, R112) -/

/-- A fraction rounds to zero in binary16: it is at most half of the least subnormal, 2^−25. -/
def roundsToZero (n m : Nat) : Bool := decide (n * 2 ^ 25 ≤ m)

/-- αp in binary16: zero exactly where it rounds to zero. -/
def alphaHalf (a : Nat × Nat) : Nat :=
  if roundsToZero a.1 a.2 then 0 else max 1 (rounded 4 ((a.1 : Rat) / (a.2 : Rat)))

/-- D after a layer of colour C and alpha αp, by `BLEND`: 0 OVER, 1 OPAQUE, 2 ADD. Nothing of D changes where αp is 0, and
nothing of it is left where that of an OVER or OPAQUE layer is 1. -/
def blended (mode : Nat) (a : Nat × Nat) (colour under : Triple) : Triple :=
  let alpha := half (alphaHalf a)
  if roundsToZero a.1 a.2 then under else if mode ≠ 2 ∧ a.1 = a.2 then colour else
  let one (c d : Nat) : Nat :=
    let cp := half (rounded 5 (half c * alpha))
    rounded 6 (if mode = 2 then half d + cp else cp + half d * (1 - alpha))
  (one colour.1 under.1, one colour.2.1 under.2.1, one colour.2.2 under.2.2)

end Sys2Proof.Machine
end

