-- ==== Sys2Proof/Machine/Capability.lean ====
section
/-!
DEFINITION. The capability record of a lane's partner (Table 9-5): its fields, its checks, and the record the K7 sends.
-/
namespace Sys2Proof.Machine

def capVersionMax (r : Bytes) : Nat := Bytes.byte r 0
def capVersionMin (r : Bytes) : Nat := Bytes.byte r 1
def capMode (r : Bytes) : Nat := Bytes.byte r 2
def capSide (r : Bytes) : Nat := Bytes.byte r 3
def capFlags (r : Bytes) : Nat := Bytes.at r 4 2
def capLen (r : Bytes) : Nat := Bytes.at r 6 2
/-- `FLAGS` bits: echo, time, bond. -/
def capEcho (r : Bytes) : Bool := (capFlags r).testBit 0
def capTime (r : Bytes) : Bool := (capFlags r).testBit 1
/-- Mode area of a source. -/
def capWidth (r : Bytes) : Nat := Bytes.at r 12 2
def capHeight (r : Bytes) : Nat := Bytes.at r 14 2
def capFormat (r : Bytes) : Nat := Bytes.byte r 16
def capPeriod (r : Bytes) : Nat := Bytes.at r 20 4
/-- Mode area of a peer. -/
def capPairId (r : Bytes) : Nat := Bytes.byte r 12
def capRole (r : Bytes) : Nat := Bytes.byte r 13
def capHostMajor (r : Bytes) : Nat := Bytes.byte r 14
def capHostMinor (r : Bytes) : Nat := Bytes.byte r 15
def capFirmware (r : Bytes) : Nat := Bytes.at r 16 4
/-- Transfer a source declares; a 1.x source is taken as BT.1886. -/
def capTransfer (r : Bytes) : Nat := if capLen r = 48 then Bytes.byte r 29 else 1

/-- The colour description a source declares; that of a 1.x source is the one R225 takes. -/
def capColour (r : Bytes) : Colour :=
  let rgb : Bool := capFormat r != 3 && capFormat r != 4
  if capLen r = 48 then
    { primaries := Bytes.byte r 28, transfer := Bytes.byte r 29, matrix := Bytes.byte r 30, range := Bytes.byte r 31 }
  else { primaries := 1, transfer := 1, matrix := if rgb then 3 else 1, range := if rgb then 2 else 1 }

/-- The record is whole: its length field and its CRC hold. -/
def capSound (r : Bytes) : Bool :=
  (capLen r == 32 || capLen r == 48) && decide (capLen r ≤ r.len)
    && Bytes.at r (capLen r - 4) 4 == crc32 (Bytes.slice r 0 (capLen r - 4))

/-- The CRC a record carries. -/
def capCrc (r : Bytes) : Nat := Bytes.at r (capLen r - 4) 4

/-- Nominal pixel rate of a source (R70), pixels per second. -/
def capPixelRate (r : Bytes) : Nat :=
  if capPeriod r = 0 then 0 else capWidth r * capHeight r * 1000000 / capPeriod r

/-! ## Receivers of a head (R45, R163) -/

/-- Every receiver of a head declares echo at a link version that carries it. -/
def State.provenNow (s : State) (h : Nat) : Bool :=
  let l := s.headLanes h
  !l.isEmpty && (!headBond (s.outSet h) || l.length == 2) && l.all (fun m =>
    match (s.links.lane m).partner with
    | some r => capEcho r && decide (0x20 ≤ (s.links.lane m).version)
    | none => false)

/-- Decide afresh whether a head is proven; a change begins its echo counting anew, with its next frame: the frame that runs is
not counted (R163). -/
def State.refreshProven (s : State) (h : Nat) : State :=
  let x := s.head h
  let p := s.provenNow h
  if x.proven = p then s
  else
    let s1 := s.setHead h { x with proven := p, kept := [], decided := [x.frame], missRun := 0, mismatchRaised := false }
    (if x.mismatchRaised then s1.cleared 0x010 h else s1).notifyHealth false

end Sys2Proof.Machine
end

