-- ==== Sys2Proof/Machine/Geometry.lean ====
section
/-!
DEFINITION. Tiles, destinations and visibility (R114, R111, R112, R117, R430): which tiles a layer touches, and which
rectangle of a tile it is recorded with.
-/
namespace Sys2Proof.Machine

/-! ## Tiles -/

/-- The part of a layer's destination inside an output of width `w` and height `h`, if any (Table 4-1). -/
def clipDest (d : LayerDesc) (w h : Nat) : Option Rect :=
  let x0 := max 0 (layDstX d)
  let y0 := max 0 (layDstY d)
  let x1 := min (layDstX d + layDstW d) w - 1
  let y1 := min (layDstY d + layDstH d) h - 1
  if x0 ≤ x1 ∧ y0 ≤ y1 then some ⟨x0.toNat, y0.toNat, x1.toNat, y1.toNat⟩ else none

/-- The clipped destination of a layer on its output, under a configuration set. -/
def ConfigSet.dest (c : ConfigSet) (l : Nat) : Option Rect :=
  let d := c.layer l
  let o := layOutput d
  clipDest d (outW o (c.output o)) (outH o (c.output o))

/-- Pixels of tile `t` of an output `w` wide and `h` high. -/
def tileRect (w h t : Nat) : Rect :=
  let cols := ceilDiv w 64
  let x := t % cols * 64
  let y := t / cols * 32
  ⟨x, y, min (x + 63) (w - 1), min (y + 31) (h - 1)⟩

/-- Tiles a rectangle of pixels touches, rising. -/
def tilesOf (w : Nat) (r : Rect) : List Nat :=
  let cols := ceilDiv w 64
  (from' (r.y0 / 32) (r.y1 / 32 - r.y0 / 32 + 1)).flatMap (fun y =>
    (from' (r.x0 / 64) (r.x1 / 64 - r.x0 / 64 + 1)).map (fun x => y * cols + x))

/-- Tiles a layer touches under a set: those its clipped destination intersects. -/
def ConfigSet.layerTiles (c : ConfigSet) (l : Nat) : List Nat :=
  let o := layOutput (c.layer l)
  match c.dest l with
  | some r => tilesOf (outW o (c.output o)) r
  | none => []

/-- Elements of `b` not in `a`, added behind `a`. -/
def union (a b : List Nat) : List Nat := a ++ b.filter (fun x => !a.contains x)

/-- An output that can be composed: enabled, and not the upper head of a bond. -/
def ConfigSet.shows (c : ConfigSet) (o : Nat) : Bool := outEnable (c.output o) && !(isHead o && upperOfBond c o)

/-- Enabled layers of an output, lowest first (R101). -/
def ConfigSet.stack (c : ConfigSet) (o : Nat) : List Nat :=
  let l := c.enabledLayers.filter (fun i => layOutput (c.layer i) == o)
  sortBy (fun a b => decide (layZ (c.layer a) < layZ (c.layer b))
    || (layZ (c.layer a) == layZ (c.layer b) && decide (a ≤ b))) l

/-- Index under which a layer's voids are recorded (R105). -/
def ConfigSet.leadOf (c : ConfigSet) (l : Nat) : Nat := if layStriped (c.layer l) then layLead (c.layer l) else l

/-! ## What a layer is composed from -/

/-- The fields of R63 differ: the subscription ends. -/
def subscriptionDiffers (a b : SrcDesc) : Bool :=
  srcKind a != srcKind b || srcPort a != srcPort b || srcGroup a != srcGroup b || srcFilter a != srcFilter b
    || srcUdpPort a != srcUdpPort b || srcPayloadType a != srcPayloadType b || srcSsrc a != srcSsrc b
    || srcSsrcMatch a != srcSsrcMatch b

/-- Transfer that a `TRANSFER` of zero selects for a source under a set (R100): that of a host surface, of a Kinik source, of the
colour description of the stream that the set keeps decoding; none of a surface never described or a stream without one. -/
def State.sourceTransfer (s : State) (c : ConfigSet) (i : Nat) : Nat :=
  let d := c.source i
  if kindIsRtp (srcKind d) then
    if subscriptionDiffers (s.sets.active.source i) d then 0
    else match (s.decRun i).sps with | some p => p.colour.transfer | none => 0
  else if srcKind d = kindHost then
    match (s.surface (srcPort d)).desc with | some x => surfTransfer x | none => 0
  else if srcKind d = kindKinik then
    match (s.links.lane (srcPort d)).partner with | some r => capTransfer r | none => 0
  else 0

/-- The check of Table 4-2 on linear transfer fails (R100, R430). -/
def State.linearFails (s : State) (c : ConfigSet) (l : Nat) : Bool :=
  let d := c.layer l
  let src := c.source (laySource d)
  let own := s.sourceTransfer c (laySource d)
  let t := if layTransfer d = 0 then own else layTransfer d
  let f16 : Bool := srcKind src == kindHost &&
    (match (s.surface (srcPort src)).desc with | some x => surfFormat x == 2 | none => false)
  if f16 then t != 4 else t == 4

/-- The newest frame of every source, and the frames of host-surface buffers behind it: what a snapshot holds (R120). -/
def State.snapshot (s : State) : List Frame :=
  s.src.run.flatMap (fun e => e.2.frame.toList ++ e.2.bufFrames.map (·.2))

/-- The buffer a layer of a host surface is held to (Table 4-1). -/
def heldBuffer (c : ConfigSet) (l : Nat) : Option Nat :=
  let d := c.layer l
  if layBuffer d ≠ 0 ∧ srcKind (c.source (laySource d)) = kindHost then some (layBuffer d - 1) else none

/-- What a layer is composed from: its frame, or why it is recorded by geometry (R117): 1 not ready, 2 no frame, 3 a frame
that a backward step of room time withdrew, which voids as `AGED` (R55). -/
def State.layerInput (s : State) (c : ConfigSet) (frames : List Frame) (notReady : List Nat) (l : Nat) : Nat ⊕ Frame :=
  let src := laySource (c.layer l)
  let any := frames.find? (fun f => f.source == src)
  if s.linearFails c l ∨ any.isNone then .inl 2
  else if notReady.contains l then .inl 1
  else
    let f : Option Frame := match heldBuffer c l with
      | some b => frames.find? (fun f => f.source == src && f.buffer == b)
      | none => any
    match f with | some f => if f.gone then .inl 3 else .inr f | none => .inl 2

/-! ## Visibility (R112) -/

/-- Whether a format carries alpha per pixel (Table 4-3). -/
def formatAlpha (f : Nat) : Bool := f < 3

/-- One layer of a tile: its index, its part of the tile, what it is composed from. -/
structure Over where
  layer : Nat
  rect : Rect
  input : Nat ⊕ Frame

/-- αp of a layer at pixels where its source alpha is 1, in units of 1/65,535 (R111). -/
def Over.alpha (c : ConfigSet) (x : Over) : Nat :=
  match x.input with | .inr _ => layAlpha (c.layer x.layer) | .inl _ => 0

/-- The layer's αp depends on the source alpha of each pixel. -/
def Over.perPixel (c : ConfigSet) (x : Over) : Bool :=
  match x.input with
  | .inr f => formatAlpha f.format && layBlend (c.layer x.layer) != 1
  | .inl _ => false

/-- The layer reduces the visibility of those beneath it: OVER or OPAQUE. -/
def Over.covers (c : ConfigSet) (x : Over) : Bool := layBlend (c.layer x.layer) != 2

/-- An OPAQUE layer with A = 1 that is composed from a frame. -/
def Over.hides (c : ConfigSet) (x : Over) : Bool :=
  match x.input with
  | .inr _ => layBlend (c.layer x.layer) == 1 && layAlpha (c.layer x.layer) == 65535
  | .inl _ => false

/-- Start points of the columns or rows into which the edges of rectangles cut an interval. -/
def cuts (lo hi : Nat) (edges : List Nat) : List Nat :=
  edges.foldl (fun acc e => if lo < e ∧ e ≤ hi then insertNat acc e else acc) [lo]

/-- The pieces of an interval between its cuts. -/
def pieces (hi : Nat) : List Nat → List (Nat × Nat)
  | [] => []
  | [a] => [(a, hi)]
  | a :: b :: r => (a, b - 1) :: pieces hi (b :: r)

/-- The rectangle cut along the edges of the layers above it. -/
def cells (r : Rect) (above : List Over) : List Rect :=
  let xs := pieces r.x1 (cuts r.x0 r.x1 (above.flatMap (fun a => [a.rect.x0, a.rect.x1 + 1])))
  let ys := pieces r.y1 (cuts r.y0 r.y1 (above.flatMap (fun a => [a.rect.y0, a.rect.y1 + 1])))
  ys.flatMap (fun y => xs.map (fun x => ⟨x.1, y.1, x.2, y.2⟩))

/-- Bounding rectangle of a list. -/
def hullOf : List Rect → Option Rect
  | [] => none
  | r :: l => some (l.foldl Rect.hull r)

/-- αp × Π (1 − αp) over the layers above is non-zero in binary16: it exceeds half of the least subnormal, 2^−25. A layer
above whose alpha varies per pixel is taken as transparent here. -/
def shines (c : ConfigSet) (x : Over) (above : List Over) (cell : Rect) : Bool :=
  let blenders := above.filter (fun a => a.covers c && !a.perPixel c && a.rect.meets cell)
  let num := blenders.foldl (fun p a => p * (65535 - a.alpha c)) (x.alpha c)
  let den := blenders.foldl (fun p _ => p * 65535) 65535
  decide (den < num * 2 ^ 25)

/-! ## Stamps (R15, R118) -/

/-- A capture time as a stamp. -/
def stampOf (capture : Nat) : Nat := capture / 1000000 % 65536

/-! ## Tile records (R19, R116) -/

/-- Layers that touch a tile, lowest first. -/
def State.overs (s : State) (c : ConfigSet) (frames : List Frame) (notReady : List Nat) (o t : Nat) : List Over :=
  let w := outW o (c.output o)
  let h := outH o (c.output o)
  let tr := tileRect w h t
  (c.stack o).filterMap (fun l =>
    match c.dest l with
    | some r => if r.meets tr then some ⟨l, r.cut tr, s.layerInput c frames notReady l⟩ else none
    | none => none)

/-- Layers a record lists. -/
def TileRec.layers (r : TileRec) : List Nat :=
  match r.dense with
  | some d => d.layers
  | none => r.rects.map (·.layer)

/-! ## Marks (R122) -/

/-- Mark tiles of an output for recomposition. -/
def State.mark (s : State) (o : Nat) (tiles : List Nat) : State :=
  let x := s.outComp o
  s.setOutComp o { x with marks := union x.marks tiles }

/-- Mark every tile of an output. -/
def State.markAll (s : State) (o : Nat) : State := s.mark o (upTo (outTiles o (s.outSet o)))

/-- Mark the tiles of layers, each on its output (Table 4-8). -/
def State.markLayers (s : State) (ls : List Nat) : State :=
  each ls s (fun s l =>
    let o := layOutput (s.sets.active.layer l)
    if s.sets.active.shows o then s.mark o (s.sets.active.layerTiles l) else s)

/-- Enabled layers of the active set that show a source. -/
def State.layersOf (s : State) (src : Nat) : List Nat :=
  s.sets.active.enabledLayers.filter (fun l => laySource (s.sets.active.layer l) == src)

/-- A record with `AGED` set in every live rectangle and in the dense form. -/
def TileRec.allAged (r : TileRec) : TileRec :=
  { r with rects := r.rects.map (fun x => { x with aged := true }), dense := r.dense.map (fun d => { d with aged := true }) }

/-- A capture time lies more than 60 s back, in whole milliseconds (R15). -/
def saturated (now cap : Nat) : Bool := decide (60000 + cap / 1000000 < ceilDiv now 1000000)

/-- A record as it becomes current: `AGED` where a stamp is saturated already, which composing a tile anew from the same
frame does not undo (R9, R15, R16; log entry 58). -/
def TileRec.published (now : Nat) (r : TileRec) : TileRec :=
  { r with
    rects := r.rects.map (fun x => { x with aged := x.aged || (x.state == 0 && saturated now x.cap) })
    dense := r.dense.map (fun d => { d with aged := d.aged || (d.stamped && saturated now d.cap) }) }

/-- Set `AGED` in every live rectangle and dense form of an output's records (R17). -/
def State.ageOutput (s : State) (o : Nat) : State :=
  { s with comp := { s.comp with tiles := Tbl.mapAll s.comp.tiles {} (fun k x =>
      if k / 16384 = o then { x with record := x.record.allAged } else x) } }

/-- No tile of an output mismatches its required tag any longer (R125). -/
def State.clearMismatch (s : State) (o : Nat) : State :=
  if s.comp.tiles.any (fun e => e.1 / 16384 == o && e.2.mismatch) then
    { s with comp := { s.comp with tiles := Tbl.mapAll s.comp.tiles {} (fun k x =>
      if k / 16384 = o then { x with mismatch := false } else x) } }.cleared 0x013 o
  else s

/-- What the assay holds with each tile in the scan-out SRAM returns to its reset value: required tags and written flags (R125,
R427, Table 17-4). -/
def State.dropTags (s : State) : State :=
  let s1 := each (upTo 32) s State.clearMismatch
  { s1 with comp := { s1.comp with tiles := Tbl.mapAll s1.comp.tiles {} (fun _ x =>
    { x with reqTag := 0, written := false, fault := false }) } }

/-- Before an output resumes: its records are aged, a round composed before it stopped is dropped, and every tile is marked
(R17). -/
def State.resumeOutput (s : State) (o : Nat) : State :=
  let s1 := s.ageOutput o
  (s1.setOutComp o { s1.outComp o with round := none }).markAll o

/-- Set `AGED` in every record there is: current, composed and waiting to publish, staged (R55). -/
def State.ageAll (s : State) : State :=
  { s with comp := { s.comp with
    tiles := Tbl.mapAll s.comp.tiles {} (fun _ x => { x with record := x.record.allAged })
    out := Tbl.mapAll s.comp.out {} (fun _ x => { x with
      round := x.round.map (fun r => { r with recs := r.recs.map (fun e => (e.1, e.2.allAged)) })
      staged := x.staged.map (fun e => (e.1, e.2.allAged)) }) } }

end Sys2Proof.Machine
end

