-- ==== Sys2Proof/Machine/Pixels.lean ====
section
/-!
DEFINITION. The pixels of a composed tile (R102, R103, R106 to R115): the samples of a frame, the scaler, the colour pipeline
and blending; where they are visible (R19, R112, R117); and the record composition writes (R116).
-/
namespace Sys2Proof.Machine

/-! ## Samples as stored (R106, R230, R426, Table 4-3) -/

/-- Component of the pixel value of a packed format: R, G, B, A. -/
def packedSample (f v k : Nat) : Nat :=
  match f with
  | 0 => v / 2 ^ (8 * k) % 256
  | 1 => if k < 3 then v / 2 ^ (10 * k) % 1024 else v / 2 ^ 30 % 4
  | _ => v / 2 ^ (16 * k) % 65536

/-- The number that bytes spell from an offset on, little-endian. -/
def bytesFrom (byte : Nat → Nat) (off n : Nat) : Nat := sumOf ((upTo n).map (fun i => byte (off + i) * 2 ^ (8 * i)))

/-- A sample at an offset: of a packed pixel its component `k`, of a plane the sample. -/
def storedSample (f : Nat) (byte : Nat → Nat) (off k : Nat) : Nat :=
  match f with
  | 3 => byte off
  | 4 => bytesFrom byte off 2 / 64
  | _ => packedSample f (bytesFrom byte off (formatBytes f)) k

/-- Offset of a sample in a host-surface buffer: component `k` at column `x` and line `y` of its plane. -/
def bufferOffset (d : SurfDesc) (k x y : Nat) : Nat :=
  let n := formatBytes (surfFormat d)
  let chroma : Bool := formatPlanar (surfFormat d) && k != 0
  if chroma then surfPitch d * (surfH d + y) + n * (2 * x + (k - 1)) else surfPitch d * y + n * x

/-- Tile of a Kinik frame that holds a sample, and its offset in the tile's bytes. -/
def tileOffset (f w k x y : Nat) : Nat × Nat :=
  let n := formatBytes f
  let chroma : Bool := formatPlanar f && k != 0
  if chroma then (y / 16 * ceilDiv w 64 + x / 32, n * (2048 + 64 * (y % 16) + 2 * (x % 32) + (k - 1)))
  else (y / 32 * ceilDiv w 64 + x / 64, n * (64 * (y % 32) + x % 64))

/-- A sample of a decoded picture; the chroma of a 4:0:0 picture is the middle value (log entry 53). -/
def decodedSample (picture depth : Nat) (mono : Bool) (k x y : Nat) : Nat :=
  if mono && k != 0 then 2 ^ (depth - 1) else Config.decoded picture k x y % 2 ^ depth

/-- A sample of a frame of a source: component `k` at column `x` and line `y` of its plane, of a decoded picture within its
conformance cropping window. -/
def State.sampleOf (s : State) (src : SrcDesc) (f : Frame) (k x y : Nat) : Nat :=
  if f.format = 5 then
    let n := if k = 0 then 1 else 2
    decodedSample f.picture f.depth f.mono k (f.left / n + x) (f.top / n + y)
  else if srcKind src = kindHost then
    match (s.surface (srcPort src)).desc with
    | some d => storedSample f.format (fun a => (Memory.read s.mem.dram (surfBuffer d f.buffer + a)).toNat)
        (bufferOffset d k x y) k
    | none => 0
  else
    let (t, off) := tileOffset f.format f.width k x y
    storedSample f.format (Bytes.byte ((Tbl.find f.tiles t).getD Bytes.none)) off k

/-- Bits of a sample: of a colour component, of alpha. -/
def sampleBits (f : Frame) (k : Nat) : Nat :=
  match f.format with | 0 => 8 | 1 => if k = 3 then 2 else 10 | 2 => 16 | 3 => 8 | 4 => 10 | _ => f.depth

/-- Planes of luma and chroma at half resolution: NV12, P010 and decoded pictures. -/
def halfChroma (f : Frame) : Bool := formatPlanar f.format || f.format == 5

/-! ## The scaler (R102, R103) -/

/-- Two samples interpolated with the weight of the second in 1/64, with `n` fraction bits more, rounded half up. -/
def mixUp (n a b w : Nat) : Nat := (2 * ((a * (64 - w) + b * w) <<< n) + 64) / 128

/-- The sample scaled from four: the lines first, then the columns. -/
def scaleSample (half : Bool) (bits : Nat) (get : Nat → Nat → Nat) (tx ty : Nat × Nat × Nat) : Nat :=
  let (a, b, w) := tx
  let (c, d, v) := ty
  if half then
    mixHalf (mixHalf (get a c) (get a d) v) (mixHalf (get b c) (get b d) v) w
  else
    let n := min (Config.lineBits bits) (16 - bits)
    let left := mixUp n (get a c) (get a d) v
    let right := mixUp n (get b c) (get b d) v
    (2 * (left * (64 - w) + right * w) + 64 <<< n) / (128 <<< n)

/-- Taps held within the `n` samples of a frame: what lies outside it is its nearest sample. -/
def within (n : Nat) (t : Nat × Nat × Nat) : Nat × Nat × Nat := (min t.1 (n - 1), min t.2.1 (n - 1), t.2.2)

/-- The taps of a layer at an output pixel in a frame's plane: across and down. -/
def layerTaps (d : LayerDesc) (f : Frame) (chroma : Bool) (px py : Nat) : (Nat × Nat × Nat) × (Nat × Nat × Nat) :=
  let x := ((px : Int) - layDstX d).toNat
  let y := ((py : Int) - layDstY d).toNat
  let (ox, oy) := chromaOffset f.colour.chromaLoc
  if chroma then
    (within (ceilDiv f.width 2) (chromaTaps (layCropX d) (layCropW d) (layPhaseX d) (layStepX d) ox x),
      within (ceilDiv f.height 2) (chromaTaps (layCropY d) (layCropH d) (layPhaseY d) (layStepY d) oy y))
  else
    (within f.width (scaleTaps (layCropX d) (layCropW d) (layPhaseX d) (layStepX d) x),
      within f.height (scaleTaps (layCropY d) (layCropH d) (layPhaseY d) (layStepY d) y))

/-- The mint annex rows of a frame that the scaler taps of a layer's part of a tile read, luma and chroma: rows of 32 coded
lines (R118). -/
def rowsRead (c : ConfigSet) (l : Nat) (f : Frame) (part : Rect) : List AnnexEntry :=
  let d := c.layer l
  let tap (chroma : Bool) (y : Nat) := (layerTaps d f chroma part.x0 y).2
  let luma := (tap false part.y0).1
  let last := (tap false part.y1).2.1
  let (lo, hi) := if halfChroma f then
      (min luma (2 * (tap true part.y0).1), max last (min (2 * (tap true part.y1).2.1 + 1) (f.height - 1)))
    else (luma, last)
  f.rows.filter (fun e => decide (e.firstRow ≤ (f.top + hi) / 32 ∧ (f.top + lo) / 32 < e.firstRow + e.rowCount))

/-- Oldest capture time, saturation and highest evidence of a layer in a tile. -/
def captureIn (c : ConfigSet) (l : Nat) (f : Frame) (part : Rect) : Nat × Bool × Nat :=
  match rowsRead c l f part with
  | [] => (f.capture, false, f.evidence)
  | e :: r => (r.foldl (fun m x => min m x.capture) e.capture, (e :: r).any (·.aged),
      r.foldl (fun m x => max m x.evidence) e.evidence)

/-- Component `k` of a layer at an output pixel, scaled. -/
def State.layerSample (s : State) (c : ConfigSet) (l : Nat) (f : Frame) (px py k : Nat) : Nat :=
  let d := c.layer l
  let (tx, ty) := layerTaps d f (halfChroma f && k != 0) px py
  scaleSample (f.format == 2) (sampleBits f k) (s.sampleOf (c.source (laySource d)) f k) tx ty

/-! ## Alpha and visibility (R111, R112, R117) -/

/-- Source alpha of a layer at an output pixel, as a fraction (Table 4-3); a negative one counts as 0. -/
def State.alphaAt (s : State) (c : ConfigSet) (l : Nat) (f : Frame) (px py : Nat) : Nat × Nat :=
  match f.format with
  | 0 => (s.layerSample c l f px py 3, 255)
  | 1 => (s.layerSample c l f px py 3, 3)
  | 2 => ((halfUnits (s.layerSample c l f px py 3)).toNat, 2 ^ 24)
  | _ => (1, 1)

/-- αp of a layer at an output pixel, as a fraction (R111): 0 without a frame. -/
def State.paintAt (s : State) (c : ConfigSet) (x : Over) (px py : Nat) : Nat × Nat :=
  match x.input with
  | .inl _ => (0, 1)
  | .inr f =>
    if x.perPixel c then
      let (n, m) := s.alphaAt c x.layer f px py
      (n * x.alpha c, m * 65535)
    else (x.alpha c, 65535)

/-- αp × Π (1 − αp) over the OVER and OPAQUE layers above a pixel is non-zero in binary16 (R112). -/
def State.shinesAt (s : State) (c : ConfigSet) (x : Over) (above : List Over) (px py : Nat) : Bool :=
  let here := above.filter (fun a => a.covers c && a.rect.holds px py)
  let (n, m) := here.foldl (fun (p : Nat × Nat) a =>
    let (i, j) := s.paintAt c a px py
    (p.1 * ((j : Int) - i).natAbs, p.2 * j)) (s.paintAt c x px py)
  !roundsToZero n m

/-- The pixels of a rectangle, in raster order. -/
def pixelsOf (r : Rect) : List (Nat × Nat) :=
  (from' r.y0 r.height).flatMap (fun y => (from' r.x0 r.width).map (fun x => (x, y)))

/-- The live rectangle of a layer under the layers above it (R19, R112, R117): by cells where every alpha is that of a layer,
by pixels where that of the source takes part. -/
def State.visibleRect (s : State) (c : ConfigSet) (x : Over) (above : List Over) : Option Rect :=
  match x.input with
  | .inl _ =>
    if layAlpha (c.layer x.layer) = 0 then none
    else hullOf ((cells x.rect above).filter (fun cell => !above.any (fun a => a.hides c && a.rect.meets cell)))
  | .inr _ =>
    match hullOf ((cells x.rect above).filter (shines c x above)) with
    | none => none
    | some g =>
      if x.perPixel c || above.any (fun a => a.covers c && a.perPixel c && a.rect.meets g) then
        hullOf (((pixelsOf g).filter (fun p => s.shinesAt c x above p.1 p.2)).map (fun p => ⟨p.1, p.2, p.1, p.2⟩))
      else some g

/-! ## The colour pipeline (R107 to R110) -/

/-- The value of a layer's colour field, or what its source gives, or the value taken without either. -/
def colourField (own given none' : Nat) : Nat := if own ≠ 0 then own else if given ≠ 0 then given else none'

/-- The signal of a layer's samples: range, matrix for YCbCr, and the division by an alpha that is not 0 (R107 step 2). -/
def signalAt (d : LayerDesc) (f : Frame) (t : Triple) (alpha : Nat × Nat) : Light :=
  let range := colourField (layRange d) f.colour.range 1
  let ycc := halfChroma f
  let one (k v : Nat) : Rat :=
    if f.format = 2 then (if range = 2 then half v else Config.floatRange (half v))
    else signalOf range (sampleBits f k) (ycc && k != 0) v
  let x : Light := (one 0 t.1, one 1 t.2.1, one 2 t.2.2)
  let y := if ycc then matrixed (colourField (layMatrix d) f.colour.matrix 1) x else x
  if layPremult d ∧ alpha.1 ≠ 0 then
    let a : Rat := (alpha.1 : Rat) / (alpha.2 : Rat)
    (y.1 / a, y.2.1 / a, y.2.2 / a)
  else y

/-- The light of a layer's samples (R107 step 3). -/
def linearOf (d : LayerDesc) (f : Frame) (t : Triple) (alpha : Nat × Nat) : Triple :=
  ofParts (eotf (colourField (layTransfer d) f.colour.transfer 1) (signalAt d f t alpha))

/-- Code of an output's primaries: BT.709 or BT.2020 (R107). -/
def outPrimaries (d : OutDesc) : Nat := if outColour d = 0 then 1 else 2

/-- The gamut matrix of a tone profile; profile 0 converts the layer's primaries to the output's (R107 step 4, R110). -/
def gamutOf (c : ConfigSet) (d : LayerDesc) (f : Frame) (o : OutDesc) (t : Triple) : Triple :=
  let own := colourField (layPrimaries d) f.colour.primaries 1
  if layTone d ≠ 0 then gamutApplied (fun k => half (toneMatrix (c.tone (layTone d)) k)) t
  else if own = outPrimaries o then t
  else gamutApplied (primaryMatrix (own == 1)) t

/-- The curve of a tone profile; that of profile 0 is the identity. -/
def curveOf (c : ConfigSet) (d : LayerDesc) (k : Nat) : Nat :=
  if layTone d = 0 then identityCurve k else tonePoint (c.tone (layTone d)) k

/-- The colour of a layer at an output pixel in the output's linear light (R107 steps 1 to 5). -/
def State.colourAt (s : State) (c : ConfigSet) (o : OutDesc) (l : Nat) (f : Frame) (px py : Nat) : Triple :=
  let d := c.layer l
  let t : Triple := (s.layerSample c l f px py 0, s.layerSample c l f px py 1, s.layerSample c l f px py 2)
  toned (curveOf c d) (gamutOf c d f o (linearOf d f t (s.alphaAt c l f px py)))

/-! ## Blending (R111, R113) -/

/-- A colour as an output's 30-bit code (R113): R lowest. -/
def encodePixel (o : OutDesc) (t : Triple) : Nat :=
  let code := oetf (outColour o) (halves t)
  packBits [(code 0, 10), (code 1, 10), (code 2, 10)]

/-- The background of an output. -/
def outBackground (d : OutDesc) : Triple := (outBgR d, outBgG d, outBgB d)

/-- The word of a composed pixel: the layers over it, lowest first, upon the background (R111, R113). -/
def State.pixelAt (s : State) (c : ConfigSet) (o : OutDesc) (layers : List Over) (px py : Nat) : Nat :=
  encodePixel o (layers.foldl (fun under x =>
    match x.input with
    | .inl _ => under
    | .inr f =>
      if x.rect.holds px py then
        blended (layBlend (c.layer x.layer)) (s.paintAt c x px py) (s.colourAt c o x.layer f px py) under
      else under) (outBackground o))

/-- The 2,048 words of a tile in raster order; those outside the active area are zero (R114, R115). -/
def State.tilePixels (s : State) (c : ConfigSet) (o : OutDesc) (layers : List Over) (tile : Rect) : List Nat :=
  (upTo 2048).map (fun i =>
    let px := tile.x0 + i % 64
    let py := tile.y0 + i / 64
    if px ≤ tile.x1 ∧ py ≤ tile.y1 then s.pixelAt c o layers px py else 0)

/-- Bytes of 32-bit words, little-endian, as every CRC of pixels takes them (R115, R161). -/
def pixelBytes (l : List Nat) : List Nat :=
  l.flatMap (fun w => [w % 256, w / 256 % 256, w / 65536 % 256, w / 16777216 % 256])

/-- The register of the CRC of R115 after more bytes. -/
def crcMore (reg : Nat) (l : List Nat) : Nat := crcFeed 32 0x04C11DB7 true reg l
/-- The CRC of R115 over a list of bytes. -/
def crcOver (l : List Nat) : Nat := crcFinal 32 true true (crcMore 0xFFFFFFFF l)

/-! ## Tile records (R19, R116) -/

/-- Live rectangles of the recorded LIVE layers of a tile, lowest layer of the stack first. -/
def State.liveOf (s : State) (c : ConfigSet) (tile : Rect) : List Over → List LiveRect
  | [] => []
  | x :: above =>
    let rest := s.liveOf c tile above
    if !layLive (c.layer x.layer) then rest
    else match s.visibleRect c x above with
      | none => rest
      | some r =>
        let rel : Rect := ⟨r.x0 - tile.x0, r.y0 - tile.y0, r.x1 - tile.x0, r.y1 - tile.y0⟩
        match x.input with
        | .inl 3 => { layer := x.layer, rect := rel, stamp := w16 (Config.measured s.draw), aged := true } :: rest
        | .inl st => { layer := x.layer, rect := rel, stamp := w16 (Config.measured s.draw), state := st } :: rest
        | .inr f =>
          let (cap, aged, evidence) := captureIn c x.layer f x.rect
          { layer := x.layer, rect := rel, stamp := stampOf cap, aged := aged, cap := cap, evidence := evidence } :: rest

/-- The dense form over five or more recorded layers (R19, R117). -/
def denseOf (draw : Nat) (l : List LiveRect) : DenseForm :=
  let timed := l.filter (fun e => e.state == 0)
  let states := { aged := timed.any (·.aged)
                  state := if l.any (fun e => e.state == 2) then 2 else if l.any (fun e => e.state == 1) then 1 else 0
                  layers := l.map (·.layer) : DenseForm }
  match timed with
  | [] => { states with stamp := w16 (Config.measured draw) }
  | e :: r =>
    let oldest := r.foldl (fun m x => min m x.cap) e.cap
    { states with
      stamp := stampOf oldest, stamped := true, cap := oldest, evidence := r.foldl (fun m x => max m x.evidence) e.evidence }

/-- The slot a tile is written to: one that none of the given records names (R120). -/
def freeSlot (draw : Nat) (named : List Nat) : Nat :=
  let free := (upTo 3).filter (fun i => !named.contains i)
  free.getD (Config.measured draw % free.length) 0

/-- The bytes of a tile as stored (R119): its pixels where all 64 sectors are used, and otherwise those of the coding. -/
def TileRec.stored (r : TileRec) : List Nat :=
  if r.sectors = 63 then pixelBytes r.pix else (upTo (128 * (r.sectors + 1))).map (fun i => Config.tileByte r.pix i % 256)

/-- Device addresses of the sectors a stored tile uses, one per 4 KiB granule (R119). -/
def State.tileGranules (s : State) (o t : Nat) (r : TileRec) : List Nat :=
  match (regionMap s.mem.regionWord s.mem.capacity)[1]? with
  | some (base, size) =>
    if size < 8192 then []
    else
      let a := base + Config.slotPlace o t r.slot % (size / 8192) * 8192
      if r.sectors < 32 then [a] else [a, a + 4096]
  | none => []

/-- Write a tile into its slot: only the sectors used are written (R119). -/
def State.storeTile (s : State) (o t : Nat) (r : TileRec) : State :=
  let at' := s.tileGranules o t r
  if at' = [] then s
  else
    let bytes := r.stored
    let s1 := s.dramRequest
    { s1 with mem := { s1.mem with
      dram := Memory.writeAt s.mem.dram (at'.headD 0) ((upTo bytes.length).zip bytes) } }

/-- The frames that a tile is composed from. A layer wholly under one that hides it is not fetched (R112). -/
def ConfigSet.tileFrames (c : ConfigSet) : List Over → List Frame
  | [] => []
  | x :: above =>
    let rest := c.tileFrames above
    match x.input with
    | .inl _ => rest
    | .inr f => if above.any (fun a => a.hides c && x.rect.within a.rect) then rest else f :: rest

/-- Buffers of host surfaces that a tile is composed from, each under the surface's number (R72). -/
def ConfigSet.tileBuffers (c : ConfigSet) (l : List Over) : List (Nat × Nat) :=
  ((c.tileFrames l).filter (fun f => srcKind (c.source f.source) == kindHost)).map (fun f =>
    (srcPort (c.source f.source), f.buffer))

/-- Decoded pictures that a tile is composed from (R89). -/
def ConfigSet.tilePictures (c : ConfigSet) (l : List Over) : List Nat :=
  ((c.tileFrames l).filter (fun f => f.format == 5)).map (·.picture)

/-- The tile composition writes: its record and its pixels (R113 to R116). -/
def State.composeTile (s : State) (c : ConfigSet) (frames : List Frame) (notReady : List Nat) (o t tag : Nat)
    (named : List Nat) : TileRec :=
  let d := c.output o
  let tr := tileRect (outW o d) (outH o d) t
  let layers := s.overs c frames notReady o t
  let live := sortBy (fun a b => decide (a.layer ≤ b.layer)) (s.liveOf c tr layers)
  let pix := s.tilePixels c d layers tr
  { crc := crcOver (pixelBytes pix)
    tag := tag
    sectors := Config.tileSectors pix % 64
    slot := freeSlot s.draw named
    rects := if live.length ≤ 4 then live else []
    dense := if live.length ≤ 4 then none else some (denseOf s.draw live)
    pix := pix
    bufs := c.tileBuffers layers
    pics := c.tilePictures layers }

end Sys2Proof.Machine
end

