-- ==== Sys2Proof/Machine/Clearing.lean ====
section
/-!
DEFINITION. Clearing (R134): the checks a shadow set must pass, in the manual's order, each with the status, the item and
the byte offset of the field it names (R135).
-/
namespace Sys2Proof.Machine

/-- What clearing reports: status, item kind (codes of `SET_READ`; 5 a commit group, log entry 16), item index, byte
offset of the failing field. -/
structure Reject where
  status : Nat
  kind : Nat
  index : Nat
  offset : Nat
  deriving DecidableEq, Repr

/-- The first check of a list that fails: condition, status, offset. -/
def firstFail (l : List (Bool × Nat × Nat)) : Option (Nat × Nat) := (l.find? (·.1)).map (·.2)

/-- The first failure over a list of items, in order. -/
def firstItem (kind : Nat) (items : List Nat) (f : Nat → Option (Nat × Nat)) : Option Reject :=
  match items with
  | [] => none
  | i :: r =>
    match f i with
    | some (st, off) => some ⟨st, kind, i, off⟩
    | none => firstItem kind r f

/-! ## Wall heads (R149, R152, Table 6-2) -/

/-- Blocks of one line on a lane that carries tile columns from `a`, `n` of them, of a head `w` wide (R160). -/
def laneBlocks (w a n : Nat) : Nat :=
  1 + sumOf ((from' a n).map (fun k => ceilDiv (30 * min 64 (w - 64 * k)) 64))

/-- Tile columns of the lower lane of a head (R150). -/
def lowerCols (d : OutDesc) : Nat :=
  let t := ceilDiv (headHActive d) 64
  if headBond d then ceilDiv t 2 else t

/-- The checks of Table 6-2 on one enabled head, at a frame rate. -/
def headCheck (k : LinksSt) (num den h : Nat) (d : OutDesc) : Option (Nat × Nat) :=
  let bond := headBond d
  let lane := k.laneOf 1 h
  let upper := k.laneOf 1 (h + 1)
  let fast : Bool := match lane with | some l => k.fast l | none => true
  let t := ceilDiv (headHActive d) 64
  let lower := lowerCols d
  let blocks := max (laneBlocks (headHActive d) 0 lower)
    (if lower < t then laneBlocks (headHActive d) lower (t - lower) else 0)
  let hv := headHTotal d * headVTotal d * num
  let limit := if bond then 1200000000 else if fast then 600000000 else 300000000
  let rate := if fast then 390625000 else 156250000
  let pair : Bool := match lane, upper with
    | some a, some b => decide (a / 4 = b / 4) && k.fast a
    | _, _ => false
  let declared := headPclk d * 1000 * den
  let gap := if declared ≤ hv then hv - declared else declared - hv
  firstFail [
    (headHActive d == 0, stZeroField, 6), (headHTotal d == 0, stZeroField, 4),
    (headVActive d == 0, stZeroField, 10), (headVTotal d == 0, stZeroField, 8),
    (headHFront d == 0, stZeroField, 14), (headHSync d == 0, stZeroField, 12),
    (headVFront d == 0, stZeroField, 18), (headVSync d == 0, stZeroField, 16),
    (headPclk d == 0, stZeroField, 20),
    (decide (headHActive d < 64 ∨ (if bond then 8192 else 4096) < headHActive d), stNotSupported, 6),
    (decide (headVActive d < 32 ∨ 2304 < headVActive d), stNotSupported, 10),
    (decide (headHTotal d < headHActive d + headHFront d + headHSync d + 1), stNotSupported, 4),
    (decide (headVTotal d < headVActive d + headVFront d + headVSync d + 1), stNotSupported, 8),
    (decide (headHTotal d < headHActive d + 64), stNotSupported, 4),
    (decide (headVTotal d < headVActive d + 8), stNotSupported, 8),
    (outColour d == 3, stNotSupported, 3),
    (decide (5 * hv < 1000 * gap), stNotSupported, 20),
    (decide (limit * den < hv), stNotSupported, 20),
    (decide (95 * rate * den < 100 * blocks * headVTotal d * num), stNotSupported, 6),
    (bond && (h % 2 == 1 || !pair), stNotSupported, 3),
    (lane.isNone, stNoResource, 0)]

/-! ## Panels (R172, Table 7-2) -/

/-- Full-panel push time exceeds the window: the time is bytes × 8 / (lanes × Mb/s) + 2 µs (R171). -/
def pushTooLong (d : OutDesc) : Bool :=
  let rate := panelLanes d * panelMbps d
  decide ((panelWindow d - 2) * rate < panelFullBytes d * 8 ∨ panelWindow d < 2)

/-- The checks of Table 7-2 on one enabled panel. -/
def panelCheck (d : OutDesc) : Option (Nat × Nat) :=
  firstFail [
    (panelHActive d == 0, stZeroField, 6), (panelVActive d == 0, stZeroField, 4),
    (panelLanes d == 0, stZeroField, 2), (panelMbps d == 0, stZeroField, 10),
    (panelTePeriod d == 0, stZeroField, 8), (panelWindow d == 0, stZeroField, 14),
    (panelRefreshMax d == 0, stZeroField, 12), (panelSleepOut d == 0, stZeroField, 16),
    (panelFailLimit d == 0, stZeroField, 0),
    (decide (panelHActive d < 64 ∨ 2560 < panelHActive d), stNotSupported, 6),
    (decide (panelVActive d < 32 ∨ 1600 < panelVActive d), stNotSupported, 4),
    (decide (4 < panelLanes d), stNotSupported, 2),
    (decide (panelMbps d < 80 ∨ 2500 < panelMbps d), stNotSupported, 10),
    (decide (panelTePeriod d < 8000), stNotSupported, 8),
    (decide (panelRefreshMax d < 100 ∨ 60000 < panelRefreshMax d), stNotSupported, 12),
    (decide (1000 < panelSleepOut d), stNotSupported, 16),
    (outColour d != 0, stNotSupported, 3),
    (decide (9 * panelTePeriod d < 10 * panelWindow d), stNotSupported, 14),
    (pushTooLong d, stNotSupported, 14),
    (decide (panelRefreshMax d * 1000 < panelTePeriod d), stNotSupported, 12)]

/-! ## Outputs and commit groups (R134 step 1) -/

/-- The frame clock as configured: a change accepted and not yet in force counts (R60). -/
def State.rate (s : State) : FrameClock := s.time.clockNext.getD s.time.clock

/-- The first output at which the tiles of the enabled outputs pass a limit (R114, R119). -/
def tilesPass (c : ConfigSet) (limit : Nat) (used : Nat) : List Nat → Option Nat
  | [] => none
  | o :: r =>
    let n := used + outTiles o (c.output o)
    if limit < n then some o else tilesPass c limit n r

/-- The settlement line of a group begins less than 30 µs before its master's next frame start (R131, R132). -/
def leadShort (g : GroupDesc) (d : OutDesc) (num den : Nat) : Bool :=
  let line := if grpSettleDefault g then headVActive d else grpLine g
  decide ((headVTotal d - line) * 1000000000 * den < 30000 * headVTotal d * num)

/-- Step 1 of clearing (Tables 6-2 and 7-2, R114, Table 10-1, R132). -/
def State.clearOutputs (s : State) (c : ConfigSet) : Option Reject :=
  let on := c.enabledOutputs
  let k := s.time.clock
  let own := firstItem 3 on (fun o =>
    if !isHead o then panelCheck (c.output o)
    else match headCheck s.links k.num k.den o (c.output o) with
      | some f => some f
      | none => if s.comp.headsOut.toNat.testBit o then some (stNoResource, 0) else none)
  let book := (tilesPass c 131072 0 on).map (fun o => (⟨stNoResource, 3, o, 0⟩ : Reject))
  let region := gib * bitsOf s.mem.regionWord.toNat 7 0 / 24576
  let space := (tilesPass c region 0 on).map (fun o => (⟨stNoResource, 3, o, 0⟩ : Reject))
  let grouped := firstItem 3 on (fun o =>
    if (upTo 16).any (fun g => (grpMask (s.group g)).testBit o) then none else some (stNoResource, 0))
  let lead := firstItem 5 (upTo 16) (fun g =>
    let x := s.group g
    if grpMask x ≠ 0 ∧ isHead (grpMaster x) ∧ outEnable (c.output (grpMaster x))
        ∧ leadShort x (c.output (grpMaster x)) k.num k.den then some (stNotSupported, 8) else none)
  own.or (book.or (space.or (grouped.or lead)))

/-! ## Sources (R62, R28) -/

/-- The addresses of an Ethernet port (R237). -/
def State.ethAddresses (s : State) (port : Nat) : List Nat :=
  match (Tbl.get s.links.eth {} port).setting with | some d => ethOwn d | none => []

/-- Kinds that share one limit and one space of ports: RTP 1, KINIK 3, HOST 4. -/
def kindClass (k : Nat) : Nat := if k = 2 then 1 else k

/-- The descriptor's own fields (R62), in the order of its list. -/
def State.sourceFields (s : State) (d : SrcDesc) : Option (Nat × Nat) :=
  let k := srcKind d
  let rtp := kindIsRtp k
  let port := if rtp then 7 else if k = kindKinik then 47 else 127
  firstFail [
    (decide (4 < k), stNotSupported, 0),
    (srcLossTimeout d == 0, stZeroField, 6), (srcPeriod d == 0, stZeroField, 8), (srcFreezeFrames d == 0, stZeroField, 4),
    (rtp && srcUdpPort d == 0, stZeroField, 48),
    (decide (srcLossTimeout d < 10 ∨ 60000 < srcLossTimeout d), stNotSupported, 6),
    (decide (srcFreezeFrames d < 2), stNotSupported, 4),
    (decide (srcPeriod d < 1000 ∨ 10000000 < srcPeriod d), stNotSupported, 8),
    (decide (60000 < srcAssumedAge d), stNotSupported, 12),
    (decide (port < srcPort d), stNotSupported, 2),
    (rtp && decide (1 < srcRestart d), stNotSupported, 3),
    (rtp && decide (500 < srcJitter d), stNotSupported, 14),
    (rtp && !isMulticast (srcGroup d) && !(s.ethAddresses (srcPort d)).contains (srcGroup d), stNotSupported, 16),
    (rtp && srcTsRef d == 3, stNotSupported, 58),
    (rtp && srcSrtp d == 3, stNotSupported, 58),
    (rtp && srcSrtp d != 0 && decide (63 < srcKeySlot d), stNotSupported, 56)]

/-- Two descriptors of one kind collide on their port (R62). -/
def sourcesCollide (a b : SrcDesc) : Bool :=
  kindClass (srcKind a) == kindClass (srcKind b) && srcPort a == srcPort b
    && (!kindIsRtp (srcKind a) || (srcGroup a == srcGroup b && srcFilter a == srcFilter b && srcUdpPort a == srcUdpPort b))

/-- Step 2 of clearing (R62). -/
def State.clearSources (s : State) (c : ConfigSet) : Option Reject :=
  let on := c.enabledSources
  firstItem 0 on (fun i =>
    let d := c.source i
    match s.sourceFields d with
    | some f => some f
    | none =>
      let below := on.filter (fun j => decide (j < i))
      let same := countIf below (fun j => kindClass (srcKind (c.source j)) == kindClass (srcKind d))
      let limit := if kindIsRtp (srcKind d) then 64 else if srcKind d = kindKinik then 32 else 128
      if limit ≤ same then some (stNoResource, 0)
      else if below.any (fun j => sourcesCollide (c.source j) d) then some (stNoResource, 2)
      else none)

/-! ## Tone profiles (R108) -/

/-- Step 3 of clearing. An unlisted profile holds the identity, which is valid. -/
def clearTones (c : ConfigSet) : Option Reject :=
  firstItem 2 (c.tones.map (·.1)) (fun i =>
    let t := c.tone i
    let m := (upTo 9).map (fun j => (!f16Finite (toneMatrix t j), stNotSupported, 2 * j))
    let p := (upTo 65).map (fun k =>
      (!f16Finite (tonePoint t k) || decide (f16Value (tonePoint t k) < 0)
        || decide (k ≠ 0 ∧ f16Value (tonePoint t k) < f16Value (tonePoint t (k - 1))), stNotSupported, 18 + 2 * k))
    firstFail (m ++ p))

/-! ## Layers (R100; R10, R14 and R20 for LIVE layers) -/

/-- Rectangle `i` meets, at some point of its own, more than 16 of the rectangles of a list that includes it. -/
def crowdedAt (i : Rect) (all : List Rect) : Bool :=
  decide (16 < all.length) &&
  (let near := all.filter (Rect.meets i)
   near.any (fun a => near.any (fun b =>
     let x := max a.x0 i.x0
     let y := max b.y0 i.y0
     decide (16 < countIf near (fun r => decide (r.x0 ≤ x ∧ x ≤ r.x1 ∧ r.y0 ≤ y ∧ y ≤ r.y1))))))

/-- A rectangle in tiles. -/
def tileUnits (r : Rect) : Rect := ⟨r.x0 / 64, r.y0 / 32, r.x1 / 64, r.y1 / 32⟩

/-- The checks of Table 4-2 on one enabled layer. -/
def State.layerCheck (s : State) (c : ConfigSet) (l : Nat) : Option (Nat × Nat) :=
  let d := c.layer l
  let o := layOutput d
  let peers := c.enabledLayers.filter (fun i => layOutput (c.layer i) == o)
  let rects := peers.filterMap c.dest
  let live := (peers.filter (fun i => layLive (c.layer i))).filterMap c.dest
  let k := srcKind (c.source (laySource d))
  let ratio (dst crop : Nat) : Bool := decide (8 * dst < crop ∨ 16 * crop < dst)
  let step (x : Nat) : Bool := decide (x < 65536 ∨ 8388608 < x)
  firstFail [
    (layCropW d == 0, stZeroField, 12), (layCropH d == 0, stZeroField, 14),
    (layDstW d == 0, stZeroField, 20), (layDstH d == 0, stZeroField, 22),
    (!layBoundDefault d && layAgeBound d == 0, stZeroField, 4),
    (layStepExplicit d && layStepXRaw d == 0, stZeroField, 24),
    (layStepExplicit d && layStepYRaw d == 0, stZeroField, 28),
    (decide (4096 < layCropW d), stLinebufShort, 12),
    (!layStepExplicit d && ratio (layDstW d) (layCropW d), stNotSupported, 20),
    (!layStepExplicit d && ratio (layDstH d) (layCropH d), stNotSupported, 22),
    (layStepExplicit d && step (layStepXRaw d), stNotSupported, 24),
    (layStepExplicit d && step (layStepYRaw d), stNotSupported, 28),
    (layBlend d == 3, stNotSupported, 3), (layRange d == 3, stNotSupported, 41),
    (decide (3 < layMatrix d), stNotSupported, 41), (decide (5 < layTransfer d), stNotSupported, 40),
    (decide (2 < layPrimaries d), stNotSupported, 40),
    (!layBoundDefault d && decide (60000 < layAgeBound d), stNotSupported, 4),
    (s.linearFails c l, stNotSupported, 40),
    (!c.shows o, stNoResource, 2),
    (match c.dest l with | some r => crowdedAt r rects | none => false, stNoResource, 16),
    (layLive d && (match c.dest l with | some r => crowdedAt (tileUnits r) (live.map tileUnits) | none => false),
      stLiveCrowded, 16),
    (!layLive d && decide (1 ≤ k ∧ k ≤ 3), stDenied, 3)]

/-- Step 4 of clearing. -/
def State.clearLayers (s : State) (c : ConfigSet) : Option Reject := firstItem 1 c.enabledLayers (s.layerCheck c)

/-! ## Freshness parameters (R423) -/

/-- A void colour component outside 0 to 1.0, or not finite. -/
def colourBad (x : Nat) : Bool := !f16Finite x || decide (f16Value x < 0) || decide (16777216 < f16Value x)

/-- The checks of R423 on one output's item. -/
def freshCheck (o : Nat) (f : FreshItem) : Option (Nat × Nat) :=
  firstFail ([
    (freshScale f == 0, stZeroField, 12), (isHead o && freshLimit f == 0, stZeroField, 13),
    (decide (4 < freshScale f), stNotSupported, 12)]
    ++ (upTo 6).map (fun k => (colourBad (freshColour f (decide (3 ≤ k)) (k % 3)), stNotSupported, 2 * k)))

/-- Step 5 of clearing. -/
def clearFresh (c : ConfigSet) : Option Reject := firstItem 4 (upTo 32) (fun o => freshCheck o (c.freshness o))

/-- Clearing of a set: its first failure (R134). -/
def State.clear (s : State) (c : ConfigSet) : Option Reject :=
  (s.clearOutputs c).or ((s.clearSources c).or ((clearTones c).or ((s.clearLayers c).or (clearFresh c))))

/-! ## What a set changes (R136, R123) -/

/-- Keys at which two tables differ, rising. -/
def diffKeys {α : Type} [DecidableEq α] (a b : Tbl α) : List Nat :=
  let ka := (a.filter (fun e => decide (Tbl.find b e.1 ≠ some e.2))).map (·.1)
  let kb := (b.filter (fun e => !Tbl.has a e.1)).map (·.1)
  kb.foldl insertNat ka

/-- Items that differ between two sets (R136). -/
def changes (a b : ConfigSet) : Nat :=
  (diffKeys a.sources b.sources).length + (diffKeys a.layers b.layers).length + (diffKeys a.tones b.tones).length
    + (diffKeys a.outputs b.outputs).length + (diffKeys a.fresh b.fresh).length

/-- Sources whose subscription a change of sets starts or ends (R63). -/
def resubscribed (a b : ConfigSet) : List Nat :=
  (diffKeys a.sources b.sources).filter (fun i => subscriptionDiffers (a.source i) (b.source i))

/-- Layers whose content a change of sets can change: the layer itself, its tone profile, its source's subscription
(R122, R123). -/
def changedLayers (a b : ConfigSet) : List Nat :=
  let tones := diffKeys a.tones b.tones
  let subs := resubscribed a b
  let own := diffKeys a.layers b.layers
  union own ((union a.enabledLayers b.enabledLayers).filter (fun l =>
    [a, b].any (fun c => layEnable (c.layer l)
      && (tones.contains (layTone (c.layer l)) || subs.contains (laySource (c.layer l))))))

/-- Tiles of an output that a change from `a` to `b` stages (R123): all of them when its settings changed, else those of
the old and the new destination of every changed layer. -/
def stagedTiles (a b : ConfigSet) (o : Nat) : List Nat :=
  if !b.shows o then []
  else if a.output o ≠ b.output o ∨ !a.shows o then upTo (outTiles o (b.output o))
  else
    (changedLayers a b).foldl (fun acc l =>
      let part (c : ConfigSet) := if layEnable (c.layer l) && layOutput (c.layer l) == o then c.layerTiles l else []
      union (union acc (part a)) (part b)) []

end Sys2Proof.Machine
end

