-- ==== Sys2Proof/Machine/PeerOps.lean ====
section
/-!
DEFINITION. Sending peer messages (R233), and mirroring a change to the twin (R340 to R343).
-/
namespace Sys2Proof.Machine

/-- Lane of a peer port, when it has one. -/
def State.peerLane (s : State) (pp : Nat) : Option Nat := s.links.laneOf 3 pp

/-- The peer lane is `UP`. -/
def State.peerUp (s : State) (pp : Nat) : Bool :=
  match s.peerLane pp with | some l => decide ((s.links.lane l).state = .up) | none => false

/-- Put a message with its sequence on the wire, while the lane is `UP`. -/
def State.emitPeer (s : State) (pp type seq : Nat) (b : Bytes) : State :=
  if s.peerUp pp then s.send (.peer pp type seq b) else s

/-- Send a message, or queue it behind the 8 that are not acknowledged (R233). -/
def State.sendPeer (s : State) (pp type : Nat) (b : Bytes) : State :=
  let x := s.peer pp
  if x.outstanding.length < 8 ∧ x.queue = [] then
    (s.setPeer pp { x with
      txSeq := w16 (x.txSeq + 1)
      outstanding := x.outstanding ++ [⟨x.txSeq, type, b, s.time.now, 0⟩] }).emitPeer pp type x.txSeq b
  else s.setPeer pp { x with queue := x.queue ++ [(type, b)] }

/-- Send the first queued message once a place is free. -/
def State.drainPeer (s : State) (pp : Nat) : State :=
  let x := s.peer pp
  match x.queue with
  | (type, b) :: rest =>
    if x.outstanding.length < 8 then
      (s.setPeer pp { x with
        queue := rest, txSeq := w16 (x.txSeq + 1)
        outstanding := x.outstanding ++ [⟨x.txSeq, type, b, s.time.now, 0⟩] }).emitPeer pp type x.txSeq b
    else s
  | [] => s

/-- This unit sends its changes to the twin: it is active and mirroring is not stopped (R340, R342). -/
def State.mirrors (s : State) : Bool :=
  s.pair.enabled && decide (s.pair.role = .active) && decide (s.pair.mirror ≠ .stopped)

/-- Send a mirror message under the next mirror sequence (R342). -/
def State.mirror (s : State) (type : Nat) (mk : Nat → Bytes) : State :=
  if s.mirrors then
    let n := w32 (s.pair.mseq + 1)
    { s with pair := { s.pair with mseq := n } }.sendPeer s.pair.port type (mk n)
  else s

/-- Payload of `MIRROR_WRITE`, and of `MIRROR_SNAPSHOT` with the set in place of the kind (Table 15-3). -/
def mirrorItems (head kind2 first : Nat) (size : Nat) (items : List Nat) (n : Nat) : Bytes :=
  Bytes.join ([leBytes 1 head, leBytes 1 kind2, leBytes 2 first, leBytes 2 items.length, leBytes 2 0, leBytes 4 n]
    ++ items.map (leBytes size))

/-- Cut a list into parts of at most `n` (fuel: the list's length). -/
def chunks {α : Type} (n : Nat) : Nat → List α → List (List α)
  | 0, _ => []
  | _ + 1, [] => []
  | f + 1, l => l.take n :: chunks n f (l.drop n)

/-- Mirror a write of items: several messages when one is too short, in ascending `FIRST` (R343). -/
def State.mirrorWrite (s : State) (k : SetKind) (first : Nat) (items : List Nat) : State :=
  let per := (4096 - 12) / kindSize k
  let parts := chunks per items.length items
  each ((upTo parts.length).zip parts) s (fun s e =>
    s.mirror 0x0020 (mirrorItems (kindCode k) 0 (first + e.1 * per) (kindSize k) e.2))

/-- Mirror a setting (R340): 0 commit group, 1 key group, 2 `SET_COPY`. -/
def State.mirrorSetting (s : State) (item index : Nat) (b : Bytes) : State :=
  s.mirror 0x0022 (fun n => Bytes.join [leBytes 1 item, leBytes 1 index, leBytes 2 0, leBytes 4 n, b])

/-- Mirror a settlement (R340). -/
def State.mirrorSettle (s : State) (c : Commit) : State :=
  s.mirror 0x0021 (fun n => Bytes.join [leBytes 4 c.seq, leBytes 1 c.group, leBytes 1 (b2n c.swap), leBytes 2 0,
    leBytes 4 n, leBytes 8 c.frameTime])

/-- Mirroring changes state (R342): the record, with a cause whose codes the spec does not give. -/
def State.setMirror (s : State) (new : Mirror) : State :=
  let old := s.pair.mirror
  if old = new then s
  else
    { s with pair := { s.pair with mirror := new, mirrorSince := s.time.now, snapshot := none, parts := [], later := [] } }.log 0x9030
      [mirrorCode old, mirrorCode new, s.pair.mseq, w32 (Config.measured s.draw)]

/-- A twin's record that carries the same `PAIR_ID`, or another product (R334, R346). -/
def twinDiffers (own : Nat) (r : Bytes) : Bool := capPairId r == own || Bytes.at r 8 4 != 0x7240

/-- The twin's link comes `UP`: its record is compared (R334, R346). Records written while it was down are not mirrored
(R341). -/
def State.checkTwin (s : State) (pp : Nat) : State :=
  match s.peerLane pp with
  | some l =>
    match (s.links.lane l).partner with
    | some r =>
      if !s.pair.enabled ∨ s.pair.port ≠ pp then s
      else
        let bad := twinDiffers s.pair.id r
        let s1 := { s with pair := { s.pair with incompatible := bad, ledgerSent := s.ledger.next } }
        if bad then (s1.log 0x9051 [pp, Bytes.at r 8 4, capPairId r, 0]).setMirror .stopped else s1
    | none => s
  | none => s

end Sys2Proof.Machine
end

