-- ==== Sys2Proof/Machine/Sets.lean ====
section
/-!
DEFINITION. The configuration sets and commit groups: item-list writes (R285, R129), `SET_COPY`, `SET_READ`,
`LAYER_STRIPE` and `COMMIT_GROUP_SET`.
-/
namespace Sys2Proof.Machine

/-! ## Writing the shadow set (R127, R129) -/

/-- Write items into the shadow set from an index on. -/
def State.writeShadow (s : State) (k : SetKind) (first : Nat) (items : List Nat) : State :=
  { s with sets := { s.sets with
    shadow := each ((upTo items.length).zip items) s.sets.shadow (fun c e => c.write k (first + e.1) e.2) } }

/-- Apply held writes to the shadow set in the order they were accepted; each takes effect now and is mirrored. -/
def State.applyHeld (s : State) : State :=
  let l := s.sets.held
  each l { s with sets := { s.sets with held := [] } } (fun s w =>
    (s.writeShadow w.kind w.index [w.value]).mirrorWrite w.kind w.index [w.value])

/-- An item-list write to RWS fields: at once, or held while a commit is pending; BUSY when that would hold more than
4,096 (R129). -/
def State.writeItems (s : State) (p : Nat) (r : Request) (k : SetKind) (first : Nat) (items : List Nat) : State :=
  if items = [] then s.status p r stOk
  else if s.sets.pending.isSome then
    if 4096 < s.sets.held.length + items.length then s.status p r stBusy
    else
      let new : List HeldWrite := ((upTo items.length).zip items).map (fun e => ⟨k, first + e.1, e.2⟩)
      { s with sets := { s.sets with held := s.sets.held ++ new } }.status p r stOk
  else ((s.writeShadow k first items).mirrorWrite k first items).status p r stOk

/-- Carry out an item-list write of a kind. -/
def State.setItems (s : State) (dt : Nat) (p : Fin 4) (op : Nat) (k : SetKind) : State :=
  s.serve dt p op (fun s r =>
    match itemList r (kindSize k) (kindLast k) with
    | .inl st => s.status p r st
    | .inr (first, items) =>
      if k = .tone ∧ items ≠ [] ∧ first = 0 then s.status p r stDenied else s.writeItems p r k first items)

/-- `SOURCE_SET` (R61). -/
def execSourceSet (dt : Nat) (p : Fin 4) (s : State) : Host.Outcome State Fault Refusal :=
  .next (s.setItems dt p 0x0201 .source)

/-- `LAYER_SET` (R99). -/
def execLayerSet (dt : Nat) (p : Fin 4) (s : State) : Host.Outcome State Fault Refusal :=
  .next (s.setItems dt p 0x0301 .layer)

/-- `TONE_PROFILE_SET` (R108): profile 0 cannot be written. -/
def execToneProfileSet (dt : Nat) (p : Fin 4) (s : State) : Host.Outcome State Fault Refusal :=
  .next (s.setItems dt p 0x0304 .tone)

/-- `OUTPUT_SET` (R151, R171). -/
def execOutputSet (dt : Nat) (p : Fin 4) (s : State) : Host.Outcome State Fault Refusal :=
  .next (s.setItems dt p 0x0401 .output)

/-- `FRESH_POLICY_SET` (R50). -/
def execFreshPolicySet (dt : Nat) (p : Fin 4) (s : State) : Host.Outcome State Fault Refusal :=
  .next (s.setItems dt p 0x0601 .fresh)

/-- `SET_COPY` (R129). -/
def execSetCopy (dt : Nat) (p : Fin 4) (s : State) : Host.Outcome State Fault Refusal :=
  .next (s.serve dt p 0x0506 (fun s r =>
    if s.sets.pending.isSome then s.status p r stBusy
    else ({ s with sets := { s.sets with shadow := s.sets.active } }.mirrorSetting 2 0 Bytes.none).status p r stOk))

/-- `SET_READ` (R127, R286). -/
def execSetRead (dt : Nat) (p : Fin 4) (s : State) : Host.Outcome State Fault Refusal :=
  .next (s.serve dt p 0x0507 (fun s r =>
    match kindOfCode (r.u8 1) with
    | none => s.status p r stNotSupported
    | some k =>
      if 1 < r.u8 0 then s.status p r stNotSupported
      else
        let c := if r.u8 0 = 0 then s.sets.active else s.sets.shadow
        match cutList (r.u16 4) (r.u16 6) (kindLast k + 1) (kindSize k) r.room with
        | none => s.status p r stNotSupported
        | some idx => s.answer p r stOk (listPayload (idx.map (fun i => leBytes (kindSize k) (c.read k i))))))

/-! ## Stripes (R104, R294) -/

/-- Nearest integer to a rational with a positive denominator, halves up. -/
def roundDiv (a : Int) (b : Nat) : Int := Int.fdiv (2 * a + b) (2 * b)

/-- One stripe of `n`: adjacent destination ranges, explicit steps and phases that keep the source positions of the whole layer, and
a crop that shares one column with its neighbour at each inner edge (R104); under a step below 1 the taps on both sides of an edge
can be the same two columns, and the crops then share both (log entry 58). -/
def stripeOf (d : LayerDesc) (n i lead : Nat) : LayerDesc :=
  let w := layDstW d
  let a := w * i / n
  let b := w * (i + 1) / n
  let step := layStepX d
  -- Source position of a destination column, in units of 2^-21.
  let pos (k : Nat) : Int := (layCropX d : Int) * 2097152 + layPhaseX d * 512 + ((2 * k + 1) * step : Nat) - 1048576
  let p := pos a
  let lo : Int := layCropX d
  let hi : Int := (layCropX d + layCropW d : Nat) - 1
  let x0 := if i = 0 then lo else max lo (min hi (Int.fdiv p 2097152))
  let x1 := if i + 1 = n then hi else max lo (min hi (max (Int.fdiv (pos (b - 1)) 2097152 + 1) (Int.fdiv (pos b) 2097152)))
  let phase := roundDiv (p - x0 * 2097152 - (step : Int) + 1048576) 512
  let d1 := setFld (setFld d 1 17 17 1) 6 23 0 step
  let d2 := setFld d1 7 23 0 (layStepY d)
  let d3 := setFld (setFld d2 2 15 0 x0.toNat) 3 15 0 (x1 - x0 + 1).toNat
  let d4 := setFld (setFld d3 4 15 0 (twos 16 (layDstX d + a))) 5 15 0 (b - a)
  setFld (setFld (setFld d4 8 15 0 (twos 16 phase)) 9 15 15 1) 9 9 0 lead

/-- `LAYER_STRIPE` (R294): works on the shadow set. -/
def execLayerStripe (dt : Nat) (p : Fin 4) (s : State) : Host.Outcome State Fault Refusal :=
  .next (s.serve dt p 0x0303 (fun s r =>
    let l := r.u16 0
    let n := r.u8 2
    let c := s.sets.shadow
    let d := c.layer l
    if s.sets.pending.isSome then s.status p r stBusy
    else if 1023 < l ∨ n < 2 ∨ 4 < n then s.status p r stNotSupported
    else if !layEnable d ∨ layStriped d then s.status p r stDenied
    else
      let free := ((upTo 1024).filter (fun i => !layEnable (c.layer i))).take (n - 1)
      if free.length < n - 1 then s.status p r stNoResource
      else
        let idx := l :: free
        let stripes := (upTo n).map (fun i => stripeOf d n i l)
        if stripes.any (fun x => decide (4096 < layCropW x)) then s.status p r stNotSupported
        else
          let s1 := each (idx.zip stripes) s (fun s e =>
            (s.writeShadow .layer e.1 [e.2.toNat]).mirrorWrite .layer e.1 [e.2.toNat])
          s1.answer p r stOk (Bytes.join ((upTo 4).map (fun i => leBytes 2 (idx.getD i 0xFFFF))))))

/-! ## Commit groups (R130, R131) -/

/-- The checks of R131 on a group's new fields: the status, or none. -/
def State.groupCheck (s : State) (g : Nat) (x : GroupDesc) : Option Nat :=
  let mask := grpMask x
  let m := grpMaster x
  let d := s.sets.active.output m
  let k := s.time.clock
  let taken := (upTo 16).any (fun i => decide (i ≠ g) && decide (grpMask (s.group i) &&& mask ≠ 0))
  let heads := mask % 2 ^ 24
  if mask = 0 then none
  else if grpLead x = 0 then some stZeroField
  else if heads ≠ 0 ∧ mask / 2 ^ 24 ≠ 0 then some stNotSupported
  else if 31 < m ∨ !mask.testBit m ∨ taken then some stNotSupported
  else if isHead m ∧ leadShort x d k.num k.den then some stNotSupported
  else if 120 < grpDeferLimit x ∨ grpLead x < 100 ∨ 4000 < grpLead x then some stNotSupported
  else none

/-- Reserved bits of a commit group (Table 5-2). -/
def groupKept (v : Nat) : GroupDesc :=
  BitVec.ofNat 128 (v - (v &&& sumOf [wordMask 0 31 24, wordMask 0 14 8, wordMask 2 31 16, wordMask 3 31 16]))

/-- Write a commit group. -/
def State.setGroup (s : State) (g : Nat) (x : GroupDesc) : State :=
  { s with sets := { s.sets with groups := Tbl.set s.sets.groups (groupReset g) g x } }

/-- `COMMIT_GROUP_SET` (R130, R131). -/
def execCommitGroupSet (dt : Nat) (p : Fin 4) (s : State) : Host.Outcome State Fault Refusal :=
  .next (s.serve dt p 0x0504 (fun s r =>
    let g := r.u8 0
    let x := groupKept (Bytes.at r.payload 4 16)
    if s.sets.pending.isSome then s.status p r stBusy
    else if 15 < g then s.status p r stNotSupported
    else match s.groupCheck g x with
      | some st => s.status p r st
      | none => ((s.setGroup g x).mirrorSetting 0 g (bytesOf x)).status p r stOk))

end Sys2Proof.Machine
end

