-- ==== Sys2Proof/Machine/SourceOps.lean ====
section
/-!
DEFINITION. What sources share: beginning and ending a subscription (R63, R65), minting a frame (R74 to R77, R27), losing
a source (R78), and the staging of a pending commit (R123), which a mint or a fence renews.
-/
namespace Sys2Proof.Machine

/-- Active descriptor of a source. -/
def State.srcDesc (s : State) (i : Nat) : SrcDesc := s.sets.active.source i

/-! ## Capture times (R74, R75) -/

/-- A time `d` ns before `t`, as the 64-bit field holds it (log entry 18). -/
def before (t d : Nat) : Nat := w64 (t + 2 ^ 64 - d % 2 ^ 64)

/-- Capture time from arrival and the assumed upstream age (Table 2-5 row 6). -/
def arrivalCapture (d : SrcDesc) (arrival : Nat) : Nat := before arrival (srcAssumedAge d * 1000000)

/-- How far a frame's capture time lies past its arrival (R75), in ns. A time that an annex or a host declares is a number of
its own; one that the K7 computes lies before the arrival where it wrapped below zero (log entry 18). -/
def Frame.late (f : Frame) : Nat :=
  if f.relayed ∨ f.evidence = 2 then f.capture - f.arrival
  else if subMod 64 f.capture f.arrival < 2 ^ 63 then subMod 64 f.capture f.arrival else 0

/-! ## Composition under a pending commit (R123, R138) -/

/-- The fence of a layer of a host surface held by `BUFFER` is unsignalled. -/
def State.fenceClosed (s : State) (c : ConfigSet) (l : Nat) : Bool :=
  match heldBuffer c l with
  | some b => !(s.surface (srcPort (c.source (laySource (c.layer l))))).fence.toNat.testBit b
  | none => false

/-- Layers that wait on a fence in the pending commit (R138): the commit enables them or changes their `SOURCE` or
`BUFFER`, and the fence is unsignalled. -/
def State.waitingFences (s : State) : List Nat :=
  let a := s.sets.active
  let b := s.sets.shadow
  b.enabledLayers.filter (fun l =>
    s.fenceClosed b l && (!layEnable (a.layer l) || laySource (a.layer l) != laySource (b.layer l)
      || layBuffer (a.layer l) != layBuffer (b.layer l)))

/-- Note the frames a tile is composed from: the `SEQUENCE` composition keeps per layer, under the index it is recorded by
(R51, R105). -/
def State.noteSeq (s : State) (c : ConfigSet) (frames : List Frame) (notReady : List Nat) (r : TileRec) : State :=
  each r.layers s (fun s l =>
    match s.layerInput c frames notReady l with
    | .inr f => { s with comp := { s.comp with layerSeq := Tbl.set s.comp.layerSeq 0 (c.leadOf l) f.seq } }
    | .inl _ => s)

/-- The tag of a commit (R123). -/
def Commit.tagOf (c : Commit) : Nat := c.seq % 256

/-- Stage tiles of an output from a snapshot, under the shadow set. Sources whose subscription the commit starts or ends
have no frame (R63). -/
def State.stage (s : State) (c : Commit) (frames : List Frame) (o : Nat) (tiles : List Nat) : State :=
  let b := s.sets.shadow
  let subs := resubscribed s.sets.active b
  let frames := frames.filter (fun f => !subs.contains f.source)
  let wait := union s.waitingFences (s.sets.notReady.filter (s.fenceClosed b))
  each tiles s (fun s t =>
    let x := s.outComp o
    let cur := (s.tile o t).record.slot
    let pub := (x.round.bind (fun r => Tbl.find r.recs t)).map (·.slot)
    let r := s.composeTile b frames wait o t c.tagOf (cur :: pub.toList)
    ((s.setOutComp o { x with staged := Tbl.put x.staged t r }).noteSeq b frames wait r).storeTile o t r)

/-- Stage every tile the pending commit can change that is not staged yet, from its own snapshot. -/
def State.stageRest (s : State) : State :=
  match s.sets.pending with
  | some c =>
    each (upTo 32) s (fun s o =>
      let have' := (s.outComp o).staged
      s.stage c c.snap o ((stagedTiles s.sets.active s.sets.shadow o).filter (fun t => !Tbl.has have' t)))
  | none => s

/-- Drop every staged record of the pending commit. -/
def State.dropStaged (s : State) : State :=
  { s with comp := { s.comp with out := Tbl.mapAll s.comp.out {} (fun _ x => { x with staged := [], lateMarks := [] }) } }

/-- A fence signals for layers of the pending commit: their tiles are to be staged again from a snapshot taken now
(R123). What was not staged yet is staged from the snapshot that held until now. -/
def State.restageLayers (s : State) (ls : List Nat) : State :=
  match s.sets.pending with
  | some c =>
    if ls = [] ∨ s.sets.effect.isSome ∨ c.eligibleAt.isNone then s
    else
      let s1 := s.stageRest
      let b := s.sets.shadow
      let s2 := each ls s1 (fun s l =>
        let o := layOutput (b.layer l)
        let x := s.outComp o
        s.setOutComp o { x with staged := x.staged.filter (fun e => !(b.layerTiles l).contains e.1) })
      { s2 with sets := { s2.sets with
        pending := some { c with stagingDone := false, state := .staging, snap := s2.snapshot } } }
  | none => s

/-- Withdraw every frame at a backward step (R55). What is left of each says that its source had one. -/
def State.outdate (s : State) : State :=
  let old (f : Frame) : Frame := { f with gone := true }
  { s with
    src := { s.src with run := Tbl.mapAll s.src.run {} (fun _ x => { x with
      frame := x.frame.map old, bufFrames := x.bufFrames.map (fun e => (e.1, old e.2)) }) }
    comp := { s.comp with out := Tbl.mapAll s.comp.out {} (fun _ x => { x with
      round := x.round.map (fun r => { r with frames := r.frames.map old }) }) }
    sets := { s.sets with pending := s.sets.pending.map (fun c => { c with snap := c.snap.map old }) } }

/-- Withdraw frames: none that satisfies the test is composed again (R55, R63, R292). It leaves the sources, the snapshots
of rounds and the snapshot of the pending commit. -/
def State.withdraw (s : State) (test : Frame → Bool) : State :=
  let keep (l : List Frame) : List Frame := l.filter (fun f => !test f)
  { s with
    src := { s.src with run := Tbl.mapAll s.src.run {} (fun _ x => { x with
      frame := x.frame.filter (fun f => !test f), bufFrames := x.bufFrames.filter (fun e => !test e.2) }) }
    comp := { s.comp with out := Tbl.mapAll s.comp.out {} (fun _ x => { x with
      round := x.round.map (fun r => { r with frames := keep r.frames }) }) }
    sets := { s.sets with pending := s.sets.pending.map (fun c => { c with snap := keep c.snap }) } }

/-! ## Subscriptions (R63, R65, R70) -/

/-- A multicast descriptor joins and leaves a group (R65). -/
def srcJoins (d : SrcDesc) : Bool := kindIsRtp (srcKind d) && isMulticast (srcGroup d)

/-- What a descriptor joins. -/
def srcJoin (d : SrcDesc) : Option Join := if srcJoins d then some ⟨srcPort d, srcGroup d, srcFilter d⟩ else none

/-- An IPv4 address as a descriptor holds it. -/
def isMapped4 (a : Nat) : Bool := a >>> 32 == 0xFFFF

/-- The reception state of a group on a port (RFC 3376, RFC 3810): none for EXCLUDE {}, and otherwise the sources of
INCLUDE, empty where nothing is joined. -/
def State.memberOf (s : State) (port group : Nat) : Option (List Nat) :=
  let l := s.src.run.filterMap (fun e => e.2.joined.bind (fun j =>
    if j.port = port ∧ j.group = group then some j.filter else none))
  if l.contains 0 then none else some (l.foldl insertNat [])

/-- The version a port reports in, by what it heard within the last 260 s, the older version querier present timeout of both
RFCs at their defaults (log entry 58): 0 IGMPv3 or MLDv2, else the older one. -/
def State.olderVersion (s : State) (port : Nat) (v4 : Bool) : Nat :=
  let x := s.eth port
  let heard (t : Option Nat) : Bool := match t with | some t => decide (s.time.now < t + 260000000000) | none => false
  if v4 then (if heard x.igmp1 then 1 else if heard x.igmp2 then 2 else 0) else if heard x.mld1 then 1 else 0

/-- Send a membership message: a record, or its message in an older version; `left` when the group is joined no longer.
IGMPv1 has no leave. -/
def State.sendMembership (s : State) (port group kind : Nat) (sources : List Nat) (left : Bool) : State :=
  let v4 := isMapped4 group
  let v := s.olderVersion port v4
  if v = 0 then s.ethSend port (.membership group (.record kind sources))
  else if v4 && left && v == 1 then s
  else
    let type : Nat := if v4 then (if left then 0x17 else if v = 1 then 0x12 else 0x16) else if left then 132 else 131
    s.ethSend port (.membership group (.older type))

/-- Report a group that is joined, from the sources given where it is in INCLUDE mode (R65): TO_EX {}, or ALLOW. -/
def State.reportJoin (s : State) (port group : Nat) (sources : List Nat) : State :=
  match s.memberOf port group with
  | none => s.sendMembership port group 4 [] false
  | some _ => s.sendMembership port group 5 sources false

/-- The record of a change of reception state (RFC 3376 section 5.1). Where another subscription keeps the state as it was, the
present state is reported: a report that R65 asks for at every start and end (log entry 58). -/
def changeRecord (old new : Option (List Nat)) : Nat × List Nat :=
  match old, new with
  | none, none => (2, [])
  | some _, none => (4, [])
  | none, some b => (3, b)
  | some a, some b =>
    let added := b.filter (fun x => !a.contains x)
    let gone := a.filter (fun x => !b.contains x)
    if added ≠ [] then (5, added) else if gone ≠ [] then (6, gone) else (1, b)

/-- Report the change a subscription's start or end makes to a group, of whose state `s0` held the old one (R65). -/
def State.reportChange (s s0 : State) (port group : Nat) : State :=
  let new := s.memberOf port group
  let (k, l) := changeRecord (s0.memberOf port group) new
  s.sendMembership port group k l (decide (new = some []))

/-- Nominal pixel rate of the Kinik sources admitted, other than one (R70). -/
def State.admittedRate (s : State) (but : Nat) : Nat :=
  sumOf (s.src.run.map (fun e =>
    let d := s.srcDesc e.1
    if e.1 ≠ but ∧ e.2.subscribed ∧ srcKind d = kindKinik ∧ !e.2.notAdmitted then
      match (s.links.lane (srcPort d)).partner with
      | some r => if (s.links.lane (srcPort d)).state = .up then capPixelRate r else 0
      | none => 0
    else 0))

/-- Blocks of a tile of a pixel format (R230). -/
def tileBlocks (format : Nat) : Nat := if format = 3 then 384 else if format = 4 then 768 else 1024

/-- Blocks of a lane per second (R159). -/
def LinksSt.blockRate (k : LinksSt) (l : Nat) : Nat := if k.fast l then 390625000 else 156250000

/-- A Kinik source fits its lane: its blocks per second within 95 % of the lane's rate (R231). -/
def kinikFits (k : LinksSt) (l version : Nat) (r : Bytes) : Bool :=
  let tiles := ceilDiv (capWidth r) 64 * ceilDiv (capHeight r) 32
  let extra := if version < 0x20 then 1 else 2
  decide ((tiles * (tileBlocks (capFormat r) + extra) + 3) * 1000000 * 100 ≤ 95 * k.blockRate l * capPeriod r)

/-- Bytes of DRAM the Kinik sources and RTP sources subscribed take in the source region: three frame buffers of a Kinik
source, 8 MiB of jitter buffer of an RTP source (Table 10-1, R71, R69). -/
def State.sourceRegionUse (s : State) (but : Nat) : Nat :=
  sumOf (s.src.run.map (fun e =>
    let d := s.srcDesc e.1
    if e.1 = but ∨ !e.2.subscribed then 0
    else if kindIsRtp (srcKind d) then 2 ^ 23
    else if srcKind d = kindKinik then
      match (s.links.lane (srcPort d)).partner with
      | some r => if e.2.notAdmitted then 0
        else 3 * ceilDiv (capWidth r) 64 * ceilDiv (capHeight r) 32 * tileBlocks (capFormat r) * 8
      | none => 0
    else 0))

/-- Size of the source region. -/
def State.sourceRegion (s : State) : Nat := gib * bitsOf s.mem.regionWord.toNat 23 16

/-- A Kinik source link is admitted: its lane is `UP` and holds the source role, its rate, its lane and the source region
have room (R70, R231, Table 10-1). -/
def State.kinikAdmitted (s : State) (i : Nat) : Bool :=
  let d := s.srcDesc i
  let l := srcPort d
  let x := s.links.lane l
  match x.partner with
  | some r =>
    decide (x.state = .up) && s.links.role l == 2 && kinikFits s.links l x.version r
      && decide (s.admittedRate i + capPixelRate r ≤ 3000000000)
      && decide (s.sourceRegionUse i + 3 * ceilDiv (capWidth r) 64 * ceilDiv (capHeight r) 32 * tileBlocks (capFormat r) * 8
          ≤ s.sourceRegion)
  | none => false

/-- The stops and restarts of a source are summarised (R94). -/
def State.summarising (s : State) (i : Nat) : Bool := (s.decRun i).summary.isSome

/-- Declare a subscribed source lost, once (R78). -/
def State.loseSource (s : State) (i condition : Nat) : State :=
  let x := s.srcRun i
  if !x.subscribed ∨ x.lost.isSome then s
  else
    let s1 := s.setSrc i { x with lost := some (condition, s.time.now) }
    if s.summarising i ∧ condition = 3 then s1
    else s1.log 0x1010 [i, condition, (x.lastMint.map (·.seq)).getD 0, w32 s.time.room]

/-! ## Parameter sets (R82) -/

/-- Cut a list of NAL units, each behind its 16-bit length (fuel: the bytes left); none when a length runs past the end. -/
def nalUnits (b : Bytes) : Nat → Option (List Bytes)
  | 0 => if b.len = 0 then some [] else none
  | f + 1 =>
    if b.len = 0 then some []
    else if b.len < 2 then none
    else
      let n := Bytes.at b 0 2
      if b.len < 2 + n then none
      else (nalUnits (Bytes.drop b (2 + n)) f).map (Bytes.slice b 2 n :: ·)

/-- Type of a NAL unit under a codec. -/
def nalType (h265 : Bool) (n : Bytes) : Nat := if h265 then Bytes.byte n 0 / 2 % 64 else Bytes.byte n 0 % 32

/-- NAL unit types of the parameter sets: the VPS of H.265, SPS and PPS of a codec. -/
def vpsType : Nat := 32
def spsType (h265 : Bool) : Nat := if h265 then 33 else 7
def ppsType (h265 : Bool) : Nat := if h265 then 34 else 8

/-- A held NAL unit as a parameter set. -/
def heldSet (h265 : Bool) (n : Bytes) : ParamSet :=
  { type := nalType h265 n, id := Config.setId h265 n, refers := Config.setRefers h265 n, bytes := n
    tool := Config.setTool h265 n, sps := if nalType h265 n = spsType h265 then some (Config.setSps h265 n) else none }

/-- The parameter sets held for a source (R82). -/
def State.heldSets (s : State) (i : Nat) : List ParamSet :=
  match Tbl.find s.src.params i with
  | some b => ((nalUnits b b.len).getD []).map (heldSet (srcKind (s.srcDesc i) == kindH265))
  | none => []

/-- Sets that replace those of the same type and identifier (R82). -/
def replaceSets (old new : List ParamSet) : List ParamSet :=
  new.foldl (fun l p => p :: l.filter (fun q => !(q.type == p.type && q.id == p.id))) old

/-! ## Losing a source, and subscriptions -/

/-- Begin a subscription (R63): the held parameter sets are loaded (R82). -/
def State.subscribe (s : State) (i : Nat) : State :=
  let d := s.srcDesc i
  let x := s.srcRun i
  let s1 := s.setSrc i {
    subscribed := true, subCount := x.subCount + 1, lastArrival := s.time.room, joined := srcJoin d
    reportDue := srcJoins d }
  let s2 := s1.setDec i (if kindIsRtp (srcKind d) then { state := .waitRap, sets := replaceSets [] (s.heldSets i) } else {})
  let s3 := if srcJoins d then s2.reportChange s (srcPort d) (srcGroup d) else s2
  s3.log 0x1001 [i, srcKind d, srcPort d, x.subCount + 1]

/-- Streams on a decoder core other than one, with their costs. -/
def State.coreStreams (s : State) (c but : Nat) : List Nat :=
  (s.src.dec.filter (fun e => decide (e.1 ≠ but) && e.2.core == some c)).map (·.2.cost)

/-- A stream leaves its core; the domain of a core without streams is powered down (R88). -/
def State.leaveCore (s : State) (i : Nat) : State :=
  match (s.decRun i).core with
  | some c =>
    let s1 := s.setDec i { s.decRun i with core := none }
    if s.coreStreams c i = [] then s1.domainOff (4 + c) 1 else s1
  | none => s

/-- End a subscription (R63): every frame is withdrawn. `d` is the descriptor it ran under. -/
def State.unsubscribe (s : State) (i reason : Nat) (d : SrcDesc) : State :=
  let x := s.srcRun i
  if !x.subscribed then s
  else
    let s0 := ((s.leaveCore i).withdraw (fun f => f.source == i)).setSrc i { subCount := x.subCount }
    let s1 := { s0 with src := { s0.src with
      dec := Tbl.del s0.src.dec i
      kinik := if srcKind d = kindKinik then Tbl.del s0.src.kinik (srcPort d) else s0.src.kinik } }
    let s2 := match x.joined with | some j => s1.reportChange s j.port j.group | none => s1
    s2.log 0x1002 [i, x.minted, (x.lastMint.map (·.seq)).getD 0, reason]

/-- The link of a Kinik source does not carry it (R78): its lane is without block lock, or holds lock and the source is not
admitted. That a source subscribed before its lane is `UP` is lost at once is the model's reading (log entry 58). -/
def State.kinikLost (s : State) (i : Nat) : State :=
  match (s.links.lane (srcPort (s.srcDesc i))).state with
  | .exchange | .up | .incompatible => (s.setSrc i { s.srcRun i with notAdmitted := true }).loseSource i 5
  | _ => s.loseSource i 4

/-- Admit a Kinik source, or declare it lost (R70, R78). -/
def State.admitKinik (s : State) (i : Nat) : State :=
  if (s.srcRun i).subscribed ∧ srcKind (s.srcDesc i) = kindKinik then
    if s.kinikAdmitted i then s.setSrc i { s.srcRun i with notAdmitted := false } else s.kinikLost i
  else s

/-- Start the subscription of every enabled descriptor that has none, as after a reset (R381) or a power state (R376). -/
def State.subscribeAll (s : State) : State :=
  each s.sets.active.enabledSources s (fun s i =>
    if (s.srcRun i).subscribed then s else (s.subscribe i).admitKinik i)

/-- End every subscription for a reason. -/
def State.unsubscribeAll (s : State) (reason : Nat) : State :=
  each (s.src.run.map (·.1)) s (fun s i => s.unsubscribe i reason (s.srcDesc i))

/-! ## Minting (R12, R27, R74 to R78) -/

/-- A mint of a source is captured by the encode jobs whose layer shows it, when it comes `MIN_INTERVAL_MS` or more after
the frame of the job's previous picture (R203). A capture that finds no room among two is lost. -/
def State.encodeMint (s : State) (i : Nat) (f : Frame) : State :=
  each (upTo 16) s (fun s j =>
    let d := s.encJob j
    let x := s.encRun j
    let a := s.sets.active
    let l := encInput d
    let due : Bool := match x.lastFrameAt with
      | some t => decide (t + encMinInterval d * 1000000 ≤ f.capture)
      | none => true
    if x.state = .running ∧ encLayerInput d ∧ layEnable (a.layer l) ∧ laySource (a.layer l) = i ∧ !s.fenceClosed a l
        ∧ due then
      if 2 ≤ x.ring.length then
        (s.setEncRun j { x with capDropped := w32 (x.capDropped + 1) }).logLimited 0xB011 j tenSeconds 1 0
          (fun n _ => [j, n, layOutput (a.layer l), 0])
      else s.setEncRun j { x with
        ring := x.ring ++ [{ time := f.capture, frame := some f, set := a, done := true }], lastFrameAt := some f.capture }
    else s)

/-- Mint a frame for a source: its capture time is clamped to its arrival, by an excess reported in µs, rounded up (R75; the
rounding is the model's, log entry 58). `EVIDENCE_CHANGED` follows a change of the evidence row, or of the evidence that an annex
relays (R74; log entry 58). -/
def State.mint (s : State) (i : Nat) (f : Frame) : State :=
  let x := s.srcRun i
  let late := f.late
  let capture := if late ≠ 0 then f.arrival else f.capture
  let f1 : Frame := { f with source := i, seq := x.nextSeq, capture := capture }
  let same : Bool := match x.lastMint with | some g => g.signature == f1.signature | none => false
  let old := (x.lastMint.map (·.evidence)).getD 0xFF
  let sameRow : Bool := match x.lastMint with | some g => g.row == f1.row && g.evidence == f1.evidence | none => false
  let s1 := s.setSrc i { x with
    nextSeq := w32 (x.nextSeq + 1)
    minted := x.minted + 1
    frame := some f1
    bufFrames := if srcKind (s.srcDesc i) = kindHost then Tbl.put x.bufFrames f1.buffer f1 else x.bufFrames
    lastMint := some f1
    freezeRun := if same then x.freezeRun + 1 else 1
    cClamp := if late ≠ 0 then x.cClamp + 1 else x.cClamp
    lost := none }
  let s2 := match x.lost with
    | some (code, t) =>
      let ms := (s.time.now - t) / 1000000
      if s.summarising i ∧ code = 3 then s1.setDec i { s1.decRun i with resumed := some (f1.seq, ms, f1.evidence) }
      else s1.log 0x1011 [i, f1.seq, ms, f1.evidence]
    | none => s1
  let s3 := if late ≠ 0 then
      s2.logLimited 0x1020 i tenSeconds 1 (ceilDiv late 1000) (fun n m => [i, n, m, f1.evidence])
    else s2
  let s4 := if !sameRow then s3.log 0x1021 [i, old, f1.evidence, f1.seq] else s3
  (s4.markLayers (s4.layersOf i)).encodeMint i f1

/-- The source is frozen (R27). -/
def State.frozen (s : State) (i : Nat) : Bool :=
  srcMotion (s.srcDesc i) && decide (srcFreezeFrames (s.srcDesc i) ≤ (s.srcRun i).freezeRun)

/-- A source counts as lost: declared lost, or not subscribed. -/
def State.srcLost (s : State) (i : Nat) : Bool := !(s.srcRun i).subscribed || (s.srcRun i).lost.isSome

end Sys2Proof.Machine
end

