-- ==== Sys2Proof/Machine/Commit.lean ====
section
/-!
DEFINITION. Commits (05_commit_and_sets.md): acceptance, clearing, staging, settlement, effect, cancelling.
-/
namespace Sys2Proof.Machine

/-! ## Acceptance and clearing (R129, R134 to R137) -/

/-- `COMMIT` (R134): accepted, given its sequence number, and cleared next. BUSY while a commit is pending, or when its
response cannot be held (R277). -/
def execCommit (dt : Nat) (p : Fin 4) (s : State) : Host.Outcome State Fault Refusal :=
  .next (s.serve dt p 0x0501 (fun s r =>
    let mode := r.u8 1
    if s.sets.pending.isSome then s.status p r stBusy
    else if 15 < r.u8 0 then s.status p r stNotSupported
    else if mode.testBit 1 ∧ !s.canHold p then s.status p r stBusy
    else { s with sets := { s.sets with
      seq := w32 (s.sets.seq + 1)
      pending := some {
        seq := s.sets.seq, group := r.u8 0, swap := mode.testBit 0, waitSettle := mode.testBit 1,
        room := if mode.testBit 2 then some (r.u16 2) else none, port := p, req := some r } } }))

/-- End the pending commit: held writes go to the shadow set, staged records are dropped (R129, R141). -/
def State.endCommit (s : State) (c : Commit) (st : CommitState) : State :=
  let s1 := { s with sets := { s.sets with pending := none, last := some { c with state := st, snap := [] } } }
  (if s.sets.effect.isSome then s1 else s1.dropStaged).applyHeld

/-- Payload of a `COMMIT` response (Table 5-3). -/
def commitPayload (c : Commit) (settled : Bool) : Bytes :=
  let k (x : Nat) := if settled then x else 0
  Bytes.join [leBytes 4 c.seq, leBytes 2 c.changes, leBytes 2 0, leBytes 4 (k c.groupFrame), leBytes 8 (k c.frameTime),
    leBytes 1 (k c.defers), leBytes 1 (k c.stageDefers), leBytes 2 (k c.notReady), leBytes 4 (k c.heldDiscarded)]

/-- The response of a commit that ended without settling (R137): DEFERRED with `GROUP_FRAME` 0. A commit that is still clearing has no
other response yet, and gets it whether it waits or not (log entry 58). -/
def State.deferResponse (s : State) (c : Commit) : State :=
  match c.req with
  | some r =>
    if c.eligibleAt.isNone then s.answer c.port r stDeferred (commitPayload c false)
    else if c.waitSettle then s.release c.port 0x0501 r.tag stDeferred (commitPayload c false) else s
  | none => s

/-- Reject a commit (R135). -/
def State.reject (s : State) (c : Commit) (f : Reject) : State :=
  let s1 := (s.endCommit { c with status := f.status } .rejected).log 0x3102
    [c.seq, f.status, w16 f.kind + (w16 f.index) <<< 16, f.offset]
  match c.req with
  | some r => s1.answer c.port r f.status (Bytes.join [leBytes 2 f.kind, leBytes 2 f.index, leBytes 4 f.offset, leBytes 20 0])
  | none => s1

/-- The commit clears: it is eligible and its staging begins (R123, R136). -/
def State.eligible (s : State) (c : Commit) : State :=
  let c1 : Commit := { c with
    state := .staging, eligibleAt := some s.time.now, changes := w16 (changes s.sets.active s.sets.shadow),
    snap := s.snapshot }
  let s1 := { s with sets := { s.sets with pending := some c1 } }
  match c.req with
  | some r => if c.waitSettle then s1.hold c.port r c.seq else s1.answer c.port r stOk (commitPayload c1 false)
  | none => s1

/-- `CLEARING_COMPLETE` (R134): the commit is rejected, or eligible. -/
def execClearingComplete (dt : Nat) (s : State) : Host.Outcome State Fault Refusal :=
  let s1 := s.elapse dt
  match s1.sets.pending with
  | some c =>
    if c.state = .clearing ∧ s1.tellerUp then
      match s1.clear s1.sets.shadow with
      | some f => .next (s1.reject c f)
      | none => .next (s1.eligible c)
    else .next s1
  | none => .next s1

/-- `STAGING_COMPLETE` (R123). Staging waits while an earlier commit has settled and not yet taken effect. -/
def execStagingComplete (dt : Nat) (s : State) : Host.Outcome State Fault Refusal :=
  let s1 := s.elapse dt
  match s1.sets.pending with
  | some c =>
    if c.eligibleAt.isSome ∧ !c.stagingDone ∧ s1.sets.effect.isNone ∧ !s1.composeOff then
      let s2 := s1.stageRest
      .next { s2 with sets := { s2.sets with
        pending := some { c with stagingDone := true, state := if c.state = .staging then .waiting else c.state } } }
    else .next s1
  | none => .next s1

/-! ## What a settlement does at once (R140) -/

/-- Relative luminance of a void colour, in 10^-4 of 2^-24 (R31). -/
def luminance (colour : Nat) (f : FreshItem) (b : Bool) : Nat :=
  let v (k : Nat) := (f16Value (freshColour f b k)).toNat
  if colour = 0 then 2126 * v 0 + 7152 * v 1 + 722 * v 2 else 2627 * v 0 + 6780 * v 1 + 593 * v 2

/-- Contrast ratio of a pair in thousandths, rounded down (R31). -/
def contrast (colour : Nat) (f : FreshItem) : Nat :=
  let off := 500 * 2 ^ 24
  let a := luminance colour f false
  let b := luminance colour f true
  (max a b + off) * 1000 / (min a b + off)

/-- The active pair of an output is replaced by the default (R32): the ratio lies below 3.0. -/
def State.pairReplaced (s : State) (o : Nat) : Bool :=
  s.sets.active.shows o && decide (contrast (outColour (s.sets.active.output o)) (s.sets.active.freshness o) < 3000)

/-- Begin or end the replacement of void colours on every output (R32, R429). An output that is not shown has no active pair:
a settlement that disables it ends its replacement, and one that enables it may begin one (log entry 58). -/
def State.checkColours (s : State) : State :=
  each (upTo 32) s (fun s o =>
    let on := s.pairReplaced o
    if on = s.comp.replaced.toNat.testBit o then s
    else
      { s with comp := { s.comp with replaced := s.comp.replaced ^^^ BitVec.ofNat 32 (1 <<< o) } }.log 0x4130
        [o, contrast (outColour (s.sets.active.output o)) (s.sets.active.freshness o), b2n on, 0])

/-- `FRESH_POLICY_CHANGED` at a settlement (R11). -/
def State.logPolicy (s : State) (a b : ConfigSet) (seq : Nat) : State :=
  let layers := countIf (upTo 1024) (fun l =>
    layLive (a.layer l) != layLive (b.layer l) || decide (a.bound l ≠ b.bound l))
  let sources := countIf (diffKeys a.sources b.sources) (fun i =>
    srcMotion (a.source i) != srcMotion (b.source i) || srcFreezeFrames (a.source i) != srcFreezeFrames (b.source i))
  let outputs := countIf (diffKeys a.fresh b.fresh) (fun o =>
    (a.freshness o).toNat % 2 ^ 96 != (b.freshness o).toNat % 2 ^ 96)
  if layers = 0 ∧ sources = 0 ∧ outputs = 0 then s else s.log 0x3140 [seq, layers, sources, outputs]

/-- Subscriptions that the settlement ends and begins (R63), under the new active set. -/
def State.changeSubscriptions (s : State) (a : ConfigSet) : State :=
  let b := s.sets.active
  let s1 := each (resubscribed a b) s (fun s i =>
    let off := srcKind (b.source i) == 0
    let s1 := s.unsubscribe i (if off then 1 else 2) (a.source i)
    if off then s1 else (s1.subscribe i).admitKinik i)
  -- R97: RESTART changed from HOST to AUTO on a stopped stream.
  each (diffKeys a.sources b.sources) s1 (fun s i =>
    if (s.decRun i).state = .stopped ∧ srcRestart (a.source i) = 1 ∧ srcRestart (b.source i) = 0 then
      s.setDec i { s.decRun i with restartOk := true }
    else s)

/-- The raster fields of a head differ: `H_ACTIVE` to `V_SYNC`, `PCLK_KHZ`, or the bond (R154). -/
def rasterDiffers (a b : OutDesc) : Bool :=
  headBond a != headBond b || (upTo 4).any (fun w => fld a (w + 1) 31 0 != fld b (w + 1) 31 0) || headPclk a != headPclk b

/-- Raster or colour fields differ: `RASTER_ID` advances (R160). -/
def wireDiffers (a b : OutDesc) : Bool :=
  rasterDiffers a b || outColour a != outColour b || headWireRange a != headWireRange b || headHPol a != headHPol b
    || headVPol a != headVPol b

/-- A head under a settlement (R154, R160): enabled, disabled, or with a new raster or new colours from the frame start of
effect; until then it runs under what it has. -/
def State.settleHead (s : State) (a : ConfigSet) (h : Nat) : State :=
  let b := s.sets.active
  let x := s.head h
  let x1 : HeadRun := if wireDiffers (a.output h) (b.output h) then
    { x with rasterId := w16 (x.rasterId + 1) } else x
  if !a.shows h ∧ b.shows h then
    match x.state with
    | .scanning => s.setHead h x1
    | _ => (s.setHead h { x1 with
        state := if s.maskedOff 13 then .off else .locking, held := 0, stopNext := none }).refreshProven h
  else if a.shows h ∧ !b.shows h then
    match x.state with
    | .scanning => s.setHead h { x1 with stopNext := some 1, under := some (x.under.getD (a.output h)) }
    | _ => s.setHead h { x1 with state := .off, held := 0, stopNext := none }
  else if b.shows h ∧ rasterDiffers (a.output h) (b.output h) then
    match x.state with
    | .scanning => s.setHead h { x1 with stopNext := some 3, under := some (x.under.getD (a.output h)) }
    | _ => s.setHead h { x1 with held := 0 }
  else match x.state with
    | .scanning =>
      if wireDiffers (a.output h) (b.output h) then s.setHead h { x1 with under := some (x.under.getD (a.output h)) }
      else s.setHead h x1
    | _ => s.setHead h x1

/-- Begin the start sequence of a panel (Table 7-6 steps 1 and 2): its reset is held low for 1 ms. The host entries are
those of now. -/
def State.beginPanelStart (s : State) (p retries : Nat) : State :=
  let x := s.panel p
  (s.setPanel p { x with
    state := .starting, step := 1, startedAt := s.time.now, waitUntil := s.time.now + 1000000, retries := retries
    entries := Tbl.get s.panelInit ⟨0, 0⟩ p, restart := false, keep := false, push := none, redo := []
    lastTe := none, teLost := false, teGood := 0, failRun := 0, fullDue := false, fullOwed := false, voidDue := s.inSafe
    darkAt := none, legends := [] }).send (.dsiReset p false)

/-- Begin the stop sequence of a panel for a reason (Table 7-6 steps 1 and 2): it is never pushed from here, and 2 ms are
waited for its backlight. -/
def State.beginPanelStop (s : State) (p reason : Nat) (restart : Bool) : State :=
  let x := s.panel p
  (((s.proofDrop (24 + p)).endVoids (24 + p)).setPanel p { x with
    state := .stopping, step := 1, stopReason := reason, restart := restart, keep := false, push := none, redo := []
    lastTe := none, waitUntil := s.time.now + 2000000 }).notePanic

/-- Fields of a panel whose change restarts it (R185). -/
def panelRestarts (a b : OutDesc) : Bool :=
  panelHActive a != panelHActive b || panelVActive a != panelVActive b || panelLanes a != panelLanes b
    || panelMbps a != panelMbps b || panelAddrMode a != panelAddrMode b || panelTePol a != panelTePol b

/-- A panel keeps the settings it works under (R185). -/
def State.keepUnder (s : State) (a : ConfigSet) (p : Nat) : State :=
  let x := s.panel p
  s.setPanel p { x with under := some (x.under.getD (a.output (24 + p))) }

/-- A panel under a settlement (R185): enabled, it starts; disabled, it stops; changed, it stops and starts. -/
def State.settlePanel (s : State) (a : ConfigSet) (p : Nat) : State :=
  let o := 24 + p
  let b := s.sets.active
  let x := s.panel p
  if !a.shows o ∧ b.shows o then
    match x.state with
    | .stopping => s.setPanel p { x with restart := !s.maskedOff 24 }
    | .off => if s.maskedOff 24 then s else s.beginPanelStart p 0
    | _ => s
  else if a.shows o ∧ !b.shows o then
    match x.state with
    | .off => s
    | .stopping => s.setPanel p { x with restart := false }
    | _ => (s.keepUnder a p).beginPanelStop p 1 false
  else if b.shows o ∧ panelRestarts (a.output o) (b.output o) then
    match x.state with
    | .off | .stopping => s
    | _ => (s.keepUnder a p).beginPanelStop p 2 true
  else if b.shows o ∧ a.output o ≠ b.output o ∧ x.state ≠ .off then s.keepUnder a p
  else s

/-- Clear the written flags of outputs a settlement enables (R427). -/
def State.clearWritten (s : State) (a : ConfigSet) : State :=
  let b := s.sets.active
  let new := (upTo 32).filter (fun o => b.shows o && !a.shows o)
  if new = [] then s
  else { s with comp := { s.comp with tiles := Tbl.mapAll s.comp.tiles {} (fun k x =>
    if new.contains (k / 16384) then { x with written := false, fault := false } else x) } }

/-- Composition of an output that is no longer shown ends, and with it the mismatches of its tiles (R125). -/
def State.endOutputs (s : State) (a : ConfigSet) : State :=
  each (upTo 32) s (fun s o =>
    if a.shows o && !s.sets.active.shows o then
      (s.setOutComp o { s.outComp o with marks := [], round := none, staged := [], lateMarks := [] }).clearMismatch o
    else s)

/-- The output whose frame start or TE a group takes effect at (R133): the configured master while it scans out, else the
lowest-numbered output of the group that does; none when none does. -/
def State.masterOf (s : State) (g : Nat) : Option Nat :=
  let x := s.group g
  let live (o : Nat) : Bool :=
    if isHead o then s.scanning o
    else match (s.panel (o - 24)).lastTe with
      | some t => !(s.panel (o - 24)).teLost && decide (s.time.now ≤ t + 100000000)
      | none => false
  if grpMask x = 0 then none
  else if live (grpMaster x) then some (grpMaster x)
  else (maskBits 32 (grpMask x)).find? live

/-- The frame time of effect as the twin is told it (Table 15-3): the next formula time; free where a panel's TE or
GENLOCK_IN decides it. -/
def State.effectTime (s : State) (master : Option Nat) : Nat :=
  if s.time.clock.genlockIn ∨ master.any isPanel then w64 (Config.measured s.draw) else s.time.clock.after s.time.room

/-- Settle the pending commit (R128, R140): the sets swap at once; outputs take their staged records at their frame starts. -/
def State.settle (s : State) (c : Commit) : State :=
  let a := s.sets.active
  let b := s.sets.shadow
  let wait := s.waitingFences
  let held := s.sets.held
  let master := s.masterOf c.group
  let outs := (upTo 32).filter (fun o =>
    (grpMask (s.group c.group)).testBit o || (s.outComp o).staged != [] || decide (a.output o ≠ b.output o))
  let c1 : Commit := { c with
    state := .settled, snap := [], master := master, sampledAt := s.time.room, notReady := w16 wait.length, lowestNotReady := wait.headD 0
    heldDiscarded := if c.swap then 0 else held.length }
  let s1 := { s with sets := { s.sets with
    active := b, shadow := if c.swap then a else b, pending := none, last := some c1, effect := some (c1, outs)
    held := if c.swap then held else []
    notReady := union wait (s.sets.notReady.filter (s.fenceClosed b)) } }
  let sent := s1.mirrorSettle { c1 with frameTime := s1.effectTime master }
  let s2 := if c.swap then sent.applyHeld else sent
  let s3 := (s2.logPolicy a b c.seq).changeSubscriptions a
  let s4 := each (upTo 24) s3 (fun s h => s.settleHead a h)
  let s5 := each (upTo 8) s4 (fun s p => s.settlePanel a p)
  ((s5.clearWritten a).endOutputs a).checkColours.encReprice

/-! ## Settlement (R139, R142) -/

/-- Defer the pending commit (R139): cause 1 staging, 2 fence. -/
def State.defer (s : State) (c : Commit) (cause : Nat) : State :=
  { s with sets := { s.sets with pending := some { c with state := .deferred } } }.postAll 0x0501
    [c.seq, c.group, cause, c.defers]

/-- Tiles whose staging is outstanding: how far the engines have come is open, within what is not staged yet (R142). -/
def State.tilesOutstanding (s : State) (c : Commit) : Nat :=
  if c.stagingDone then 0
  else Config.measured s.draw % (sumOf ((upTo 32).map (fun o =>
    countIf (stagedTiles s.sets.active s.sets.shadow o) (fun t => !Tbl.has (s.outComp o).staged t))) + 1)

/-- A staging deferral (R139, R142): from the fourth in a row the commit's staging is late, recorded once. -/
def State.deferStaging (s : State) (c : Commit) : State :=
  let run := c.stageRun + 1
  let c1 : Commit := { c with
    stageDefers := c.stageDefers + 1, stageRun := run, stageLate := c.stageLate || decide (4 ≤ run) }
  let s1 := if !c.stageLate ∧ 4 ≤ run then s.log 0x3105 [c.seq, c.group, c1.stageDefers, s.tilesOutstanding c] else s
  s1.defer c1 1

/-! ## Mirrored changes on a standby (R340, R341) -/

/-- The standby's clearing rejects a mirrored set: the active set stays, and mirroring stops. -/
def State.mirrorReject (s : State) (seq : Nat) (f : Reject) : State :=
  (s.log 0x9031 [seq, f.status, w16 f.kind + (w16 f.index) <<< 16, 0]).setMirror .stopped

/-- Clear a mirrored commit; it is staged, and settles at the first settlement point at which its staging is complete. -/
def State.mirrorClear (s : State) (seq group : Nat) (swap : Bool) : State :=
  match s.clear s.sets.shadow with
  | some f => s.mirrorReject seq f
  | none => { s with sets := { s.sets with seq := w32 (seq + 1) } }.eligible { seq := seq, group := group, swap := swap }

/-- Apply one mirrored change. -/
def State.mirrorDo (s : State) (m : MirrorOp) : State :=
  match m with
  | .write k first items => s.writeShadow k first items
  | .settle seq g swap => s.mirrorClear seq g swap
  | .group g x =>
    match s.groupCheck g x with
    | some st => s.mirrorReject 0 ⟨st, 5, g, 0⟩
    | none => s.setGroup g x
  | .shadow x => { s with sets := { s.sets with shadow := x } }
  | .copy => { s with sets := { s.sets with shadow := s.sets.active } }

/-- Apply a mirrored change, or keep it behind the commit that is pending, in order. -/
def State.mirrorTake (s : State) (m : MirrorOp) : State :=
  if s.sets.pending.isSome ∨ s.pair.later ≠ [] then
    { s with pair := { s.pair with later := s.pair.later ++ [m] } }
  else s.mirrorDo m

/-- Apply the changes that waited, up to the next commit (fuel: their number). -/
def State.mirrorDrain (s : State) : Nat → State
  | 0 => s
  | n + 1 =>
    match s.pair.later with
    | [] => s
    | m :: rest =>
      if s.sets.pending.isSome then s
      else State.mirrorDrain ({ s with pair := { s.pair with later := rest } }.mirrorDo m) n

/-- A mirrored commit at its settlement point (R341): neither deferral nor fence counts. -/
def State.evaluateMirrored (s : State) (c : Commit) : State :=
  if c.stagingDone then
    let s1 := s.settle c
    s1.mirrorDrain s1.pair.later.length
  else s

/-- Evaluate the pending commit at its settlement point. -/
def State.evaluate (s : State) (c : Commit) : State :=
  if c.req.isNone then s.evaluateMirrored c
  else if !c.stagingDone then s.deferStaging c
  else if s.waitingFences ≠ [] ∧ c.defers < grpDeferLimit (s.group c.group) then
    s.defer { c with defers := c.defers + 1, stageRun := 0 } 2
  else s.settle c

/-- Sample the pending commit of a group at a settlement point (R139): not a room commit, and eligible before it. -/
def State.sample (s : State) (g : Nat) : State :=
  match s.sets.pending with
  | some c =>
    match c.eligibleAt with
    | some t => if c.group = g ∧ c.room.isNone ∧ t < s.time.now then s.evaluate c else s
    | none => s
  | none => s

/-- `SETTLEMENT_LINE` (R139): of a group of wall heads; a panel group samples at its master's TE. -/
def execSettlementLine (dt : Nat) (g : Fin 16) (s : State) : Host.Outcome State Fault Refusal :=
  let s1 := s.elapse dt
  if isHead (grpMaster (s1.group g)) then .next (s1.sample g) else .next s1

/-! ## Effect (R124, R140) -/

/-- Visible rectangle of a layer in a tile by its record, in output pixels (R35). -/
def State.visibleIn (s : State) (o l t : Nat) : Option Rect :=
  let d := s.outSet o
  let tr := tileRect (outW o d) (outH o d) t
  let r := (s.tile o t).record
  match r.dense with
  | some x =>
    if x.layers.contains l then
      match s.sets.active.dest l with
      | some dst => if dst.meets tr then some (dst.cut tr) else none
      | none => none
    else none
  | none => (r.rects.find? (fun e => e.layer == l)).map (fun e => e.rect.shift tr.x0 tr.y0)

/-- The layers that share a legend: the stripes of one layer (R105). -/
def ConfigSet.stripesOf (c : ConfigSet) (l : Nat) : List Nat :=
  let d := c.layer l
  if layStriped d then
    c.enabledLayers.filter (fun i => layStriped (c.layer i) && layLead (c.layer i) == layLead d)
  else [l]

/-- Pixels of a box covered by rectangles that do not overlap. -/
def covered (box : Rect) (l : List Rect) : Nat :=
  sumOf (l.map (fun r => if r.meets box then (r.cut box).width * (r.cut box).height else 0))

/-- Place the legend anchor of a layer (R35): the first tile in raster order in which it is visible, and the largest scale
up to 4 whose box lies within its visible rectangles. The assay draws no larger than `LEGEND_SCALE_MAX`. -/
def State.placeAnchor (s : State) (l : Nat) : State :=
  let c := s.sets.active
  let o := layOutput (c.layer l)
  let ls := c.stripesOf l
  let tiles := (ls.flatMap c.layerTiles).foldl insertNat []
  let vis := tiles.flatMap (fun t => (ls.filterMap (fun i => s.visibleIn o i t)).map (fun r => (t, r)))
  let key := c.leadOf l
  match vis with
  | [] => { s with comp := { s.comp with anchors := Tbl.del s.comp.anchors key } }
  | (t, r) :: _ =>
    let rects := vis.map (·.2)
    let fits (k : Nat) : Bool :=
      let box : Rect := ⟨r.x0, r.y0, r.x0 + 128 * k - 1, r.y0 + 32 * k - 1⟩
      covered box rects == 128 * k * (32 * k)
    let scale := (((upTo 5).filter (fun k => decide (1 ≤ k) && fits k)).getLast?).getD 0
    { s with comp := { s.comp with anchors := Tbl.put s.comp.anchors key ⟨t, r.x0, r.y0, scale⟩ } }

/-- Make records of an output current, under a required tag when one is given (R120, R124, R427), and place the anchors of
the layers they list or listed. -/
def State.publish (s : State) (o : Nat) (recs : List (Nat × TileRec)) (tag : Option Nat) : State :=
  let ls := (recs.flatMap (fun e => e.2.layers ++ (s.tile o e.1).record.layers)).foldl insertNat []
  let s1 := each recs s (fun s e =>
    let x := s.tile o e.1
    s.setTile o e.1 { x with record := e.2.published s.time.room, reqTag := tag.getD x.reqTag, written := true, fault := false })
  each (ls.filter (fun l => layOutput (s.sets.active.layer l) == o)) s1 State.placeAnchor

/-- An output takes the settled commit (R124): staged records become current under the commit's tag, and unpublished
records of those tiles are discarded. -/
def State.takeEffect (s : State) (o : Nat) : State :=
  match s.sets.effect with
  | some (c, outs) =>
    if !outs.contains o then s
    else
      let x := s.outComp o
      let names := x.staged.map (·.1)
      let round := x.round.map (fun r => { r with
        tiles := r.tiles.filter (fun t => !names.contains t), recs := r.recs.filter (fun e => !names.contains e.1) })
      let s1 := (s.setOutComp o { x with
        staged := [], round := round, marks := union x.marks x.lateMarks, lateMarks := [] }).publish o x.staged (some c.tagOf)
      let left := outs.filter (· ≠ o)
      { s1 with sets := { s1.sets with effect := if left = [] ∧ c.reported then none else some (c, left) } }
  | none => s

/-- A participant's room-wide commit has taken effect: `ROOM_DONE`, and the record where the decision came late (R143,
R145). -/
def State.roomReported (s : State) (c : Commit) : State :=
  match s.links.roomPart with
  | some x =>
    if c.room = some x.roomId ∧ x.decided.isSome then
      let s1 := { s with links := { s.links with roomPart := none } }.sendPeer x.coord 0x0006
        (Bytes.join [leBytes 2 x.roomId, leBytes 2 0, leBytes 8 c.frameTime, leBytes 4 c.seq])
      if x.settleLate then s1.log 0x3112 [x.roomId, w32 (x.tf.getD 0), w32 c.frameTime, 0] else s1
    else s
  | none => s

/-- Report the settled commit at its frame start of effect, a forced one as such too (R137, R140). -/
def State.report (s : State) (frame : Nat) : State :=
  match s.sets.effect with
  | some (c, outs) =>
    if c.reported then s
    else
      let c1 : Commit := { c with reported := true, groupFrame := w32 frame, frameTime := s.time.room }
      let last := match s.sets.last with | some l => if l.seq = c.seq then c1 else l | none => c1
      let s1 := { s with sets := { s.sets with last := some last, effect := if outs = [] then none else some (c1, outs) } }
      let s2 := s1.log 0x3100 [c.seq, c.group + c.changes <<< 16, w32 s.time.room, c.defers % 256 + (c.stageDefers % 256) <<< 8]
      let s2 := if c.notReady = 0 then s2 else s2.log 0x3101 [c.seq, c.notReady, c.lowestNotReady, c.defers]
      let s3 := (s2.postAll 0x0502 [c.seq, c.group, c1.groupFrame, w32 s.time.room]).roomReported c1
      match c.req with
      | some r => if c.waitSettle then s3.release c.port 0x0501 r.tag stOk (commitPayload c1 true) else s3
      | none => s3
  | none => s

/-- The commit that has settled takes effect here: its master's frame start or TE. -/
def State.effectAt (s : State) (o : Option Nat) : Bool :=
  match s.sets.effect with | some (c, _) => decide (c.master = o) && !c.reported | none => false

/-! ## Status and cancelling (R137, R141) -/

/-- `COMMIT_STATUS_GET` (Table 12-13): the pending commit, or the last. -/
def execCommitStatusGet (dt : Nat) (p : Fin 4) (s : State) : Host.Outcome State Fault Refusal :=
  .next (s.serve dt p 0x0502 (fun s r =>
    let payload (c : Commit) := wordsLE [c.seq, commitCode c.state, c.group, c.defers, c.stageDefers, c.groupFrame,
      w32 c.frameTime, hi32 c.frameTime, c.status]
    match s.sets.pending.or s.sets.last with
    | some c => s.answer p r stOk (payload c)
    | none => s.answer p r stOk ⟨36, w32 (Config.measured s.draw) <<< 32⟩))

/-- `COMMIT_CANCEL` (R141): DENIED, with the `GROUP_FRAME` at the master's next frame start, when it was rung after the sampling that
settled the commit and that commit is not reported yet. Later no commit is pending, and it does nothing (DEDUCED, log entry 58). -/
def execCommitCancel (dt : Nat) (p : Fin 4) (s : State) : Host.Outcome State Fault Refusal :=
  .next (s.serve dt p 0x0503 (fun s r =>
    match s.sets.pending with
    | some c =>
      let s1 := (s.endCommit c .cancelled).log 0x3103 [c.seq, c.group, (s.port p).session, 0]
      (s1.deferResponse c).answer p r stOk (leBytes 4 0)
    | none =>
      match s.sets.effect with
      | some (c, _) =>
        if c.reported ∨ r.time ≤ c.sampledAt then s.answer p r stOk (leBytes 4 0)
        else
          let frame := match c.master with
            | some o => if isHead o then w32 ((s.head o).frame + 1) else w32 ((s.panel (o - 24)).teCount + 1)
            | none => 0
          s.answer p r stDenied (leBytes 4 frame)
      | none => s.answer p r stOk (leBytes 4 0)))

/-- Withdraw the pending commit at a reset that ends sessions (R141): the record is due after the restart. -/
def State.withdrawAtReset (s : State) (kind : Nat) : State :=
  match s.sets.pending with
  | some c =>
    let s1 := s.endCommit c .withdrawn
    { s1 with power := { s1.power with due := s1.power.due ++ [(0x3104, [c.seq, c.group, kind, 0])] } }
  | none => s

end Sys2Proof.Machine
end

