-- ==== Sys2Proof/Machine/RoomTime.lean ====
section
/-!
DEFINITION. Room time: its states, its corrections, its configuration and its sources (R53 to R60, R425), apart from the
frame start itself.
-/
namespace Sys2Proof.Machine

/-! ## States (R53, R425) -/

/-- Room time changes state: record and event at every change. -/
def State.setRt (s : State) (new : RtState) : State :=
  let old := s.time.state
  if old = new then s
  else
    let s1 := { s with time := { s.time with state := new } }
    let d := discCode s1.time.disc
    let t := b2n s1.time.traceable
    (s1.log 0x1052 [rtCode old, rtCode new, d, t]).postAll 0x0203 [rtCode old, rtCode new, d, t]

def State.setTraceable (s : State) (t : Bool) : State := { s with time := { s.time with traceable := t } }
/-- The rate by which room time is corrected: of a free size within 500 ppm, towards the source (R54). -/
def State.slewFor (s : State) (off : Int) : State :=
  let size : Int := (Config.slew s.draw % 500000 + 1 : Nat)
  { s with time := { s.time with rate := if off = 0 then s.time.rate else if off < 0 then -size else size } }
def State.setOffset (s : State) (o : Int) : State := { s with time := { s.time with offset := o } }

/-- End an episode of `ROOM_TIME_AHEAD` (R54). -/
def State.endAhead (s : State) : State :=
  if s.time.ahead then { s with time := { s.time with ahead := false } }.notifyHealth false else s

/-- Step room time and record the step, with the state it leads to (R54, R55). Formula times up to the new room time have
passed (R424). -/
def State.stepRoom (s : State) (d : Int) (st : RtState) : State :=
  let room := w64 (twos 64 ((s.time.room : Int) + d))
  let s1 := { s with time := { s.time with room := room, framePast := room } }
  let x := twos 64 d
  s1.log 0x1050 [w32 x, hi32 x, discCode s1.time.disc, rtCode st]

/-- Correct room time by the offset of its source's time to it (R54): slewed within 1 ms, stepped forward when behind,
slewed as `ROOM_TIME_AHEAD` when ahead. -/
def State.applyOffset (s : State) (off : Int) (st : RtState) : State :=
  let s := s.slewFor off
  if 1000000 < off then ((s.setOffset off).stepRoom off st).setOffset 0 |>.endAhead
  else if off < -1000000 then
    let s1 := s.setOffset off
    if s1.time.ahead then s1
    else
      let x := twos 64 off
      ({ s1 with time := { s1.time with ahead := true } }.log 0x1051
        [w32 x, hi32 x, discCode s1.time.disc, 0]).notifyHealth false
  else (s.setOffset off).endAhead

/-- Follow a source: correct by its offset, then be `LOCKED` (R425). -/
def State.follow (s : State) (off : Int) (traceable : Bool) : State :=
  ((s.applyOffset off .locked).setTraceable traceable).setRt .locked

/-! ## PTP (R53, R54, R56) -/

/-- `PTP_MESSAGE_RECEIVED`: of the selected master, on the port, over the transport and in the domain configured. A Sync is
answered by a delay request; the UTC offset is taken from Announce, the offset of time from the others. -/
def execPtpMessageReceived (dt : Nat) (port : Fin 8) (msg : PtpMessage) (s : State) :
    Host.Outcome State Fault Refusal :=
  let s1 := s.elapse dt
  if s1.tellerUp ∧ s1.time.disc = .ptp ∧ s1.time.discPort = port ∧ s1.time.ptpDomain = msg.domain
      ∧ s1.time.ptpTransport = msg.transport
      ∧ (Tbl.get s1.links.eth {} port).up then
    let corrected (s : State) : State := match msg.offset with | some off => s.follow off true | none => s
    .next (match msg.kind with
      | .announce => { s1 with time := { s1.time with utcOffset := msg.utcOffset } }
      | .sync => corrected ({ s1 with time := { s1.time with lastSync := some s1.time.now } }.ethSend port .ptpDelayReq)
      | .followUp | .delayResp => corrected s1)
  else .next s1

/-- `PTP_SYNC_TIMEOUT` (R53, R425): 3 s without a Sync. -/
def execPtpSyncTimeout (dt : Nat) (s : State) : Host.Outcome State Fault Refusal :=
  let s1 := s.elapse dt
  match s1.time.lastSync with
  | some t =>
    if s1.tellerUp ∧ s1.time.disc = .ptp ∧ s1.time.state = .locked ∧ t + 3000000000 ≤ s1.time.now then
      .next (s1.setRt .holdover)
    else .next s1
  | none => .next s1

/-! ## Peer time (R53, R234) -/

/-- `TIME_SYNC_SEND` (R234): a request every 10 ms under the `PEER` discipline. -/
def execTimeSyncSend (dt : Nat) (s : State) : Host.Outcome State Fault Refusal :=
  let s1 := s.elapse dt
  if s1.tellerUp ∧ s1.time.disc = .peer ∧ s1.peerUp s1.time.discPort then
    .next ({ s1 with time := { s1.time with syncT1 := some s1.time.room } }.sendPeer s1.time.discPort 0x0010
      (Bytes.join [leBytes 8 0, leBytes 8 s1.time.room, leBytes 16 0]))
  else .next s1

/-- `TIME_SYNC` (R234): a request is answered; the response to the outstanding request gives the offset of the peer's room
time, ((t2 − t1) + (t3 − t4)) / 2, with t4 the room time of arrival. -/
def execTimeSync (dt : Nat) (pp : Fin 4) (msg : TimeSyncMsg) (s : State) : Host.Outcome State Fault Refusal :=
  let s1 := s.elapse dt
  if !s1.tellerUp ∨ !s1.peerUp pp then .next s1
  else if !msg.response then
    .next (s1.sendPeer pp 0x0010 (Bytes.join [leBytes 8 1, leBytes 8 msg.t1, leBytes 8 s1.time.room,
      leBytes 8 s1.time.room]))
  else if s1.time.disc = .peer ∧ s1.time.discPort = pp ∧ s1.time.syncT1 = some msg.t1 then
    let off := Int.tdiv (((msg.t2 : Int) - msg.t1) + ((msg.t3 : Int) - s1.time.room)) 2
    .next ({ s1 with time := { s1.time with syncT1 := none } }.follow off msg.traceable)
  else .next s1

/-- A peer source is lost when its link goes down (R53). -/
def State.peerTimeLost (s : State) (pp : Nat) : State :=
  if s.time.disc = .peer ∧ s.time.discPort = pp ∧ s.time.state = .locked then
    { s with time := { s.time with syncT1 := none } }.setRt .holdover
  else s

/-! ## Genlock (R58) -/

/-- Whether a spacing lies within 1/`part` of the configured period. -/
def nearPeriod (k : FrameClock) (spacing part : Nat) : Bool :=
  let p := 1000000000 * k.den
  let x := spacing * k.num
  decide ((if x ≤ p then p - x else x - p) * part ≤ p)

/-- Room time takes its rate from GENLOCK_IN while it follows it: a measured period counts as a configured one (Table 2-1). -/
def State.genlockRate (s : State) : State :=
  let t := s.time
  if t.disc = .genlock then
    let ahead : Int := 1000000000 * t.clock.den - t.glPeriod * t.clock.num
    { s with time := { t with rate := floorDiv (ahead * 1000000000) (t.glPeriod * t.clock.num) } }
  else s

/-- Room time is locked to GENLOCK_IN (R425). -/
def State.genlockLock (s : State) : State := (s.genlockRate.setTraceable false).setRt .locked

/-- An edge while the input is not in lock: good spacings are counted, and the eighth brings lock. A frame clock that has run on
then moves to the input's phase. -/
def State.genlockSeek (s : State) : State :=
  let t := s.time
  let spacing := t.now - t.glLast.getD 0
  let good := t.glLast.isSome && nearPeriod t.clock spacing 1000
  let n := if good then t.glEdges + 1 else 0
  let s1 := { s with time := { t with
    glLast := some t.now, glEdges := n, glPeriod := if good then spacing else t.glPeriod, glLock := decide (8 ≤ n)
    glRunOn := t.glRunOn && (decide (n < 8) || t.clock.genlockIn) } }
  if 8 ≤ n then
    let s2 := s1.log 0x1053 [1, spacing, 0, 0]
    if s2.time.disc = .genlock then s2.genlockLock else s2
  else s1

/-- An expected edge in lock: within 1 % of one, two or three periods after the last (R58). -/
def TimeSt.expected (t : TimeSt) : Option Nat :=
  let d := t.now - t.glLast.getD 0
  (from' 1 3).find? (fun k => decide ((if d ≤ k * t.glPeriod then k * t.glPeriod - d else d - k * t.glPeriod) * 100
    ≤ t.glPeriod))

/-- An edge in lock. One that is not expected is passed over. -/
def State.genlockTrack (s : State) : State :=
  let t := s.time
  match t.expected with
  | some k => { s with time := { t with glLast := some t.now, glPeriod := (t.now - t.glLast.getD 0) / k } }.genlockRate
  | none => s

/-- An edge starts a frame (R57): the input is the frame source, and the clock does not run on. -/
def State.edgeStarts (s : State) : Bool := s.time.clock.genlockIn && !s.time.glRunOn

/-- `GENLOCK_LOSS` (R58): three expected edges have failed to arrive. A frame clock on the input runs on from here, or goes on
doing so. -/
def execGenlockLoss (dt : Nat) (s : State) : Host.Outcome State Fault Refusal :=
  let s1 := s.elapse dt
  let t := s1.time
  let last := t.glLast.getD 0
  if s1.tellerUp ∧ t.glLock ∧ last + 3 * t.glPeriod + t.glPeriod / 100 ≤ t.now then
    let s2 := { s1 with time := { t with
      glLock := false, glEdges := 0, glRunOn := true
      glNext := if t.glRunOn then t.glNext else last + 4 * t.glPeriod } }
    let s3 := s2.log 0x1053 [0, t.glPeriod, 0, 0]
    .next (if s3.time.disc = .genlock ∧ s3.time.state = .locked then s3.setRt .holdover else s3)
  else .next s1

/-! ## Status and backward steps (R55, Table 12-13) -/

/-- `ROOM_TIME_STATUS`. -/
def execRoomTimeStatus (dt : Nat) (p : Fin 4) (s : State) : Host.Outcome State Fault Refusal :=
  .next (s.serve dt p 0x0209 (fun s r =>
    let t := s.time
    let o := twos 64 t.offset
    s.answer p r stOk (wordsLE [rtCode t.state, discCode t.disc, b2n t.traceable, b2n t.glLock, w32 t.room, hi32 t.room,
      w32 o, hi32 o])))

/-- `ROOM_TIME_STEP_BACK` (R55): accepted while `ROOM_TIME_AHEAD` is set, performed at the next room frame start. -/
def execRoomTimeStepBack (dt : Nat) (p : Fin 4) (s : State) : Host.Outcome State Fault Refusal :=
  .next (s.serve dt p 0x020A (fun s r =>
    if s.time.ahead then
      { s with time := { s.time with stepBack := some s.time.offset.natAbs } }.answer p r stOk
        (leBytes 8 (twos 64 s.time.offset))
    else s.status p r stDenied))

/-! ## Configuration (R57, R60, R425, Table 12-4) -/

/-- The frame clock a payload names. -/
def configClock (r : Request) : FrameClock :=
  { num := r.u16 4, den := r.u16 6, phase := r.u32 16, genlockIn := r.u8 8 == 1 }

/-- The checks on a payload in itself (Table 12-3, R57, R54). -/
def configCheck (r : Request) : Option Nat :=
  let k := configClock r
  let d := r.u8 0
  let p := r.u8 1
  if k.num = 0 ∨ k.den = 0 then some stZeroField
  else if k.num * 10 < 239 * k.den ∨ 60 * k.den < k.num ∨ 1000000000 * k.den ≤ k.phase * k.num then some stNotSupported
  else if 3 < d ∨ 1 < r.u8 8 ∨ (d = 0 ∧ (7 < p ∨ 2 < r.u8 3)) ∨ (d = 1 ∧ 3 < p) then some stNotSupported
  else if d = 2 ∧ !k.genlockIn then some stNotSupported
  else if (r.u8 9).testBit 0 ∧ d < 2 then some stNotSupported
  else none

/-- An enabled wall head of the active set fails a check of Table 6-2 at a rate (R60). -/
def State.headsFail (s : State) (k : FrameClock) : Bool :=
  (s.sets.active.enabledOutputs.filter isHead).any (fun h =>
    (headCheck s.links k.num k.den h (s.sets.active.output h)).isSome)

/-- The state change of selecting a discipline (R425). A GENLOCK_IN that is in lock already is followed at once, out of
any state but `UNSET`. -/
def State.selectDisc (s : State) (new : Bool) : State :=
  match s.time.disc with
  | .free => (s.setTraceable false).setRt .free
  | d =>
    if !new then s
    else
      let s1 := match s.time.state with | .locked | .holdover => s.setRt .holdover | _ => s
      if d = .genlock ∧ s1.time.glLock ∧ s1.time.state ≠ .unset then s1.genlockLock else s1

/-- A host setting of room time (R54, R425): a forward step. -/
def State.hostSetting (s : State) (value : Nat) : State :=
  let st : RtState :=
    if s.time.state = .unset then (if s.time.disc = .genlock ∧ s.time.glLock then .locked else .free) else s.time.state
  (s.stepRoom ((value : Int) - s.time.room) st).setRt st

/-- Take the configuration in force (R425, R60). -/
def State.configure (s : State) (r : Request) (d : Discipline) (k : FrameClock) : State :=
  let t := s.time
  let port := r.u8 1
  let new : Bool := decide (d ≠ t.disc) || (decide (d = .ptp ∨ d = .peer) && decide (port ≠ t.discPort))
    || (decide (d = .ptp) && (decide (r.u8 2 ≠ t.ptpDomain) || decide (r.u8 3 ≠ t.ptpTransport)))
  let s1 := { s with time := { t with
    disc := d, discPort := port, ptpDomain := r.u8 2, ptpTransport := r.u8 3
    lastSync := if new then none else t.lastSync, syncT1 := if new then none else t.syncT1
    offset := if new then 0 else t.offset
    clockNext := if k = s.rate then t.clockNext else if k = t.clock then none else some k } }
  let s2 := if d ≠ t.disc then s1.endAhead else s1
  let s3 := s2.selectDisc new
  if (r.u8 9).testBit 0 then s3.hostSetting (r.u64 24) else s3

/-- `ROOM_TIME_CONFIG` (R425). -/
def execRoomTimeConfig (dt : Nat) (p : Fin 4) (s : State) : Host.Outcome State Fault Refusal :=
  .next (s.serve dt p 0x0208 (fun s r =>
    let k := configClock r
    let change : Bool := decide (k ≠ s.rate)
    match configCheck r, discOfCode (r.u8 0) with
    | some st, _ => s.status p r st
    | none, none => s.status p r stNotSupported
    | none, some d =>
      if change ∧ s.sets.pending.isSome then s.status p r stBusy
      else if change ∧ s.headsFail k then s.status p r stNotSupported
      else if (r.u8 9).testBit 0 ∧ r.u64 24 < s.time.room then s.status p r stDenied
      else (s.configure r d k).status p r stOk))

end Sys2Proof.Machine
end

