-- ==== Sys2Proof/Machine/Surfaces.lean ====
section
/-!
DEFINITION. Device information, the status of sources, host surfaces and held parameter sets (Tables 12-2, 12-3, R72, R82,
R138, R292, R293).
-/
namespace Sys2Proof.Machine

/-- `n` words the spec leaves open (log entry 3). -/
def State.openWords (s : State) (n : Nat) : List Nat := (upTo n).map (fun i => w32 (Config.measured (s.draw + i)))

/-- `DEVICE_INFO_GET` (Table 12-13). -/
def execDeviceInfoGet (dt : Nat) (p : Fin 4) (s : State) : Host.Outcome State Fault Refusal :=
  .next (s.serve dt p 0x0101 (fun s r =>
    s.answer p r stOk (wordsLE [0x00007240, 0xA1, s.sec.running.version, lifeCode s.sec.lifecycle, s.ledger.powerCycle,
      w32 s.optime, hi32 s.optime, 0x0302, 4 - countIf (upTo 4) (fun c => (Tbl.get s.src.cores {} c).failed),
      2 - countIf (upTo 2) (fun c => (Tbl.get s.links.encCores {} c).failed), 16 - s.enginesOut,
      s.mem.capacity / 2 ^ 20])))

/-- `DEVICE_RESET` (R291): OK, and a WARM reset is due. -/
def execDeviceReset (dt : Nat) (p : Fin 4) (s : State) : Host.Outcome State Fault Refusal :=
  .next (s.serve dt p 0x0102 (fun s r =>
    if r.u8 0 = 1 then { s.status p r stOk with power := { s.power with warmDue := some p } }
    else s.status p r stNotSupported))

/-- A record of `SOURCE_STATUS_GET`. A source that is not admitted reports NO_RESOURCE in place of its state (R70). -/
def State.sourceRecord (s : State) (i : Nat) : List Nat :=
  let x := s.srcRun i
  let free := s.openWords 6
  let st := if !x.subscribed then 0 else if x.notAdmitted then stNoResource else if x.lost.isSome then 2 else 1
  let mint := match x.lastMint with
    | some f => f.evidence :: mintWords f
    | none => free.take 5
  [i, st] ++ mint ++ [x.ssrc.getD (free.getD 5 0), x.packets.length, x.cLost, x.cReorder, x.cDup, x.cLate, x.cClamp,
    x.cAuth]

/-- `SOURCE_STATUS_GET` (R63). -/
def execSourceStatusGet (dt : Nat) (p : Fin 4) (s : State) : Host.Outcome State Fault Refusal :=
  .next (s.serve dt p 0x0202 (fun s r =>
    match cutList (r.u16 0) (r.u16 2) 256 60 r.room with
    | none => s.status p r stNotSupported
    | some l => s.answer p r stOk (listPayload (l.map (fun i => wordsLE (s.sourceRecord i))))))

/-! ## Surface descriptions (Table 12-3, R106, R426, R292) -/

/-- A buffer lies in the host region in force. -/
def State.bufferInside (s : State) (d : SurfDesc) (b : Nat) : Bool :=
  decide (surfBuffer d b + bufferBytes d ≤ s.mem.hostSize)

/-- The checks of `SURFACE_SET`. -/
def State.surfaceCheck (s : State) (surf : Nat) (d : SurfDesc) : Option Nat :=
  let used := (upTo 3).filter (fun b => surfBuffer d b != 0)
  let size (x : Nat) : Bool := decide (x < 16 ∨ 8192 < x)
  let code (x n : Nat) : Bool := decide (x = 0 ∨ n < x)
  if surfW d = 0 ∨ surfH d = 0 ∨ surfPitch d = 0 then some stZeroField
  else if 127 < surf ∨ 4 < surfFormat d ∨ size (surfW d) ∨ size (surfH d) then some stNotSupported
  else if code (surfPrimaries d) 2 ∨ code (surfTransfer d) 5 ∨ code (surfMatrix d) 3 ∨ code (surfRange d) 2 then
    some stNotSupported
  else if surfPitch d % 256 ≠ 0 ∨ surfPitch d < surfW d * formatBytes (surfFormat d) then some stNotSupported
  else if used.any (fun b => decide (surfBuffer d b % 4096 ≠ 0)) then some stNotSupported
  else if used.any (fun b => !s.bufferInside d b) then some stDenied
  else none

/-- The subscribed source that shows a surface, if any. -/
def State.surfaceSource (s : State) (surf : Nat) : Option Nat :=
  (s.src.run.map (·.1)).find? (fun i =>
    (s.srcRun i).subscribed && srcKind (s.srcDesc i) == kindHost && srcPort (s.srcDesc i) == surf)

/-- Withdraw every published frame of a surface (R292, R254). Its buffers stay in use until they are released. -/
def State.withdrawSurface (s : State) (surf : Nat) : State :=
  let s1 := s.setSurface surf { s.surface surf with newest := none, fence := 0 }
  match s1.surfaceSource surf with
  | some i => (s1.withdraw (fun f => f.source == i)).markLayers (s1.layersOf i)
  | none => s1

/-- `SURFACE_SET` (R292). -/
def execSurfaceSet (dt : Nat) (p : Fin 4) (s : State) : Host.Outcome State Fault Refusal :=
  .next (s.serve dt p 0x0204 (fun s r =>
    let surf := r.u8 0
    let d : SurfDesc := r.payload.bits 320
    match s.surfaceCheck surf d with
    | some st => s.status p r st
    | none =>
      let s1 := s.withdrawSurface surf
      (s1.setSurface surf { s1.surface surf with desc := some d }).status p r stOk))

/-! ## Publishing (R72, R138) -/

/-- The bytes of a luma sample as the signature takes them (R27, R98), read by `at'` from byte `off`: one byte of NV12, the
ten bits of a P010 container as two. -/
def sampleBytes (format : Nat) (at' : Nat → Nat) (off : Nat) : List Nat :=
  if format = 3 then [at' off]
  else
    let v := (at' off + 256 * at' (off + 1)) / 64
    [v % 256, v / 256]

/-- The signature over luma bytes in raster order (R98). -/
def lumaCrc (l : List Nat) : Nat := crcFinal 32 true true (crcFeed 32 0x04C11DB7 true 0xFFFFFFFF l)

/-- Luma bytes of an NV12 or P010 buffer in raster order. -/
def lumaBytes (m : List Host.Cell) (d : SurfDesc) (base : Nat) : List Nat :=
  let k := formatBytes (surfFormat d)
  (upTo (surfH d)).flatMap (fun y => (upTo (surfW d)).flatMap (fun x =>
    sampleBytes (surfFormat d) (fun a => (Memory.read m (base + a)).toNat) (y * surfPitch d + k * x)))

/-- Content signature of a buffer (R27): the CRC of its luma; a function of the content for formats without a luma plane. -/
def State.surfaceSignature (s : State) (d : SurfDesc) (b : Nat) : Nat :=
  let base := surfBuffer d b
  if formatPlanar (surfFormat d) then lumaCrc (lumaBytes s.mem.dram d base)
  else w32 (Config.lumaSignature (surfFormat d) (Memory.readAll s.mem.dram base (bufferBytes d)))

/-- A fence signals for layers that waited on it in the pending commit, and for layers committed not ready (R123, R126). -/
def State.fenceSignalled (s : State) (waited : List Nat) : State :=
  let now := s.waitingFences
  let s1 := s.restageLayers (waited.filter (fun l => !now.contains l))
  let open' := s1.sets.notReady.filter (fun l => !s1.fenceClosed s1.sets.active l)
  let s2 := { s1 with sets := { s1.sets with notReady := s1.sets.notReady.filter (fun l => !open'.contains l) } }
  s2.markLayers open'

/-- Mint the frame of a publish that arrived at `at'`, for the source that shows the surface. -/
def State.mintSurface (s : State) (i b : Nat) (d : SurfDesc) (at' : Nat) (declared : Option Nat) : State :=
  let src := s.srcDesc i
  let (ev, cap) := match declared with
    | some t => if srcArrivalOnly src then (3, arrivalCapture src at') else (2, t)
    | none => (3, arrivalCapture src at')
  let f : Frame := {
    row := if ev = 2 then 5 else 6, evidence := ev, capture := cap, arrival := at', signature := s.surfaceSignature d b, width := surfW d
    height := surfH d, format := surfFormat d, buffer := b
    colour := {
      range := surfRange d, matrix := surfMatrix d, transfer := surfTransfer d, primaries := surfPrimaries d } }
  (s.dramRequest.setSrc i { s.srcRun i with lastArrival := at' }).mint i f

/-- `SURFACE_PUBLISH` (R72): arrival is the room time latched at the doorbell. -/
def execSurfacePublish (dt : Nat) (p : Fin 4) (s : State) : Host.Outcome State Fault Refusal :=
  .next (s.serve dt p 0x0205 (fun s r =>
    let surf := r.u8 0
    let b := r.u8 1
    let declared := if (r.u8 2).testBit 0 then some (r.u64 8) else none
    if 127 < surf ∨ 2 < b then s.status p r stNotSupported
    else match (s.surface surf).desc with
      | none => s.status p r stDenied
      | some d =>
        if surfBuffer d b = 0 ∨ !s.bufferInside d b then s.status p r stDenied
        else
          let waited := s.waitingFences
          let x := s.surface surf
          let m : BitVec 3 := BitVec.ofNat 3 (1 <<< b)
          let s1 := s.setSurface surf { x with newest := some b, fence := x.fence ||| m, inUse := x.inUse ||| m }
          let s2 := match s1.surfaceSource surf with
            | some i => s1.mintSurface i b d r.time declared
            | none => s1
          (s2.fenceSignalled waited).status p r stOk))

/-- An enabled layer of the active set names a buffer of a surface. -/
def State.bufferNamed (s : State) (surf b : Nat) : Bool :=
  let c := s.sets.active
  c.enabledLayers.any (fun l =>
    heldBuffer c l == some b && srcPort (c.source (laySource (c.layer l))) == surf)

/-- A current record of an output that is shown, or one it has staged or not yet published, satisfies a test. A disabled output has
no current records (R427). -/
def State.recordsHold (s : State) (test : TileRec → Bool) : Bool :=
  s.comp.tiles.any (fun e => s.sets.active.shows (e.1 / 16384) && e.2.written && test e.2.record)
    || s.comp.out.any (fun e => e.2.staged.any (fun r => test r.2)
      || (match e.2.round with | some r => r.recs.any (fun t => test t.2) | none => false))

/-- A frame that satisfies a test stands in an unpublished round, in a staging snapshot or in an encoder's input ring. -/
def State.framesHold (s : State) (test : Frame → Bool) : Bool :=
  s.comp.out.any (fun e => match e.2.round with | some r => r.frames.any test | none => false)
    || (match s.sets.pending with | some c => c.snap.any test | none => false)
    || s.enc.any (fun e => e.2.ring.any (fun c => match c.frame with | some f => test f | none => false))

/-- A buffer is read (R72): a tile record is composed from it, or a frame of it is held. -/
def State.bufferRead (s : State) (surf b : Nat) : Bool :=
  s.recordsHold (fun r => r.bufs.contains (surf, b))
    || s.framesHold (fun f =>
      !f.gone && srcKind (s.srcDesc f.source) == kindHost && srcPort (s.srcDesc f.source) == surf && f.buffer == b)

/-- `SURFACE_RELEASED` (R72, R138): the buffer is not the newest, no layer names it, and nothing reads it (log entry 17). -/
def execSurfaceReleased (dt : Nat) (surf : Fin 128) (buf : Fin 3) (s : State) : Host.Outcome State Fault Refusal :=
  let s1 := s.elapse dt
  let x := s1.surface surf
  let m : BitVec 3 := BitVec.ofNat 3 (1 <<< buf.val)
  if s1.tellerUp ∧ x.inUse.toNat.testBit buf ∧ x.newest ≠ some buf.val ∧ !s1.bufferNamed surf buf ∧ !s1.bufferRead surf buf
  then
    let s2 := s1.setSurface surf { x with inUse := x.inUse &&& ~~~m, fence := x.fence &&& ~~~m }
    let s3 := match s2.surfaceSource surf with
      | some i => s2.setSrc i { s2.srcRun i with bufFrames := Tbl.del (s2.srcRun i).bufFrames buf }
      | none => s2
    .next (s3.postAll 0x0201 [surf, buf, 0, 0])
  else .next s1

/-! ## Held parameter sets (R82, R293) -/

/-- The unit is a VPS, SPS or PPS under a codec. -/
def paramSet (h265 : Bool) (n : Bytes) : Bool :=
  let t := nalType h265 n
  n.len != 0 && (t == spsType h265 || t == ppsType h265 || (h265 && t == vpsType))

/-- The unit may be held for a source: judged by the kind of the active set, else of the shadow set, else by either. -/
def State.paramAllowed (s : State) (i : Nat) (n : Bytes) : Bool :=
  let a := srcKind (s.srcDesc i)
  let k := if kindIsRtp a then a else srcKind (s.sets.shadow.source i)
  if k = kindH264 then paramSet false n
  else if k = kindH265 then paramSet true n
  else paramSet false n || paramSet true n

/-- Hold the parameter sets of a source, in place of all it held before (R82; that they are not added to them is the model's
reading, log entry 58); a stream that has stopped has been given sets since (R96). -/
def State.holdSets (s : State) (i : Nat) (body : Bytes) : State :=
  let s1 := { s with src := { s.src with
    params := if body.len = 0 then Tbl.del s.src.params i else Tbl.put s.src.params i body } }
  let x := s1.decRun i
  if body.len ≠ 0 ∧ x.state = .stopped then s1.setDec i { x with heldAfter := true } else s1

/-- `SOURCE_PARAMS_SET` (R82, R293). -/
def execSourceParamsSet (dt : Nat) (p : Fin 4) (s : State) : Host.Outcome State Fault Refusal :=
  .next (s.serve dt p 0x0206 (fun s r =>
    let i := r.u8 0
    if r.length = 0 then { s with src := { s.src with params := [] } }.status p r stOk
    else if r.length < 4 ∨ 4100 < r.length then s.status p r stBadLength
    else
      let body := Bytes.slice r.payload 4 (r.length - 4)
      match nalUnits body body.len with
      | none => s.status p r stBadLength
      | some l =>
        if l.any (fun n => !s.paramAllowed i n) then s.status p r stNotSupported
        else (s.holdSets i body).status p r stOk))

end Sys2Proof.Machine
end

