-- ==== Sys2Proof/Machine/Pictures.lean ====
section
/-!
DEFINITION. Decoded pictures (03_decoding.md): the coding that is supported (R80), which parameter sets are active, how references
are marked (R92), how pictures are stored (R89), and their signature (R98).
-/
namespace Sys2Proof

/-! ## Supported coding (R80, Tables 3-1 and 3-2) -/

/-- The feature code of what a sequence parameter set uses beyond R80, coding tools apart, if anything (Table 3-6). -/
def Sps.unsupported (h265 : Bool) (p : Sps) : Option Nat :=
  let mbs := ceilDiv p.width 16 * ceilDiv p.height 16
  let ten : Bool := p.profile == 2 || p.main10
  let profile : Bool := if h265 then p.profile == 1 || p.main || ten
    else p.profile == 66 || p.profile == 77 || p.profile == 100
  let level := decide (p.level ≤ (if h265 then 153 else 51))
  let area := decide (if h265 then p.width * p.height ≤ 8912896 else mbs ≤ 36864)
  let size := decide (0 < p.width ∧ p.width ≤ 4096 ∧ 0 < p.height ∧ p.height ≤ 2304) && area
  let depth := if h265 && ten then 10 else 8
  let sampling := decide (p.bitDepth ≤ depth) && (p.chroma == 1 || (!h265 && p.chroma == 0 && p.profile == 100))
  if !profile then some 1
  else if !level then some 2
  else if !size then some 3
  else if !sampling then some 4
  else if p.field then some 5
  else none

/-- Reorder depth (R81). -/
def Sps.reorderDepth (h265 : Bool) (p : Sps) : Nat :=
  match p.reorder with
  | some n => n
  | none => if h265 || p.profile == 66 then 0 else p.dpb

/-- What identifies a picture as a reference: POC in H.265, `frame_num` in H.264 (R92). -/
def AuInfo.key (h265 : Bool) (u : AuInfo) : Int := if h265 then u.poc else u.frameNum

def AuInfo.irap (u : AuInfo) : Bool := u.kind == .idr || u.kind == .cra || u.kind == .bla

/-- Size of the conformance cropping window. -/
def Sps.winW (p : Sps) : Nat := p.width - p.cropLeft - p.cropRight
def Sps.winH (p : Sps) : Nat := p.height - p.cropTop - p.cropBottom

/-! ## Storage (R89, Table 3-4) -/

/-- Blocks of a plane across and down: 32×4 samples of luma, 16×4 pairs of Cb and Cr. -/
def Sps.blocks (p : Sps) (chroma : Bool) : Nat × Nat :=
  if chroma then (ceilDiv (p.width / 2) 16, ceilDiv (p.height / 2) 4) else (ceilDiv p.width 32, ceilDiv p.height 4)

/-- Blocks of a picture, both planes. -/
def Sps.blockCount (p : Sps) : Nat :=
  (p.blocks false).1 * (p.blocks false).2 + (p.blocks true).1 * (p.blocks true).2

/-- Sectors of 32 bytes of a raw block. -/
def Sps.rawSectors (p : Sps) : Nat := if p.bitDepth ≤ 8 then 4 else 5

/-- Bytes of a decoded-picture slot: a raw block and a header byte for every block. -/
def Sps.slotBytes (p : Sps) : Nat := p.blockCount * (32 * p.rawSectors + 1)

/-- Bytes a stream takes of the decode region. -/
def Sps.regionBytes (p : Sps) : Nat := (p.dpb + 3) * p.slotBytes

end Sys2Proof

namespace Sys2Proof.Machine

/-- The 128 samples of a block, line by line; of the second plane Cb and Cr by turns. -/
def blockSamples (picture : Nat) (p : Sps) (b : Nat) : List Nat :=
  let luma := (p.blocks false).1 * (p.blocks false).2
  let sample := decodedSample picture p.bitDepth (p.chroma == 0)
  (upTo 128).map (fun i =>
    if b < luma then sample 0 (32 * (b % (p.blocks false).1) + i % 32) (4 * (b / (p.blocks false).1) + i / 32)
    else
      let c := b - luma
      sample (1 + i % 2) (16 * (c % (p.blocks true).1) + i % 32 / 2) (4 * (c / (p.blocks true).1) + i / 32))

/-- Samples as a raw block holds them: bytes, or ten bits each, lowest first (log entry 53). -/
def rawBlock (depth : Nat) (l : List Nat) : List Nat :=
  if depth ≤ 8 then l
  else
    let n := (l.zip (upTo 128)).foldl (fun acc e => acc + e.1 * 2 ^ (10 * e.2)) 0
    (upTo 160).map (fun i => n / 256 ^ i % 256)

/-- Sectors a stored block uses, and their bytes: the raw block, or what the coding gives. -/
def storedBlock (p : Sps) (l : List Nat) : Nat × List Nat :=
  let n := 1 + Config.blockSectors l % p.rawSectors
  (n, if n = p.rawSectors then rawBlock p.bitDepth l else (upTo (32 * n)).map (fun i => Config.blockByte l i % 256))

/-- What is written of a picture into its slot, as offsets and bytes: the sectors used of each block, and behind all blocks one
header byte each (log entry 53). -/
def storedPicture (picture : Nat) (p : Sps) : List (Nat × Nat) :=
  (upTo p.blockCount).flatMap (fun b =>
    let (n, bytes) := storedBlock p (blockSamples picture p b)
    (32 * p.rawSectors * p.blockCount + b, n) ::
      ((upTo bytes.length).zip bytes).map (fun e => (32 * p.rawSectors * b + e.1, e.2)))

/-- A stored picture is still held: as a reference or waiting for output, in a frame that may be composed, or in a tile composed
from it (R89). -/
def State.pictureHeld (s : State) (x : StoredPic) : Bool :=
  let of (f : Frame) : Bool := f.format == 5 && f.picture == x.picture && !f.gone
  (s.decRun x.source).dpb.any (fun y => !y.absent && y.frame.picture == x.picture)
    || (match (s.srcRun x.source).frame with | some f => of f | none => false)
    || s.framesHold of || s.recordsHold (fun r => r.pics.contains x.picture)

/-- The lowest slot of a stream that no stored picture takes. -/
def freeSlotOf (l : List StoredPic) (i : Nat) : Nat :=
  ((upTo (l.length + 1)).find? (fun k => !l.any (fun x => x.source == i && x.slot == k))).getD 0

/-- Store a decoded picture (R89): those held no longer are released, and it takes a free slot in the decode region. -/
def State.storePicture (s : State) (i picture : Nat) (p : Sps) : State :=
  let held := s.src.stored.filter s.pictureHeld
  let k := freeSlotOf held i
  let dram := match (regionMap s.mem.regionWord s.mem.capacity)[2]? with
    | some (base, size) =>
      if size < p.slotBytes then s.mem.dram
      else
        let a := base + Config.picturePlace i k % ((size - p.slotBytes) / 32 + 1) * 32
        Memory.writeAt s.mem.dram a (storedPicture picture p)
    | none => s.mem.dram
  let s1 := s.dramRequest
  { s1 with
    src := { s1.src with stored := held ++ [⟨i, picture, k⟩] }
    mem := { s1.mem with dram := dram } }

/-! ## Parameter sets (R82, R91, R96) -/

/-- A parameter set by type and identifier. -/
def findSet (l : List ParamSet) (t k : Nat) : Option ParamSet := l.find? (fun p => p.type == t && p.id == k)

/-- The active sets of a picture: the SPS with what it says, and the PPSs its slices name. -/
structure Active where
  set : ParamSet
  sps : Sps
  pps : List ParamSet
  deriving DecidableEq, Repr

/-- The sets that a picture's slices activate, or type and identifier of a set that is not there (Table 3-6; the type is given as the
NAL unit type, log entry 58). -/
def activeSets (h265 : Bool) (l : List ParamSet) (pps : List Nat) : (Nat × Nat) ⊕ Active :=
  let names := if pps = [] then [0] else pps
  match names.find? (fun k => (findSet l (ppsType h265) k).isNone), names.filterMap (findSet l (ppsType h265)) with
  | some k, _ => .inl (ppsType h265, k)
  | none, [] => .inl (ppsType h265, 0)
  | none, q :: r =>
    match findSet l (spsType h265) q.refers with
    | none => .inl (spsType h265, q.refers)
    | some a =>
      match a.sps with
      | none => .inl (spsType h265, q.refers)
      | some p => if h265 && (findSet l vpsType a.refers).isNone then .inl (vpsType, a.refers) else .inr ⟨a, p, q :: r⟩

/-- What a picture uses beyond R80: its feature code, and the set that fails for it; that of a tool that only slices use is the SPS
(log entry 58). -/
def Active.unsupported (h265 : Bool) (a : Active) (tool : Bool) : Option (Nat × ParamSet) :=
  match a.sps.unsupported h265, (a.set :: a.pps).find? (·.tool) with
  | some f, _ => some (f, a.set)
  | none, some q => some (6, q)
  | none, none => if tool then some (6, a.set) else none

/-- A set of the type that failed, with other bytes (R96). -/
def otherSet (failed : Option (Nat × Bytes)) (p : ParamSet) : Bool :=
  match failed with | some (t, b) => p.type == t && p.bytes != b | none => false

/-! ## References (R92) -/

/-- Pictures that satisfy a test are references no longer. -/
def unmark (test : DpbPic → Bool) (l : List DpbPic) : List DpbPic :=
  l.map (fun y => if test y then { y with isRef := false } else y)

/-- The picture is the reference of a name. -/
def DpbPic.named (y : DpbPic) (r : RefName) : Bool := y.isRef && y.ref == r

/-- One memory management operation of H.264. -/
def applyOp (l : List DpbPic) : RefOp → List DpbPic
  | .unused r => unmark (·.named r) l
  | .toLong n k =>
    (unmark (·.named (.long k)) l).map (fun y => if y.named (.short n) then { y with ref := .long k } else y)
  | .maxLong n => unmark (fun y => match y.ref with | .long k => decide (n ≤ k) | .short _ => false) l
  | .clearAll => unmark (fun _ => true) l
  | .selfLong k => unmark (·.named (.long k)) l

/-- The sliding window: short-term references leave, oldest first, until at most `n` references stay. -/
def slideRefs (n : Nat) (l : List DpbPic) : List DpbPic :=
  let extra := countIf l (·.isRef) - n
  let rec go (k : Nat) : List DpbPic → List DpbPic
    | [] => []
    | x :: r =>
      let short : Bool := match x.ref with | .short _ => true | .long _ => false
      if 0 < k ∧ x.isRef ∧ short then { x with isRef := false } :: go (k - 1) r else x :: go k r
  go extra l

/-- The references held, as a picture marks them. -/
def markRefs (p : Sps) (u : AuInfo) (l : List DpbPic) : List DpbPic :=
  match u.marking with
  | .rps pocs => unmark (fun y => match y.ref with | .short n => !pocs.contains n | .long _ => true) l
  | .sliding => if u.isRef then slideRefs (max p.refFrames 1 - 1) l else l
  | .ops ops => if u.isRef then ops.foldl applyOp l else l

/-- The name under which a picture becomes a reference. -/
def refNameOf (h265 : Bool) (u : AuInfo) : RefName :=
  match u.marking with
  | .ops ops => (ops.findSome? (fun o => match o with | .selfLong k => some (.long k) | _ => none)).getD (.short (u.key h265))
  | _ => .short (u.key h265)

/-- The picture clears every reference (H.264 operation 5): it counts as `frame_num` 0 and POC 0 afterwards. -/
def clearsRefs (u : AuInfo) : Bool := match u.marking with | .ops ops => ops.contains .clearAll | _ => false

/-- The DPB after the frames inferred from a gap of `frame_num` between two values, which do not exist (R92). -/
def gapFrames (p : Sps) (prev cur : Nat) (l : List DpbPic) : List DpbPic :=
  let n := (cur + 2 * p.maxFrameNum - prev - 1) % p.maxFrameNum
  let k := min n p.refFrames
  slideRefs p.refFrames (l ++ (from' (n - k) k).map (fun i =>
    { poc := 0, ref := .short ((prev + 1 + i) % p.maxFrameNum : Nat), isRef := true, waiting := false, absent := true }))

/-! ## Signatures (R98) -/

/-- The bytes of the luma within the conformance cropping window, in raster order. -/
def pictureLuma (picture : Nat) (p : Sps) : List Nat :=
  (upTo p.winH).flatMap (fun y => (upTo p.winW).flatMap (fun x =>
    let v := decodedSample picture p.bitDepth false 0 (p.cropLeft + x) (p.cropTop + y)
    if p.bitDepth ≤ 8 then [v] else [v % 256, v / 256]))

/-- The frame a sound picture becomes (R74, R76, R98). -/
def frameOf (draw : Nat) (p : Sps) (a : AuUnit) (annex : Option Annex) : Frame :=
  let rows := if a.row = 1 then (annex.map (·.entries)).getD [] else []
  { row := a.row, evidence := a.evidence, relayed := a.row == 1, carried := rows.any (·.carried), capture := a.capture
    arrival := a.arrival, signature := lumaCrc (pictureLuma draw p), width := p.winW, height := p.winH, format := 5
    rows := rows.map (fun e => { e with capture := min e.capture a.arrival })
    depth := p.bitDepth, picture := draw, left := p.cropLeft, top := p.cropTop, mono := p.chroma == 0, colour := p.colour }

end Sys2Proof.Machine
end

