-- ==== Sys2Proof/Machine/Decoding.lean ====
section
/-!
DEFINITION. Decoding of camera streams (03_decoding.md): placement on cores, damage and stops, restart, references, output
in display order; damage is never concealed (R79). Pictures are described by the facts an access unit carries (log entry 5).
-/
namespace Sys2Proof.Machine

/-! ## Placement (R83, R84) -/

/-- Luma samples per second of a core (R83). -/
def coreRate : Nat := 1000000000

/-- Admission cost in luma samples per second (R84); that the quotient is rounded up is the model's (log entry 58). -/
def State.admissionCost (s : State) (i : Nat) (p : Sps) : Nat :=
  ceilDiv (p.width * p.height * 1000000) (srcPeriod (s.srcDesc i))

def State.coreSpare (s : State) (c but : Nat) : Nat := coreRate - sumOf (s.coreStreams c but)

/-- A core may hold streams: it has not failed and its domain is not kept off. -/
def State.coreUsable (s : State) (c : Nat) : Bool :=
  !(Tbl.get s.src.cores {} c).failed && !s.maskedOff (4 + c)

/-- The first core of a list with the least spare capacity. -/
def State.leastSpare (s : State) (but : Nat) : List Nat → Option Nat
  | [] => none
  | c :: r =>
    match s.leastSpare but r with
    | some d => if s.coreSpare c but ≤ s.coreSpare d but then some c else some d
    | none => some c

/-- Room in the decode region and in the source region (Table 10-1). -/
def State.decodeRoom (s : State) (i : Nat) (p : Sps) : Bool :=
  let used := sumOf (s.src.dec.map (fun e =>
    if e.1 ≠ i ∧ e.2.core.isSome then (match e.2.sps with | some q => q.regionBytes | none => 0) else 0))
  decide (used + p.regionBytes ≤ gib * bitsOf s.mem.regionWord.toNat 15 8)
    && decide (s.sourceRegionUse i + 2 ^ 23 ≤ s.sourceRegion)

/-- The core a stream is placed on at a cost (R84). -/
def State.placeCore (s : State) (i cost : Nat) (p : Sps) : Option Nat :=
  let fits (c : Nat) : Bool := s.coreUsable c && decide (cost ≤ s.coreSpare c i)
  let own := (s.decRun i).core.filter fits
  let shared := (upTo 4).filter (fun c =>
    fits c && decide (s.coreStreams c i ≠ []) && decide ((s.coreStreams c i).length < 32))
  let new := (upTo 4).find? (fun c =>
    s.coreUsable c && decide (s.coreStreams c i = []) && (s.decRun i).core != some c && decide (cost ≤ coreRate))
  if s.decodeRoom i p then own.or ((s.leastSpare i shared).or new) else none

/-- A core is failed: it is marked, its domain is powered down, and the fault is reported (R88). -/
def State.retireCore (s : State) (c : Nat) : State :=
  let s1 := { s with src := { s.src with cores := Tbl.set s.src.cores {} c { failed := true } } }
  (s1.domainOff (4 + c) 1).raised 0x040 c

/-- Power a core up for a stream: it is tested (R88, R371). False when it fails. -/
def State.powerCore (s : State) (c : Nat) : State × Bool :=
  if (s.domain (4 + c)).on then (s, true)
  else
    let s1 := s.domainOn (4 + c) 1
    let (s2, l) := s1.testDomain (4 + c) (s1.testOf (4 + c))
    if l = [] then (s2, true) else (s2.retireCore c, false)

/-- Place a stream, powering a core up for it and leaving the core it was on; a core that fails its test is passed over (fuel: the
cores). False when it is not admitted. -/
def State.placeOn (s : State) (i : Nat) (p : Sps) : Nat → State × Bool
  | 0 => (s, false)
  | n + 1 =>
    let cost := s.admissionCost i p
    match s.placeCore i cost p with
    | none => (s, false)
    | some c =>
      let (s1, good) := s.powerCore c
      if !good then s1.placeOn i p n
      else
        let s2 := if (s1.decRun i).core = some c then s1 else s1.leaveCore i
        (s2.setDec i { s2.decRun i with
          core := some c, cost := cost, sps := some p, profile := p.profile, level := p.level }, true)

/-- Place a stream on a core (R84). -/
def State.place (s : State) (i : Nat) (p : Sps) : State × Bool := s.placeOn i p 5

/-! ## Output (R76, R81, R98) -/

/-- Mint one decoded picture. -/
def State.outputPic (s : State) (i : Nat) (x : DpbPic) : State := s.mint i x.frame

/-- The waiting picture that comes first in display order. -/
def firstWaiting (l : List DpbPic) : Option DpbPic :=
  (l.filter (·.waiting)).foldl (fun (b : Option DpbPic) x => match b with
    | some y => if x.poc < y.poc then some x else some y
    | none => some x) none

/-- A picture has been output: it stays only as a reference. -/
def outputDone (l : List DpbPic) (p : DpbPic) : List DpbPic :=
  (l.map (fun x => if x.waiting && x.poc == p.poc then { x with waiting := false } else x)).filter
    (fun x => x.isRef || x.waiting)

/-- Output pictures in order while a test of those that wait holds (fuel: pictures held). -/
def State.outputWhile (s : State) (i : Nat) (test : List DpbPic → Bool) : Nat → State
  | 0 => s
  | n + 1 =>
    let l := (s.decRun i).dpb
    match firstWaiting l with
    | some x =>
      if test (l.filter (·.waiting)) then
        let s1 := s.setDec i { s.decRun i with dpb := outputDone l x }
        (s1.outputPic i x).outputWhile i test n
      else s
    | none => s

/-- Output every waiting picture. -/
def State.flushOutput (s : State) (i : Nat) : State := s.outputWhile i (fun _ => true) (s.decRun i).dpb.length

/-- Output what the reorder constraint allows (R81). -/
def State.bumpOutput (s : State) (i : Nat) : State :=
  match (s.decRun i).sps with
  | some p =>
    let n := p.reorderDepth (srcKind (s.srcDesc i) == kindH265)
    s.outputWhile i (fun w => decide (n < w.length)
      || (p.latencyPlus1 != 0 && w.any (fun x => decide (n + p.latencyPlus1 ≤ x.latency + 1)))) (s.decRun i).dpb.length
  | none => s

/-! ## Damage (R91, R94) -/

/-- Count a stop in the summary, or begin summarising at more than 8 stops within 60 s (R94); true when the stop is still
recorded by itself. -/
def State.countStop (s : State) (i code : Nat) (poc : Int) : State × Bool :=
  let x := s.decRun i
  let times := (x.stopTimes.filter (fun t => decide (s.time.now < t + 60000000000))) ++ [s.time.now]
  match x.summary with
  | some (since, n, _, _) =>
    (s.setDec i { x with stopTimes := times, summary := some (since, n + 1, code, poc) }, false)
  | none =>
    if 8 < times.length then
      (s.setDec i { x with stopTimes := times, summary := some (s.time.now, 1, code, poc) }, false)
    else (s.setDec i { x with stopTimes := times }, true)

/-- A stop declares its source lost, of whatever it was lost before (R91): `SOURCE_LOST` follows the class's record. -/
def State.loseStopped (s : State) (i : Nat) : State :=
  let x := s.srcRun i
  if !x.subscribed then s
  else
    let s1 := s.setSrc i { x with lost := some (3, match x.lost with | some (_, t) => t | none => s.time.now) }
    if s.summarising i then s1 else s1.log 0x1010 [i, 3, (x.lastMint.map (·.seq)).getD 0, w32 s.time.room]

/-- Act on damage of a class (R91): `ps` are the record's parameters behind the source, `discard` the access units
discarded by it. -/
def State.damage (s : State) (i code : Nat) (poc : Int) (ps : List Nat) (discard : Nat) : State :=
  let s1 := s.setDec i { s.decRun i with queue := [] }
  let s2 := s1.flushOutput i
  let x := s2.decRun i
  let s3 := s2.setDec i { x with
    state := .stopped, lastClass := code, lastPoc := poc, discarded := x.discarded + discard, stops := x.stops + 1
    stoppedAt := s2.time.now, dpb := [], window := none, recoverTo := none, resumed := none
    heldAfter := false, restartOk := srcRestart (s2.srcDesc i) == 0 }
  let (s4, recorded) := s3.countStop i code poc
  let s5 := if recorded then s4.log code (i :: ps) else s4
  (s5.loseStopped i).postAll 0x0202 [i, code, twos 32 poc, (s5.srcRun i).lastRtpSeq]

/-- Damage found in the access unit that falls due: it and every later one are discarded. -/
def State.auDamage (s : State) (i code : Nat) (poc : Int) (ps : List Nat) : State :=
  s.damage i code poc ps ((s.decRun i).queue.length + 1)

/-- A discontinuity while decoding (Table 3-6): the stream is flushed and stops. Its POC is open (log entry 37). -/
def State.discontinuity (s : State) (i cause : Nat) : State :=
  match (s.decRun i).state with
  | .running | .recovering =>
    s.damage i 0x2011 (Config.stopPoc s.draw i) [cause, 0, (s.srcRun i).lastRtpSeq] (s.decRun i).queue.length
  | _ => s

/-! ## Starting and restarting (R95, R96) -/

/-- A random-access point. An access unit released incomplete is taken as none, on which the spec is silent (log entry 58). -/
def AuUnit.rap (a : AuUnit) : Option AuInfo :=
  if a.incomplete then none else a.info.filter (fun u => u.irap || u.recovery.isSome)

/-- Begin decoding at a random-access point: nothing precedes it (R95, R96). -/
def State.beginDecode (s : State) (i : Nat) (u : AuInfo) (a : AuUnit) : State :=
  let h265 := srcKind (s.srcDesc i) == kindH265
  let x := s.decRun i
  let maxFn := match activeSets h265 (replaceSets x.sets u.sets) u.pps with | .inr q => q.sps.maxFrameNum | .inl _ => 65536
  let target : Int := if h265 then u.poc + u.recovery.getD 0 else ((u.frameNum + u.recovery.getD 0) % maxFn : Nat)
  s.setDec i { x with
    state := if u.irap then .running else .recovering
    recoverTo := if u.irap then none else some target
    queue := [a], dpb := [], prevFrameNum := none, window := none, dropRasl := true
    startKey := u.key h265, seen := [], restartOk := false }

/-- The held parameter sets are loaded into the decoder (R82). -/
def State.loadSets (s : State) (i : Nat) : State :=
  s.setDec i { s.decRun i with sets := replaceSets (s.decRun i).sets (s.heldSets i) }

/-- A stopped stream can be decoded again at a random-access point (R96); a placement it needs is made. -/
def State.restartable (s : State) (i : Nat) (u : AuInfo) : State × Bool :=
  let x := s.decRun i
  if !x.restartOk then (s, false)
  else if x.lastClass = 0x2016 then
    (s, u.sets.any (otherSet x.failedSet) || (x.heldAfter && (s.heldSets i).any (otherSet x.failedSet)))
  else if x.lastClass = 0x201A ∨ x.lastClass = 0x201B then
    match activeSets (srcKind (s.srcDesc i) == kindH265) (replaceSets (replaceSets x.sets (s.heldSets i)) u.sets) u.pps with
    | .inr q => s.place i q.sps
    | .inl _ => (s, false)
  else (s, true)

/-! ## The run-ahead (R93) -/

/-- Access units of a core that are parsed and not yet reconstructed. -/
def State.parsedOn (s : State) (c : Nat) : Nat :=
  sumOf (s.src.dec.map (fun e => if e.2.core = some c then countIf e.2.queue (·.parsed) else 0))

/-- Mark the first access unit that is not parsed. -/
def parseFirst : List AuUnit → List AuUnit
  | [] => []
  | a :: r => if a.parsed then a :: parseFirst r else { a with parsed := true } :: r

/-- A core parses one access unit more, of the first stream that has one (log entry 58). Its reads are speculative: those the MPU
denies are counted and nothing else (R363). -/
def State.parseNext (s : State) (c : Nat) : State :=
  if 4 ≤ s.parsedOn c then s
  else match s.src.dec.find? (fun e => e.2.core == some c && e.2.queue.any (fun a => !a.parsed)) with
    | none => s
    | some (i, x) =>
      let lines := ((x.queue.find? (fun a => !a.parsed)).bind (·.info)).elim [] (·.ahead)
      let s1 := s.setDec i { x with queue := parseFirst x.queue }
      let m := s1.mpu 5
      s1.setMpu 5 { m with spec := w32 (m.spec + countIf lines (fun a => !s1.mpuAllows 5 false (a / 64 * 64))) }

/-- A core parses up to four access units ahead. -/
def State.runAhead (s : State) (i : Nat) : State :=
  match (s.decRun i).core with
  | some c => each (upTo 4) s (fun s _ => s.parseNext c)
  | none => s

/-- An access unit is released to the decoder (R69, R91, R95, R96). -/
def State.takeAu (s : State) (i : Nat) (a : AuUnit) : State :=
  let s1 := s.setSrc i { s.srcRun i with lastArrival := s.time.room }
  let x := s1.decRun i
  let discard := s1.setDec i { x with discarded := x.discarded + 1 }
  match x.state with
  | .idle => s1
  | .running | .recovering => s1.setDec i { x with queue := x.queue ++ [a] }
  | .waitRap =>
    match a.rap with
    | some u => s1.beginDecode i u a
    | none => discard
  | .stopped =>
    match a.rap with
    | some u =>
      let (s2, starts) := s1.restartable i u
      let y := s2.decRun i
      if !starts then s2.setDec i { y with discarded := y.discarded + 1 }
      else
        let s3 := ((s2.setDec i { y with restarts := y.restarts + 1 }).loadSets i).beginDecode i u a
        if s3.summarising i then s3
        else s3.log 0x2020 [i, twos 32 u.poc, (s3.time.now - y.stoppedAt) / 1000000, y.lastClass]
    | none => discard

/-- An access unit is released, and its core parses ahead. -/
def State.releaseAu (s : State) (i : Nat) (a : AuUnit) : State := (s.takeAu i a).runAhead i

/-- `DECODE_RESTART` (R97). -/
def execDecodeRestart (dt : Nat) (p : Fin 4) (s : State) : Host.Outcome State Fault Refusal :=
  .next (s.serve dt p 0x0207 (fun s r =>
    let i := r.u8 0
    let k := srcKind (s.srcDesc i)
    if k = kindKinik ∨ k = kindHost then s.status p r stNotSupported
    else if k = kindOff ∨ !(s.srcRun i).subscribed then s.status p r stDenied
    else
      let x := s.decRun i
      (if x.state = .stopped then s.setDec i { x with restartOk := true } else s).status p r stOk))

/-! ## The rate window (R87) -/

/-- A 1 s window that has ended is judged, and the next begins. -/
def State.rateWindow (s : State) (i : Nat) : State :=
  let x := s.decRun i
  match x.window with
  | some (start, n) =>
    if s.time.room < start + 1000000000 then s
    else if 9 * x.cost < 8 * n then s.damage i 0x2019 (Config.stopPoc s.draw i) [w32 n, w32 x.cost, 0] x.queue.length
    else s.setDec i { x with window := some (start + (s.time.room - start) / 1000000000 * 1000000000, 0) }
  | none => s

/-- `DECODE_RATE_WINDOW`. -/
def execDecodeRateWindow (dt : Nat) (src : Fin 256) (s : State) : Host.Outcome State Fault Refusal :=
  .next ((s.elapse dt).rateWindow src)

/-! ## One access unit (R80, R92, R93) -/

/-- The largest spare capacity of a core that may hold streams. -/
def State.largestSpare (s : State) (i : Nat) : Nat :=
  (((upTo 4).filter s.coreUsable).map (fun c => s.coreSpare c i)).foldl max 0

/-- Activate the parameter sets of an access unit: unsupported, placed when its size differs, or kept. False when the stream has
stopped. -/
def State.activate (s : State) (i : Nat) (u : AuInfo) (h265 : Bool) (q : Active) : State × Bool :=
  let x := s.decRun i
  let p := q.sps
  match q.unsupported h265 u.tool with
  | some (f, bad) =>
    let s1 := s.setDec i { x with
      sps := some p, profile := p.profile, level := p.level, failedSet := some (bad.type, bad.bytes) }
    (s1.auDamage i 0x2016 u.poc [p.profile, p.level, f], false)
  | none =>
    let same : Bool := match x.sps with | some q => q.width == p.width && q.height == p.height | none => false
    if same && x.core.isSome then (s.setDec i { x with sps := some p, profile := p.profile, level := p.level }, true)
    else
      let (s1, placed) := s.place i p
      if placed then (s1, true)
      else
        let s2 := s1.leaveCore i
        let s3 := s2.setDec i { s2.decRun i with cost := s.admissionCost i p, profile := p.profile, level := p.level }
        (s3.auDamage i 0x201B u.poc [s.admissionCost i p / 1000, s1.largestSpare i / 1000, 0], false)

/-- The reference that a picture needs and misses, if any (R92). -/
def DecRun.missing (x : DecRun) (h265 : Bool) (u : AuInfo) : Option RefName :=
  let maxFn : Nat := (x.sps.map (·.maxFrameNum)).getD 65536
  let atPoint : Bool := match x.recoverTo with
    | some t => if h265 then decide (t ≤ u.poc) else decide ((u.frameNum - t) % maxFn < (maxFn : Int) / 2)
    | none => true
  let before (r : RefName) : Bool := match r with
    | .short k => if h265 then decide (k < x.startKey) else decide ((maxFn : Int) / 2 ≤ (k - x.startKey) % maxFn)
    | .long _ => true
  let have' (k : RefName) : Bool := x.dpb.any (fun y => y.named k && !y.absent)
  let gap : Option RefName := match x.prevFrameNum, x.sps with
    | some f, some p =>
      if !h265 && u.kind != .idr && u.frameNum != f && u.frameNum != (f + 1) % maxFn && !p.gapsAllowed then
        let next : Nat := (f + 1) % maxFn
        some (.short next)
      else none
    | _, _ => none
  (u.refs.find? (fun k =>
    !have' k && !(decide (x.state = .recovering) && !atPoint && before k && !x.seen.contains k))).or gap

/-- The number that `MISSING_REF` gives of a missing reference; that of a long-term one of H.264 is open (log entry 58). -/
def refNumber (draw : Nat) : RefName → Nat
  | .short n => twos 32 n
  | .long _ => w32 (Config.measured draw)

/-- The frames of a gap of `frame_num` that the stream allows join the DPB (R92). -/
def DecRun.gapped (x : DecRun) (h265 : Bool) (u : AuInfo) (p : Sps) : List DpbPic :=
  match x.prevFrameNum with
  | some f =>
    if !h265 && u.kind != .idr && u.frameNum != f && u.frameNum != (f + 1) % p.maxFrameNum then gapFrames p f u.frameNum x.dpb
    else x.dpb
  | none => x.dpb

/-- A sound picture is stored, joins the DPB and is output in its turn (R81, R89). It raises the latency of the pictures that wait
behind it in output order when it is output itself, as `sps_max_latency_increase_plus1` counts it. -/
def State.keepPicture (s : State) (i : Nat) (u : AuInfo) (a : AuUnit) (p : Sps) (h265 : Bool) : State :=
  let clear : Bool := u.kind == .idr || u.kind == .bla || clearsRefs u
  let s1 := if clear then s.flushOutput i else s
  let x := s1.decRun i
  let old := if clear then [] else markRefs p u (x.gapped h265 u p)
  let reached : Bool := match x.recoverTo with
    | some t =>
      if h265 then decide (t ≤ u.poc)
      else decide ((u.frameNum - t) % (p.maxFrameNum : Int) < (p.maxFrameNum : Int) / 2)
    | none => true
  let recovering : Bool := decide (x.state = .recovering) && !reached
  let picture := s.draw
  let name := if clearsRefs u then (match refNameOf h265 u with | .short _ => RefName.short 0 | r => r) else refNameOf h265 u
  let pic : DpbPic := {
    poc := if clearsRefs u then 0 else u.poc, ref := name, isRef := h265 || u.isRef, waiting := u.output && !recovering
    recovering := recovering, frame := frameOf picture p a u.annex }
  let aged := old.map (fun y =>
    if y.waiting && pic.waiting && decide (u.poc < y.poc) then { y with latency := y.latency + 1 } else y)
  let longs : List RefName := match u.marking with
    | .ops ops => ops.filterMap (fun o => match o with | .toLong _ k => some (.long k) | _ => none)
    | _ => []
  let s2 := s1.setDec i { x with
    state := if recovering then .recovering else .running
    recoverTo := if recovering then x.recoverTo else none
    dpb := (aged ++ [pic]).filter (fun y => y.isRef || y.waiting)
    prevFrameNum := if clearsRefs u then some 0 else if u.isRef then some u.frameNum else x.prevFrameNum
    seen := if recovering then name :: (longs ++ x.seen) else x.seen
    window := some (match x.window with
      | some (t, n) => (t, n + p.width * p.height)
      | none => (s1.time.room, p.width * p.height)) }
  (s2.storePicture i picture p).bumpOutput i

/-- Bits of a core beyond 1.2 Gb/s are recorded (R86), in a record whose parameters no rule defines, so that they are zero (R321).
The rate is taken over the last second of room time, for which the spec gives no window (log entry 58). -/
def State.countBits (s : State) (i bytes : Nat) : State :=
  match (s.decRun i).core with
  | some c =>
    let l := ((Tbl.get s.src.coreBits [] c).filter (fun e => decide (s.time.room < e.1 + 1000000000)))
      ++ [(s.time.room, bytes)]
    let s1 := { s with src := { s.src with coreBits := Tbl.set s.src.coreBits [] c l } }
    if 150000000 < sumOf (l.map (·.2)) then
      s1.logLimited 0x2022 c tenSeconds 1 0 (fun _ _ => [])
    else s1
  | none => s

/-- Decode a picture whose access unit falls due. -/
def State.decodePicture (s : State) (i : Nat) (u : AuInfo) (a : AuUnit) : State :=
  let h265 := srcKind (s.srcDesc i) == kindH265
  let last := (s.srcRun i).lastRtpSeq
  let x := s.decRun i
  let starting : Bool := x.dpb.isEmpty && x.window.isNone
  if u.kind = .rasl ∧ x.dropRasl then s.setDec i { x with discarded := x.discarded + 1 }
  else
    let drop : Bool := if u.irap then u.kind == .bla || (u.kind == .cra && starting) else x.dropRasl
    let sets := replaceSets x.sets u.sets
    let s1 := s.setDec i { x with dropRasl := drop, sets := if a.incomplete then x.sets else sets }
    match a.incomplete, activeSets h265 sets u.pps, u.syntaxBad with
    | true, _, _ => s1.auDamage i 0x2010 u.poc [a.ts, a.missing, last]
    | false, .inl (t, k), _ => s1.auDamage i 0x2014 u.poc [t, k, last]
    | false, .inr _, some d => s1.auDamage i 0x2012 u.poc [twos 32 u.poc, d, last]
    | false, .inr q, none =>
      let (s2, ok) := s1.activate i u h265 q
      if !ok then s2
      else match (s2.decRun i).missing h265 u with
        | some k => s2.auDamage i 0x2013 u.poc [twos 32 u.poc, refNumber s2.draw k, last]
        | none =>
          -- A reference that lies in a frozen channel cannot be read (R252).
          let unread := if u.refs = [] then none else s2.frozenHits.head?
          match u.coverageBad, u.refReadBad.or unread, u.hashBad with
          | some k, _, _ => s2.auDamage i 0x2015 u.poc [twos 32 u.poc, k, last]
          | none, some c, _ => s2.auDamage i 0x2018 u.poc [twos 32 u.poc, c, last]
          | none, none, some pl => s2.auDamage i 0x2017 u.poc [twos 32 u.poc, pl, last]
          | none, none, none => (s2.countBits i a.bytes).keepPicture i u a q.sps h265

/-- `DECODE_PICTURE_DONE` (R93): the oldest access unit of the stream falls due. -/
def execDecodePictureDone (dt : Nat) (src : Fin 256) (s : State) : Host.Outcome State Fault Refusal :=
  let s1 := (s.elapse dt).rateWindow src
  let x := s1.decRun src
  match x.queue with
  | a :: rest =>
    let s2 := s1.setDec src { x with queue := rest }
    match a.info with
    | some u => .next ((s2.decodePicture src u a).runAhead src)
    | none =>
      if a.incomplete then
        .next (s2.auDamage src 0x2010 (Config.stopPoc s2.draw src) [a.ts, a.missing, (s2.srcRun src).lastRtpSeq])
      else .next (s2.runAhead src)
  | [] => .next s1

/-! ## Summaries (R94) -/

/-- `DAMAGE_SUMMARY_PERIOD`: a record for a 10 s period with a stop. -/
def execDamageSummaryPeriod (dt : Nat) (src : Fin 256) (s : State) : Host.Outcome State Fault Refusal :=
  let s1 := s.elapse dt
  let x := s1.decRun src
  match x.summary with
  | some (since, n, code, poc) =>
    if s1.time.now < since + tenSeconds then .next s1
    else
      let s2 := s1.setDec src { x with summary := some (since + tenSeconds, 0, code, poc) }
      .next (if n = 0 then s2 else s2.log 0x2021 [src, n, code, twos 32 poc])
  | none => .next s1

/-- `SUMMARY_END`: 60 s without a stop. -/
def execSummaryEnd (dt : Nat) (src : Fin 256) (s : State) : Host.Outcome State Fault Refusal :=
  let s1 := s.elapse dt
  let x := s1.decRun src
  let last := x.stopTimes.getLast?.getD 0
  if x.summary.isSome ∧ last + 60000000000 ≤ s1.time.now then
    let s2 := s1.setDec src { x with summary := none, resumed := none }
    match x.state, x.resumed with
    | .running, some (q, ms, ev) => .next (s2.log 0x1011 [src, q, ms, ev])
    | .stopped, _ =>
      .next (s2.log 0x1010 [src, 3, ((s2.srcRun src).lastMint.map (·.seq)).getD 0, w32 s2.time.room])
    | _, _ => .next s2
  else .next s1

/-! ## Cores (R88) and status (R95) -/

/-- A decoder core fails (R88): its streams stop with CORE_FAULT, it is marked failed and powered down. -/
def State.coreFails (s : State) (c : Nat) : State :=
  let streams := (s.src.dec.filter (fun e => e.2.core == some c)).map (·.1)
  let s1 := { s with src := { s.src with cores := Tbl.set s.src.cores {} c { failed := true } } }
  let s2 := each streams s1 (fun s i =>
    let x := s.decRun i
    let s1 := s.setDec i { x with core := none }
    match x.state with
    | .running | .recovering => s1.damage i 0x201A (Config.stopPoc s.draw i) [c, 0, (s1.srcRun i).lastRtpSeq] x.queue.length
    | _ => s1)
  s2.retireCore c

/-- `DECODER_CORE_FAULT`. -/
def execDecoderCoreFault (dt : Nat) (core : Fin 4) (s : State) : Host.Outcome State Fault Refusal :=
  let s1 := s.elapse dt
  if (s1.domain (4 + core)).on ∧ !(Tbl.get s1.src.cores {} core).failed then .next (s1.coreFails core) else .next s1

/-- A record of `DECODE_STATUS_GET`. -/
def State.decodeRecord (s : State) (i : Nat) : List Nat :=
  let x := s.decRun i
  [i, decCode x.state, x.core.getD 0xFF, x.cost / 1000, x.profile * 256 + x.level, x.lastClass, twos 32 x.lastPoc,
    x.discarded, x.stops, x.restarts]

/-- `DECODE_STATUS_GET` (R95), by source descriptor. -/
def execDecodeStatusGet (dt : Nat) (p : Fin 4) (s : State) : Host.Outcome State Fault Refusal :=
  .next (s.serve dt p 0x020B (fun s r =>
    match cutList (r.u16 0) (r.u16 2) 256 40 r.room with
    | none => s.status p r stNotSupported
    | some l => s.answer p r stOk (listPayload (l.map (fun i => wordsLE (s.decodeRecord i))))))

end Sys2Proof.Machine
end

