-- ==== Sys2Proof/Machine/Ingest.lean ====
section
/-!
DEFINITION. Ethernet ingest (R64 to R69, R74, R209): filtering and delivery of packets, the jitter buffer, capture times,
RTCP, and the loss of sources (R78).
-/
namespace Sys2Proof.Machine

/-- Drop a frame and count it on its port (R64). -/
def State.dropFrame (s : State) (port : Nat) : State :=
  s.setEth port { s.eth port with dropped := (s.eth port).dropped + 1 }

/-! ## Matching (Table 2-4, R64, R68) -/

/-- The frame uses only options the port supports. -/
def frameAllowed (d : EthDesc) (k : EthPacket) : Bool :=
  decide (k.size ≤ 9216) && !k.stacked && !k.fragment && !k.options
    && (match k.vlan with | none => true | some v => ethVlan d != 0 && v == ethVlan d)

/-- Payload types whose packets would read as RTCP when they carry a marker. -/
def rtcpLike (pt : Nat) : Bool := 72 ≤ pt && pt ≤ 76

/-- An enabled RTP descriptor of the port with a group address. -/
def State.rtpOf (s : State) (port dst i : Nat) : Bool :=
  let d := s.srcDesc i
  kindIsRtp (srcKind d) && srcPort d == port && srcGroup d == dst && (s.srcRun i).subscribed

/-- A descriptor takes a UDP port for RTCP (R68). -/
def State.takesRtcp (s : State) (port dst udp i : Nat) : Bool :=
  let d := s.srcDesc i
  let other := (s.src.run.map (·.1)).any (fun j =>
    j != i && s.rtpOf port dst j && srcUdpPort (s.srcDesc j) == srcUdpPort d + 1)
  (udp == srcUdpPort d + 1 && srcUdpPort d != 65535 && !other)
    || (udp == srcUdpPort d && !rtcpLike (srcPayloadType d))

/-- The descriptor a packet is delivered to: one whose source filter names the sender goes ahead of one without. -/
def State.deliverTo (s : State) (port : Nat) (k : EthPacket) (takes : Nat → Bool) : Option Nat :=
  let l := (s.src.run.map (·.1)).filter (fun i => s.rtpOf port k.dst i && takes i)
  (l.find? (fun i => srcFilter (s.srcDesc i) != 0 && srcFilter (s.srcDesc i) == k.src)).or
    (l.find? (fun i => srcFilter (s.srcDesc i) == 0))

/-! ## SRTP (R66, R353) -/

/-- The index that RFC 3711 estimates for a sequence number: the one nearest to the highest authenticated. -/
def ReplayWin.index (w : ReplayWin) (seq : Nat) : Int :=
  match w.top with
  | none => seq
  | some t =>
    let d := (seq : Int) - t % 65536
    t + (if t % 65536 < 32768 then (if 32768 < d then d - 65536 else d) else if d < -32768 then d + 65536 else d)

/-- The window once an index is received; none when it is a replay: received before, or 128 or more behind (R66). -/
def ReplayWin.accept (w : ReplayWin) (k : Int) : Option ReplayWin :=
  let t := w.top.getD k
  if k ≤ t - 128 ∨ w.seen.contains k then none
  else
    let m := max t k
    some { top := some m, seen := (k :: w.seen).filter (fun j => decide (m - 128 < j)) }

/-- Count what failed authentication or is a replay, and report it (R66). -/
def State.authFails (s : State) (i : Nat) : State :=
  let x := s.srcRun i
  (s.setSrc i { x with cAuth := x.cAuth + 1 }).logLimited 0x1030 i tenSeconds 1 0 (fun n _ => [i, n, x.lastRtpSeq, 0])

/-- A source's contexts restart where a key was loaded (R353). -/
def SrcRun.restarted (x : SrcRun) : SrcRun :=
  if x.srtpRestart then { x with srtpRestart := false, srtp := [], srtcp := [] } else x

/-- The packet or datagram was authentic under a key that is loaded. -/
def State.keyed (s : State) (i : Nat) (ok : Bool) : Bool := ok && Tbl.has s.sec.slots (srcKeySlot (s.srcDesc i))

/-- Authenticate an RTP packet (R66): true when it may be processed. -/
def State.authRtp (s : State) (i : Nat) (k : RtpPacket) : State × Bool :=
  if srcSrtp (s.srcDesc i) = 0 then (s, true)
  else
    let x := (s.srcRun i).restarted
    let w := Tbl.get x.srtp {} k.ssrc
    match if s.keyed i k.authOk then w.accept (w.index k.seq) else none with
    | some v => (s.setSrc i { x with srtp := Tbl.put x.srtp k.ssrc v }, true)
    | none => ((s.setSrc i x).authFails i, false)

/-- Authenticate an RTCP datagram, which carries its index (R66). -/
def State.authRtcp (s : State) (i : Nat) (k : RtcpHead) : State × Bool :=
  if srcSrtp (s.srcDesc i) = 0 then (s, true)
  else
    let x := (s.srcRun i).restarted
    match if s.keyed i k.authOk then (Tbl.get x.srtcp {} k.ssrc).accept k.index else none with
    | some v => (s.setSrc i { x with srtcp := Tbl.put x.srtcp k.ssrc v }, true)
    | none => ((s.setSrc i x).authFails i, false)

/-! ## Capture times (R74, R209) -/

/-- Nanoseconds of a number of 90 kHz ticks, rounded down: the older time. The spec states a rounding for PTP direct only; that
of a sender report is the model's (log entry 58). -/
def ticksNs (k : Int) : Int := floorDiv (k * 100000) 9

/-- Capture time of PTP direct (row 2): arrival less d, d rounded up. -/
def ptpDirect (d : SrcDesc) (arrival ts : Nat) : Nat :=
  let m := srcMediaclk d + arrival * 90000 / 1000000000
  twos 64 ((arrival : Int) + ticksNs (-(signed 32 (subMod 32 m ts))))

/-- An NTP time as room time. Its fraction is rounded down to ns: the spec states no rounding (log entry 58). -/
def ntpRoom (ntp : Nat) (utc : Int) : Int :=
  (((ntp / 2 ^ 32 : Nat) : Int) - 2208988800 + utc) * 1000000000 + ((ntp % 2 ^ 32 * 1000000000 / 2 ^ 32 : Nat) : Int)

/-- Capture time of a sender report or an RFC 6051 element (row 3). -/
def State.reportCapture (s : State) (i ts : Nat) (element : Option Nat) : Option Nat :=
  match s.time.utcOffset with
  | none => none
  | some utc =>
    match element, (s.srcRun i).sr with
    | some ntp, _ => some (twos 64 (ntpRoom ntp utc))
    | none, some (ntp, ts0, t) =>
      if s.time.now ≤ t + 30000000000 then some (twos 64 (ntpRoom ntp utc + ticksNs (signed 32 (subMod 32 ts ts0))))
      else none
    | none, none => none

/-- Entries cover the rows from `row` to `rows` exactly, in order. -/
def annexCovers (rows : Nat) (row : Nat) : List AnnexEntry → Bool
  | [] => row == rows
  | e :: r => e.firstRow == row && e.rowCount != 0 && annexCovers rows (row + e.rowCount) r

/-- The first check of R209 that an annex fails. -/
def State.annexFault (s : State) (a : Annex) : Option Nat :=
  if a.version ≠ 1 then some 1
  else if !a.crcOk then some 2
  else if !annexCovers a.rows 0 a.entries ∨ a.entries = [] then some 3
  else if !a.traceable then some 4
  else if !s.time.traceable then some 5
  else none

/-- Oldest capture time and highest evidence of an annex: those of the frame as a whole. -/
def annexMint (l : List AnnexEntry) : Nat × Nat :=
  match l with
  | [] => (0, 0)
  | e :: r => (r.foldl (fun m x => min m x.capture) e.capture, r.foldl (fun m x => max m x.evidence) e.evidence)

/-- Evidence row, evidence and capture time of an access unit (Table 2-5); an annex that fails is recorded. -/
def State.captureTime (s : State) (i ts arrival : Nat) (annex : Option Annex) (element : Option Nat) :
    State × Nat × Nat × Nat :=
  let d := s.srcDesc i
  let lower (s : State) : State × Nat × Nat × Nat :=
    if srcTsRef d = 1 ∧ s.time.traceable then (s, 2, 0, ptpDirect d arrival ts)
    else if srcTsRef d = 2 ∧ s.time.traceable then
      match s.reportCapture i ts (if srcNtp64 d = 0 then none else element) with
      | some t => (s, 3, 0, t)
      | none => (s, 6, 3, arrivalCapture d arrival)
    else (s, 6, 3, arrivalCapture d arrival)
  if srcArrivalOnly d then (s, 6, 3, arrivalCapture d arrival)
  else match annex with
    | some a =>
      if !srcAnnex d then lower s
      else match s.annexFault a with
        | some f => lower (s.logLimited 0x2030 i tenSeconds 1 0 (fun n _ => [i, f, n, 0]))
        | none => (s, 1, (annexMint a.entries).2, (annexMint a.entries).1)
    | none => lower s

/-! ## The jitter buffer (R69) -/

/-- Row of Table 2-5, evidence and capture time of an access unit, as fixed when its packets arrived (R74, R76): of the packet
with an annex, else of one with an RFC 6051 element, else of its first packet. -/
def auEvidence (first : HeldPacket) (l : List HeldPacket) : HeldPacket :=
  ((l.find? (fun p => p.row == 1)).or (l.find? (fun p => p.row == 3 && p.pkt.ntp64.isSome))).getD first

/-- Release the packets of one access unit, lowest sequence first, to the decoder; the position moves to its last. -/
def State.emitAu (s : State) (i : Nat) (l : List HeldPacket) (incomplete : Bool) (missing : Nat) : State :=
  match l with
  | [] => s
  | first :: _ =>
    let last := (l.getLast?.getD first).ext
    let info := l.findSome? (fun p => p.pkt.au)
    let x := s.srcRun i
    let left := x.packets.filter (fun p => decide (last < p.ext) && p.pkt.ts != first.pkt.ts)
    let late := countIf x.packets (fun p => decide (p.ext ≤ last) || p.pkt.ts == first.pkt.ts) - l.length
    let s1 := s.setSrc i { x with
      packets := left, pos := some last, lastTs := some first.pkt.ts, cLost := x.cLost + missing, cLate := x.cLate + late }
    let e := auEvidence first l
    s1.releaseAu i {
      ts := first.pkt.ts, missing := missing, incomplete := incomplete
      arrival := first.arrival, capture := e.capture, row := e.row, evidence := e.evidence, bytes := sumOf (l.map (·.pkt.size))
      info := info }

/-- The access unit at the head of the buffer when it is complete: consecutive packets of one timestamp from `ext` up to
the marker. -/
def headAu (ext ts : Nat) : List HeldPacket → Option (List HeldPacket)
  | [] => none
  | p :: r =>
    if p.ext = ext ∧ p.pkt.ts = ts then
      if p.pkt.marker then some [p] else (headAu (ext + 1) ts r).map (p :: ·)
    else none

/-- Release every access unit that is complete and in turn (fuel: packets held). -/
def State.releaseReady (s : State) (i : Nat) : Nat → State
  | 0 => s
  | n + 1 =>
    match (s.srcRun i).pos, (s.srcRun i).packets with
    | some p, first :: r =>
      match headAu (p + 1) first.pkt.ts (first :: r) with
      | some l => (s.emitAu i l false 0).releaseReady i n
      | none => s
    | _, _ => s

/-- Flush the buffer: nothing is held, and the next packet received sets the position. -/
def SrcRun.flushed (x : SrcRun) : SrcRun := { x with packets := [], pos := none }

/-- Bytes in the regulator of jitter-buffer writes now: it drains at 1.2 GB/s (R259). -/
def State.jitterLevel (s : State) : Nat := s.src.jitterFill - (s.time.now - s.src.jitterAt) * 12 / 10

/-- The regulator takes the bytes of a packet, where it has room for them: it holds what 1 ms of the cap writes (log entry 58). -/
def State.jitterTakes (s : State) (bytes : Nat) : Option State :=
  let n := s.jitterLevel + bytes
  if 1200000 < n then none else some { s with src := { s.src with jitterFill := n, jitterAt := s.time.now } }

/-- Hold a packet at its extended sequence number, with the evidence its arrival gives, or drop it at a limit. One whose place
falls on a frozen channel is lost (R252), and so is one beyond the cap of R259. -/
def State.holdPacket (s : State) (i ext : Nat) (k : RtpPacket) : State :=
  let x := s.srcRun i
  if s.frozenHits ≠ [] then s
  else if 2048 ≤ x.packets.length ∨ 2 ^ 23 < sumOf (x.packets.map (·.pkt.size)) + k.size then
    s.setSrc i { x with cLost := x.cLost + 1 }
  else match s.jitterTakes k.size with
  | none => s.setSrc i { x with cLost := x.cLost + 1 }
  | some s =>
    let (s1, row, ev, cap) := s.dramRequest.captureTime i k.ts s.time.room (k.au.bind (·.annex)) k.ntp64
    let held : HeldPacket := { ext := ext, arrival := s.time.room, row := row, evidence := ev, capture := cap, pkt := k }
    let behind := x.packets.any (fun p => decide (ext < p.ext))
    (s1.setSrc i { x with
      packets := insertBy (fun a b => decide (a.ext ≤ b.ext)) held x.packets
      cReorder := if behind then x.cReorder + 1 else x.cReorder }).releaseReady i (x.packets.length + 1)

/-- A packet of the accepted SSRC (R69). The spec does not say which sequence `RTP_RESYNC` gives as the old one: the model gives
that of the last packet received before it (log entry 58). -/
def State.bufferPacket (s : State) (i : Nat) (k : RtpPacket) : State :=
  let old := (s.srcRun i).lastRtpSeq
  let x : SrcRun := { s.srcRun i with lastRtpSeq := k.seq }
  let s1 := s.setSrc i x
  let first := 65536 + k.seq
  match x.pos with
  | none => (s1.setSrc i { x with pos := some (first - 1) }).holdPacket i first k
  | some p =>
    let d := signed 16 (subMod 16 k.seq p)
    let ext := ((p : Int) + d).toNat
    if d = 0 ∨ x.packets.any (fun q => q.ext == ext) then s1.setSrc i { x with cDup := x.cDup + 1 }
    else if (-2048 ≤ d ∧ d < 0) ∨ x.lastTs = some k.ts then s1.setSrc i { x with cLate := x.cLate + 1 }
    else if d < 0 ∨ 2048 < d then
      let s2 := (s1.setSrc i { x.flushed with pos := some (first - 1) }).log 0x1041 [i, old, k.seq, 0]
      (s2.discontinuity i 1).holdPacket i first k
    else s1.holdPacket i ext k

/-- Lock to another SSRC: the buffer is flushed and decoding waits for a random-access picture (R69). -/
def State.changeSsrc (s : State) (i new : Nat) : State :=
  let x := s.srcRun i
  let s1 := s.setSrc i { x.flushed with lastTs := none, ssrc := some new, otherSsrc := none, ssrcAt := s.time.now, sr := none }
  (s1.log 0x1040 [i, x.ssrc.getD 0, new, 0]).discontinuity i 2

/-- The locked SSRC has been silent for `LOSS_TIMEOUT`. -/
def State.ssrcSilent (s : State) (i : Nat) : Bool :=
  decide ((s.srcRun i).ssrcAt + srcLossTimeout (s.srcDesc i) * 1000000 ≤ s.time.now)

/-- A packet delivered to a descriptor: its SSRC is accepted, or noted and dropped (R69). -/
def State.deliverRtp (s : State) (port i : Nat) (k : RtpPacket) : State :=
  let d := s.srcDesc i
  let (s1, ok) := s.authRtp i k
  if !ok then s1
  else if k.unsupported then s1.dropFrame port
  else
    let x := s1.srcRun i
    let accept (s : State) : State := s.bufferPacket i k
    if srcSsrcMatch d then
      if k.ssrc = srcSsrc d then accept (s1.setSrc i { x with ssrc := some k.ssrc, ssrcAt := s1.time.now })
      else s1.dropFrame port
    else match x.ssrc with
      | none => accept (s1.setSrc i { x with ssrc := some k.ssrc, ssrcAt := s1.time.now })
      | some l =>
        if l = k.ssrc then accept (s1.setSrc i { x with ssrcAt := s1.time.now, otherSsrc := none })
        else if s1.ssrcSilent i then accept (s1.changeSsrc i k.ssrc)
        else (s1.setSrc i { x with otherSsrc := some k.ssrc }).dropFrame port

/-! ## Frames (R64, R65, R68) -/

/-- Note the query of an older version, which sets the version the port reports in (RFC 3376 section 7.2, RFC 3810
section 8.2). -/
def EthRun.heardQuery (x : EthRun) (now : Nat) (q : MembershipQuery) : EthRun :=
  match q.mld, q.version with
  | false, 1 => { x with igmp1 := some now }
  | false, 2 => if q.group = 0 then { x with igmp2 := some now } else x
  | true, 1 => if q.group = 0 then { x with mld1 := some now } else x
  | _, _ => x

/-- The record that answers a query about a group (RFC 3376 section 5.2): its state, or what of it concerns the sources asked
for; none when nothing does. -/
def queryAnswer (q : MembershipQuery) (m : Option (List Nat)) : Option (Nat × List Nat) :=
  match m, q.sources with
  | none, [] => some (2, [])
  | some a, [] => some (1, a)
  | none, l => some (1, l)
  | some a, l => let both := a.filter l.contains; if both = [] then none else some (1, both)

/-- Answer a membership query, for every group joined on the port or the one asked for (R65). The delay of an answer is left
out (log entry 56). -/
def State.answerQuery (s : State) (port : Nat) (q : MembershipQuery) : State :=
  let s1 := s.setEth port ((s.eth port).heardQuery s.time.now q)
  let groups := ((s1.src.run.filterMap (fun e => e.2.joined.bind (fun j =>
    if j.port = port ∧ q.mld = !isMapped4 j.group ∧ (q.group = 0 ∨ j.group = q.group) then some j.group else none))).foldl
      insertNat [])
  each groups s1 (fun s g =>
    match queryAnswer q (s.memberOf port g) with
    | some (k, l) => s.sendMembership port g k l false
    | none => s)

/-- RTCP delivered to a descriptor. -/
def State.deliverRtcp (s : State) (i : Nat) (k : EthPacket) : State :=
  match k.body with
  | .rtcpSr h ntp ts =>
    let (s1, good) := s.authRtcp i h
    let x := s1.srcRun i
    if good ∧ x.ssrc = some h.ssrc then
      s1.setSrc i { x with sr := some (ntp, ts, s1.time.now), rrTo := some (k.src, k.udpSrc) }
    else s1
  | .rtcpBye h =>
    let (s1, good) := s.authRtcp i h
    if good ∧ (s1.srcRun i).ssrc = some h.ssrc then s1.loseSource i 2 else s1
  | .rtcpOther h => (s.authRtcp i h).1
  | _ => s

/-- A frame that passes the filters of the port. An RTP packet goes to the descriptor that R64 names, which accepts its own payload
type only; a datagram whose second octet is 200 to 204 is RTCP (R68). -/
def State.takeFrame (s : State) (port : Nat) (d : EthDesc) (k : EthPacket) : State :=
  let toRtcp : Option Nat := s.deliverTo port k (s.takesRtcp port k.dst k.udpDst)
  let reply (kind : Nat) (mine : Bool) : State := if mine then s.ethSend port (.reply kind k.src) else s.dropFrame port
  match k.body with
  | .rtp pkt =>
    let reads : Bool := pkt.marker && rtcpLike pkt.payloadType
    match s.deliverTo port k (fun i => srcUdpPort (s.srcDesc i) == k.udpDst) with
    | some i =>
      let t := srcPayloadType (s.srcDesc i)
      if reads && !rtcpLike t then s
      else if pkt.payloadType = t then s.deliverRtp port i pkt else s.dropFrame port
    | none => if reads && toRtcp.isSome then s else s.dropFrame port
  | .rtcpSr .. | .rtcpBye .. | .rtcpOther .. =>
    match toRtcp with
    | some i => s.deliverRtcp i k
    | none => s.dropFrame port
  | .arpRequest t => reply 1 (t != 0 && t == mapped4 (ethNet d 16 4))
  | .neighbourSolicit t => reply 2 (t != 0 && (t == ethNet d 24 16 || t == ethNet d 40 16))
  | .icmpEcho => reply 3 ((ethOwn d).contains k.dst)
  | .membershipQuery q => s.answerQuery port q
  | .other => s.dropFrame port

/-- `ETH_PACKET_RECEIVED` (R64): on an enabled port that is `UP`. -/
def execEthPacketReceived (dt : Nat) (port : Fin 8) (pkt : EthPacket) (s : State) : Host.Outcome State Fault Refusal :=
  let s1 := s.elapse dt
  match (s1.eth port).setting with
  | some d =>
    if !s1.windowUp ∨ !ethOn d ∨ !(s1.eth port).up then .next s1
    else if frameAllowed d pkt then .next (s1.takeFrame port d pkt)
    else .next (s1.dropFrame port)
  | none => .next s1

/-! ## Timers -/

/-- `MEMBERSHIP_REPORT_REPEAT` (R65). -/
def execMembershipReportRepeat (dt : Nat) (src : Fin 256) (s : State) : Host.Outcome State Fault Refusal :=
  let s1 := s.elapse dt
  let x := s1.srcRun src
  match x.joined with
  | some j =>
    if x.reportDue then .next ((s1.setSrc src { x with reportDue := false }).reportJoin j.port j.group [j.filter])
    else .next s1
  | none => .next s1

/-- `RTCP_RR_SEND` (R68): to where the sender's reports come from. -/
def execRtcpRrSend (dt : Nat) (src : Fin 256) (s : State) : Host.Outcome State Fault Refusal :=
  let s1 := s.elapse dt
  let d := s1.srcDesc src
  match (s1.srcRun src).rrTo with
  | some (a, port) =>
    if (s1.srcRun src).subscribed ∧ kindIsRtp (srcKind d) ∧ srcRtcpRr d then
      .next (s1.ethSendTo (srcPort d) a (.rtcpRr src a port))
    else .next s1
  | none => .next s1

/-- `JITTER_DEADLINE` (R69): the access unit at the head is released incomplete. -/
def execJitterDeadline (dt : Nat) (src : Fin 256) (s : State) : Host.Outcome State Fault Refusal :=
  let s1 := s.elapse dt
  let x := s1.srcRun src
  match x.pos, x.packets with
  | some p, first :: _ =>
    if first.arrival + srcJitter (s1.srcDesc src) * 1000000 ≤ s1.time.room then
      let l := x.packets.filter (fun q => q.pkt.ts == first.pkt.ts)
      let last := (l.getLast?.getD first).ext
      let missing := last - p - countIf x.packets (fun q => decide (q.ext ≤ last))
      .next ((s1.emitAu src l true missing).releaseReady src x.packets.length)
    else .next s1
  | _, _ => .next s1

/-- `SSRC_CHANGED` (R69). -/
def execSsrcChanged (dt : Nat) (src : Fin 256) (s : State) : Host.Outcome State Fault Refusal :=
  let s1 := s.elapse dt
  match (s1.srcRun src).otherSsrc with
  | some new => if s1.ssrcSilent src then .next (s1.changeSsrc src new) else .next s1
  | none => .next s1

/-- A `SURFACE_PUBLISH` of a surface, rung by a room time, waits to be served. -/
def State.publishWaits (s : State) (surf by' : Nat) : Bool :=
  (upTo 4).any (fun p =>
    let q := s.port p
    let is (r : Request) : Bool := r.opcode == 0x0205 && r.u8 0 == surf && decide (r.time ≤ by')
    (match q.inHand with | some r => is r | none => false)
      || q.ring.any (fun i => is (parseRequest p (Tbl.get q.slots 0 i) (Tbl.get q.reqTime 0 i) none)))

/-- `SOURCE_LOSS_TIMEOUT` (R78): what arrives at the very time of the expiry is in time, so the source is lost after it; a publish
in time is judged by its doorbell. -/
def execSourceLossTimeout (dt : Nat) (src : Fin 256) (s : State) : Host.Outcome State Fault Refusal :=
  let s1 := s.elapse dt
  let d := s1.srcDesc src
  let due := (s1.srcRun src).lastArrival + srcLossTimeout d * 1000000
  let waits := srcKind d == kindHost && s1.publishWaits (srcPort d) due
  if due < s1.time.room ∧ !waits then .next (s1.loseSource src 1) else .next s1

end Sys2Proof.Machine
end

