-- ==== Sys2Proof/Machine/Compose.lean ====
section
/-!
DEFINITION. Composition rounds (R120 to R123), the bits of a tile record (Tables 4-5 to 4-7), and the messages that read
them.
-/
namespace Sys2Proof.Machine

/-! ## Tile records as bits (R116) -/

/-- A live rectangle (Table 4-6). -/
def LiveRect.word (r : LiveRect) : Nat :=
  packBits [(r.layer, 10), (r.rect.x0, 6), (r.rect.x1, 6), (r.rect.y0, 5), (r.rect.y1, 5), (r.stamp, 16), (b2n r.aged, 1)]

/-- The dense form (Table 4-7). -/
def DenseForm.word (d : DenseForm) : Nat :=
  let l := d.layers.take 16
  d.stamp % 65536 + b2n d.aged <<< 16 + ((l.length - 1) % 16) <<< 17
    + sumOf (((upTo l.length).zip l).map (fun e => (e.2 % 1024) <<< (21 + 10 * e.1)))

/-- A tile record (Table 4-5). -/
def TileRec.word (r : TileRec) : BitVec 256 :=
  let rects := (upTo 4).zip r.rects
  let body := match r.dense with
    | some d => 1 <<< 3 + (d.state % 4) <<< 4 + d.word <<< 28
    | none => r.rects.length % 8 + sumOf (rects.map (fun e => (e.2.state % 4) <<< (4 + 2 * e.1)
        + e.2.word <<< (28 + 49 * e.1)))
  BitVec.ofNat 256 (body + (r.slot % 4) <<< 12 + (r.sectors % 64) <<< 14 + (r.tag % 256) <<< 20 + (w32 r.crc) <<< 224)

/-! ## Frozen channels (R252) -/

/-- The data of a tile lies in a frozen channel (R252). -/
def State.tileFrozen (s : State) (o t : Nat) (r : TileRec) : Bool :=
  (s.tileGranules o t r).any (fun a => match s.mem.locate a with
    | some (c, _) => decide ((s.chan c).state = .frozen)
    | none => false)

/-! ## Rounds (R120, R121) -/

/-- Start a round of an output, when none is outstanding: the marks and the newest frames are its snapshot. -/
def State.startRound (s : State) (o : Nat) : State :=
  let x := s.outComp o
  match x.round with
  | some _ => s
  | none =>
    let r : Round := {
      startedAt := s.time.now, tiles := x.marks, frames := if x.marks = [] then [] else s.snapshot
      done := x.marks.isEmpty }
    s.setOutComp o { x with marks := [], round := some r }

/-- A frame start or TE of an output: the outstanding round publishes when it is complete, late or not; else it is
late. -/
def State.publishRound (s : State) (o : Nat) : State :=
  let x := s.outComp o
  match x.round with
  | none => s
  | some r =>
    if !r.done then
      s.setOutComp o { x with round := some { r with dueAt := some (r.dueAt.getD s.time.now) } }
    else
      let us := match r.dueAt with | some t => ceilDiv (s.time.now - t) 1000 | none => 0
      let s1 := s.setOutComp o { x with
        round := none, rounds := x.rounds + 1, lateRounds := if r.dueAt.isSome then x.lateRounds + 1 else x.lateRounds
        lateMax := max x.lateMax us }
      let s2 := s1.publish o r.recs none
      if r.dueAt.isSome then s2.logLimited 0x3010 o tenSeconds 1 us (fun n m => [o, n, m, 0]) else s2

/-- The tiles of a round that the pending commit has staged are staged again from the round's snapshot (R123); where its staging
came late, their marks are kept for the first round after settlement instead (R142). -/
def State.restageRound (s : State) (o : Nat) (r : Round) : State :=
  match s.sets.pending with
  | some c =>
    let x := s.outComp o
    let again := r.tiles.filter (fun t => Tbl.has x.staged t)
    if s.sets.effect.isSome then s
    else if c.stageLate then s.setOutComp o { x with lateMarks := union x.lateMarks again }
    else s.stage c r.frames o again
  | none => s

/-- Compose the tiles of a round under the active set. A tile whose data falls on a frozen channel is not published and stays
marked (R252). -/
def State.composeRound (s : State) (o : Nat) (r : Round) : State :=
  let c := s.sets.active
  let named (t : Nat) : List Nat :=
    (s.tile o t).record.slot :: ((Tbl.find (s.outComp o).staged t).map (·.slot)).toList
  let recs := r.tiles.map (fun t => (t, s.composeTile c r.frames s.sets.notReady o t (s.tile o t).reqTag (named t)))
  let kept := recs.filter (fun e => !s.tileFrozen o e.1 e.2)
  let lost := (recs.filter (fun e => s.tileFrozen o e.1 e.2)).map (·.1)
  let s1 := each kept s (fun s e => (s.noteSeq c r.frames s.sets.notReady e.2).storeTile o e.1 e.2)
  ((s1.setOutComp o { s1.outComp o with round := some { r with recs := kept, done := true } }).mark o lost).restageRound o
    r

/-- `ROUND_COMPLETE` (R120): nothing is composed while every composition group is off. -/
def execRoundComplete (dt : Nat) (out : Fin 32) (s : State) : Host.Outcome State Fault Refusal :=
  let s1 := s.elapse dt
  match (s1.outComp out).round with
  | some r => if r.done ∨ s1.composeOff then .next s1 else .next (s1.composeRound out r)
  | none => .next s1

/-! ## Messages -/

/-- Staging of an output: none 0, staging 1, complete 2. -/
def State.stagingState (s : State) (o : Nat) : Nat :=
  match s.sets.pending with
  | some c =>
    if c.eligibleAt.isNone ∨ stagedTiles s.sets.active s.sets.shadow o = [] then 0
    else if c.stagingDone then 2 else 1
  | none => if (s.outComp o).staged = [] then 0 else 2

/-- `COMPOSE_STATUS_GET` (R121). -/
def execComposeStatusGet (dt : Nat) (p : Fin 4) (s : State) : Host.Outcome State Fault Refusal :=
  .next (s.serve dt p 0x0305 (fun s r =>
    match cutList (r.u16 0) (r.u16 2) 32 20 r.room with
    | none => s.status p r stNotSupported
    | some l => s.answer p r stOk (listPayload (l.map (fun o =>
        let x := s.outComp o
        wordsLE [o, x.rounds, x.lateRounds, x.lateMax, s.stagingState o])))))

/-- `TILE_RECORD_GET` (R116, R427): a disabled output has no tile records. -/
def execTileRecordGet (dt : Nat) (p : Fin 4) (s : State) : Host.Outcome State Fault Refusal :=
  .next (s.serve dt p 0x0306 (fun s r =>
    let o := r.u8 0
    let n := if s.sets.active.shows o then outTiles o (s.outSet o) else 0
    if 31 < o ∨ n = 0 then s.status p r stNotSupported
    else match cutList (r.u16 2) (r.u16 4) n 32 r.room with
      | none => s.status p r stNotSupported
      | some l => s.answer p r stOk (listPayload (l.map (fun t =>
          let x := s.tile o t
          bytesOf (if x.written then x.record.word else 0))))))

end Sys2Proof.Machine
end

