-- ==== Sys2Proof/Machine/Assay.lean ====
section
/-!
DEFINITION. The assay (01_live_guarantee.md, R9, R52): ages, void reasons, the evaluation of a tile row with its hatch and legends,
void episodes, and the region of the proof test.
-/
namespace Sys2Proof.Machine

/-! ## Ages and reasons (R15, R21 to R27) -/

/-- Age in ms of a stamp at t_eval, and `AGED` as it is written back (R15). `AGED` exceeds every bound (R16), whatever the
stamp: where R15 asks first for a stamp ahead, the model follows R16 and R17 (log entry 58). Without `AGED`, a stamp up to
4,096 ms ahead has age zero (R18). -/
def stampAge (tEval stamp : Nat) (aged : Bool) : Nat × Bool :=
  let d := subMod 16 (ceilDiv tEval 1000000 % 65536) stamp
  (if aged then 60001 else if 61440 ≤ d then 0 else d, aged || decide (60000 < d ∧ d < 61440))

/-- The reason of a LIVE layer that carries a stamp of an age, under a bound (Table 1-5). -/
def State.reasonOf (s : State) (l age bound : Nat) : Option Nat :=
  let src := laySource (s.sets.active.layer l)
  if bound < age ∧ s.srcLost src then some 2
  else if s.frozen src then some 4
  else if bound < age then some 5
  else none

/-- The whole tile is voided as FAULT: CRC mismatch or remap, a tag of another set, a frozen channel (R22, R25, R26). -/
def State.tileFault (s : State) (o t : Nat) : Bool :=
  let x := s.tile o t
  x.fault || x.record.tag != x.reqTag || s.tileFrozen o t x.record

/-- The lowest of a list of reasons, which is the one of highest priority. -/
def topReason (l : List Nat) : Option Nat :=
  match l with | [] => none | x :: r => some (r.foldl min x)

/-- Smallest age bound of a list of layers. -/
def ConfigSet.leastBound (c : ConfigSet) : List Nat → Nat
  | [] => 60000
  | l :: r => min (c.bound l) (c.leastBound r)

/-- Evaluate one tile, voided as FAULT whole or not: its voided areas, and its record with `AGED` written back. -/
def State.evalTileAs (s : State) (fault : Bool) (o t tEval : Nat) : List VoidArea × TileRec :=
  let c := s.sets.active
  let x := s.tile o t
  let whole := tileRect (outW o (s.outSet o)) (outH o (s.outSet o)) t
  if !x.written then ([⟨none, 1, none, t, whole⟩], x.record)
  else
    match x.record.dense with
    | some d =>
      let (age, aged) := stampAge tEval d.stamp d.aged
      let bound := c.leastBound d.layers
      let reasons := (if fault then [1] else []) ++ (if d.state = 2 then [2] else if d.state = 1 then [3] else [])
        ++ (if d.stamped then d.layers.filterMap (fun l => s.reasonOf l age bound) else [])
      let areas := match topReason reasons with
        | some r =>
          let shown := if !d.stamped ∨ (d.state ≠ 0 ∧ (r = 2 ∨ r = 3)) then none else some age
          d.layers.map (fun l => ⟨some (c.leadOf l), r, shown, t, whole⟩)
        | none => []
      (areas, { x.record with dense := some { d with aged := aged } })
    | none =>
      let found := x.record.rects.map (fun r =>
        let (age, aged) := stampAge tEval r.stamp r.aged
        let shown := if r.state = 0 then some age else none
        let reason := if fault then some 1
          else if r.state = 2 then some 2 else if r.state = 1 then some 3 else s.reasonOf r.layer age (c.bound r.layer)
        let rect := if fault then whole else r.rect.shift whole.x0 whole.y0
        (reason.map (fun n => (⟨some (c.leadOf r.layer), n, shown, t, rect⟩ : VoidArea)), { r with aged := aged }))
      let areas := found.filterMap (·.1)
      (if fault ∧ areas = [] then [⟨none, 1, none, t, whole⟩] else areas,
        { x.record with rects := found.map (·.2) })

/-- Evaluate one tile of the tile book. -/
def State.evalTile (s : State) (o t tEval : Nat) : List VoidArea × TileRec := s.evalTileAs (s.tileFault o t) o t tEval

/-! ## Data-path faults (R125) -/

/-- Note whether a tile mismatches its required tag: the record once per tile, the fault source per output. -/
def State.checkTag (s : State) (o t : Nat) : State :=
  let x := s.tile o t
  let bad := x.written && x.record.tag != x.reqTag
  let others (s : State) : Bool := s.comp.tiles.any (fun e => e.1 / 16384 == o && e.2.mismatch)
  if bad = x.mismatch then s
  else if bad then
    let s1 := (s.setTile o t { x with mismatch := true }).log 0x3011 [o, t, x.record.tag, x.reqTag]
    if others s then s1 else s1.raised 0x013 o
  else
    let s1 := s.setTile o t { x with mismatch := false }
    if others s1 then s1 else s1.cleared 0x013 o

/-! ## Episodes (R51, R428) -/

/-- Voided areas of an output over the tile rows it has, as last evaluated. -/
def State.areasOf (s : State) (o : Nat) : List VoidArea :=
  s.comp.voids.flatMap (fun e => if e.1 / 128 = o ∧ e.1 % 128 < outRows o (s.outSet o) then e.2 else [])

/-- Reason and age of a layer on an output, over its tile rows as last evaluated. Of several voided tiles of that reason, the
age is that of the first in raster order: the spec does not say whose (log entry 58). -/
def State.layerVoid (s : State) (o l : Nat) : Option (Nat × Option Nat) :=
  let areas := (s.areasOf o).filter (fun a => a.layer == some l)
  match topReason (areas.map (·.reason)) with
  | some r => (areas.find? (fun a => a.reason == r)).map (fun a => (r, a.age))
  | none => none

def State.episode (s : State) (o l : Nat) : Option Episode :=
  s.comp.episodes.find? (fun e => e.output == o && e.layer == l)

def State.putEpisode (s : State) (e : Episode) : State :=
  let rest := s.comp.episodes.filter (fun x => !(x.output == e.output && x.layer == e.layer))
  { s with comp := { s.comp with episodes := rest ++ [e] } }

/-- Parameter 0 of `VOID_BEGIN` and `VOID_END`. -/
def voidWord (l o : Nat) (again : Bool) (reason : Nat) : Nat := 
  packBits [(l, 10), (0, 6), (o, 8), (b2n again, 1), (0, 3), (reason, 4)]

/-- `VOID_BEGIN`, for a new episode or a change of reason within one. -/
def State.voidBegin (s : State) (o l reason : Nat) (age : Option Nat) (tEval : Nat) (old : Option Episode) : State :=
  let p2 := match age with | some _ => Tbl.get s.comp.layerSeq 0 l | none => 0
  let e : Episode := {
    layer := l, output := o, reason := reason, p2 := p2, p3 := w32 tEval
    begunAt := match old with | some x => x.begunAt | none => tEval }
  (s.putEpisode e).log 0x4100 [voidWord l o old.isSome reason, min (age.getD 0xFFFFFFFF) 0xFFFFFFFF, p2, w32 tEval]

/-- What an evaluation at t_eval means for the episode of a layer. -/
def State.updateEpisode (s : State) (o tEval l : Nat) : State :=
  match s.layerVoid o l, s.episode o l with
  | none, none => s
  | none, some e => if e.clearSince.isSome then s else s.putEpisode { e with clearSince := some tEval }
  | some (r, age), none => s.voidBegin o l r age tEval none
  | some (r, age), some e =>
    if e.reason = r then (if e.clearSince.isSome then s.putEpisode { e with clearSince := none } else s)
    else s.voidBegin o l r age tEval (some e)

/-- `VOID_EPISODE_END` (R51): 1 s out of void. -/
def execVoidEpisodeEnd (dt : Nat) (out : Fin 32) (layer : Fin 1024) (s : State) : Host.Outcome State Fault Refusal :=
  let s1 := s.elapse dt
  match s1.episode out layer with
  | some e =>
    match e.clearSince with
    | some t =>
      if t + 1000000000 ≤ s1.time.room then
        let rest := s1.comp.episodes.filter (fun x => !(x.output == e.output && x.layer == e.layer))
        .next ({ s1 with comp := { s1.comp with episodes := rest } }.log 0x4101
          [voidWord layer out false e.reason, (t - e.begunAt) / 1000000, e.p2, e.p3])
      else .next s1
    | none => .next s1
  | none => .next s1

/-! ## The proof test's region (R46, R49) -/

/-- The rectangle of the synthetic layer on an output, while a test frame runs on it. -/
def State.proofRegion (s : State) (o : Nat) : Option (Proof × Rect) :=
  match s.comp.proof with
  | some pr =>
    if Tbl.has pr.first o ∧ Tbl.get pr.frames 0 o < 2 ∧ !Tbl.has pr.results o ∧ !s.inSafe then
      some (pr, ⟨pr.col * 64, pr.row * 32, pr.col * 64 + 255, pr.row * 32 + 63⟩)
    else none
  | none => none

/-- Layer index under which the synthetic layer and the renderer draw: no layer has it. -/
def noLayer : Nat := 1024

/-- Begin the test on an output at its first frame start or TE after the request (R46). -/
def State.proofStart (s : State) (o count : Nat) : State :=
  match s.comp.proof with
  | some pr =>
    if Tbl.has pr.first o then { s with comp := { s.comp with proof := some { pr with region := Tbl.del pr.region o } } }
    else if pr.mask.testBit o ∧ !Tbl.has pr.results o then
      { s with comp := { s.comp with proof := some { pr with
        first := Tbl.put pr.first o count, starts := Tbl.put pr.starts o s.time.room } } }
    else s
  | none => s

/-! ## Rows (R29 to R38, R307) -/

/-- The age line of a legend (R34). -/
def ageLine (age : Option Nat) : String :=
  match age with
  | none => "--"
  | some a =>
    if 60000 ≤ a then ">60 s" else toString (a / 1000) ++ "." ++ toString (a / 100 % 10) ++ " s"

/-- t_eval of a tile row whose first pixel enters the assay now: 32 line periods later, rounded to the later side (R38). -/
def State.rowEval (s : State) (d : OutDesc) : Nat :=
  let k := s.time.clock
  s.time.room + ceilDiv (32 * 1000000000 * k.den) (k.num * headVTotal d)

/-- A tile under the synthetic layer of the proof test (R46): its void, by the stamp of 2 s before the test's start. -/
def State.proofTile (s : State) (o t tEval : Nat) : Option VoidArea :=
  let d := s.outSet o
  let tr := tileRect (outW o d) (outH o d) t
  match s.proofRegion o with
  | some (pr, r) =>
    if tr.meets r then
      some ⟨none, 5, some (stampAge tEval (stampOf (before (Tbl.get pr.starts 0 o) 2000000000)) false).1, t, tr⟩
    else none
  | none => none

/-- The voided areas of a row by the tile book, the proof region above them, and the records written back. -/
def State.rowAreas (s : State) (o row tEval : Nat) : List VoidArea × List (Nat × TileRec) :=
  let cols := outCols o (s.outSet o)
  let parts := (from' (row * cols) cols).map (fun t =>
    match s.proofTile o t tEval with
    | some a => ([a], (t, (s.tile o t).record))
    | none => let x := s.evalTile o t tEval; (x.1, (t, x.2)))
  (parts.flatMap (·.1), parts.map (·.2))

/-- LIVE layers enabled on an output, each under the index it is recorded by. -/
def State.liveLayers (s : State) (o : Nat) : List Nat :=
  let c := s.sets.active
  ((c.enabledLayers.filter (fun l => layOutput (c.layer l) == o && layLive (c.layer l))).map c.leadOf).foldl insertNat []

/-- Age of a layer, under the index it is recorded by, by the first tile record that lists it or a stripe of it with a stamp
(R428). -/
def State.bookAge (s : State) (o tEval l : Nat) : Option Nat :=
  let c := s.sets.active
  let stripes := (c.stack o).filter (fun i => c.leadOf i == l)
  ((stripes.flatMap c.layerTiles).foldl insertNat []).findSome? (fun t =>
    let x := s.tile o t
    if !x.written then none
    else match x.record.dense with
    | some d => if d.stamped && d.layers.any stripes.contains then some (stampAge tEval d.stamp d.aged).1 else none
    | none => (x.record.rects.find? (fun r => stripes.contains r.layer && r.state == 0)).map (fun r =>
        (stampAge tEval r.stamp r.aged).1))

/-- The voids of a row in safe state: every LIVE layer of the output, as FAULT (R428). -/
def State.safeAreas (s : State) (o row tEval : Nat) : List VoidArea :=
  let d := s.outSet o
  let t := row * outCols o d
  (s.liveLayers o).map (fun l => ⟨some l, 1, s.bookAge o tEval l, t, tileRect (outW o d) (outH o d) t⟩)

/-- The renderer's row: hatch over its width, and the legend boxes that begin in it (R307). -/
def State.renderRow (s : State) (o row : Nat) : State :=
  let w := outW o (s.outSet o)
  let h := outH o (s.outSet o)
  let s1 := s.send (.voidRect o ⟨0, 32 * row, w - 1, min (32 * row + 31) (h - 1)⟩ 1)
  if row % 8 ≠ 0 ∨ h < 32 * row + 72 then s1
  else each ((upTo (ceilDiv w 512)).filter (fun b => decide (512 * b + 264 ≤ w))) s1 (fun s b =>
    s.send (.legend o noLayer (512 * b + 8) (32 * row + 8) 2 1 "--"))

/-- The hatch of a list of areas, each rectangle once. -/
def State.sendVoids (s : State) (o : Nat) (l : List VoidArea) : State :=
  each ((l.map (fun a => (a.rect, a.reason))).eraseDups) s (fun s e => s.send (.voidRect o e.1 e.2))

/-- The legends of a row: of every layer voided in its anchor tile, lower layers first, and of the proof test (R36, R37,
R46). -/
def State.legendsOf (s : State) (o row : Nat) (areas : List VoidArea) : List Legend :=
  let c := s.sets.active
  let most := freshScale (c.freshness o)
  let own := (((c.stack o).map c.leadOf).eraseDups).filterMap (fun l =>
    match Tbl.find s.comp.anchors l with
    | some a =>
      match areas.find? (fun x => x.layer == some l && x.tile == a.tile) with
      | some x => if a.scale = 0 then none
        else some { layer := l, x := a.x, y := a.y, scale := min a.scale most, reason := x.reason, age := ageLine x.age }
      | none => none
    | none => none)
  match s.proofRegion o with
  | some (pr, r) =>
    match areas.find? (fun x => x.layer.isNone && x.reason == 5) with
    | some x => if pr.row = row then
        own ++ [{ layer := noLayer, x := r.x0, y := r.y0, scale := min 2 most, reason := 5, age := ageLine x.age }]
      else own
    | none => own
  | none => own

/-- Draw legends. -/
def State.sendLegends (s : State) (o : Nat) (l : List Legend) : State :=
  each l s (fun s e => s.send (.legend o e.layer e.x e.y e.scale e.reason e.age))

/-- Write the records of a row back. -/
def State.writeBack (s : State) (o : Nat) (recs : List (Nat × TileRec)) : State :=
  each recs s (fun s e =>
    let x := s.tile o e.1
    if x.record = e.2 then s else s.setTile o e.1 { x with record := e.2 })

/-- Evaluate one tile row of an output at t_eval; `emit` when its pixels leave. -/
def State.evalRow (s : State) (o row tEval : Nat) (emit : Bool) : State :=
  let d := s.outSet o
  let cols := outCols o d
  let safe := s.inSafe
  let (book, recs) := s.rowAreas o row tEval
  let areas := if safe then s.safeAreas o row tEval else book
  let s1 := (each (from' (row * cols) cols) s (fun s t => s.checkTag o t)).writeBack o recs
  let s2 := { s1 with comp := { s1.comp with voids := Tbl.set s1.comp.voids [] (128 * o + row) areas } }
  let touched := union (areas.filterMap (·.layer)) ((s2.comp.episodes.filter (fun e => e.output == o)).map (·.layer))
  let s3 := each (touched.foldl insertNat []) s2 (fun s l => s.updateEpisode o tEval l)
  if !emit then s3
  else if safe then s3.renderRow o row
  else (s3.sendVoids o areas).sendLegends o (s3.legendsOf o row areas)

/-- Tiles of a row with a voided area. -/
def State.rowVoids (s : State) (o row : Nat) : Nat :=
  if s.inSafe then outCols o (s.outSet o)
  else (((Tbl.get s.comp.voids [] (128 * o + row)).map (·.tile)).foldl insertNat []).length

/-! ## Messages (Table 12-6) -/

/-- Layers voided on an output, with reason and age. -/
def State.voidedLayers (s : State) (o : Nat) : List (Nat × Nat × Option Nat) :=
  let ls := ((s.areasOf o).filterMap (·.layer)).foldl insertNat []
  ls.filterMap (fun l => (s.layerVoid o l).map (fun x => (l, x.1, x.2)))

/-- `FRESH_STATUS_GET`. A panel has no echo: its echo state is not stated (log entry 3). -/
def execFreshStatusGet (dt : Nat) (p : Fin 4) (s : State) : Host.Outcome State Fault Refusal :=
  .next (s.serve dt p 0x0602 (fun s r =>
    let o := r.u8 0
    let l := s.voidedLayers o
    if 31 < o ∨ (r.u16 2 ≠ 0 ∧ l.length ≤ r.u16 2) then s.status p r stNotSupported
    else
      let part := (l.drop (r.u16 2)).take ((r.room - 8) / 8)
      let echo := if isHead o then s.echoState o else Config.measured s.draw % 256
      s.answer p r stOk (Bytes.cat
        (Bytes.join [leBytes 1 o, leBytes 1 echo, leBytes 1 (b2n (s.comp.replaced.toNat.testBit o)), leBytes 1 0,
          leBytes 2 l.length, leBytes 2 part.length])
        (wordsLE (part.flatMap (fun e => [e.1 + e.2.1 <<< 28, min (e.2.2.getD 0xFFFFFFFF) 0xFFFFFFFF]))))))

/-- An output emits composed content (R46): a scanning head that is not held, or a running panel. -/
def State.emitting (s : State) (o : Nat) : Bool :=
  if !s.sets.active.shows o then false
  else if isHead o then s.scanning o && !(s.head o).standbyHeld
  else decide ((s.panel (o - 24)).state = .running)

/-- `FRESH_PROOF_RUN` (R46 to R49): the response is held. -/
def execFreshProofRun (dt : Nat) (p : Fin 4) (s : State) : Host.Outcome State Fault Refusal :=
  .next (s.serve dt p 0x0603 (fun s r =>
    let mask := r.u32 0
    let col := r.u16 4
    let row := r.u16 6
    let fits (o : Nat) : Bool :=
      let d := s.outSet o
      decide ((col + 4) * 64 ≤ outW o d ∧ (row + 2) * 32 ≤ outH o d)
    if s.inSafe then s.status p r stDenied
    else if s.comp.proof.isSome ∨ !s.canHold p then s.status p r stBusy
    else if (maskBits 32 mask).any (fun o => s.sets.active.shows o && !fits o) then s.status p r stNotSupported
    else
      let idle := (maskBits 32 mask).filter (fun o => !s.emitting o)
      let pr : Proof := { port := p, tag := r.tag, mask := mask, col := col, row := row }
      let s1 := s.hold p r 0
      (each idle { s1 with comp := { s1.comp with proof := some pr } } (fun s o => s.proofResult o 0xFF)).proofFinish))

end Sys2Proof.Machine
end

