-- ==== Sys2Proof/Machine/Emit.lean ====
section
/-!
DEFINITION. The pixels that leave an output after the assay (R29, R30, R33 to R37, R307): hatch, legends, the renderer of safe
state; the wire form of a wall head's line and its CRC (R42, R159 to R161); the rows of a panel's rectangle (R177, R178).
-/
namespace Sys2Proof.Machine

/-! ## Void colours and legends -/

/-- The pair of void colours black and amber (R30). -/
def defaultPair : Triple × Triple := ((0, 0, 0), (0x3C00, 0x3800, 0))

/-- The pair of void colours in use on an output: the default pair while the configured one is replaced (R32). -/
def State.voidPair (s : State) (o : Nat) : Triple × Triple :=
  let f := s.sets.active.freshness o
  if s.comp.replaced.toNat.testBit o then defaultPair
  else ((freshColour f false 0, freshColour f false 1, freshColour f false 2),
    (freshColour f true 0, freshColour f true 1, freshColour f true 2))

/-- The two void colours as codes of an output. -/
def pairCodes (d : OutDesc) (p : Triple × Triple) : Nat × Nat := (encodePixel d p.1, encodePixel d p.2)

/-- The hatch at a pixel (R30). -/
def hatch (p : Nat × Nat) (x y : Nat) : Nat := if (x + y) % 16 < 8 then p.1 else p.2

/-- The name of a void reason (Table 1-5). -/
def reasonName (r : Nat) : String :=
  match r with | 1 => "FAULT" | 2 => "NO SOURCE" | 3 => "NOT READY" | 4 => "FROZEN" | _ => "STALE"

/-- Character codes of a text; the en dash ends the first two lines of a legend (R33). -/
def textCodes (t : String) : List Nat := t.toList.map Char.toNat
def legendLine (l : Legend) (n : Nat) : List Nat :=
  match n with
  | 0 => textCodes "NOT LIVE " ++ [0x2013]
  | 1 => textCodes (reasonName l.reason) ++ [0x20, 0x2013]
  | _ => textCodes l.age

/-- The box of a legend. -/
def Legend.box (l : Legend) : Rect := ⟨l.x, l.y, l.x + 128 * l.scale - 1, l.y + 32 * l.scale - 1⟩

/-- Whether a pixel of a legend's box lies on a glyph: lines of cells of 6×10 from box lines 1, 11 and 21 and 2 pixels from its
left edge, times the scale (R33). -/
def Legend.inked (l : Legend) (x y : Nat) : Bool :=
  let bx := (x - l.x) / l.scale
  let by' := (y - l.y) / l.scale
  if bx < 2 ∨ by' < 1 ∨ 31 ≤ by' then false
  else
    let col := (bx - 2) % 6
    let line := (by' - 1) % 10
    match (legendLine l ((by' - 1) / 10))[(bx - 2) / 6]? with
    | some ch => decide (col < 5 ∧ line < 8) && Config.glyph ch col line
    | none => false

/-- A pixel of a legend: its box is filled with one void colour and its glyphs drawn in the other. -/
def Legend.pixel (l : Legend) (p : Nat × Nat) (x y : Nat) : Nat := if l.inked x y then p.2 else p.1

/-- Tile of an output that holds a pixel. -/
def tileAt (o : Nat) (d : OutDesc) (x y : Nat) : Nat := y / 32 * outCols o d + x / 64

/-- A pixel lies within the visible rectangles of a layer, as recorded (R35). -/
def ConfigSet.visibleAt (c : ConfigSet) (r : TileRec) (l x y : Nat) : Bool :=
  match r.dense with
  | some d => d.layers.any (fun i => c.leadOf i == l && (match c.dest i with | some a => a.holds x y | none => false))
  | none => r.rects.any (fun a => c.leadOf a.layer == l && a.rect.holds (x % 64) (y % 32))

/-- Legends of an output in the order of its layers, lowest first; that of the proof test is above all. -/
def ConfigSet.stackLegends (c : ConfigSet) (o : Nat) (l : List Legend) : List Legend :=
  (((c.stack o).map c.leadOf).eraseDups ++ [noLayer]).flatMap (fun i => l.filter (fun e => e.layer == i))

/-- Legends of an output in the order of its layers under the active set. -/
def State.stackLegends (s : State) (o : Nat) (l : List Legend) : List Legend := s.sets.active.stackLegends o l

/-! ## The renderer (R307) -/

/-- A pixel as the renderer of safe state draws it: the hatch of the default pair, and the legend in every block of 512×256
pixels that has room for it. -/
def renderPixel (o : Nat) (d : OutDesc) (x y : Nat) : Nat :=
  let p := pairCodes d defaultPair
  let bx := x / 512 * 512
  let by' := y / 256 * 256
  let l : Legend := { layer := noLayer, x := bx + 8, y := by' + 8, scale := 2, reason := 1, age := "--" }
  if bx + 264 ≤ outW o d ∧ by' + 72 ≤ outH o d ∧ l.box.holds x y then l.pixel p x y else hatch p x y

/-! ## Pixels after the assay (R29, R36, R37) -/

/-- A pixel of a tile, voided or not, under the legends drawn, topmost last. The synthetic layer of the proof test overrides
what lies beneath its region. -/
def ConfigSet.drawPixel (c : ConfigSet) (p : Nat × Nat) (inRegion : Bool) (legends : List Legend) (r : TileRec) (void : Bool)
    (x y : Nat) : Nat :=
  let upper := legends.reverse.find? (fun l => l.box.holds x y
    && (if l.layer = noLayer then inRegion else !inRegion && c.visibleAt r l.layer x y))
  match upper with
  | some l => l.pixel p x y
  | none => if void then hatch p x y else r.pix.getD (y % 32 * 64 + x % 64) 0

/-- A pixel that leaves, under the voided areas of its row and the legends drawn. -/
def State.emitPixel (s : State) (o : Nat) (areas : List VoidArea) (legends : List Legend) (x y : Nat) : Nat :=
  let d := s.outSet o
  let t := tileAt o d x y
  let inRegion : Bool := match s.proofRegion o with | some (_, r) => r.holds x y | none => false
  let void : Bool := areas.any (fun a => a.rect.holds x y) || !(s.tile o t).written || s.tileFault o t
  s.sets.active.drawPixel (pairCodes d (s.voidPair o)) inRegion legends (s.tile o t).record void x y

/-- A pixel of an output with the voids of its rows as last evaluated: from the renderer in safe state. -/
def State.leavingPixel (s : State) (o : Nat) (legends : List Legend) (x y : Nat) : Nat :=
  if s.inSafe then renderPixel o (s.outSet o) x y
  else s.emitPixel o (Tbl.get s.comp.voids [] (128 * o + y / 32)) legends x y

/-- The pixels the Auditor expects of a proof test's region (R46, R47): the hatch, and the legend of two seconds. -/
def State.proofPixel (s : State) (o : Nat) (r : Rect) (x y : Nat) : Nat :=
  let p := pairCodes (s.outSet o) (s.voidPair o)
  let l : Legend := { layer := noLayer, x := r.x0, y := r.y0, scale := min 2 (freshScale (s.sets.active.freshness o)),
                      reason := 5, age := "2.0 s" }
  if l.box.holds x y then l.pixel p x y else hatch p x y

/-- The Auditor's reference CRC of a proof test's region, of the pixels as they are sent (R47, R178). -/
def State.proofReference (s : State) (o : Nat) (r : Rect) (bytes : Nat → List Nat) : Nat :=
  crcOver ((pixelsOf r).flatMap (fun e => bytes (s.proofPixel o r e.1 e.2)))

/-! ## Wall heads (R159 to R161) -/

/-- A component as it is sent (R159). -/
def wireComponent (limited : Bool) (v : Nat) : Nat := if limited then 64 + (v * 876 + 511) / 1023 else v

/-- A pixel as it is sent. -/
def wireCode (d : OutDesc) (w : Nat) : Nat :=
  let k := wireComponent (headWireRange d)
  packBits [(k (w % 1024), 10), (k (w / 1024 % 1024), 10), (k (w / 1048576 % 1024), 10)]

/-- The region's register after the codes held of its last line. -/
def RegionOut.into (y : RegionOut) (r : Rect) : Nat :=
  if y.codes = [] then y.reg else crcMore y.reg (pixelBytes ((from' r.x0 r.width).map (Tbl.get y.codes 0)))

/-- A list cut into parts of 64. -/
def segmentsOf : Nat → List Nat → List (List Nat)
  | 0, _ => []
  | n + 1, l => l.take 64 :: segmentsOf n (l.drop 64)

/-- The data blocks of a segment (R159). -/
def segmentBytes (l : List Nat) : Bytes :=
  ⟨8 * ceilDiv (30 * l.length) 64, sumOf (((upTo l.length).zip l).map (fun e => e.2 <<< (30 * e.1)))⟩

/-- Codes of line `k` of a head on a lane that carries `n` pixels from column `x0` on; the rest of a tile row after an underrun
is hatched without a legend (R157). -/
def State.lineCodes (s : State) (h k x0 n : Nat) (cut : Bool) : List Nat :=
  let d := s.outSet h
  let legends := s.stackLegends h (s.head h).legends
  let p := pairCodes d (s.voidPair h)
  (upTo n).map (fun i => wireCode d (
    if cut && !s.inSafe then hatch p (x0 + i) k else s.leavingPixel h legends (x0 + i) k))

/-- The CRC of a row's pixels on a lane as far as they have left (R161). -/
def LaneOut.crc (x : LaneOut) : Nat := crcFinal 32 true true (crcMore x.reg (pixelBytes x.codes))

/-- What leaves on a lane after a line has begun there. -/
def laneNext (old : Option LaneOut) (upper first : Bool) (codes : List Nat) : LaneOut :=
  let reg := match old with
    | some x => if first then 0xFFFFFFFF else crcMore x.reg (pixelBytes x.codes)
    | none => 0xFFFFFFFF
  ⟨upper, reg, codes⟩

/-- Note what leaves on a lane. -/
def State.putLane (s : State) (h : Nat) (x : LaneOut) : State :=
  let y := s.head h
  s.setHead h { y with laneOut := x :: y.laneOut.filter (fun e => e.upper != x.upper) }

/-- The CRC kept of the row that leaves on a lane follows what has left (R42). -/
def State.keepCrc (s : State) (h row : Nat) (x : LaneOut) : State :=
  let y := s.head h
  s.setHead h { y with kept := y.kept.map (fun k =>
    if k.frame = y.frame ∧ k.row = row ∧ k.upper = x.upper then { k with crc := x.crc } else k) }

/-- The codes of the proof test's region that a lane of a head carries of line `k`, from column `x0` on (R47). -/
def State.noteRegion (s : State) (h k x0 : Nat) (codes : List Nat) : State :=
  match s.proofRegion h with
  | some (pr, r) =>
    if k < r.y0 ∨ r.y1 < k then s
    else
      let y := Tbl.get pr.region {} h
      let y1 : RegionOut := if y.line = k then y else { reg := y.into r, line := k }
      let y2 : RegionOut := { y1 with
        codes := each ((upTo codes.length).zip codes) y1.codes (fun t e =>
          if r.x0 ≤ x0 + e.1 ∧ x0 + e.1 ≤ r.x1 then Tbl.put t (x0 + e.1) e.2 else t) }
      { s with comp := { s.comp with proof := some { pr with region := Tbl.put pr.region h y2 } } }
  | none => s

/-- The CRC of a head's region as emitted in a test frame equals the Auditor's reference (R47). -/
def State.regionSound (s : State) (h : Nat) : Bool :=
  match s.proofRegion h with
  | some (pr, r) =>
    let d := s.outSet h
    let sent := crcFinal 32 true true ((Tbl.get pr.region {} h).into r)
    decide (sent = s.proofReference h r (fun w => pixelBytes [wireCode d w]))
  | none => true

/-! ## Console panels (R177, R178) -/

/-- A component at 8 bits (R177). -/
def panelComponent (v : Nat) : Nat := (v * 255 + 511) / 1023

/-- The bytes of a pixel on a panel's link: R, G, B. -/
def panelBytes (w : Nat) : List Nat :=
  [panelComponent (w % 1024), panelComponent (w / 1024 % 1024), panelComponent (w / 1048576 % 1024)]

/-- A list of bytes as a byte string. -/
def packBytes (l : List Nat) : Bytes := ⟨l.length, l.foldr (fun b acc => b % 256 + 256 * acc) 0⟩

/-- The rows of a rectangle as they are pushed. -/
def State.pushRows (s : State) (p : Nat) (legends : List Legend) (r : Rect) : List Bytes :=
  let o := 24 + p
  let l := s.stackLegends o legends
  (from' r.y0 r.height).map (fun y =>
    packBytes ((from' r.x0 r.width).flatMap (fun x => panelBytes (s.leavingPixel o l x y))))

/-- The checksum of a DSI long packet (Table 7-3): the DSI specification's CRC-16 over the payload (log entry 58). -/
def dsiChecksum (l : List Nat) : Nat := crcFinal 16 true false (crcFeed 16 0x1021 true 0xFFFF l)

/-- A DCS long write of a push. -/
def longWrite (p cmd : Nat) (payload : Bytes) : Tx := .long p cmd payload (dsiChecksum (cmd :: payload.toList))

/-- Two 16-bit numbers, high byte first. -/
def highFirst (a b : Nat) : Bytes := packBytes [a / 256 % 256, a % 256, b / 256 % 256, b % 256]

/-- The packets of one rectangle of a push (Table 7-3). -/
def rectPackets (p : Nat) (r : Rect) (rows : List Bytes) : List Tx :=
  [longWrite p 0x2A (highFirst r.x0 r.x1), longWrite p 0x2B (highFirst r.y0 r.y1)]
    ++ ((rows.take 1).map (longWrite p 0x2C) ++ (rows.drop 1).map (longWrite p 0x3C))

/-- The CRC of a rectangle's bytes in the order sent (R178). -/
def rowsCrc (l : List Bytes) : Nat := crcOver (l.flatMap Bytes.toList)

end Sys2Proof.Machine
end

