-- ==== Sys2Proof/Machine/EncodeOps.lean ====
section
/-!
DEFINITION. What the encoder reads (R200 to R203, R208): the tiles copied of an output input with their voids and legends, the mint
of every coded row, and the samples that a picture codes.
-/
namespace Sys2Proof.Machine

/-- Coded rows of a job: 32 lines each (Table 8-2). -/
def encRows (d : EncDesc) : Nat := ceilDiv (encHeight d) 32

/-- The coded lines run along the width of the area read (R200). -/
def encSideways (d : EncDesc) : Bool := encRotate d % 2 == 1

/-- First and last input line (or column, when turned sideways) that the scaler taps of a coded row read, of an area that
begins at `first` and is `len` long: lines are mirrored by a turn of 180° or 270°. -/
def encTaps (d : EncDesc) (first len row : Nat) : Nat × Nat :=
  let h := encHeight d
  let a := 32 * row
  let b := min (32 * row + 31) (h - 1)
  let (lo, hi) := if 2 ≤ encRotate d then (h - 1 - b, h - 1 - a) else (a, b)
  let step := scaleStep false 0 len h
  ((scaleTaps first len 0 step lo).1, (scaleTaps first len 0 step hi).2.1)

/-- t_eval of a tile row of the frame or TE that starts now (R38). -/
def State.encEval (s : State) (o row : Nat) : Nat :=
  let d := s.outSet o
  if isHead o then s.rowEval d + ceilDiv (32 * row * 1000000000 * s.time.clock.den) (s.time.clock.num * headVTotal d)
  else s.time.room + 1000 * panelTePeriod d

/-- Copy a tile of an output as it is current at the frame start (R202): with the voids and legends that the assay gives it in that
frame, and those it has where the copied CRC mismatches. -/
def State.copyTile (s : State) (o t : Nat) : CapTile :=
  let row := t / outCols o (s.outSet o)
  let tEval := s.encEval o row
  match s.proofTile o t tEval with
  | some a =>
    let l := s.legendsOf o row [a]
    ⟨(s.tile o t).record, tEval, true, [a], l, [a], l⟩
  | none =>
    let x := s.evalTile o t tEval
    let y := s.evalTileAs true o t tEval
    ⟨x.2, tEval, false, x.1, s.legendsOf o row x.1, y.1, s.legendsOf o row y.1⟩

/-! ## The mint of a coded row (R208) -/

/-- What one input tile of a coded row gives: evidence and capture times of stamped live rectangles, whether one has no stamp,
`AGED`, `VOIDED`, `PROOF` (R208). -/
structure TileMint where
  stamped : List (Nat × Nat) := []
  bare : Bool := false
  aged : Bool := false
  voided : Bool := false
  proof : Bool := false

/-- A capture time reconstructed as t_eval − age, in whole milliseconds. -/
def rebuilt (tEval age : Nat) : Nat := (ceilDiv tEval 1000000 - age) * 1000000

/-- Evidence and reconstructed capture time of a stamp that a copied record holds. -/
def CapTile.stampMint (x : CapTile) (evidence stamp : Nat) (aged : Bool) : Nat × Nat :=
  (evidence, rebuilt x.tEval (stampAge x.tEval stamp aged).1)

/-- What a copied tile gives of the pixels read in `read`. The synthetic layer of the proof test has no source, and its evidence
raises none (log entry 58). -/
def CapTile.mint (x : CapTile) (read : Rect) : TileMint :=
  if x.proof then
    { stamped := x.areas.filterMap (fun a => a.age.map (fun n => (0, rebuilt x.tEval n))), voided := true, proof := true }
  else
    let (stamped, bare, aged) := match x.record.dense with
      | some d => (if d.stamped then [x.stampMint d.evidence d.stamp d.aged] else [], d.state != 0, d.aged)
      | none =>
        let r := x.record.rects
        ((r.filter (·.state == 0)).map (fun e => x.stampMint e.evidence e.stamp e.aged), r.any (·.state != 0), r.any (·.aged))
    { stamped := stamped
      bare := bare
      aged := bare || aged || x.areas.any (fun a => a.reason == 1 || a.reason == 3 || a.reason == 4)
      voided := x.areas.any (fun a => a.rect.meets read) }

/-- The mint of a coded row of an output input (R208). Where LIVE layers are visible and none carries a stamp, the capture
time and the evidence are free values (log entry 3). -/
def Capture.outputRowMint (c : Capture) (draw : Nat) (d : EncDesc) (row : Nat) : RowMint :=
  let o := encInput d
  let w := outW o c.out
  let h := outH o c.out
  let (lo, hi) := if encSideways d then encTaps d 0 w row else encTaps d 0 h row
  let read : Rect := if encSideways d then ⟨lo, 0, hi, h - 1⟩ else ⟨0, lo, w - 1, hi⟩
  let tiles := (tilesOf w read).map (fun t => c.tiles.getD t {})
  let m := tiles.map (fun x => x.mint read)
  let stamps := m.flatMap (·.stamped)
  let bare := m.any (·.bare)
  let (evidence, capture) := match stamps with
    | e :: r => (r.foldl (fun a b => max a b.1) e.1, r.foldl (fun a b => min a b.2) e.2)
    | [] => if bare then (Config.measured (draw + 2 * row) % 4, w64 (Config.measured (draw + 2 * row + 1)))
      else (2, ((tiles.getLast?).getD {}).tEval)
  { evidence := evidence, aged := m.any (·.aged), voided := m.any (·.voided), proof := m.any (·.proof), capture := capture }

/-! ## The samples of a picture (R200, R201) -/

/-- A pixel of an output input as captured: voided, under the legends of the recording (R202). -/
def Capture.pixel (c : Capture) (o : Nat) (legends : List Legend) (x y : Nat) : Nat :=
  let k := c.tiles.getD (tileAt o c.out x y) {}
  c.set.drawPixel (pairCodes c.out c.pair) k.proof legends k.record (k.areas.any (fun a => a.rect.holds x y)) x y

/-- The legends of a capture, lowest first. -/
def Capture.legends (c : Capture) (o : Nat) : List Legend :=
  c.set.stackLegends o ((c.tiles.flatMap (·.legends)).eraseDups)

/-- Size to which the area read is scaled, before rotation (R200). -/
def encUnturned (d : EncDesc) : Nat × Nat := if encSideways d then (encHeight d, encWidth d) else (encWidth d, encHeight d)

/-- The place before rotation of a pixel of the coded picture (R200). -/
def encTurned (d : EncDesc) (x y : Nat) : Nat × Nat :=
  match encRotate d with
  | 0 => (x, y)
  | 1 => (y, encWidth d - 1 - x)
  | 2 => (encWidth d - 1 - x, encHeight d - 1 - y)
  | _ => (encHeight d - 1 - y, x)

/-- A layer as the encoder reads it: its crop, scaled to the size before rotation with zero phase (R200). -/
def encLayer (d : EncDesc) (l : LayerDesc) : LayerDesc :=
  let (w, h) := encUnturned d
  let size := setFld (setFld (setFld (setFld l 4 31 16 0) 4 15 0 0) 5 31 16 h) 5 15 0 w
  setFld (setFld (setFld size 1 17 17 0) 8 31 16 0) 8 15 0 0

/-- The output whose colour a job has. -/
def encView (d : EncDesc) : OutDesc := setFld (0 : OutDesc) 0 29 28 (encColour d)

/-- The pixel of a picture at a place before rotation, as a 30-bit code (R200, R201): of a layer in the colour of the job, of an
output as composed and voided. -/
def State.encSample (s : State) (c : Capture) (d : EncDesc) (legends : List Legend) (x y : Nat) : Nat :=
  let i := encInput d
  match c.frame with
  | some f =>
    let set := { c.set with layers := Tbl.set c.set.layers layerReset i (encLayer d (c.set.layer i)) }
    encodePixel (encView d) (s.colourAt set (encView d) i f x y)
  | none =>
    let (sw, sh) := encUnturned d
    let w := outW i c.out
    let h := outH i c.out
    let tx := scaleTaps 0 w 0 (scaleStep false 0 w sw) x
    let ty := scaleTaps 0 h 0 (scaleStep false 0 h sh) y
    let one (k : Nat) : Nat := scaleSample false 10 (fun x y => c.pixel i legends x y / 1024 ^ k % 1024) tx ty
    packBits [(one 0, 10), (one 1, 10), (one 2, 10)]

/-- The integer at or just above an exact value that is not negative: which of the two is free (R201). -/
def eitherSide (x : Rat) : Nat :=
  let n := x.floor.toNat
  if (n : Rat) = x then n else n + Config.rounding 8 x % 2

/-- Limited-range 10-bit Y, Cb and Cr of a 30-bit code (R201). -/
def limited (colour w : Nat) : Triple :=
  let (kr, kb) : Rat × Rat := if colour = 0 then (2126 / 10000, 722 / 10000) else (2627 / 10000, 593 / 10000)
  let r : Rat := (w % 1024 : Nat) / 1023
  let g : Rat := (w / 1024 % 1024 : Nat) / 1023
  let b : Rat := (w / 1048576 % 1024 : Nat) / 1023
  let y := kr * r + (1 - kr - kb) * g + kb * b
  (eitherSide (64 + 876 * y), eitherSide (512 + 896 * ((b - y) / (2 * (1 - kb)))),
    eitherSide (512 + 896 * ((r - y) / (2 * (1 - kr)))))

/-- The samples of a picture (R200, R201): converted, its chroma averaged over two lines and filtered [1, 2, 1] / 4 about every other
column, reduced to 8 bits by the 8-bit codecs. Beside the edge the filter reads the edge's column (log entry 58). -/
def State.encPicture (s : State) (c : Capture) (d : EncDesc) : EncPicture :=
  let w := encWidth d
  let h := encHeight d
  let legends := c.legends (encInput d)
  let pix := (upTo (w * h)).map (fun i =>
    let (x, y) := encTurned d (i % w) (i / w)
    limited (encColour d) (s.encSample c d legends x y))
  let at' (x y : Nat) : Triple := pix.getD (y * w + x) (0, 0, 0)
  let depth (v : Nat) : Nat := if encCodec d = 1 then v else panelComponent v
  let chroma (f : Triple → Nat) : List Nat := (upTo (w / 2 * (h / 2))).map (fun i =>
    let x := 2 * (i % (w / 2))
    let y := 2 * (i / (w / 2))
    let col (x : Nat) : Nat := f (at' x y) + f (at' x (y + 1))
    depth (eitherSide (((col (x - 1) + 2 * col x + col (x + 1) : Nat) : Rat) / 8)))
  { luma := pix.map (fun t => depth t.1), cb := chroma (·.2.1), cr := chroma (·.2.2) }

/-! ## Sampling (R202) -/

/-- A capture is lost: it is counted, and reported at most once per job every 10 s (R202). -/
def State.dropCapture (s : State) (j o : Nat) : State :=
  let x := s.encRun j
  (s.setEncRun j { x with capDropped := w32 (x.capDropped + 1) }).logLimited 0xB011 j tenSeconds 1 0
    (fun n _ => [j, n, o, 0])

/-- A frame start or TE of an output, for one job that reads it: a capture not complete is discarded whole; every
`RATE_DIV`-th frame is sampled while the ring has room. -/
def State.sampleJob (s : State) (o j : Nat) : State :=
  let d := s.encJob j
  let x := s.encRun j
  if x.state ≠ .running ∨ encLayerInput d ∨ encInput d ≠ o then s
  else
    let done := x.ring.filter (·.done)
    let late : Bool := done.length != x.ring.length
    let s1 := s.setEncRun j { x with ring := done, frames := x.frames + 1 }
    let s2 := if late then s1.dropCapture j o else s1
    if x.frames % encRateDiv d ≠ 0 then s2
    else if 2 ≤ done.length then s2.dropCapture j o
    else
      let x := s2.outSet o
      let c : Capture := {
        time := s2.time.room, set := s2.sets.active, out := x, pair := s2.voidPair o
        tiles := (upTo (outTiles o x)).map (s2.copyTile o) }
      let y := s2.encRun j
      s2.dramRequest.setEncRun j { y with ring := y.ring ++ [c] }

/-- Sample an output for every job that reads it (R202). -/
def State.sampleEncode (s : State) (o : Nat) : State := each (upTo 16) s (fun s j => s.sampleJob o j)

end Sys2Proof.Machine
end

