-- ==== Sys2Proof/Machine/Heads.lean ====
section
/-!
DEFINITION. Wall heads (06_wall_heads.md): frame starts, lines, underruns, CRC verdicts, unlocking, the presentation echo
(R42 to R45, R161 to R163), and the messages of Table 12-5 about outputs.
-/
namespace Sys2Proof.Machine

/-! ## Lanes of a head (R150, R160) -/

/-- The lanes of a head with, for each, whether it is the upper one, its first tile column and its tile columns. -/
def State.headSplit (s : State) (h : Nat) : List (Nat × Bool × Nat × Nat) :=
  let d := s.outSet h
  let cols := outCols h d
  let low := if headBond d then ceilDiv cols 2 else cols
  let parts := [(false, 0, low), (true, low, cols - low)]
  ((s.headLanes h).zip parts).map (fun e => (e.1, e.2))

/-- Pixels of a lane's line. -/
def lanePixels (w first cols : Nat) : Nat := min (64 * cols) (w - 64 * first)

/-- `FRAME_START` (Table 6-4) on every lane; a head held on a standby sends none (R338). -/
def State.sendFrameStart (s : State) (h : Nat) : State :=
  let x := s.head h
  let bond := headBond (s.outSet h)
  if x.standbyHeld then s
  else each (s.headSplit h) s (fun s e => s.send (.block e.1 0x40
    (Bytes.join [leBytes 4 x.frame, leBytes 2 x.rasterId, leBytes 1 (b2n e.2.1 + 2 * b2n bond)])))

/-- `LINE_START` and the segments of a line on one lane (R160), and what the lane has sent of the row (R42). -/
def State.sendLaneLine (s : State) (h k : Nat) (e : Nat × Bool × Nat × Nat) : State :=
  let x := s.head h
  let n := lanePixels (outW h (s.outSet h)) e.2.2.1 e.2.2.2
  let codes := s.lineCodes h k (64 * e.2.2.1) n (x.underrunRows.contains (e.2.1, k / 32))
  let s1 := (s.send (.block e.1 0x41 (Bytes.join [leBytes 2 k, leBytes 1 (x.frame % 256), leBytes 1 e.2.2.2,
    leBytes 2 n, leBytes 1 (b2n e.2.1)]))).send (.line e.1 k ((segmentsOf e.2.2.2 codes).map segmentBytes))
  let y := laneNext (x.laneOut.find? (fun o => o.upper == e.2.1)) e.2.1 (k % 32 == 0) codes
  let s2 := (s1.putLane h y).noteRegion h k (64 * e.2.2.1) codes
  if k % 32 = 0 then
    let z := s2.head h
    s2.setHead h { z with kept := z.kept ++ [⟨z.frame, e.2.1, k / 32, y.crc, none, 0⟩] }
  else s2.keepCrc h (k / 32) y

/-- A line on every lane; a head held on a standby sends none (R338). -/
def State.sendLine (s : State) (h k : Nat) : State :=
  if (s.head h).standbyHeld then s else each (s.headSplit h) s (fun s e => s.sendLaneLine h k e)

/-- The four `RASTER_INFO` blocks of every vertical blanking, which a held head sends too (R160, R338). They describe the raster
of the active set, first pixel column of a lane included, which a settlement may have changed since the frame began. -/
def State.sendRasterInfo (s : State) (h : Nat) : State :=
  let x := s.head h
  let d := s.sets.active.output h
  let k := s.time.clock
  let flags := outColour d + 4 * b2n (headWireRange d) + 8 * b2n (headHPol d) + 16 * b2n (headVPol d)
  let upper := if headBond d then 64 * ceilDiv (outCols h d) 2 else 0
  each (s.headSplit h) s (fun s e =>
    let info (n : Nat) (l : List Bytes) (s : State) : State := s.send (.block e.1 (0x48 + n) (Bytes.join l))
    info 3 [leBytes 3 (headPclk d), leBytes 2 x.rasterId, leBytes 2 ((1000 * k.num + k.den / 2) / k.den)]
      (info 2 [leBytes 2 (headVFront d), leBytes 2 (headVSync d), leBytes 2 (if e.2.1 then upper else 0), leBytes 1 0]
        (info 1 [leBytes 2 (headVTotal d), leBytes 2 (headHFront d), leBytes 2 (headHSync d), leBytes 1 0]
          (info 0 [leBytes 2 (headHActive d), leBytes 2 (headHTotal d), leBytes 2 (headVActive d), leBytes 1 flags] s))))

/-! ## Presentation echo (R42 to R45) -/

/-- A head frame counts as mismatched (R43, R44). -/
def State.frameMismatched (s : State) (h : Nat) (k : KeptRow) : State :=
  let x := s.head h
  let run := x.missRun + 1
  let raise : Bool := decide (freshLimit (s.sets.active.freshness h) ≤ run) && !x.mismatchRaised
  let s1 := s.setHead h { x with
    decided := k.frame :: x.decided, missRun := run, mismatchRaised := x.mismatchRaised || raise }
  let s2 := if run = 1 then s1.log 0x4110 [h, k.frame, k.row + b2n k.upper <<< 8, k.cause] else s1
  if raise then s2.raised 0x010 h else s2

/-- A head frame whose echoes all match: the run ends (R43). -/
def State.frameMatched (s : State) (h frame : Nat) : State :=
  let x := s.head h
  let s1 := s.setHead h { x with decided := frame :: x.decided, missRun := 0, mismatchRaised := false }
  if x.mismatchRaised then s1.cleared 0x010 h else s1

/-- The first mismatched row of a frame (Table of record 0x4110). -/
def HeadRun.badRow (x : HeadRun) (frame : Nat) : Option KeptRow :=
  (x.kept.filter (fun k => k.frame == frame && k.verdict == some false)).foldl (fun a k => match a with
    | none => some k
    | some b => if 2 * k.row + b2n k.upper < 2 * b.row + b2n b.upper then some k else a) none

/-- All rows of a frame that has been emitted matched. -/
def State.wholeMatched (s : State) (h frame : Nat) : Bool :=
  let rows := (s.head h).kept.filter (fun k => k.frame == frame)
  decide (rows.length = outRows h (s.outSet h) * (s.headLanes h).length) && rows.all (fun k => k.verdict == some true)

/-- Count a frame whose verdict is known. -/
def State.decideFrame (s : State) (h frame : Nat) : State :=
  match (s.head h).badRow frame with
  | some k => s.frameMismatched h k
  | none => s.frameMatched h frame

/-- The frames to count now, oldest first: those whose verdict is known, up to the first whose verdict is not. Consecutive
frames are consecutive in the order they were emitted, whatever order their echoes come in (R43, R44). -/
def State.framesKnown (s : State) (h : Nat) : List Nat :=
  let x := s.head h
  let frames := x.kept.foldl (fun a k => if a.contains k.frame then a else a ++ [k.frame]) []
  (frames.takeWhile (fun f => x.decided.contains f || (x.badRow f).isSome || s.wholeMatched h f)).filter
    (fun f => !x.decided.contains f)

/-- Count the frames whose verdict has become known (R43, R44). -/
def State.decideFrames (s : State) (h : Nat) : State := each (s.framesKnown h) s (fun s f => s.decideFrame h f)

/-- Rows kept of the test region of the proof test on a head: its two test frames, on the lanes that carry it. -/
def State.proofRows (s : State) (h : Nat) : List KeptRow :=
  match s.comp.proof with
  | some pr =>
    let f := Tbl.get pr.first 0 h
    let lanes := (s.headSplit h).filter (fun e => decide (pr.col < e.2.2.1 + e.2.2.2 ∧ e.2.2.1 < pr.col + 4))
    (s.head h).kept.filter (fun k => decide (subMod 32 k.frame f < 2 ∧ pr.row ≤ k.row ∧ k.row < pr.row + 2)
      && lanes.any (fun e => e.2.1 == k.upper))
  | none => []

/-- The result of the proof test on a head once both test frames were emitted (R47): an unproven head returns no echo.
`late` when no more echoes are waited for. -/
def State.proofCheck (s : State) (h : Nat) (late : Bool) : State :=
  match s.comp.proof with
  | some pr =>
    if !Tbl.has pr.first h ∨ Tbl.get pr.frames 0 h < 2 then s
    else if !(s.head h).proven then s.proofResult h 3
    else
      let rows := s.proofRows h
      if rows.any (fun k => k.verdict == some false) then s.proofResult h 2
      else if rows.all (fun k => k.verdict == some true) then s.proofResult h 0
      else if late then s.proofResult h 3
      else s
  | none => s

/-- A head that stops during the proof test: it is not tested, or its echoes are not awaited any more (log entry 19). -/
def State.proofLost (s : State) (h : Nat) : State := (s.proofDrop h).proofCheck h true

/-- Frames whose second following frame has ended when `n` frames have passed since them: rows without an echo are
mismatches (R43). -/
def State.echoesDue (s : State) (h n : Nat) : State :=
  let x := s.head h
  if !x.proven ∨ x.standbyHeld then s
  else
    let due := x.kept.filter (fun k => decide (n ≤ subMod 32 x.frame k.frame) && k.verdict.isNone)
    if due = [] then s
    else
      let s2 := (s.setHead h { x with kept := x.kept.map (fun k =>
        if n ≤ subMod 32 x.frame k.frame ∧ k.verdict.isNone then { k with verdict := some false, cause := 2 } else k)
        }).decideFrames h
      match s2.comp.proof with
      | some pr =>
        if due.any (fun k => decide (subMod 32 k.frame (Tbl.get pr.first 0 h) < 2 ∧ pr.row ≤ k.row ∧ k.row < pr.row + 2))
        then (if (s.proofRows h).any (fun k => k.verdict == some false) then s2.proofResult h 2 else s2.proofResult h 3)
        else s2
      | none => s2

/-- `ECHO_DEADLINE` (R43): the second frame after a frame has ended. -/
def execEchoDeadline (dt : Nat) (h : Fin 24) (s : State) : Host.Outcome State Fault Refusal :=
  let s1 := s.elapse dt
  let x := s1.head h
  if !s1.windowUp ∨ x.state ≠ .scanning then .next s1
  else .next (s1.echoesDue h (if x.line.isNone then 2 else 3))

/-- The head a lane carries, and whether it is the upper lane of a bonded head. -/
def State.headOfLane (s : State) (l : Nat) : Option (Nat × Bool) :=
  if s.links.role l ≠ 1 then none
  else
    let n := s.links.unitOf l
    if n % 2 = 1 ∧ headBond (s.outSet (n - 1)) ∧ outEnable (s.outSet (n - 1)) then some (n - 1, true) else some (n, false)

/-- Discard an echo and count it (R162). -/
def State.discardEcho (s : State) (h : Nat) : State :=
  s.setHead h { s.head h with echoDiscarded := (s.head h).echoDiscarded + 1 }

/-- Decide the row an echo is for; of a mismatch, by its cause. -/
def State.decideRow (s : State) (h : Nat) (k : KeptRow) (ok : Bool) (cause : Nat) : State :=
  let x := s.head h
  ((s.setHead h { x with kept := x.kept.map (fun y =>
    if y = k then { y with verdict := some ok, cause := cause } else y) }).decideFrames h).proofCheck h false

/-- The lane is at its partner's alignment: past block lock (R221). -/
def LaneRun.locked (x : LaneRun) : Bool := x.state == .exchange || x.state == .up || x.state == .incompatible

/-- A lane of the Kinik link that holds block lock. -/
def State.kinikLocked (s : State) (l : Nat) : Bool :=
  s.windowUp && (s.links.lane l).locked && decide (s.links.role l ≠ 4)

/-- Count a block that is not allowed (R221). -/
def State.unknownBlock (s : State) (l : Nat) : State :=
  let x := s.links.lane l
  if s.kinikLocked l then s.setLane l { x with unknown := w32 (x.unknown + 1) } else s

/-- `ECHO` (R162): matched by frame count, lane and tile row; the first echo of a row decides it. Echoes of an unproven or
held head, and of frames no longer kept, are discarded. In other modes, and at link version 1.2, the block is not allowed (R221,
R227). -/
def execEcho (dt : Nat) (lane : Fin 48) (blk : EchoBlock) (s : State) : Host.Outcome State Fault Refusal :=
  let s1 := s.elapse dt
  match s1.headOfLane lane with
  | none => .next (s1.unknownBlock lane)
  | some (h, upper) =>
    let x := s1.head h
    if !s1.windowUp ∨ (s1.links.lane lane).state ≠ .up then .next s1
    else if (s1.links.lane lane).version < 0x20 then .next (s1.unknownBlock lane)
    else
      let found := x.kept.find? (fun k => k.frame % 4096 == blk.frameLow % 4096 && k.upper == upper
        && blk.upper == upper && k.row == blk.row % 128 && k.verdict.isNone)
      match found with
      | none => .next (s1.discardEcho h)
      | some k =>
        if !x.proven ∨ x.standbyHeld then .next (s1.discardEcho h)
        else
          let ok := !blk.dropped && blk.crc == k.crc
          .next (s1.decideRow h k ok (if ok then 0 else if blk.dropped then 3 else 1))

/-! ## Frame starts (R120, R154, R160) -/

/-- The settled commit at an output's frame start or TE: the output takes it, and it is reported at the master's. -/
def State.effectHere (s : State) (o frame : Nat) : State :=
  let master := s.effectAt (some o)
  let s1 := s.takeEffect o
  if master then s1.report frame else s1

/-- A head stops at this frame start in place of it (R154): 1 disabled, 3 a new raster. It locks again where the active set shows
it. -/
def State.stopAtFrame (s : State) (h reason : Nat) : State :=
  let frame := w32 ((s.head h).frame + 1)
  ((s.stopHead h reason (if s.sets.active.shows h then .locking else .off)).proofLost h).effectHere h frame

/-- What a frame start does in composition, the proof test and the encoder. -/
def State.beginFrame (s : State) (h : Nat) : State :=
  let frame := (s.head h).frame
  let s1 := (((s.effectHere h frame).publishRound h).startRound h).proofStart h frame
  (s1.sampleEncode h).sendFrameStart h

/-- Heads are held from the next frame start on while the unit is standby, and released at the first one after it becomes
active (R338, R339). -/
def State.holdsHeads (s : State) : Bool := s.pair.enabled && decide (s.pair.role = .standby)

/-- A scanning head's frame start. Rows of more than three frames are no longer kept (R42). -/
def State.nextFrame (s : State) (h : Nat) : State :=
  let y := s.head h
  let frame := w32 (y.frame + 1)
  let s0 := s.setHead h { y with frame := frame, standbyHeld := s.holdsHeads, under := none }
  let s1 := (if s.holdsHeads then s0.proofDrop h else s0).echoesDue h 3
  let x := s1.head h
  ((s1.setHead h { x with
    line := some 0, frameVoids := 0, frameUnderruns := 0, underrunRows := [], laneOut := []
    kept := x.kept.filter (fun k => decide (subMod 32 frame k.frame ≤ 2))
    decided := x.decided.filter (fun f => decide (subMod 32 frame f ≤ 2)) }).decideFrames h).beginFrame h

/-- A head begins scanning (R154, R17): every stamp of its records is aged and every tile marked, and its first frame is
frame 0. -/
def State.startScanning (s : State) (h : Nat) : State :=
  let s0 := s.refreshProven h
  let x := s0.head h
  let s1 := s0.setHead h { x with
    state := .scanning, frame := 0, line := some 0, frameVoids := 0, frameUnderruns := 0, underrunRows := []
    kept := [], decided := [], stopNext := none, skew := 0, standbyHeld := s.holdsHeads, legends := [], laneOut := [] }
  let s2 := s1.log 0x4001 [h, x.rasterId, (s1.links.laneOf 1 h).getD 0, w32 s1.time.room]
  (s2.resumeOutput h).beginFrame h

/-- `HEAD_FRAME_START`. A frame start begins the next frame even where lines of the last were not commanded (log entry
20). -/
def execHeadFrameStart (dt : Nat) (h : Fin 24) (s : State) : Host.Outcome State Fault Refusal :=
  let s1 := s.elapse dt
  let x := s1.head h
  if !s1.windowUp then .next s1
  else match x.state with
  | .scanning =>
    match x.stopNext with
    | some r => .next (s1.stopAtFrame h r)
    | none => .next (s1.nextFrame h)
  | .locking =>
    if 2 ≤ x.held ∧ !x.safeStopped ∧ s1.sets.active.shows h then .next (s1.startScanning h) else .next s1
  | _ => .next s1

/-! ## Lines (R155, R156, R160) -/

/-- Head mask `n` of `OUTPUT_EVENTS_SET`: 0 `FRAME_DONE`, 1 `START_OF_BLANK`, 2 `LINE_MATCH`, 3 `UNDERRUN`. -/
def evHead (e : BitVec 544) (n h : Nat) : Bool := (fld e n 31 0).testBit h
/-- Panel mask `n`: 0 `TE`, 1 `PUSH_DONE`, 2 `PUSH_ABANDONED`. -/
def evPanel (e : BitVec 544) (n p : Nat) : Bool := (Bytes.at (bytesOf e) (16 + n) 1).testBit p
/-- `MATCH_LINE` of a head. -/
def evLine (e : BitVec 544) (h : Nat) : Nat := Bytes.at (bytesOf e) (20 + 2 * h) 2

/-- A tile row begins: it is evaluated, and the legends anchored in it are drawn from now on (R36, R38). -/
def State.beginRow (s : State) (h row : Nat) : State :=
  let x := s.head h
  let s1 := s.evalRow h row (s.rowEval (s.outSet h)) (!x.standbyHeld)
  let y := s1.head h
  let own := if s1.inSafe then [] else s1.legendsOf h row (Tbl.get s1.comp.voids [] (128 * h + row))
  s1.setHead h { y with
    frameVoids := y.frameVoids + s1.rowVoids h row, legends := y.legends.filter (fun l => l.y / 32 != row) ++ own }

/-- The last active line has left: `FRAME_END`, the raster, the events, a test frame of the proof test. -/
def State.endActive (s : State) (h : Nat) : State :=
  let x := s.head h
  let s1 := if x.standbyHeld then s else s.sendHead h 0x42 (Bytes.join [leBytes 4 x.frame, leBytes 3 0])
  let s2 := s1.sendRasterInfo h
  let s3 := s2.postEnabled 0x0401 (fun e => evHead e 0 h) [h, x.frame, x.frameVoids, x.frameUnderruns]
  let s4 := s3.postEnabled 0x0402 (fun e => evHead e 1 h) [h, x.frame, w32 s.time.room, hi32 s.time.room]
  let s5 := if x.standbyHeld ∨ s4.regionSound h then s4 else s4.proofResult h 1
  match s5.comp.proof with
  | some pr =>
    if Tbl.has pr.first h ∧ !Tbl.has pr.results h then
      { s5 with comp := { s5.comp with
        proof := some { pr with frames := Tbl.put pr.frames h (Tbl.get pr.frames 0 h + 1) } } }.proofCheck h false
    else s5
  | none => s5

/-- Line `k` of a head starts. -/
def State.lineStarts (s : State) (h k : Nat) : State :=
  let d := s.outSet h
  let x := s.head h
  let s1 := if k % 32 = 0 ∧ k < headVActive d then s.beginRow h (k / 32) else s
  let s2 := if k < headVActive d then s1.sendLine h k else if k = headVActive d then s1.endActive h else s1
  s2.postEnabled 0x0403 (fun e => evHead e 2 h && evLine e h == k) [h, x.frame, k, w32 s.time.room]

/-- A queue after its fill of `fill` eighths is seen: panic is raised below 2 lines (R156) and ends at 3 (R244). -/
def HeadRun.filled (x : HeadRun) (fill : Nat) : HeadRun :=
  { x with lowFill := min x.lowFill fill, panic := decide (fill < 2) || (x.panic && decide (fill < 3)) }

/-- The queue of the upper lane of a bonded head is that of the next head (R150). -/
def State.upperFilled (s : State) (h fill : Nat) : State :=
  if headBond (s.outSet h) then s.setHead (h + 1) ((s.head (h + 1)).filled fill) else s

/-- `HEAD_LINE_START`: the next line of a scanning head starts, with the fill of its queue in eighths, and that of its upper
lane's when it is bonded. -/
def execHeadLineStart (dt : Nat) (h : Fin 24) (fill : LineFill) (s : State) : Host.Outcome State Fault Refusal :=
  let s1 := s.elapse dt
  let x := s1.head h
  match x.line with
  | some k =>
    if !s1.windowUp ∨ x.state ≠ .scanning then .next s1
    else
      let s2 := ((s1.setHead h (x.filled fill.own)).upperFilled h fill.upper).notePanic.dramRequest.lineStarts h k
      let y := s2.head h
      .next (s2.setHead h { y with line := if k + 1 < headVTotal (s2.outSet h) then some (k + 1) else none })
  | none => .next s1

/-! ## Verification (R157, R158) -/

/-- Tiles of a row not voided yet, of a list. -/
def State.freshVoids (s : State) (o row : Nat) (tiles : List Nat) : Nat :=
  if s.inSafe then 0
  else
    let old := (Tbl.get s.comp.voids [] (128 * o + row)).map (·.tile)
    countIf tiles (fun t => !old.contains t)

/-- The rest of line `k` on a lane is hatched from a pixel on (R157). -/
def State.hatchRest (s : State) (h k : Nat) (upper : Bool) (x0 pixel : Nat) : State :=
  let d := s.outSet h
  let p := pairCodes d (s.voidPair h)
  match (s.head h).laneOut.find? (fun o => o.upper == upper) with
  | some o =>
    let y : LaneOut := { o with
      codes := o.codes.take pixel ++ (from' (x0 + pixel) (o.codes.length - pixel)).map (fun i => wireCode d (hatch p i k)) }
    ((s.putLane h y).keepCrc h (k / 32) y).noteRegion h k x0 y.codes
  | none => s

/-- An underrun on a lane at a pixel of line `k` (R157): the rest of the tile row on that lane is voided. -/
def State.underrun (s : State) (h k : Nat) (upper : Bool) (first cols pixel : Nat) : State :=
  let d := s.outSet h
  let x := s.head h
  let row := k / 32
  let x0 := 64 * first
  let x1 := x0 + lanePixels (outW h d) first cols - 1
  let yEnd := min (32 * row + 31) (outH h d - 1)
  let rest : Rect := ⟨x0 + pixel, k, x1, k⟩
  let below : List Rect := if k < yEnd then [⟨x0, k + 1, x1, yEnd⟩] else []
  let hitCols := (from' first cols).filter (fun c => decide (k < yEnd ∨ (x0 + pixel) / 64 ≤ c))
  let new := s.freshVoids h row (hitCols.map (fun c => row * outCols h d + c))
  let s1 := s.setHead h { x with
    underruns := w32 (x.underruns + 1), frameUnderruns := x.frameUnderruns + 1, frameVoids := x.frameVoids + new
    underrunRows := x.underrunRows ++ [(upper, row)] }
  let q := h + b2n upper
  let s1 := s1.setHead q { s1.head q with lowFill := 0, panic := true }
  let s2 := if x.standbyHeld then s1.notePanic
    else (each (rest :: below) s1.notePanic (fun s r => s.send (.voidRect h r 1))).hatchRest h k upper x0 pixel
  let s3 := s2.logLimited 0x4020 h tenSeconds 1 0 (fun n _ => [h, n, row, 0])
  (s3.postEnabled 0x0404 (fun e => evHead e 3 h) [h, x.frame, row, k]).happened 0x011 h

/-- `SCANOUT_UNDERRUN` (R157): in an active line of a lane of a scanning head, on a row not voided by an underrun already.
The renderer of safe state does not read the queues (R307). -/
def execScanoutUnderrun (dt : Nat) (h : Fin 24) (upper : Bool) (pixel : Nat) (s : State) :
    Host.Outcome State Fault Refusal :=
  let s1 := s.elapse dt
  let x := s1.head h
  let d := s1.outSet h
  let k := match x.line with | some n => n - 1 | none => headVTotal d
  match (s1.headSplit h).find? (fun e => e.2.1 == upper) with
  | some (_, _, first, cols) =>
    if !s1.windowUp ∨ s1.inSafe ∨ x.state ≠ .scanning ∨ x.line = some 0 ∨ headVActive d ≤ k
        ∨ lanePixels (outW h d) first cols ≤ pixel ∨ x.underrunRows.contains (upper, k / 32) then .next s1
    else .next (s1.underrun h k upper first cols pixel)
  | none => .next s1

/-- A tile that scan-out read does not match its record: it is voided and marked, and the mismatch is recorded and reported
(R22, R119, R158). -/
def State.tileMismatch (s : State) (o t count : Nat) : State :=
  let y := s.tile o t
  (((s.setTile o t { y with fault := true }).mark o [t]).log 0x4021 [o, t, y.record.slot, count]).happened 0x012 o

/-- A tile's CRC differs from its record (R158). -/
def State.crcMismatch (s : State) (h t : Nat) : State :=
  let d := s.outSet h
  let x := s.head h
  let y := s.tile h t
  let r := tileRect (outW h d) (outH h d) t
  let next := match x.line with | some n => n | none => headVTotal d
  let top := max r.y0 next
  let new := if y.fault then 0 else s.freshVoids h (t / outCols h d) [t]
  let s1 := s.setHead h { x with crcMismatches := w32 (x.crcMismatches + 1), frameVoids := x.frameVoids + new }
  let s2 := if x.standbyHeld ∨ r.y1 < top then s1 else s1.send (.voidRect h ⟨r.x0, top, r.x1, r.y1⟩ 1)
  s2.tileMismatch h t x.frame

/-- Scan-out of a head may know the verdict of a tile now: not before the 8 lines of its FIFO before the tile's last line
leaves, and no later than that line leaves; a tile whose reads an underrun cancelled in the frame is not verified (R158). -/
def State.headVerifies (s : State) (h t : Nat) : Bool :=
  let x := s.head h
  let d := s.outSet h
  let col := t % outCols h d
  let row := t / outCols h d
  let last := min (32 * row + 31) (outH h d - 1)
  let cut : Bool := (s.headSplit h).any (fun e =>
    decide (e.2.2.1 ≤ col ∧ col < e.2.2.1 + e.2.2.2) && x.underrunRows.contains (e.2.1, row))
  decide (x.state = .scanning) && !cut &&
    (match x.line with | some n => decide (last ≤ n + 7 ∧ n ≤ last + 1) | none => false)

/-- A push of a panel that reads a tile is in progress. -/
def State.panelVerifies (s : State) (o t : Nat) : Bool :=
  let d := s.outSet o
  match (s.panel (o - 24)).push with
  | some k => k.rects.any (fun r => r.meets (tileRect (outW o d) (outH o d) t))
  | none => false

/-- `TILE_CRC_VERDICT` (R22, R158): of a tile that scan-out, or the push of a panel, read and decoded. -/
def execTileCrcVerdict (dt : Nat) (o : Fin 32) (tile : Nat) (crc : Word) (s : State) : Host.Outcome State Fault Refusal :=
  let s1 := s.elapse dt
  let y := s1.tile o tile
  let reads := if isHead o then s1.headVerifies o tile else s1.panelVerifies o tile
  if !s1.windowUp ∨ s1.inSafe ∨ outTiles o (s1.outSet o) ≤ tile ∨ !reads ∨ !y.written
      ∨ crc.toNat = w32 y.record.crc then .next s1
  else if isHead o then .next (s1.crcMismatch o tile)
  else .next (s1.tileMismatch o tile (s1.panel (o - 24)).teCount)

/-- `HEAD_UNLOCKED` (R154): a scanning head's skew, in 1/16 line, exceeds one line. It returns to `LOCKING` at the next room
frame start; a head that a settlement has disabled enters `OFF`. -/
def execHeadUnlocked (dt : Nat) (h : Fin 24) (skew : Int) (s : State) : Host.Outcome State Fault Refusal :=
  let s1 := s.elapse dt
  let x := s1.head h
  if !s1.windowUp ∨ x.state ≠ .scanning ∨ skew.natAbs ≤ 16 then .next s1
  else
    let off := !s1.sets.active.shows h
    let s2 := s1.stopHead h 2 (if off then .off else .unlocked)
    let s3 := s2.setHead h { s2.head h with skew := skew }
    let s4 := ((s3.log 0x4010 [h, twos 32 skew, x.frame, 0]).proofLost h).happened 0x014 h
    .next (if off then s4.effectHere h (w32 (x.frame + 1)) else s4)

/-! ## Messages (Table 12-5) -/

/-- Link state of a head as `OUTPUT_STATUS_GET` gives it: of its own lane. -/
def State.headLink (s : State) (h : Nat) : LaneRun :=
  match s.links.laneOf 1 h with | some l => s.links.lane l | none => {}

/-- Measured skew in 1/16 line: of a scanning head a free value within one line, otherwise that of its last unlock (R154). -/
def State.skewOf (s : State) (h : Nat) : Int :=
  if s.scanning h then max (-16) (min (Config.skew s.draw h) 16) else (s.head h).skew

/-- A head's record (Table 12-13). -/
def State.headRecord (s : State) (h : Nat) : List Nat :=
  let x := s.head h
  let k := s.headLink h
  let link := match k.state with | .up => 1 | .incompatible => 2 | _ => 0
  [h, headCode x.state, x.frame, twos 32 (s.skewOf h), link, (k.partner.map capFlags).getD 0, k.version, s.echoState h,
    x.missRun, x.underruns, x.crcMismatches, x.lowFill, 0, 0, 0, 0]

/-- A panel's record (Table 12-13). -/
def State.panelRecord (s : State) (p : Nat) : List Nat :=
  let x := s.panel p
  [24 + p, panelCode x.state, x.teCount, x.period, b2n x.keep, x.pushes, x.fullPushes] ++
    (from' 1 4).map (Tbl.get x.abandons 0) ++ [x.failRun, x.largest, 0, 0, 0]

/-- A read of a record resets the lowest fill of a head and the largest push time of a panel (R154, R186). -/
def State.readOutput (s : State) (o : Nat) : State :=
  if isHead o then s.setHead o { s.head o with lowFill := 8 }
  else s.setPanel (o - 24) { s.panel (o - 24) with largest := 0 }

/-- `OUTPUT_STATUS_GET` (R154, R186). -/
def execOutputStatusGet (dt : Nat) (p : Fin 4) (s : State) : Host.Outcome State Fault Refusal :=
  .next (s.serve dt p 0x0402 (fun s r =>
    match cutList (r.u16 0) (r.u16 2) 32 64 r.room with
    | none => s.status p r stNotSupported
    | some l =>
      let b := listPayload (l.map (fun o => wordsLE (if isHead o then s.headRecord o else s.panelRecord (o - 24))))
      (each l s State.readOutput).answer p r stOk b))

/-- `OUTPUT_EVENTS_SET` (R155). -/
def execOutputEventsSet (dt : Nat) (p : Fin 4) (s : State) : Host.Outcome State Fault Refusal :=
  .next (s.serve dt p 0x0403 (fun s r =>
    let e := r.payload.bits 544
    if (upTo 24).any (fun h => decide (headVTotal (s.sets.active.output h) ≤ evLine e h)) then
      s.status p r stNotSupported
    else (s.setPort p { s.port p with evEnable := e }).status p r stOk))

end Sys2Proof.Machine
end

