-- ==== Sys2Proof/Machine/Panels.lean ====
section
/-!
DEFINITION. Console panels (07_console_positions.md): the TE, the push set and its rectangles, completing and abandoning a
push, BL_KEEPp, and the start and stop sequences.
-/
namespace Sys2Proof.Machine

/-! ## Rectangles of a push (R176), in tile columns and rows -/

/-- Maximal runs of adjacent tiles of each row, of a rising list of tiles. -/
def tileRuns (cols : Nat) (l : List Nat) : List Rect :=
  (l.foldl (fun (acc : List Rect) t =>
    let x := t % cols
    let y := t / cols
    match acc with
    | r :: rest => if r.y0 = y ∧ r.x1 + 1 = x then { r with x1 := x } :: rest else ⟨x, y, x, y⟩ :: acc
    | [] => [⟨x, y, x, y⟩]) []).reverse

/-- The order of rectangles: top row, then left column. -/
def rectLe (a b : Rect) : Bool := decide (a.y0 < b.y0) || (a.y0 == b.y0 && decide (a.x0 ≤ b.x0))

/-- Join each run to a rectangle directly above it with the same columns. -/
def joinRuns (l : List Rect) : List Rect :=
  sortBy rectLe (l.foldl (fun (acc : List Rect) r =>
    match acc.find? (fun q => q.x0 == r.x0 && q.x1 == r.x1 && q.y1 + 1 == r.y0) with
    | some q => acc.map (fun a => if a = q then { q with y1 := r.y1 } else a)
    | none => acc ++ [r]) [])

/-- Tiles of a rectangle that are not in the set. -/
def tilesOutside (cols : Nat) (set : List Nat) (r : Rect) : Nat :=
  r.width * r.height - countIf set (fun t => decide (r.x0 ≤ t % cols ∧ t % cols ≤ r.x1 ∧ r.y0 ≤ t / cols ∧ t / cols ≤ r.y1))

/-- The pairs of a list, first by first index, then by second. -/
def pairsOf {α : Type} : List α → List (α × α)
  | [] => []
  | x :: r => r.map (fun y => (x, y)) ++ pairsOf r

/-- Drop every rectangle that lies wholly inside another. -/
def dropInner : List Rect → List Rect → List Rect
  | _, [] => []
  | before, r :: rest =>
    if before.any (fun q => r.within q) || rest.any (fun q => r.within q) then dropInner before rest
    else r :: dropInner (before ++ [r]) rest

/-- Replace pairs by their bounding rectangles until at most `limit` rectangles remain (fuel: rectangles). -/
def mergeRects (cols limit : Nat) (set : List Nat) : Nat → List Rect → List Rect
  | 0, l => l
  | f + 1, l =>
    if l.length ≤ limit then l
    else
      let best := (pairsOf l).foldl (fun (b : Option (Nat × Rect × Rect)) e =>
        let n := tilesOutside cols set (e.1.hull e.2)
        match b with
        | some (m, _) => if n < m then some (n, e.1, e.2) else b
        | none => some (n, e.1, e.2)) none
      match best with
      | some (_, a, b) =>
        let rest := l.filter (fun r => r != a && r != b)
        mergeRects cols limit set f (sortBy rectLe (dropInner [] ((a.hull b) :: rest)))
      | none => l

/-- Bytes pushed for a rectangle of pixels. -/
def rectBytes (r : Rect) : Nat := r.height * (3 * r.width + 7) + 22

/-- The whole panel as one rectangle. -/
def panelRect (d : OutDesc) : Rect := ⟨0, 0, panelHActive d - 1, panelVActive d - 1⟩

/-- The rectangles of a push set, in the order sent (R176, R177). A proof region is a rectangle of its own beside them, and
then step 5 does not apply (log entry 21). -/
def pushRects (d : OutDesc) (set : List Nat) (region : Option Rect) : List Rect :=
  let w := panelHActive d
  let h := panelVActive d
  let cols := ceilDiv w 64
  let own := match region with
    | some r => set.filter (fun t => !(tileRect w h t).meets r)
    | none => set
  let limit := if region.isSome then 15 else 16
  let runs := joinRuns (tileRuns cols own)
  let rects := (mergeRects cols limit own runs.length runs).map (fun r =>
    (⟨64 * r.x0, 32 * r.y0, min (64 * r.x1 + 63) (w - 1), min (32 * r.y1 + 31) (h - 1)⟩ : Rect))
  match region with
  | some r => sortBy rectLe (r :: rects)
  | none => if panelFullBytes d < sumOf (rects.map rectBytes) then [panelRect d] else rects

/-! ## BL_KEEPp and darkness (R181, R183) -/

/-- The Auditor is sound. -/
def State.auditorSound (s : State) : Bool := !s.fault.auditorBad

/-- BL_KEEPp resumes on a running panel; `PANEL_LIT` follows a darkness. -/
def State.lightPanel (s : State) (p : Nat) : State :=
  let x := s.panel p
  if x.keep ∨ x.fullOwed ∨ !s.auditorSound ∨ (s.inSafe ∧ x.voidDue) then s
  else
    let s1 := s.setPanel p { x with keep := true, darkAt := none }
    match x.darkAt with
    | some t => s1.log 0x4044 [p, x.teCount, (s.time.now - t) / 1000000, 0]
    | none => s1

/-- BL_KEEPp of a panel stops for a cause of Table 7-11, and `PANEL_DARK` records it. -/
def State.darkenPanel (s : State) (p cause : Nat) : State :=
  let x := s.panel p
  (s.setPanel p { x with
    state := if x.state = .running then .dark else x.state
    keep := false, darkAt := some (x.darkAt.getD s.time.now) }).log 0x4043 [p, cause, x.teCount, 0]

/-! ## The end of a push (R179, R180, R183, R184) -/

/-- A completed full push restores what waits for it; one of the Auditor's renderer is no push of composed content (R184). -/
def State.fullCompleted (s : State) (p : Nat) (rendered : Bool) : State :=
  let x := s.panel p
  let s1 := s.setPanel p { x with
    fullPushes := x.fullPushes + 1, lastFull := some s.time.now, voidDue := false, failRaised := false
    fullOwed := x.fullOwed && rendered && !s.inSafe
    state := if x.state = .dark ∧ !x.teLost then .running else x.state }
  let s2 := if x.failRaised then s1.cleared 0x015 p else s1
  let y := s2.panel p
  match y.state with
  | .running => s2.lightPanel p
  | .starting => if y.step = 6 then (s2.setPanel p { y with step := 7 }).send (.dcs p 0x29 Bytes.none) else s2
  | _ => s2

/-- A test frame of the proof test has been pushed to a panel: the CRC of its region is compared with the Auditor's reference,
and the second frame ends the test (R48, R178). -/
def State.proofPushed (s : State) (p : Nat) (region : Option (Nat × Nat)) : State :=
  match s.comp.proof with
  | some pr =>
    if region.any (fun e => e.1 != e.2) then s.proofResult (24 + p) 1
    else
      let n := Tbl.get pr.frames 0 (24 + p) + 1
      let s1 := { s with comp := { s.comp with proof := some { pr with frames := Tbl.put pr.frames (24 + p) n } } }
      if 2 ≤ n then s1.proofResult (24 + p) 0 else s1
  | none => s

/-- The push of a panel completes. -/
def State.pushCompleted (s : State) (p : Nat) : State :=
  let x := s.panel p
  match x.push with
  | some k =>
    let us := (s.time.now - k.startedAt) / 1000
    let s1 := s.setPanel p { x with
      push := none, pushes := x.pushes + 1, failRun := 0, largest := max x.largest us }
    let s2 := s1.postEnabled 0x0411 (fun e => evPanel e 1 p) [p, k.te, k.rects.length, k.bytes]
    let s3 := if k.full then s2.notePanic.fullCompleted p k.rendered else s2.notePanic
    if k.proof then s3.proofPushed p k.region else s3
  | none => s

/-- The push of a panel is abandoned, with the cause in the order of R179. -/
def State.pushAbandoned (s : State) (p cause : Nat) : State :=
  let x := s.panel p
  match x.push with
  | some k =>
    let run := x.failRun + 1
    let limit := panelFailLimit (s.outSet (24 + p))
    let raise : Bool := decide (limit ≤ run) && !x.failRaised
    let s1 := s.setPanel p { x with
      push := none, failRun := run, redo := x.redo ++ k.rects, failRaised := x.failRaised || raise
      abandons := Tbl.upd x.abandons 0 cause (· + 1) }
    let s2 := (s1.notePanic.postEnabled 0x0412 (fun e => evPanel e 2 p) [p, k.te, cause, 0]).logLimited 0x4042 p tenSeconds 1 0
      (fun n _ => [p, n, cause, k.te])
    let s3 := if raise then (s2.darkenPanel p 1).raised 0x015 p else s2
    if k.proof then s3.proofResult (24 + p) 1 else s3
  | none => s

/-- `PUSH_COMPLETE` (R179). -/
def execPushComplete (dt : Nat) (pn : Fin 8) (s : State) : Host.Outcome State Fault Refusal :=
  let s1 := s.elapse dt
  if s1.windowUp then .next (s1.pushCompleted pn) else .next s1

/-- `PUSH_WINDOW_EXPIRY` (R179). -/
def execPushWindowExpiry (dt : Nat) (pn : Fin 8) (s : State) : Host.Outcome State Fault Refusal :=
  let s1 := s.elapse dt
  match (s1.panel pn).push with
  | some k =>
    if s1.windowUp ∧ k.startedAt + 1000 * panelWindow (s1.outSet (24 + pn)) ≤ s1.time.now then
      .next (s1.pushAbandoned pn 1)
    else .next s1
  | none => .next s1

/-- `PANEL_ACK_RECEIVED` (R177): after the turnaround that `BTA_ACK` asks for. -/
def execPanelAckReceived (dt : Nat) (pn : Fin 8) (report : BitVec 16) (s : State) : Host.Outcome State Fault Refusal :=
  let s1 := s.elapse dt
  if !s1.windowUp ∨ !panelBtaAck (s1.outSet (24 + pn)) then .next s1
  else if report = 0 then .next (s1.pushCompleted pn)
  else .next (s1.pushAbandoned pn 2)

/-- `BTA_TIMEOUT` (R179). -/
def execBtaTimeout (dt : Nat) (pn : Fin 8) (s : State) : Host.Outcome State Fault Refusal :=
  let s1 := s.elapse dt
  if s1.windowUp ∧ panelBtaAck (s1.outSet (24 + pn)) then .next (s1.pushAbandoned pn 3) else .next s1

/-- `LP_CONTENTION` (R179). -/
def execLpContention (dt : Nat) (pn : Fin 8) (s : State) : Host.Outcome State Fault Refusal :=
  let s1 := s.elapse dt
  if s1.windowUp then .next (s1.pushAbandoned pn 4) else .next s1

/-! ## A TE (R173 to R176, R38) -/

/-- Tiles of an output whose records become current at its frame start or TE now (R175 item 1). -/
def State.publishing (s : State) (o : Nat) : List Nat :=
  let x := s.outComp o
  let staged := match s.sets.effect with
    | some (_, outs) => if outs.contains o then x.staged.map (·.1) else []
    | none => []
  match x.round with
  | some r => if r.done then union staged (r.recs.map (·.1)) else staged
  | none => staged

/-- Tiles of a row whose voids differ between two evaluations (R40). -/
def changedVoids (old new : List VoidArea) : List Nat :=
  let look (l : List VoidArea) (t : Nat) := (l.filter (fun a => a.tile == t)).map (fun a => (a.rect, a.reason))
  (((old ++ new).map (·.tile)).foldl insertNat []).filter (fun t => look old t != look new t)

/-- Tiles of a panel that a set of legend boxes touches. -/
def legendTiles (d : OutDesc) (l : List Legend) : List Nat :=
  l.flatMap (fun e => if e.box.meets (panelRect d) then tilesOf (panelHActive d) (e.box.cut (panelRect d)) else [])

/-- Send the rectangles of a push with the voids and legends in them. -/
def State.sendPush (s : State) (p : Nat) (rects : List Rect) (legends : List Legend) : State :=
  let o := 24 + p
  let s1 := each rects s (fun s r => each (rectPackets p r (s.pushRows p legends r)) s State.send)
  if s.inSafe then each (upTo (outRows o (s.outSet o))) s1 (fun s row => s.renderRow o row)
  else
    let areas := (upTo (outRows o (s.outSet o))).flatMap (fun row => Tbl.get s.comp.voids [] (128 * o + row))
    (s1.sendVoids o (areas.filter (fun a => rects.any (fun r => a.rect.meets r)))).sendLegends o
      (legends.filter (fun l => rects.any (fun r => l.box.meets r)))

/-- The push set of a TE, and whether a full push is due (R175, R180, R184). -/
def State.pushSet (s : State) (p : Nat) (set : List Nat) : List Nat :=
  let d := s.outSet (24 + p)
  let x := s.panel p
  let refresh : Bool := match x.lastFull with
    | some t => decide (t + 1000000 * panelRefreshMax d ≤ s.time.now)
    | none => false
  let full : Bool := x.fullDue || x.fullOwed || refresh || x.state == .starting || (s.inSafe && (x.voidDue || x.redo != []))
  if full then upTo (outTiles (24 + p) d)
  else if s.inSafe then []
  else (set ++ x.redo.flatMap (tilesOf (panelHActive d))).foldl insertNat []

/-- Start the push of a TE; an empty set sends nothing. -/
def State.startPush (s : State) (p : Nat) (set : List Nat) (legends : List Legend) : State :=
  let o := 24 + p
  let d := s.outSet o
  let x := s.panel p
  let region := (s.proofRegion o).map (·.2)
  let all := s.pushSet p set
  if all = [] ∧ region.isNone then s
  else
    let rects := pushRects d all region
    let crc (r : Rect) := rowsCrc (s.pushRows p legends r)
    let k : Push := {
      te := x.teCount, rects := rects, full := decide (rects = [panelRect d])
      bytes := sumOf (rects.map rectBytes), proof := region.isSome, startedAt := s.time.now, crcs := rects.map crc
      region := region.map (fun r => (crc r, s.proofReference o r panelBytes)), rendered := s.inSafe }
    (((s.setPanel p { x with push := some k, redo := [], fullDue := x.fullDue && !k.full, panic := false }).lookPush
      p).notePanic.dramRequest).sendPush p rects legends

/-- A push that is still in progress at a TE: abandoned when its window has passed, else the set waits for the next TE (log
entry 21). -/
def State.pushAtTe (s : State) (p : Nat) (set : List Nat) (legends : List Legend) : State :=
  let d := s.outSet (24 + p)
  let x := s.panel p
  match x.push with
  | some k =>
    if k.startedAt + 1000 * panelWindow d ≤ s.time.now then (s.pushAbandoned p 1).startPush p set legends
    else s.setPanel p { x with redo := x.redo ++ pushRects d (set.foldl insertNat []) none }
  | none => s.startPush p set legends

/-- Sample the pending commit of a panel group at its master's TE (R139). -/
def State.sampleAtTe (s : State) (o : Nat) : State :=
  match s.sets.pending with
  | some c =>
    if !isHead (grpMaster (s.group c.group)) ∧ s.masterOf c.group = some o then s.sample c.group else s
  | none => s

/-- Evaluate every tile of a panel (R38), and give the tiles whose void state, reason or legend changed with the legends
now drawn. -/
def State.evalPanel (s : State) (p : Nat) : State × List Nat × List Legend :=
  let o := 24 + p
  let d := s.outSet o
  let rows := upTo (outRows o d)
  let tEval := s.time.room + 1000 * panelTePeriod d
  let s1 := each rows s (fun s row => s.evalRow o row tEval false)
  let now (row : Nat) := Tbl.get s1.comp.voids [] (128 * o + row)
  let legends := if s1.inSafe then [] else rows.flatMap (fun row => s1.legendsOf o row (now row))
  let old := (s.panel p).legends
  let moved := old.filter (fun l => !legends.contains l) ++ legends.filter (fun l => !old.contains l)
  (s1.setPanel p { s1.panel p with legends := legends },
    rows.flatMap (fun row => changedVoids (Tbl.get s.comp.voids [] (128 * o + row)) (now row)) ++ legendTiles d moved,
    legends)

/-- The panel is pushed at this TE: TE is not lost, and a start has seen its second TE (Table 7-6 step 6) or is owed a full push
again (R174, R184). -/
def PanelRun.pushes? (x : PanelRun) : Bool :=
  !x.teLost && match x.state with
    | .running | .dark => true
    | .starting => decide (2 ≤ x.teGood) && (x.step == 6 || (x.step == 7 && (x.fullOwed || x.voidDue)))
    | _ => false

/-- A start ends at the TE after its push (Table 7-6 step 8), once no full push is owed (Table 7-4). -/
def State.finishStart (s : State) (p : Nat) : State :=
  let x := s.panel p
  let d := s.outSet (24 + p)
  if x.state = .starting ∧ x.step = 7 ∧ !x.teLost ∧ !x.fullOwed ∧ !(s.inSafe ∧ x.voidDue) then
    ((s.setPanel p { x with state := .running, step := 8, darkAt := none }).lightPanel p).log 0x4040
      [p, panelLanes d, panelMbps d, x.retries]
  else s

/-- Count a TE taken, and post it (R173, R186). -/
def State.countTe (s : State) (p : Nat) : State :=
  let x := s.panel p
  let n := w32 (x.teCount + 1)
  (s.setPanel p { x with
    teCount := n, teGood := x.teGood + 1, lastTe := some s.time.now
    period := match x.lastTe with | some t => (s.time.now - t) / 1000 | none => x.period }).postEnabled 0x0410
    (fun e => evPanel e 0 p) [p, n, w32 s.time.room, hi32 s.time.room]

/-- TE returns at the second TE taken (R174); a start and a return are resumptions (R17). -/
def State.resumeTe (s : State) (p : Nat) : State :=
  let x := s.panel p
  if x.teLost ∧ 2 ≤ x.teGood then
    ((s.setPanel p { x with teLost := false, fullDue := true, fullOwed := true }).resumeOutput (24 + p)).cleared 0x016 p
  else if x.state = .starting ∧ x.step = 6 ∧ x.teGood = 1 ∧ !x.teLost then s.resumeOutput (24 + p)
  else s

/-- The settings of the last settlement come into force on a panel, and with its TE period the cost of the jobs that read it (R185,
R211). -/
def State.dropUnder (s : State) (p : Nat) : State :=
  let x := s.panel p
  if x.under.isNone then s else (s.setPanel p { x with under := none }).encReprice

/-- A TE is taken: rounds, commits, evaluation and push, in this order; then the commit of the panel's group is sampled. -/
def State.takeTe (s : State) (p : Nat) : State :=
  let o := 24 + p
  let s1 := (((s.dropUnder p).countTe p).finishStart p).resumeTe p
  let n := (s1.panel p).teCount
  let pub := s1.publishing o
  let s2 := (((s1.effectHere o n).publishRound o).startRound o).proofStart o n
  let (s3, changed, legends) := (s2.sampleEncode o).evalPanel p
  let s4 := if (s3.panel p).pushes? then s3.pushAtTe p (pub ++ changed) legends else s3
  s4.sampleAtTe o

/-- `TE_TAKEN` (R173): an edge less than half a period after the last TE taken is ignored and counted. -/
def execTeTaken (dt : Nat) (pn : Fin 8) (s : State) : Host.Outcome State Fault Refusal :=
  let s1 := s.elapse dt
  let x := s1.panel pn
  let on : Bool := match x.state with
    | .running | .dark => true
    | .starting => decide (6 ≤ x.step)
    | _ => false
  if !s1.windowUp ∨ !on then .next s1
  else
    let early : Bool := match x.lastTe with
      | some t => decide (2 * (s1.time.now - t) < 1000 * panelTePeriod (s1.outSet (24 + pn)))
      | none => false
    if early then .next (s1.setPanel pn { x with teIgnored := x.teIgnored + 1 }) else .next (s1.takeTe pn)

/-- `TE_LOST` (R174): three periods without a TE; the panel is darkened. -/
def execTeLost (dt : Nat) (pn : Fin 8) (s : State) : Host.Outcome State Fault Refusal :=
  let s1 := s.elapse dt
  let x := s1.panel pn
  match x.lastTe with
  | some t =>
    if s1.windowUp ∧ !x.teLost ∧ t + 3000 * panelTePeriod (s1.outSet (24 + pn)) ≤ s1.time.now then
      -- The window of a push that is still in progress has passed.
      let s2 := s1.pushAbandoned pn 1
      let y := s2.panel pn
      let s2 := s2.setPanel pn { y with teLost := true, teGood := 0 }
      let s3 := if y.state = .running then s2.darkenPanel pn 2 else s2
      .next (s3.raised 0x016 pn)
    else .next s1
  | none => .next s1

/-! ## Start and stop (R185) -/

/-- Step 5 of a start: the commands that end its preparation. -/
def State.sendTearOn (s : State) (p : Nat) : State :=
  let d := s.outSet (24 + p)
  let s1 := ((s.send (.dcs p 0x3A (leBytes 1 0x77))).send (.dcs p 0x36 (leBytes 1 (panelAddrMode d)))).send
    (.dcs p 0x35 (leBytes 1 0))
  s1.setPanel p { s1.panel p with step := 6, lastTe := none, teGood := 0 }

/-- Send host entries up to the next delay (fuel: entries), then step 5. -/
def State.sendEntries (s : State) (p : Nat) : Nat → State
  | 0 => s.sendTearOn p
  | n + 1 =>
    let x := s.panel p
    if x.entries.len < 20 then s.sendTearOn p
    else
      let e := x.entries
      let s1 := (s.setPanel p { x with
        step := 4, entries := Bytes.drop e 20, waitUntil := s.time.now + 1000000 * Bytes.byte e 2 }).send
        (.dsiEntry p (Bytes.byte e 0) (Bytes.slice e 4 (Bytes.byte e 1)))
      if Bytes.byte e 2 = 0 then s1.sendEntries p n else s1

/-- The next step of a start, at the end of a wait. Above 1,500 Mb/s the deskew sequence precedes the first command (R416). -/
def State.startStep (s : State) (p : Nat) : State :=
  let x := s.panel p
  let d := s.outSet (24 + p)
  match x.step with
  | 1 => (s.setPanel p { x with step := 2, waitUntil := s.time.now + 10000000 }).send (.dsiReset p true)
  | 2 =>
    let s1 := if 1500 < panelMbps d then s.send (.dsiDeskew p) else s
    (s1.setPanel p { x with step := 3, waitUntil := s.time.now + 1000000 * panelSleepOut d }).send (.dcs p 0x11 Bytes.none)
  | 3 => s.sendEntries p 33
  | 4 => s.sendEntries p 33
  | _ => s

/-- The next step of a stop, at the end of a wait: the display off and asleep, then reset. -/
def State.stopStep (s : State) (p : Nat) : State :=
  let x := s.panel p
  let d := s.outSet (24 + p)
  if x.step = 1 then
    ((s.setPanel p { x with step := 4, waitUntil := s.time.now + 1000000 * panelSleepOut d }).send
      (.dcs p 0x28 Bytes.none)).send (.dcs p 0x10 Bytes.none)
  else
    let s1 := (((s.dropUnder p).setPanel p { x with
      state := .off, step := 0, teLost := false, failRun := 0, failRaised := false, under := none }).send
      (.dsiReset p false)).send (.dsiUlps p)
    let s2 := ((s1.log 0x4041 [p, x.stopReason, x.teCount, 0]).cleared 0x015 p).cleared 0x016 p
    if x.restart then s2.beginPanelStart p 0 else s2

/-- `PANEL_SEQUENCE_WAIT` (R185). -/
def execPanelSequenceWait (dt : Nat) (pn : Fin 8) (s : State) : Host.Outcome State Fault Refusal :=
  let s1 := s.elapse dt
  let x := s1.panel pn
  if !s1.windowUp ∨ s1.time.now < x.waitUntil then .next s1
  else match x.state with
  | .starting => .next (s1.startStep pn)
  | .stopping => .next (s1.stopStep pn)
  | _ => .next s1

/-- `PANEL_START_RETRY` (R185): 2 s without reaching step 8. -/
def execPanelStartRetry (dt : Nat) (pn : Fin 8) (s : State) : Host.Outcome State Fault Refusal :=
  let s1 := s.elapse dt
  let x := s1.panel pn
  if s1.windowUp ∧ x.state = .starting ∧ x.startedAt + 2000000000 ≤ s1.time.now then
    .next (s1.beginPanelStart pn (x.retries + 1))
  else .next s1

/-- DSI data types an entry may have, and those that carry a DCS command (Table 12-5). -/
def entryTypes : List Nat := [0x03, 0x05, 0x13, 0x15, 0x23, 0x29, 0x39]
def dcsTypes : List Nat := [0x05, 0x15, 0x39]
/-- DCS commands an entry may not use (R185). -/
def ownDcs : List Nat := [0x10, 0x11, 0x28, 0x29, 0x2A, 0x2B, 0x2C, 0x35, 0x36, 0x3A, 0x3C]

/-- The status of a list of entries that cannot be taken. -/
def entriesCheck (b : Bytes) (n : Nat) : Option Nat :=
  let l := (List.range n).map (fun i => Bytes.slice b (20 * i) 20)
  if l.any (fun e => !entryTypes.contains (Bytes.byte e 0) || decide (16 < Bytes.byte e 1)) then some stNotSupported
  else if l.any (fun e => dcsTypes.contains (Bytes.byte e 0) && Bytes.byte e 1 != 0 && ownDcs.contains (Bytes.byte e 4)) then
    some stDenied
  else none

/-- `PANEL_INIT_SET` (R185, R293): entries apply from the next start. -/
def execPanelInitSet (dt : Nat) (p : Fin 4) (s : State) : Host.Outcome State Fault Refusal :=
  .next (s.serve dt p 0x0404 (fun s r =>
    if r.length = 0 then { s with panelInit := [] }.status p r stOk
    else if r.length < 4 ∨ 4100 < r.length ∨ r.length ≠ 4 + 20 * r.u8 1 then s.status p r stBadLength
    else if 7 < r.u8 0 ∨ 32 < r.u8 1 then s.status p r stNotSupported
    else
      let b := Bytes.drop r.payload 4
      match entriesCheck b (r.u8 1) with
      | some st => s.status p r st
      | none => { s with panelInit := Tbl.set s.panelInit ⟨0, 0⟩ (r.u8 0) ⟨20 * r.u8 1, Bytes.at b 0 (20 * r.u8 1)⟩ }.status
          p r stOk))

end Sys2Proof.Machine
end

