-- ==== Sys2Proof/Machine/Keys.lean ====
section
/-!
DEFINITION. Capacitive keys (R188 to R196, R297): settings, scans, flags, baselines, scan rate and the messages that read
them.
-/
namespace Sys2Proof.Machine

/-! ## Settings (R188) -/

/-- The reserved bits of a group setting (R4). -/
def keyReserved : Nat :=
  sumOf ([wordMask 0 28 20, wordMask 0 15 12, wordMask 0 7 5, wordMask 3 15 0]
    ++ (upTo 24).map (fun k => wordMask (4 + k) 29 16))

/-- The status of a setting that cannot be taken. A zero `PRESS` is refused of an enabled key only. -/
def keyCheck (d : KeyDesc) : Option Nat :=
  let on := (upTo 24).filter (keyEnable d)
  if keyDebounce d = 0 ∨ keyMultiLimit d = 0 ∨ keyHoldLimit d = 0 ∨ keyStuckLimit d = 0 ∨ keyGlovePct d = 0
      ∨ on.any (fun k => keyPress d k == 0) then some stZeroField
  else if 24 < keyMultiLimit d ∨ 3600 < keyHoldLimit d ∨ 1000 < keyTrackMin d ∨ 1000 < keyTrackMax d
      ∨ keyWaterK d < 17 ∨ keyGlovePct d < 10 ∨ 100 < keyGlovePct d ∨ (upTo 24).any (fun k => decide (40000 < keyPress d k))
      ∨ keyScanFloor d < keyScanHigh d ∨ keyTrackMax d < keyTrackMin d ∨ keyStuckLimit d < keyHoldLimit d then
    some stNotSupported
  else none

/-- Accept a setting: it acts at the group's next scan, and is mirrored (R340). -/
def State.acceptKeys (s : State) (g v : Nat) : State :=
  let d : KeyDesc := BitVec.ofNat 896 (v - (v &&& keyReserved))
  (s.setKeyGroup g { s.keyGroup g with nextSetting := some d }).mirrorSetting 1 g (bytesOf d)

/-- `KEY_GROUP_SET` (R188): every item is checked before any is taken. -/
def execKeyGroupSet (dt : Nat) (p : Fin 4) (s : State) : Host.Outcome State Fault Refusal :=
  .next (s.serve dt p 0x0801 (fun s r =>
    match itemList r 112 7 with
    | .inl st => s.status p r st
    | .inr (first, items) =>
      match items.findSome? (fun v => keyCheck (BitVec.ofNat 896 v)) with
      | some st => s.status p r st
      | none => (each ((upTo items.length).zip items) s (fun s e => s.acceptKeys (first + e.1) e.2)).status p r stOk))

/-! ## Flags, codes and snapshots (Table 7-9, R297) -/

/-- Flags of a key (Table 12-11). -/
def KeyRun.flags (k : KeyRun) (multi : Bool) : Nat :=
  b2n k.presentAtStart + 2 * b2n k.held + 4 * b2n k.stuck + 8 * b2n k.wet + 16 * b2n multi + 32 * b2n k.hover
    + 64 * b2n k.negDrift

/-- 5-bit code of a key in a snapshot (R297). -/
def KeyRun.code (k : KeyRun) (on : Bool) : Nat :=
  if !on then 6
  else if k.pressed then
    8 * ((if k.stuck then 2 else if k.held then 1 else 0) + 1) + 4 * b2n k.presentAtStart + 2 * b2n k.negDrift + b2n k.wet
  else 2 * (if k.negDrift then 2 else if k.hover then 1 else 0) + b2n k.wet

/-- Baseline in 5 fF. -/
def KeyRun.baseline (k : KeyRun) : Nat := k.base.getD 0 / 1000000000

def KeyGroup.key (x : KeyGroup) (k : Nat) : KeyRun := Tbl.get x.keys {} k

/-- The 128-bit field of a group's snapshot. -/
def KeyGroup.field (x : KeyGroup) : BitVec 128 :=
  BitVec.ofNat 128 (sumOf ((upTo 24).map (fun k => (x.key k).code (keyEnable x.set k) <<< (5 * k))))

/-- Post a `KEY_SNAPSHOT` of a field to every session (R196, R297). -/
def State.postSnapshot (s : State) (g : Nat) (multi : Bool) (f : BitVec 128) : State :=
  each (upTo 4) s (fun s p => s.postEventAt p 0x0804 (g + b2n multi * 256) s.time.room
    [fld f 0 31 0, fld f 1 31 0, fld f 2 31 0, fld f 3 31 0])

/-- A snapshot of every enabled group. -/
def State.snapshotKeys (s : State) : State :=
  each (upTo 8) s (fun s g =>
    let x := s.keyGroup g
    if keyGrpEnable x.set then s.postSnapshot g x.multi x.field else s)

/-- Mirror the states and flags of a group's keys (R340). -/
def State.mirrorKeyField (s : State) (g : Nat) : State :=
  let x := s.keyGroup g
  s.mirror 0x0023 (fun n => Bytes.join [leBytes 1 g, leBytes 1 (b2n x.multi), leBytes 2 0, leBytes 4 n,
    leBytes 16 x.field.toNat])

/-- A key event to every session, withheld in safe state, and its record (R192, R196). -/
def State.keyEvent (s : State) (event record : Nat) (ps : List Nat) : State :=
  let s1 := if s.inSafe then s else s.postAll event ps
  s1.log record ps

/-- Parameters of `KEY_PRESS` and `KEY_STUCK`. -/
def keyParams (g k : Nat) (x : KeyRun) (multi : Bool) : List Nat :=
  [g * 256 + k, x.flags multi, twos 32 x.dF, x.baseline]

/-! ## One scan of one key (R190 to R194) -/

/-- The factory reference of a key, when the group starts from it. -/
def State.keyReference (s : State) (g k : Nat) : Option Nat :=
  let x := s.keyGroup g
  if keyStoredRef x.set ∧ !x.refBad then (Tbl.find s.keyRef g).bind (fun l => l.raws[k]?) else none

/-- A scan of a key whose baseline is being formed (R193). -/
def KeyRun.form (x : KeyRun) (d : KeyDesc) (k raw now : Nat) (ref : Option Nat) : KeyRun :=
  let n := x.scans + 1
  let sum := if x.scans < 8 then x.sum + raw else x.sum
  let hit : Bool := match ref with | some r => decide (r + pressThreshold d k ≤ raw) | none => false
  let hits := if hit then x.refHits + 1 else x.refHits
  let x1 : KeyRun := { x with scans := n, sum := sum, refHits := hits }
  if hits = n ∧ n < keyDebounce d then x1
  else if hits = n then
    let r := ref.getD 0
    { x1 with base := some (r * 1000000000), pressed := true, presentAtStart := true, pressedAt := now
              dF := (raw : Int) - r, scans := 0, sum := 0, refHits := 0 }
  else if n < 8 then x1
  else { x1 with base := some (sum * 125000000), scans := 0, sum := 0, refHits := 0, signSince := now }

/-- The debounced state, flags and counts after a scan with the deltas already taken (R190 to R192). -/
def KeyRun.decide' (x : KeyRun) (d : KeyDesc) (k now : Nat) : KeyRun :=
  let p : Int := pressThreshold d k
  let r : Int := releaseThreshold d k
  let ratio : Bool := !keyFt d k || decide (x.dT * 16 ≤ keyWaterK d * x.dF)
  let wet : Bool := !ratio && (decide (r ≤ x.dF) || decide (r ≤ x.dT))
  let neg : Bool := decide (x.dF ≤ -r)
  let toward : Bool := if x.pressed then decide (x.dF < r) && !wet else decide (p ≤ x.dF) && ratio
  let n := if toward then x.count + 1 else 0
  let change : Bool := decide (keyDebounce d ≤ n)
  let warm : Bool := keyGlove d && !x.pressed && decide (p ≤ 4 * x.dF) && decide (100 * x.dF ≤ 60 * p)
  let hn := if warm then x.hoverCount + 1 else 0
  let x1 : KeyRun := { x with
    count := if change then 0 else n, wet := wet, negDrift := neg, hoverCount := hn
    hover := (x.hover || decide (keyDebounce d ≤ hn)) && decide (p ≤ 4 * x.dF) && keyGlove d }
  if !change then x1
  else if x.pressed then
    { x1 with pressed := false, presentAtStart := false, held := false, stuck := false }
  else { x1 with pressed := true, pressedAt := now, hover := false, hoverCount := 0 }

/-- Take the deltas of a scan, dT where it has a T phase (R189), and the run of one sign (R194). -/
def KeyRun.measure (x : KeyRun) (smp : KeySample) (tPhase : Bool) (now : Nat) : KeyRun :=
  let dF : Int := (smp.rawF : Int) - x.baseline
  let sign := Int.sign dF
  { x with
    raw := smp.rawF, dF := dF, dT := if tPhase then (smp.rawT : Int) - x.baseline else x.dT, sign := sign
    signSince := if sign = x.sign ∧ sign ≠ 0 then x.signSince else now }

/-- Move a baseline towards the raw value by a step, never past it. -/
def stepTo (base target step : Nat) : Nat := if base ≤ target then min target (base + step) else max target (base - step)

/-- The baseline tracks (R194), `dt` ns after the scan before. -/
def KeyRun.track (x : KeyRun) (d : KeyDesc) (k now dt : Nat) (anyPressed : Bool) : KeyRun :=
  match x.base with
  | some b =>
    if x.pressed ∨ x.wet ∨ anyPressed ∨ ((releaseThreshold d k : Int) ≤ x.dF ∧ !x.negDrift) then x
    else
      let rate := if x.negDrift ∨ x.signSince + 10000000000 ≤ now then keyTrackMax d else keyTrackMin d
      { x with base := some (stepTo b (x.raw * 1000000000) (rate * dt)) }
  | none => x

/-! ## A scan of a group (R192 to R195) -/

/-- A scan has a T phase: an enabled key has `FT` set (R189). -/
def hasTPhase (d : KeyDesc) : Bool := (upTo 24).any (fun k => keyEnable d k && keyFt d k)

/-- The key of a group after a scan: formed or decided where it is enabled; every channel is measured (R189). -/
def State.scanKey (s : State) (g k : Nat) (smp : KeySample) : KeyRun :=
  let x := (s.keyGroup g).key k
  let d := (s.keyGroup g).set
  let now := s.time.now
  let x0 : KeyRun := ({ x with recent := (smp.rawF :: x.recent).take 64 } : KeyRun).measure smp (hasTPhase d) now
  if !keyEnable d k then x0
  else match x.base with
    | none => x0.form d k smp.rawF now (s.keyReference g k)
    | some _ => x0.decide' d k now

/-- The baselines of a group begin to form: a stored reference is read, and one that is absent or fails its CRC is recorded; the
group then starts as CLEAN_START (R193). -/
def State.beginForming (s : State) (g : Nat) : State :=
  let x := s.keyGroup g
  if !keyStoredRef x.set then s
  else
    let bad : Bool := Tbl.has s.keyRef g && !Config.refReads s.draw g
    let s1 := s.setKeyGroup g { x with refBad := bad }
    if !Tbl.has s.keyRef g then s1.log 0x5020 [g, 1, 0, 0] else if bad then s1.log 0x5020 [g, 2, 0, 0] else s1

/-- Events and records of a key's change from one scan to the next. -/
def State.keyChange (s : State) (g k : Nat) (old new : KeyRun) (multi : Bool) : State :=
  let id := g * 256 + k
  let s1 := if new.presentAtStart ∧ !old.presentAtStart then
      s.log 0x5003 [id, twos 32 new.dF, new.baseline, 0] else s
  let s2 := if new.pressed ∧ !old.pressed then s1.keyEvent 0x0801 0x5001 (keyParams g k new multi)
    else if old.pressed ∧ !new.pressed then
      s1.keyEvent 0x0802 0x5002 [id, new.flags multi, (s.time.now - old.pressedAt) / 1000000, 0]
    else s1
  if new.wet ∧ !old.wet then
    s2.logLimited 0x5012 (g * 32 + k) tenSeconds 1 0 (fun n _ => [id, twos 32 new.dF, twos 32 new.dT, n])
  else s2

/-- A key of a group is active (R195). -/
def KeyRun.active (x : KeyRun) (d : KeyDesc) (k : Nat) : Bool :=
  x.pressed || x.wet || x.hover || (x.base.isSome && decide ((releaseThreshold d k : Int) ≤ x.dF))

/-- The rate a group may scan at: not above `SCAN_HIGH`, not below `SCAN_FLOOR`. -/
def clipRate (d : KeyDesc) (code : Nat) : Nat := max (keyScanHigh d) (min (keyScanFloor d) code)

/-- A scan of an enabled group, under its setting. -/
def State.scanGroup (s : State) (g : Nat) (raws : List KeySample) : State :=
  let d := (s.keyGroup g).set
  let on := (upTo 24).filter (keyEnable d)
  let now := s.time.now
  let forming := on.any (fun k => ((s.keyGroup g).key k).base.isNone && ((s.keyGroup g).key k).scans == 0)
  let s0 := if forming then s.beginForming g else s
  let x := s0.keyGroup g
  let all := (upTo 24).map (fun k => (k, s0.scanKey g k (raws.getD k ⟨0, 0⟩)))
  let scanned := all.filter (fun e => keyEnable d e.1)
  let down := scanned.filter (fun e => e.2.pressed)
  let multi : Bool := decide (keyMultiLimit d < down.length)
  let dt := now - (x.lastScan.getD now)
  let keys := each all x.keys (fun t e => Tbl.set t {} e.1
    (if keyEnable d e.1 then e.2.track d e.1 now dt (decide (0 < down.length)) else e.2))
  let active := scanned.any (fun e => e.2.active d e.1)
  let s1 := s0.setKeyGroup g { x with
    keys := keys, multi := multi, lastScan := some now
    rate := clipRate d (if active then keyScanHigh d else x.rate), activeAt := if active then now else x.activeAt }
  let s2 := each scanned s1 (fun s e => s.keyChange g e.1 (x.key e.1) e.2 multi)
  let s3 := if multi ∧ !x.multi then s2.log 0x5013 [g, down.length, maskOf (down.map (·.1)), 0] else s2
  if (s3.keyGroup g).field ≠ x.field ∨ multi ≠ x.multi then s3.mirrorKeyField g else s3

/-- The setting accepted last is in force from this scan. A group that it enables begins at its fastest rate. -/
def KeyGroup.takeSetting (x : KeyGroup) (now : Nat) : KeyGroup :=
  match x.nextSetting with
  | some d =>
    let new := keyGrpEnable d && !keyGrpEnable x.set
    { x with
      setting := some d, nextSetting := none, rate := if new then keyScanHigh d else clipRate d x.rate
      activeAt := if new then now else x.activeAt, lastScan := if new then none else x.lastScan }
  | none => x

/-- `KEY_SCAN` (R192): a scan of a group completes. -/
def execKeyScan (dt : Nat) (g : Fin 8) (raws : List KeySample) (s : State) : Host.Outcome State Fault Refusal :=
  let s1 := s.elapse dt
  if !s1.windowUp ∨ s1.maskedOff 24 then .next s1
  else
    let s2 := s1.setKeyGroup g ((s1.keyGroup g).takeSetting s1.time.now)
    if keyGrpEnable (s2.keyGroup g).set then .next (s2.scanGroup g raws) else .next s2

/-- `KEY_HELD` (R192): pressed for `HOLD_LIMIT_S`. -/
def execKeyHeld (dt : Nat) (g : Fin 8) (k : Fin 24) (s : State) : Host.Outcome State Fault Refusal :=
  let s1 := s.elapse dt
  let x := s1.keyGroup g
  let y := x.key k
  if s1.windowUp ∧ keyGrpEnable x.set ∧ keyEnable x.set k ∧ y.pressed ∧ !y.held
      ∧ y.pressedAt + keyHoldLimit x.set * 1000000000 ≤ s1.time.now then
    let z := { y with held := true }
    let s2 := (s1.setKeyGroup g { x with keys := Tbl.set x.keys {} k z }).log 0x5010
      [g.val * 256 + k.val, z.flags x.multi, 0, 0]
    .next (s2.mirrorKeyField g)
  else .next s1

/-- `KEY_STUCK` (R192): pressed for `STUCK_LIMIT_S`. -/
def execKeyStuck (dt : Nat) (g : Fin 8) (k : Fin 24) (s : State) : Host.Outcome State Fault Refusal :=
  let s1 := s.elapse dt
  let x := s1.keyGroup g
  let y := x.key k
  if s1.windowUp ∧ keyGrpEnable x.set ∧ keyEnable x.set k ∧ y.pressed ∧ !y.stuck
      ∧ y.pressedAt + keyStuckLimit x.set * 1000000000 ≤ s1.time.now then
    let z := { y with stuck := true }
    let s2 := (s1.setKeyGroup g { x with keys := Tbl.set x.keys {} k z }).keyEvent 0x0803 0x5011
      (keyParams g k z x.multi)
    .next (s2.mirrorKeyField g)
  else .next s1

/-- `KEY_RATE_STEP` (R195): 1 s, 10 s or 120 s without activity. -/
def execKeyRateStep (dt : Nat) (g : Fin 8) (s : State) : Host.Outcome State Fault Refusal :=
  let s1 := s.elapse dt
  let x := s1.keyGroup g
  let idle := s1.time.now - x.activeAt
  let code := if 120000000000 ≤ idle then 3 else if 10000000000 ≤ idle then 2 else if 1000000000 ≤ idle then 1 else 0
  if s1.windowUp ∧ keyGrpEnable x.set then
    .next (s1.setKeyGroup g { x with rate := clipRate x.set (max code x.rate) })
  else .next s1

/-! ## Messages (Table 12-7) -/

/-- `KEY_STATE_GET` (R196). -/
def execKeyStateGet (dt : Nat) (p : Fin 4) (s : State) : Host.Outcome State Fault Refusal :=
  .next (s.serve dt p 0x0802 (fun s r =>
    let x := s.keyGroup (r.u8 0)
    if s.inSafe then s.status p r stDenied
    else if 7 < r.u8 0 then s.status p r stNotSupported
    else s.answer p r stOk (Bytes.cat (Bytes.join [leBytes 1 (r.u8 0), leBytes 1 x.rate, leBytes 6 0])
      (wordsLE ((upTo 24).flatMap (fun k =>
        let y := x.key k
        [b2n y.pressed <<< 31 + y.flags x.multi, (twos 16 y.dF) <<< 16 + w16 y.baseline]))))))

/-- `KEY_RAW_GET` (R196). -/
def execKeyRawGet (dt : Nat) (p : Fin 4) (s : State) : Host.Outcome State Fault Refusal :=
  .next (s.serve dt p 0x0804 (fun s r =>
    let x := s.keyGroup (r.u8 0)
    if 7 < r.u8 0 then s.status p r stNotSupported
    else s.answer p r stOk (Bytes.cat (Bytes.join [leBytes 1 (r.u8 0), leBytes 3 0])
      (Bytes.join ((upTo 24).map (fun k =>
        let y := x.key k
        Bytes.join [leBytes 2 y.raw, leBytes 2 (twos 16 y.dF), leBytes 2 (twos 16 y.dT), leBytes 2 0]))))))

/-- `KEY_REFERENCE_STORE` (R193). -/
def execKeyReferenceStore (dt : Nat) (p : Fin 4) (s : State) : Host.Outcome State Fault Refusal :=
  .next (s.serveFlash dt p 0x0803 (fun s r =>
    if s.sec.lifecycle = .field ∨ s.sec.lifecycle = .retired then s.status p r stDenied
    else if 7 < r.u8 0 then s.status p r stNotSupported
    else s.beginFlash p r none))

/-- The reference of a group: the mean of its last 64 scans, of those taken when they are fewer (log entry 22). -/
def KeyGroup.reference (x : KeyGroup) : List Nat :=
  (upTo 24).map (fun k => let l := (x.key k).recent; if l = [] then 0 else sumOf l / l.length)

/-- The reference of a group is in flash, with its CRC; the keys stored are those that were measured. -/
def State.storeReference (s : State) (g : Nat) : State :=
  let x := s.keyGroup g
  let crc := w32 (Config.refCrc x.reference)
  { s with keyRef := Tbl.put s.keyRef g ⟨x.reference, crc⟩ }.log 0x5021
    [g, countIf (upTo 24) (fun k => (x.key k).recent != []), crc, 0]

end Sys2Proof.Machine
end

