-- ==== Sys2Proof/Machine/Encode.lean ====
section
/-!
DEFINITION. Encode jobs (08_encoding.md): their settings and checks, placement on cores, coding within the byte budget,
the mint annex, sending, and what faults and safe state do to them.
-/
namespace Sys2Proof.Machine

/-! ## Checks (R199 to R201) -/

/-- The reserved bits of an encode job (Table 8-1). -/
def encReserved : Nat :=
  sumOf [wordMask 0 23 10, wordMask 2 23 16, wordMask 3 23 22, wordMask 3 15 14, wordMask 3 7 0, wordMask 6 23 23,
    wordMask 12 9 8, wordMask 13 31 18, wordMask 13 15 8, wordMask 15 31 16]

/-- Levels of H.265 Annex A up to 5.1 (log entry 23): level_idc, MaxLumaPs, MaxLumaSr, and MaxBR in kb/s of the Main tier and
of the High tier, 0 where there is none. -/
def levelsH265 : List (Nat × Nat × Nat × Nat × Nat) := [
  (30, 36864, 552960, 128, 0), (60, 122880, 3686400, 1500, 0), (63, 245760, 7372800, 3000, 0),
  (90, 552960, 16588800, 6000, 0), (93, 983040, 33177600, 10000, 0), (120, 2228224, 66846720, 12000, 30000),
  (123, 2228224, 133693440, 20000, 50000), (150, 8912896, 267386880, 25000, 100000),
  (153, 8912896, 534773760, 40000, 160000)]

/-- Levels of H.264 Annex A up to 5.1 (log entry 23): level_idc, MaxFS, MaxMBPS, and MaxBR of High profile in kb/s. -/
def levelsH264 : List (Nat × Nat × Nat × Nat) := [
  (10, 99, 1485, 80), (9, 99, 1485, 160), (11, 396, 3000, 240), (12, 396, 6000, 480), (13, 396, 11880, 960),
  (20, 396, 11880, 2500), (21, 792, 19800, 5000), (22, 1620, 20250, 5000), (30, 1620, 40500, 12500),
  (31, 3600, 108000, 17500), (32, 5120, 216000, 25000), (40, 8192, 245760, 25000), (41, 8192, 245760, 62500),
  (42, 8704, 522240, 62500), (50, 22080, 589824, 168750), (51, 36864, 983040, 300000)]

/-- The lowest level and tier that hold a job (R201): level_idc, and whether it needs the High tier of H.265. -/
def State.encLevelTier (s : State) (d : EncDesc) : Option (Nat × Bool) :=
  let (a, b) := s.encRate d
  let w := encWidth d
  let h := 32 * encRows d
  if encCodec d < 2 then
    (levelsH265.find? (fun e =>
      decide (w * h ≤ e.2.1 ∧ w * w ≤ 8 * e.2.1 ∧ h * h ≤ 8 * e.2.1 ∧ w * h * a ≤ e.2.2.1 * b
        ∧ encCapSecond d ≤ max e.2.2.2.1 e.2.2.2.2))).map (fun e => (e.1, decide (e.2.2.2.1 < encCapSecond d)))
  else
    let mw := ceilDiv w 16
    let mh := h / 16
    (levelsH264.find? (fun e =>
      decide (mw * mh ≤ e.2.1 ∧ mw * mw ≤ 8 * e.2.1 ∧ mh * mh ≤ 8 * e.2.1 ∧ mw * mh * a ≤ e.2.2.1 * b
        ∧ encCapSecond d ≤ e.2.2.2))).map (fun e => (e.1, false))

/-- The level signalled, as its level_idc. -/
def State.encLevel (s : State) (d : EncDesc) : Option Nat := (s.encLevelTier d).map (·.1)

/-- The area a job reads: width and height, where its output or layer is enabled (R200). -/
def State.encArea (s : State) (d : EncDesc) : Option (Nat × Nat) :=
  let i := encInput d
  if encLayerInput d then
    let x := s.sets.active.layer i
    if layEnable x then some (layCropW x, layCropH x) else none
  else
    let x := s.sets.active.output i
    if outEnable x then some (outW i x, outH i x) else none

/-- The scaling ratio lies outside 1/8 to 2 on an axis (R200). -/
def State.encRatioBad (s : State) (d : EncDesc) : Bool :=
  match s.encArea d with
  | some (w, h) =>
    let (sw, sh) := if encSideways d then (encHeight d, encWidth d) else (encWidth d, encHeight d)
    decide (8 * sw < w ∨ 2 * w < sw ∨ 8 * sh < h ∨ 2 * h < sh)
  | none => false

/-- A field lies outside its range (Table 8-1). -/
def encRangeBad (d : EncDesc) : Bool :=
  let out (v lo hi : Nat) : Bool := decide (v < lo ∨ hi < v)
  encCodec d == 3 || encColour d == 3 || encSrtp d == 3 || (!encLayerInput d && decide (31 < encInput d))
    || out (encWidth d) 128 4096 || encWidth d % 8 != 0 || out (encHeight d) 64 2304 || encHeight d % 8 != 0
    || out (encRateDiv d) 1 60 || out (encMinInterval d) 1 1000 || out (encGrPictures d) 2 120
    || decide (51 < encQpTarget d) || decide (51 < encQpCeil d) || out (encCapPicture d) 4096 8388608
    || out (encCapSecond d) 100 160000 || decide (7 < encPort d) || out (encPayloadType d) 96 127
    || encHops d == 0 || out (encMtu d) 1280 9000 || (encSrtp d != 0 && decide (63 < encKeySlot d))

/-- A field that must not be zero in an enabled job is zero (R199). -/
def encZero (d : EncDesc) : Bool :=
  [encWidth d, encHeight d, encRateDiv d, encMinInterval d, encGrPictures d, encCapPicture d, encCapSecond d,
    encUdpPort d, encSrcPort d, encHops d, encMtu d].contains 0

/-- The output input's colour differs from the output's own (R199). -/
def State.encColourBad (s : State) (d : EncDesc) : Bool :=
  let x := s.sets.active.output (encInput d)
  !encLayerInput d && outEnable x && outColour x != encColour d

/-- The status of `ENCODE_SET` apart from placement (R199). -/
def State.encCheck (s : State) (d : EncDesc) : Option Nat :=
  if encEnable d && encZero d then some stZeroField
  else if encRangeBad d || decide (encQpCeil d < encQpTarget d) || (encCodec d != 1 && encColour d != 0)
      || s.encColourBad d || (s.encLevel d).isNone || s.encRatioBad d then some stNotSupported
  else none

/-! ## Placement (R211, R212) -/

/-- Jobs placed on a core, other than one. -/
def State.encJobsOn (s : State) (c but : Nat) : List Nat :=
  (s.enc.filter (fun e => decide (e.1 ≠ but) && e.2.core == some c)).map (·.1)

/-- Spare capacity of an encoder core: 0.5 × 10^9 luma samples per second, less the jobs placed on it. -/
def State.encSpare (s : State) (c but : Nat) : Nat :=
  500000000 - sumOf ((s.encJobsOn c but).map (fun j => (s.encRun j).cost))

/-- Bytes of the encode region that a job holds (Table 10-1): an input ring of two pictures with every tile at 64 sectors and its
record, two pictures for reference and reconstruction, and an access unit. The sizes are the model's (log entry 58). -/
def State.encStore (s : State) (d : EncDesc) : Nat :=
  let i := encInput d
  let ring := if encLayerInput d then 0 else 2 * outTiles i (s.sets.active.output i) * (8192 + 32)
  let sample := if encCodec d = 1 then 2 else 1
  ring + 2 * (encWidth d * (32 * encRows d) * 3 / 2 * sample) + encCapPicture d

/-- The encode region has room for a job beside the others that a core holds (R242); of size 0 it allows none. -/
def State.encRoom (s : State) (j : Nat) (d : EncDesc) : Bool :=
  let size := gib * bitsOf s.mem.regionWord.toNat 31 24
  let others := (upTo 16).filter (fun k => k ≠ j ∧ (s.encRun k).core.isSome)
  size != 0 && decide (sumOf (others.map (fun k => s.encStore (s.encJob k))) + s.encStore d ≤ size)

/-- A core may hold a job of a cost: it has not failed and its domain is not kept off. -/
def State.encFits (s : State) (j cost c : Nat) : Bool :=
  !(Tbl.get s.links.encCores {} c).failed && !s.maskedOff 8 && decide ((s.encJobsOn c j).length < 8)
    && decide (cost ≤ s.encSpare c j)

/-- The core with the least spare capacity that holds a job, where the encode region has room. -/
def State.encPlace (s : State) (j : Nat) (d : EncDesc) : Option Nat :=
  let fits (c : Nat) : Bool := s.encFits j (s.encCost d) c && s.encRoom j d
  if fits 0 && fits 1 then (if s.encSpare 1 j < s.encSpare 0 j then some 1 else some 0)
  else if fits 0 then some 0
  else if fits 1 then some 1
  else none

/-- Begin a stream: a new RTP sequence start, the first picture an IDR picture, the counts of the job kept. -/
def State.beginStream (s : State) (j : Nat) : State :=
  let d := s.encJob j
  let x := s.encRun j
  let level := (s.encLevel d).getD x.level
  let s1 := s.setEncRun j { x with
    state := .running, frames := 0, ring := [], lastFrameAt := none, needIdr := true, cycle := 0, carriedFrom := none
    rowMints := [], packets := [], rtpSeq := w16 (Config.measured s.draw), sentPictures := 0, srtpRoc := 0
    srtpRestart := false, sentPackets := 0, sentBytes := 0, srtcp := 0, level := level }
  s1.log 0xB001 [j, x.core.getD 0xFF, x.cost / 1000, level]

/-- An encoder core fails its self-test: it is retired, its jobs move to the other core or stop. -/
def State.encCoreFails (s : State) (c : Nat) : State :=
  let s1 := { s with links := { s.links with encCores := Tbl.set s.links.encCores {} c { failed := true } } }
  let jobs := s.encJobsOn c 16
  let s2 := each jobs s1 (fun s j => s.setEncRun j { s.encRun j with core := none })
  let s3 := each jobs s2 (fun s j =>
    match s.encPlace j (s.encJob j) with
    | some k => s.setEncRun j { s.encRun j with core := some k }
    | none => s)
  let lost := jobs.filter (fun j => (s3.encRun j).core.isNone)
  let s4 := each lost s3 (fun s j => if (s.encRun j).state = .stopped then s else s.stopJob j 4 .stopped)
  (s4.log 0xB020 ([c, lost.length] ++ (s4.openWords 1) ++ [0])).raised 0x041 c

/-- Power the Encoder up: its cores are tested (R212, R371). -/
def State.powerEncoder (s : State) : State :=
  if (s.domain 8).on then s
  else
    let s1 := s.domainOn 8 1
    let (s2, l) := s1.testDomain 8 (s1.testOf 8)
    each l s2 State.encCoreFails

/-- Hold a job on a core; its stream begins unless the device is in safe state (R213). A core that fails the test of a power-up is
replaced by the other, if that has room. -/
def State.placeJob (s : State) (j c : Nat) : State :=
  let d := s.encJob j
  let s1 := s.powerEncoder
  let core := if (Tbl.get s1.links.encCores {} c).failed then s1.encPlace j d else some c
  let s2 := s1.setEncRun j { s1.encRun j with
    state := .stopped, core := core, cost := s.encCost d, level := (s.encLevel d).getD 0 }
  if s.inSafe ∨ core.isNone then s2 else s2.beginStream j

/-- Place again the enabled jobs that have no core, while capacity allows (R212). -/
def State.replaceJobs (s : State) : State :=
  each (upTo 16) s (fun s j =>
    if encEnable (s.encJob j) ∧ (s.encRun j).core.isNone then
      match s.encPlace j (s.encJob j) with
      | some c => s.placeJob j c
      | none => s
    else s)

/-- The Encoder domain is powered down while no job is enabled (R211). -/
def State.encIdleDomain (s : State) : State :=
  if s.encJobs.any (fun e => encEnable e.2) then s else s.domainOff 8 1

/-! ## Settings (R198) -/

/-- The fields whose change only the next picture sees: `QP_TARGET`, `QP_CEIL`, `CAP_PICTURE`, `CAP_SECOND`. -/
def encSoft (old new : EncDesc) : EncDesc :=
  setFld (setFld (setFld (setFld old 3 21 16 (encQpTarget new)) 3 13 8 (encQpCeil new)) 4 31 0 (encCapPicture new))
    5 31 0 (encCapSecond new)

def State.setEncJob (s : State) (j : Nat) (d : EncDesc) : State := { s with encJobs := Tbl.set s.encJobs encReset j d }

/-- A setting takes effect; the core is the one that an enabled job is placed on. -/
def State.encApply (s : State) (j : Nat) (d : EncDesc) (core : Option Nat) : State :=
  let old := s.encJob j
  let s1 := s.setEncJob j d
  if encEnable old && encEnable d && encSoft old d == d then
    (s1.setEncRun j { s1.encRun j with level := (s1.encLevel d).getD 0 }).replaceJobs
  else
    let s2 := if encEnable old then s1.stopJob j (if encEnable d then 2 else 1) .off else s1
    let s3 := match core with
      | some c => if encEnable d then (if encEnable old then s2 else s2.setEncRun j {}).placeJob j c else s2
      | none => s2
    s3.replaceJobs.encIdleDomain

/-- `ENCODE_SET` (R198, R199). -/
def execEncodeSet (dt : Nat) (p : Fin 4) (s : State) : Host.Outcome State Fault Refusal :=
  .next (s.serve dt p 0x0701 (fun s r =>
    let j := r.u8 0
    let v := Bytes.at r.payload 4 64
    let d : EncDesc := BitVec.ofNat 512 (v - (v &&& encReserved))
    if 15 < j then s.status p r stNotSupported
    else match s.encCheck d with
      | some st => s.status p r st
      | none =>
        let core := s.encPlace j d
        let held : Bool := encSoft (s.encJob j) d == d && encEnable (s.encJob j) && (s.encRun j).core.isSome
        if encEnable d ∧ core.isNone ∧ !held then s.status p r stNoResource
        else (s.encApply j d core).status p r stOk))

/-- `ENCODE_REFRESH` (R205). -/
def execEncodeRefresh (dt : Nat) (p : Fin 4) (s : State) : Host.Outcome State Fault Refusal :=
  .next (s.serve dt p 0x0703 (fun s r =>
    let j := r.u8 0
    if 15 < j then s.status p r stNotSupported
    else
      let x := s.encRun j
      (if x.state = .running then s.setEncRun j { x with needIdr := true } else s).status p r stOk))

/-! ## Status (R199) -/

/-- The input of a job gives no pictures (R203). -/
def State.encIdle (s : State) (j : Nat) : Bool :=
  let d := s.encJob j
  let i := encInput d
  let a := s.sets.active
  if encLayerInput d then
    !layEnable (a.layer i) || (s.srcRun (laySource (a.layer i))).frame.isNone || s.fenceClosed a i
  else if isHead i then !s.scanning i else decide ((s.panel (i - 24)).state ≠ .running)

/-- The state a job is reported in. -/
def State.encState (s : State) (j : Nat) : EncState :=
  if (s.encRun j).state = .running ∧ s.encIdle j then .inputIdle else (s.encRun j).state

/-- Bytes of the access units whose times lie within the 1 s before a time. -/
def EncRun.window (x : EncRun) (t : Nat) : List (Nat × Nat) :=
  x.sent.filter (fun e => decide (t < e.1 + 1000000000 ∧ e.1 < t))

/-- A record of `ENCODE_STATUS_GET`. -/
def State.encRecord (s : State) (j : Nat) : List Nat :=
  let x := s.encRun j
  [j, encCode (s.encState j), x.core.getD 0xFF, x.cost / 1000, x.level, w32 x.pictures, x.capDropped, w32 x.picDropped,
    w32 x.rowsCarried, x.lastQp, w32 (sumOf ((x.window s.time.room).map (·.2)))]

/-- `ENCODE_STATUS_GET` (R199). -/
def execEncodeStatusGet (dt : Nat) (p : Fin 4) (s : State) : Host.Outcome State Fault Refusal :=
  .next (s.serve dt p 0x0702 (fun s r =>
    match cutList (r.u16 0) (r.u16 2) 16 44 r.room with
    | none => s.status p r stNotSupported
    | some l => s.answer p r stOk (listPayload (l.map (fun j => wordsLE (s.encRecord j))))))

/-! ## Coding (R204 to R208) -/

/-- A capture is complete: the tiles whose copied CRC mismatches are voided as FAULT in the recording (R202). -/
def Capture.checked (c : Capture) (bad : List Nat) : Capture :=
  { c with
    done := true
    tiles := ((upTo c.tiles.length).zip c.tiles).map (fun e =>
      if bad.contains e.1 then { e.2 with areas := e.2.broken, legends := e.2.brokenLegends } else e.2) }

/-- `ENCODE_CAPTURE_COMPLETE` (R202): the capture in progress is complete, or dropped while a channel is frozen (R252). -/
def execEncodeCaptureComplete (dt : Nat) (j : CaptureEnd) (s : State) : Host.Outcome State Fault Refusal :=
  let s1 := s.elapse dt
  let x := s1.encRun j.job
  let rec mark : List Capture → List Capture
    | [] => []
    | c :: r => if c.done then c :: mark r else c.checked j.bad :: r
  if s1.frozenChans ≠ [] ∧ x.ring.any (fun c => !c.done) then
    .next ((s1.setEncRun j.job { x with ring := x.ring.filter (·.done) }).dropCapture j.job (encInput (s1.encJob j.job)))
  else .next (s1.setEncRun j.job { x with ring := mark x.ring })

/-- The slice of a row coded at the target quantiser or at the ceiling. -/
def rowSlice (costs : RowCosts) (ceil : Bool) (r : Nat) : Bytes :=
  (if ceil then costs.atCeil else costs.atTarget).getD r Bytes.none

/-- The decisions on the rows of a picture in budget order (R206): the rows kept with their slices, the rows carried, the bytes
used and the quantiser used last. -/
def decideRows (costs : RowCosts) (target ceil budget : Nat) (used qp : Nat) :
    List Nat → List (Nat × Bytes) × List Nat × Nat × Nat
  | [] => ([], [], used, qp)
  | r :: rest =>
    let n := rest.length
    let cost (q : Nat) : Nat := (rowSlice costs (q != target) r).len
    let retry : Bool := decide (budget < used + cost qp + 16 * n ∧ qp < ceil)
    let q := if retry then ceil else qp
    if budget < used + cost q + 16 * n then ([], r :: rest, used, q)
    else
      let (kept, carried, total, last) := decideRows costs target ceil budget (used + cost q) q rest
      ((r, rowSlice costs (q != target) r) :: kept, carried, total, last)

/-- Budget order (R206): from the first row that the previous picture carried, wrapping round. -/
def budgetOrder (rows : Nat) (from? : Option Nat) : List Nat :=
  match from? with
  | some f => from' f (rows - f) ++ upTo (min f rows)
  | none => upTo rows

/-- Adjacent rows with equal mints and flags share one entry (R207). -/
def mergeRows (row : Nat) : List RowMint → List (Nat × Nat × RowMint)
  | [] => []
  | m :: r =>
    match mergeRows (row + 1) r with
    | (f, n, m') :: l => if m = m' then (row, n + 1, m) :: l else (row, 1, m) :: (f, n, m') :: l
    | [] => [(row, 1, m)]

/-- Length of the longest run of consecutive rows in a list of distinct rows. -/
def longestRun (l : List Nat) : Nat :=
  let sorted := l.foldl insertNat []
  (sorted.foldl (fun (acc : Nat × Nat × Nat) r =>
    let n := if acc.2.2 + 1 = r then acc.2.1 + 1 else 1
    (max acc.1 n, n, r)) (0, 0, 1000000)).1

/-- The mint of a coded row that is kept (R208). -/
def rowMintOf (draw : Nat) (d : EncDesc) (c : Capture) (picture row : Nat) : RowMint :=
  match c.frame with
  | some f => { evidence := f.evidence, carried := f.carried, relayed := f.relayed, seq := f.seq, capture := f.capture }
  | none => { c.outputRowMint draw d row with seq := w32 picture }

/-! ## The mint annex (R207) -/

/-- An entry of the annex (Table 8-5). -/
def annexEntry (first n : Nat) (m : RowMint) : Bytes :=
  let flags := m.evidence % 4 + b2n m.aged <<< 2 + b2n m.voided <<< 3 + b2n m.carried <<< 4 + b2n m.relayed <<< 5 + b2n m.proof <<< 6
  Bytes.join [leBytes 2 first, leBytes 2 n, leBytes 1 flags, leBytes 3 0, leBytes 4 m.seq, leBytes 8 m.capture]

/-- The annex after its UUID, with `ANNEX_CRC` (Table 8-4). -/
def annexBytes (picture : Nat) (traceable : Bool) (entries : List (Nat × Nat × RowMint)) : Bytes :=
  let body := Bytes.join ([leBytes 1 1, leBytes 1 (b2n traceable), leBytes 2 entries.length, leBytes 4 picture]
    ++ entries.map (fun e => annexEntry e.1 e.2.1 e.2.2))
  Bytes.cat body (leBytes 4 (crcOver body.toList))

/-- The UUID of the annex. -/
def annexUuid : List Nat :=
  [0x54, 0x4D, 0x59, 0x54, 0x4B, 0x37, 0x4D, 0x49, 0x4E, 0x54, 0x41, 0x4E, 0x4E, 0x45, 0x58, 0x01]

/-- The emulation prevention of ITU-T H.264 and H.265: a byte of 0 to 3 after two zeros is preceded by 03. -/
def prevented : Nat → List Nat → List Nat
  | _, [] => []
  | zeros, b :: r =>
    if 2 ≤ zeros ∧ b ≤ 3 then 3 :: b :: prevented (if b = 0 then 1 else 0) r
    else b :: prevented (if b = 0 then zeros + 1 else 0) r

/-- The header of the annex's NAL unit: prefix SEI of H.265, SEI of H.264. -/
def seiHeader (d : EncDesc) : List Nat := if encCodec d < 2 then [0x4E, 0x01] else [0x06]

/-- A payload size as an SEI message spells it. -/
def seiSize (n : Nat) : List Nat := List.replicate (n / 255) 255 ++ [n % 255]

/-- The NAL unit of the annex: an SEI message of payload type 5 (R207). -/
def annexNal (d : EncDesc) (annex : Bytes) : Bytes :=
  let payload := annexUuid ++ annex.toList
  packBytes (seiHeader d ++ prevented 0 ([5] ++ seiSize payload.length ++ payload ++ [0x80]))

/-- Bytes of the annex at its largest, with its NAL unit and SEI headers (R206, R207). -/
def annexRoom (d : EncDesc) : Nat :=
  let n := 28 + 20 * encRows d
  (seiHeader d).length + 1 + (seiSize n).length + n + 1

/-! ## Packets (R210) -/

/-- A byte string cut into parts of `n` bytes. -/
def cutBytes (n : Nat) : Nat → Bytes → List Bytes
  | 0, _ => []
  | fuel + 1, b => if b.len ≤ n then [b] else Bytes.slice b 0 n :: cutBytes n fuel (Bytes.drop b n)

/-- RTP payload bytes that an IP packet of a job has room for. -/
def packetRoom (d : EncDesc) : Nat :=
  let ip := if encDest d >>> 32 = 0xFFFF then 20 else 40
  let tag := if encSrtp d = 0 then 0 else if encSrtp d = 1 then 10 else 16
  encMtu d - ip - 20 - tag

/-- The RTP payloads of a NAL unit: alone, or in fragmentation units, each as long as the packet allows (log entry 58): FU of
RFC 7798, or FU-A of RFC 6184. -/
def nalPayloads (d : EncDesc) (nal : Bytes) : List Bytes :=
  let room := packetRoom d
  let head := if encCodec d < 2 then 2 else 1
  if nal.len ≤ room then [nal]
  else
    let b0 := Bytes.byte nal 0
    let (indicator, kind) := if encCodec d < 2 then ([b0 / 128 * 128 + 49 * 2 + b0 % 2, Bytes.byte nal 1], b0 / 2 % 64)
      else ([b0 / 32 * 32 + 28], b0 % 32)
    let parts := cutBytes (room - head - 1) nal.len (Bytes.drop nal head)
    ((upTo parts.length).zip parts).map (fun e =>
      let mark := if e.1 = 0 then 128 else if e.1 + 1 = parts.length then 64 else 0
      Bytes.cat (packBytes (indicator ++ [mark + kind])) e.2)

/-- The RTP packets of an access unit: the first opens it, the last has the marker. -/
def auPackets (ts : Nat) (opens : AuHead) (l : List Bytes) : List EncPacket :=
  ((upTo l.length).zip l).map (fun e =>
    { ts := ts, marker := e.1 + 1 == l.length, payload := e.2, opens := if e.1 = 0 then some opens else none })

/-! ## Pictures (R204 to R208) -/

/-- The tools of a stream (Table 8-2). -/
def encTools (codec : Nat) : CodingTools :=
  if codec < 2 then {} else { block := 16, deblockIdc := 2, sao := false, transform8 := true }

/-- The parameters of a job's stream (R201, R204). -/
def State.streamParams (s : State) (d : EncDesc) (level : Nat) : StreamParams :=
  let wide := encColour d ≠ 0
  let code := if wide then 2 else 1
  { codec := encCodec d, level := level, highTier := ((s.encLevelTier d).map (·.2)).getD false
    width := encWidth d, lines := 32 * encRows d, crop := 32 * encRows d - encHeight d
    depth := if encCodec d = 1 then 10 else 8
    colour := { range := 1, matrix := code, primaries := code, chromaLoc := 0
                transfer := if encColour d = 0 then 1 else encColour d + 1 }
    tools := encTools (encCodec d) }

/-- The columns that picture `i` of a cycle intra-codes: the first and their number (R205). -/
def refreshBand (d : EncDesc) (i : Nat) : Nat × Nat :=
  let columns := ceilDiv (encWidth d) (encTools (encCodec d)).block
  let n := ceilDiv columns (encGrPictures d)
  (min (i * n) columns, min n (columns - i * n))

/-- Bytes of a list of NAL units. -/
def nalBytes (l : List Bytes) : Nat := sumOf (l.map (·.len))

/-- The 90 kHz media clock of a job at a room time (R204). -/
def encMedia (d : EncDesc) (t : Nat) : Nat := w32 (encMediaclk d + t * 90000 / 1000000000)

/-- Rows carried in a picture are reported at most once per job every 10 s (R206). -/
def State.reportCarried (s : State) (j : Nat) (carried : List Nat) : State :=
  if carried = [] then s
  else s.logLimited 0xB010 j tenSeconds (2 ^ 20 + carried.length) (longestRun carried)
    (fun n m => [j, n / 2 ^ 20, n % 2 ^ 20, m])

/-- NAL units before the mint annex (R205, R210): the parameter sets before an IDR picture and a picture 0 of a cycle, which has a
recovery point SEI. -/
def leadingNals (costs : RowCosts) (idr : Bool) (cycle : Nat) : List Bytes :=
  if idr then costs.params else if cycle = 0 then costs.params ++ [costs.recovery] else []

/-- Encode the capture at the head of the ring, within its budget (R206). The mint of a row carried where the job has no
previous picture is a free value (log entry 3). -/
def State.codePicture (s : State) (j : Nat) (c : Capture) (costs : RowCosts) : State :=
  let d := s.encJob j
  let x := s.encRun j
  let rest := x.ring.drop 1
  let rows := encRows d
  let b := min (encCapPicture d) (encCapSecond d * 125 - sumOf ((x.window c.time).map (·.2)))
  let cycle := if x.needIdr ∨ x.carriedFrom.isSome then 0 else x.cycle
  let leading := leadingNals costs x.needIdr cycle
  let h := nalBytes leading + annexRoom d + costs.reserve
  if b < h + 16 * rows then s.setEncRun j { x with ring := rest, picDropped := x.picDropped + 1 }
  else
    let (kept, carried, _, qp) := decideRows costs (encQpTarget d) (encQpCeil d) (b - h) 0 (encQpTarget d)
      (budgetOrder rows x.carriedFrom)
    let mints := (upTo rows).map (fun r =>
      if Tbl.has kept r then rowMintOf s.draw d c x.pictures r
      else match x.rowMints[r]? with
        | some m => { m with carried := true }
        | none => { evidence := Config.measured (s.draw + 2 * r) % 4, capture := w64 (Config.measured (s.draw + 2 * r + 1)),
                    carried := true })
    let ts := encMedia d c.time
    let slices := (upTo rows).map (fun r =>
      match Tbl.find kept r with
      | some b => b
      | none => let b := costs.skip.getD r Bytes.none; Bytes.slice b 0 (min b.len 16))
    let entries := mergeRows 0 mints
    let head : AuHead := {
      picture := w32 x.pictures, idr := x.needIdr, cycle := cycle, traceable := s.time.traceable, entries := entries
      recovery := if !x.needIdr && cycle == 0 then some (encGrPictures d - 1) else none
      band := if x.needIdr then (0, ceilDiv (encWidth d) (encTools (encCodec d)).block) else refreshBand d cycle
      refreshed := if x.needIdr then 0 else (refreshBand d cycle).1
      carried := (upTo rows).map (fun r => !Tbl.has kept r)
      stream := s.streamParams d x.level, source := s.encPicture c d }
    let nals := leading ++ [annexNal d (annexBytes head.picture head.traceable entries)] ++ slices
    let s1 := s.setEncRun j { x with
      ring := rest, pictures := x.pictures + 1, lastQp := qp, rowsCarried := x.rowsCarried + carried.length
      sent := x.window c.time ++ [(c.time, nalBytes nals)]
      needIdr := false, cycle := if x.needIdr then 0 else (cycle + 1) % encGrPictures d
      carriedFrom := carried.head?, rowMints := mints
      packets := x.packets ++ auPackets ts head (nals.flatMap (nalPayloads d)) }
    s1.reportCarried j carried

/-- `ENCODE_PICTURE_CODED` (R206): of the capture that is complete and waits. -/
def execEncodePictureCoded (dt : Nat) (j : Fin 16) (costs : RowCosts) (s : State) : Host.Outcome State Fault Refusal :=
  let s1 := s.elapse dt
  let x := s1.encRun j
  match x.ring with
  | c :: _ => if x.state = .running ∧ c.done then .next (s1.codePicture j c costs) else .next s1
  | [] => .next s1

/-! ## Sending (R210) -/

/-- Send one packet; SRTP starts anew where a key was loaded (R353), and its rollover counter follows the sequence: with it the
payload leaves as protected. -/
def State.sendPacket (s : State) (j : Nat) (k : EncPacket) : State :=
  let x := s.encRun j
  let roc := if x.srtpRestart then 0 else x.srtpRoc
  let s1 := s.setEncRun j { x with
    rtpSeq := w16 (x.rtpSeq + 1), srtpRestart := false, srtpRoc := if x.rtpSeq = 65535 then roc + 1 else roc
    sentPictures := if k.marker then w32 (x.sentPictures + 1) else x.sentPictures
    sentPackets := w32 (x.sentPackets + 1), sentBytes := w32 (x.sentBytes + k.payload.len) }
  let d := s.encJob j
  let payload := if encSrtp d = 0 then k.payload
    else Config.protect (encSrtp d) (Tbl.get s.sec.slots 0 (encKeySlot d)) (roc * 65536 + x.rtpSeq) k.payload
  let s2 := s1.ethSend (encPort d) (.rtp j x.rtpSeq k.ts k.marker payload)
  match k.opens with
  | some a => s2.send (.annex j a)
  | none => s2

/-- `ENCODE_PACKET_SEND` (R210): the next packet leaves, or is lost where the job cannot send. -/
def execEncodePacketSend (dt : Nat) (j : Fin 16) (s : State) : Host.Outcome State Fault Refusal :=
  let s1 := s.elapse dt
  let x := s1.encRun j
  match x.packets with
  | k :: rest =>
    if x.state = .running then
      let s2 := s1.setEncRun j { x with packets := rest }
      if s2.encSends j then .next (s2.sendPacket j k) else .next s2
    else .next s1
  | [] => .next s1

/-- Room time as NTP time (R210). -/
def roomNtp (room : Nat) (utc : Int) : Nat :=
  twos 32 ((room / 1000000000 : Nat) + 2208988800 - utc) * 2 ^ 32 + room % 1000000000 * 2 ^ 32 / 1000000000

/-- `ENCODE_SR_SEND` (R210): the wallclock only while room time is traceable and the offset to UTC is known. -/
def execEncodeSrSend (dt : Nat) (j : Fin 16) (s : State) : Host.Outcome State Fault Refusal :=
  let s1 := s.elapse dt
  let x := s1.encRun j
  let ntp := if s1.time.traceable then s1.time.utcOffset.map (roomNtp s1.time.room) else none
  if x.state = .running then
    .next (s1.encSendRtcp j (.rtcpSr j ntp (encMedia (s1.encJob j) s1.time.room) x.sentPackets x.sentBytes))
  else .next s1

/-! ## Faults and safe state (R212, R213) -/

/-- Safe state ends: each enabled job restarts with an IDR picture (R213). -/
def State.encRestart (s : State) : State :=
  (each (upTo 16) s (fun s j =>
    if encEnable (s.encJob j) ∧ (s.encRun j).state = .stopped ∧ (s.encRun j).core.isSome then s.beginStream j
    else s)).replaceJobs

end Sys2Proof.Machine
end

