-- ==== Sys2Proof/Machine/Faults.lean ====
section
/-!
DEFINITION. Fault sources (R298), their messages, and the exit from safe state (13_faults_and_safe_state.md). The Auditor's
reactions stand in Ops.lean.
-/
namespace Sys2Proof.Machine

/-- The Auditor runs: every power state but OFF, and no failed check holds the device for good. -/
def State.auditorUp (s : State) : Bool := !s.fault.dead && decide (s.power.state ≠ .off)

/-- Add time with a junction above 105 °C, in ms; more than 100 h raises `THERMAL_EXCURSIONS` (R316). -/
def State.addHot (s : State) (ms : Nat) : State :=
  let old := s.fault.hotMs
  let s1 := { s with fault := { s.fault with hotMs := old + ms } }
  if old ≤ 360000000 ∧ 360000000 < old + ms then s1.raised 0x051 0 else s1

/-- `DUAL_RAIL_CHANGE` (R299, R300): a reading that becomes a fault or a wire fault is a raising; each `THERMAL_TRIP`
counts as 1 h of thermal excursion (R316). The message carries the unit. -/
def execDualRailChange (dt : Nat) (src : RailSource) (p n : Bool) (s : State) :
    Host.Outcome State Fault Refusal :=
  let s1 := s.elapse dt
  if !s1.auditorUp then .next s1
  else
    let old := Tbl.get s1.fault.rails (false, true) src.id
    let s2 := { s1 with fault := { s1.fault with
      rails := Tbl.set s1.fault.rails (false, true) src.id (p, n), railInst := Tbl.set s1.fault.railInst 0 src.id src.inst.toNat } }
    match railReading src.id (p, n) with
    | none =>
      if railReading src.id old = none then .next s2
      else .next { s2 with fault := { s2.fault with healthySince := Tbl.set s2.fault.healthySince 0 src.id s2.time.now } }
    | some k =>
      if railReading src.id old = some k then .next s2
      else
        let s3 := s2.auditor (faultMsg src.id k src.inst.toNat)
        .next (if src.id = 9 ∧ railReading src.id old = none then s3.addHot 3600000 else s3)

/-- `DUAL_RAIL_HEALTHY_EXPIRY` (R299): healthy for 1 s, the source is no longer active. -/
def execDualRailHealthyExpiry (dt : Nat) (id : Fin 16) (s : State) : Host.Outcome State Fault Refusal :=
  let s1 := s.elapse dt
  if s1.auditorUp ∧ railReading id (Tbl.get s1.fault.rails (false, true) id) = none
      ∧ Tbl.get s1.fault.healthySince 0 id + 1000000000 ≤ s1.time.now then
    .next (each (s1.fault.active.filter (fun a => a.source == id.val)) s1 (fun s a => s.cleared id a.param))
  else .next s1

/-- `FAULT_MESSAGE_RECEIVED` (R300 to R303). -/
def execFaultMessageReceived (dt : Nat) (msg : Word) (s : State) : Host.Outcome State Fault Refusal :=
  let s1 := s.elapse dt
  .next (if s1.auditorUp then s1.auditor msg.toNat else s1)

/-- `FAULT_SUMMARY_TIMER` (R301): one `FAULT_SUMMARY` every 10 s while the burst lasts. -/
def execFaultSummaryTimer (dt : Nat) (src : Fin 256) (s : State) : Host.Outcome State Fault Refusal :=
  let s1 := s.elapse dt
  let k := limitKey 0x8003 src
  let l := Tbl.get s1.ledger.limits {} k
  match l.lastAt with
  | some t =>
    if s1.tellerUp ∧ t + tenSeconds ≤ s1.time.now then
      .next ({ s1 with ledger := { s1.ledger with limits := Tbl.del s1.ledger.limits k } }.log 0x8003
        [src, l.count, l.aux / 2 ^ 32, w32 l.aux])
    else .next s1
  | none => .next s1

/-- `HEALTH_GET` (Table 12-13). -/
def execHealthGet (dt : Nat) (p : Fin 4) (s : State) : Host.Outcome State Fault Refusal :=
  .next (s.serve dt p 0x0A01 (fun s r => s.answer p r stOk (wordsLE s.healthWords)))

/-- Set the severity of one source, recorded when it changes (R302). -/
def State.setSeverity (s : State) (p src v : Nat) : State :=
  let old := Tbl.get s.fault.severity (defaultSeverity src) src
  if v = old then s
  else
    { s with fault := { s.fault with severity := Tbl.set s.fault.severity (defaultSeverity src) src v } }.log 0x8040
      [src, old, v, p]

/-- `FAULT_SEVERITY_SET` (R302, Table 12-8). -/
def execFaultSeveritySet (dt : Nat) (p : Fin 4) (s : State) : Host.Outcome State Fault Refusal :=
  .next (s.serve dt p 0x0A02 (fun s r =>
    match itemList r 1 255 with
    | .inl st => s.status p r st
    | .inr (first, items) =>
      let l := ((upTo items.length).zip items).map (fun e => (first + e.1, e.2))
      if l.any (fun e => decide (4 < e.2)) then s.status p r stNotSupported
      else if l.any (fun e => isDualRail e.1 && decide (e.2 < 3)) then s.status p r stDenied
      else (each l s (fun s e => s.setSeverity p e.1 e.2)).status p r stOk))

/-- `FAULT_LOG_GET` (R301): index 0 is the oldest record held. -/
def execFaultLogGet (dt : Nat) (p : Fin 4) (s : State) : Host.Outcome State Fault Refusal :=
  .next (s.serve dt p 0x0A03 (fun s r =>
    match cutList (r.u16 0) (r.u16 2) s.fault.log.length 16 r.room with
    | none => s.status p r stNotSupported
    | some idx =>
      s.answer p r stOk (listPayload (idx.filterMap (fun i => (s.fault.log[i]?).map (fun f =>
        wordsLE [f.msg, f.severity, w32 f.time, hi32 f.time]))))))

/-- The conditions of R310. -/
def State.exitAllowed (s : State) : Bool :=
  match s.fault.safe with
  | none => false
  | some x =>
    decide (x.since + 1000000000 ≤ s.time.now)
      && s.fault.active.all (fun a => !isDualRail a.source && decide (a.severity < 3)) && !s.fault.auditorBad

/-- `SAFE_EXIT` (R310). -/
def execSafeExit (dt : Nat) (p : Fin 4) (s : State) : Host.Outcome State Fault Refusal :=
  .next (s.serve dt p 0x0A04 (fun s r =>
    if s.exitAllowed then
      { s with fault := { s.fault with exit := some (p, (s.port p).session) } }.status p r stOk
    else s.status p r stDenied))

end Sys2Proof.Machine
end

