-- ==== Sys2Proof/Machine/Lanes.lean ====
section
/-!
DEFINITION. Serial lanes (09_lanes_and_links.md): the board lane table, the lane states and the capability exchange, Ethernet
ports, board tests, and the messages about them.
-/
namespace Sys2Proof.Machine

/-! ## Lane states (R224, Table 9-4) and control blocks (R219, R228) -/

/-- Power domain of a lane's quad pair (Table 17-1). -/
def laneDomain (l : Nat) : Nat := lanePair l

/-- `LANE_LINK` at each entry to or exit from `UP`. -/
def State.laneLink (s : State) (l : Nat) (old new : LaneState) : State :=
  let x := s.links.lane l
  (s.setLane l { x with lossesSince := 0 }).log 0x7010 [l, laneCode old + laneCode new <<< 8, x.version, x.lossesSince]

/-- `RECEIVER_LINK` of a pixel lane whose link changed (R163). -/
def State.receiverLink (s : State) (l : Nat) : State :=
  match s.headOfLane l with
  | some (h, _) =>
    let x := s.links.lane l
    s.log 0x4030 [h, b2n (x.state == .up) + b2n (!(s.head h).proven) <<< 1 + l <<< 8, (x.partner.map capFlags).getD 0,
      x.version]
  | none => s

/-- Subscribed Kinik sources of a lane. -/
def State.kinikSources (s : State) (l : Nat) : List Nat :=
  (s.src.run.filter (fun e => let d := s.srcDesc e.1; e.2.subscribed && srcKind d == kindKinik && srcPort d == l)).map (·.1)

/-- A Kinik frame in assembly is never minted; it is counted per source (R71). -/
def State.discardKinik (s : State) (l : Nat) : State :=
  match Tbl.find s.src.kinik l with
  | some _ =>
    each (s.kinikSources l) { s with src := { s.src with kinik := Tbl.del s.src.kinik l } } (fun s i =>
      s.logLimited 0x1042 i tenSeconds 1 0 (fun n _ => [i, n, l, 0]))
  | none => s

/-- Whatever of a peer's messages waited for an earlier one does so no longer once the link is gone (R233; log entry 58). -/
def State.peerRestart (s : State) (pp : Nat) : State := s.setPeer pp { s.peer pp with next := none, waiting := [] }

/-- What a link that leaves `UP` takes with it: the return link of a head, the sources, the time of a peer, a port. -/
def State.linkGone (s : State) (l : Nat) : State :=
  match s.links.role l with
  | 1 => s.receiverLink l
  | 2 => each (s.kinikSources l) (s.discardKinik l) State.kinikLost
  | 3 => (s.peerRestart (s.links.unitOf l)).peerTimeLost (s.links.unitOf l)
  | 4 => let p := s.links.unitOf l; s.setEth p { s.eth p with up := false }
  | _ => s

/-- What a link that comes `UP` brings: the receiver's declaration, recorded for both lanes of a bonded head that it makes
proven or unproven (R163), the admission of a source, a port. -/
def State.linkHere (s : State) (l : Nat) : State :=
  match s.links.role l with
  | 1 =>
    match s.headOfLane l with
    | some (h, _) =>
      let s1 := s.refreshProven h
      let s2 := s1.receiverLink l
      if (s1.head h).proven = (s.head h).proven then s2
      else each ((s.headLanes h).filter (· ≠ l)) s2 State.receiverLink
    | none => s
  | 2 => each (s.kinikSources l) s (fun s i => s.admitKinik i)
  | 3 => s.checkTwin (s.links.unitOf l)
  | 4 => let p := s.links.unitOf l; s.setEth p { s.eth p with up := true }
  | _ => s

/-- Take a lane to a state. -/
def State.laneTo (s : State) (l : Nat) (new : LaneState) : State :=
  let x := s.links.lane l
  let old := x.state
  if old = new then s
  else
    let fresh := new == .hunting || new == .off || new == .exchange
    let s1 := s.setLane l { x with
      state := new, ackSent := x.ackSent && !fresh, ackRcvd := x.ackRcvd && !fresh }
    if old = .up then (s1.laneLink l old new).linkGone l
    else if new = .up then (s1.laneLink l old new).linkHere l
    else s1

/-- Start the lane's link, or leave it `OFF` where its reference is bad or its domain off (R215, R224). -/
def State.laneHunt (s : State) (l : Nat) : State :=
  let x := s.links.lane l
  if x.state = .retired ∨ s.links.role l = 0 then s
  else if s.links.refBad.toNat.testBit (l / 4) ∨ !(s.domain (laneDomain l)).on then s.laneTo l .off
  else (s.laneTo l .off).laneTo l .hunting

/-! ## Blocks on the wire (R219, R222, R228) -/

/-- A block before scrambling: whether it is a control block, and its 64 payload bits, byte k in bits 8k to 8k + 7. -/
abbrev Block := Bool × BitVec 64

/-- A control block: its type, then payload bytes 0 to 6. -/
def controlBlock (type : Nat) (payload : Bytes) : Block := (true, (Bytes.cat (leBytes 1 type) (Bytes.slice payload 0 7)).bits 64)

/-- The data blocks that hold a byte string, with zero padding. -/
def dataBlocks (b : Bytes) : List Block :=
  (upTo (ceilDiv b.len 8)).map (fun i => (false, (Bytes.slice b (8 * i) (min 8 (b.len - 8 * i))).bits 64))

/-- The blocks of a peer message (R233, Table 9-6). -/
def peerBlocks (type seq : Nat) (b : Bytes) : List Block :=
  controlBlock 0x60 (Bytes.join [leBytes 2 type, leBytes 2 b.len, leBytes 2 seq, leBytes 1 0]) :: (dataBlocks b
    ++ [controlBlock 0x61 (Bytes.join [leBytes 4 (crc32 b), leBytes 2 seq, leBytes 1 0])])

/-- `FILLER` (R222). -/
def filler : Block := controlBlock 0 Bytes.none

/-- The blocks of a transmission that a lane carries. -/
def State.blocksOn (s : State) (l : Nat) (t : Tx) : List Block :=
  match t with
  | .block k type payload => if k = l then [controlBlock type payload] else []
  | .line k _ segments => if k = l then segments.flatMap dataBlocks else []
  | .peer pp type seq b => if s.peerLane pp = some l then peerBlocks type seq b else []
  | _ => []

/-- A `FILLER` after every 4,095 blocks (R222): `n` may still follow before one. -/
def spaced : Nat → List Block → List Block
  | _, [] => []
  | 0, b :: r => filler :: b :: spaced 4094 r
  | n + 1, b :: r => b :: spaced n r

/-- The blocks that a lane of the Kinik link sends in a command: what is ready, then `FILLER` until more is, here one (R222, R224). A
lane that is off, in its self-test or retired sends none. -/
def State.laneBlocks (s : State) (l : Nat) : List Block :=
  let role := s.links.role l
  let x := s.links.lane l
  if 1 ≤ role ∧ role ≤ 3 ∧ (x.state = .hunting ∨ x.locked) then
    spaced 4095 (s.out.flatMap (s.blocksOn l)) ++ [filler]
  else []

/-- One bit through the scrambler 1 + x^39 + x^58 of IEEE 802.3 Clause 49: the bit sent, and the 58 bits sent last, newest lowest. -/
def scrambleBit (reg : Nat) (b : Bool) : Bool × Nat :=
  let y := (b != reg.testBit 38) != reg.testBit 57
  (y, (2 * reg + b2n y) % 2 ^ 58)

/-- The scrambled bits of a payload, from bit `i` on. -/
def scrambled (v : BitVec 64) (i : Nat) : Nat → Nat → Nat × Nat
  | 0, reg => (0, reg)
  | n + 1, reg =>
    let (y, reg1) := scrambleBit reg (v.getLsbD i)
    let (rest, reg2) := scrambled v (i + 1) n reg1
    (b2n y + 2 * rest, reg2)

/-- Blocks as they are sent, bit 0 first: the header, 01 of a data block and 10 of a control block, then the scrambled payload
(R219). -/
def wireBits : Nat → List Block → List (BitVec 66)
  | _, [] => []
  | reg, b :: r =>
    let (y, reg1) := scrambled b.2 0 64 reg
    BitVec.ofNat 66 ((if b.1 then 1 else 2) + 4 * y) :: wireBits reg1 r

/-! ## The capability exchange (R224 to R226) -/

/-- `MODE` of a lane's role. -/
def roleMode (role : Nat) : Nat := match role with | 1 => 2 | 2 => 1 | 3 => 3 | _ => 0

/-- The capability record the K7 sends on a lane: of link version 2.0, with the mode area of a peer (Table 9-5). -/
def State.ownRecord (s : State) (l : Nat) : Bytes :=
  let role := s.links.role l
  let area := if role = 3 then
      Bytes.join [leBytes 1 s.pair.id, leBytes 1 (roleCode s.pair.role), leBytes 1 3, leBytes 1 2,
        leBytes 4 s.sec.running.version]
    else leBytes 8 0
  let body := Bytes.join [leBytes 1 0x20, leBytes 1 0x12, leBytes 1 (roleMode role), leBytes 1 0,
    leBytes 2 (Config.capFlags % 8), leBytes 2 48, leBytes 4 0x7240, area, leBytes 24 0]
  Bytes.cat body (leBytes 4 (crc32 body))

/-- Send the record in its eight `CAP` blocks (R225). -/
def State.sendCap (s : State) (l : Nat) : State :=
  let r := s.ownRecord l
  each (upTo 8) s (fun s i =>
    s.send (.block l 0x02 (Bytes.cat (leBytes 1 (i + if i = 7 then 128 else 0)) (Bytes.slice r (6 * i) 6))))

/-- The agreed version and the result a partner's record gives (R226). -/
def State.agree (s : State) (l : Nat) (r : Bytes) : Nat × Nat :=
  let v := min (capVersionMax r) 0x20
  let role := s.links.role l
  if v < capVersionMin r ∨ v < 0x12 then (0, 1)
  else if capMode r ≠ roleMode role ∨ (role ≠ 3 ∧ capSide r = 0) then (v, 2)
  else (v, 0)

/-- Both acknowledges stand: the link is `UP`. -/
def State.checkUp (s : State) (l : Nat) : State :=
  let x := s.links.lane l
  if x.state = .exchange ∧ x.ackSent ∧ x.ackRcvd then s.laneTo l .up else s

/-- The exchange ends without a common version or mode. -/
def State.incompatible (s : State) (l : Nat) (r : Bytes) : State :=
  if (s.links.lane l).state = .incompatible then s
  else
    (s.laneTo l .incompatible).log 0x7011
      [l, 0x20 + 0x12 <<< 8, capVersionMax r + capVersionMin r <<< 8, capMode r]

/-- A sound record of the partner, answered with `CAP_ACK`. One that differs while `UP` begins the exchange anew. -/
def State.takeRecord (s : State) (l : Nat) (r : Bytes) : State :=
  let x := s.links.lane l
  let (v, result) := s.agree l r
  let s1 := if x.state = .up ∧ x.partner ≠ some r then s.laneTo l .exchange else s
  let y := s1.links.lane l
  let s2 := s1.setLane l { y with
    partner := some r, version := v, ackSent := result == 0, ackRcvd := y.ackRcvd && y.version == v }
  let s3 := s2.send (.block l 0x03 (Bytes.join [leBytes 1 v, leBytes 1 result, leBytes 4 (capCrc r), leBytes 1 0]))
  if result ≠ 0 then s3.incompatible l r
  else if (s3.links.lane l).state = .incompatible then (s3.laneTo l .exchange).setLane l
      { (s3.laneTo l .exchange).links.lane l with ackSent := true }
  else s3.checkUp l

/-- `CAP` (R224): a record whose CRC fails is not answered. -/
def execCap (dt : Nat) (l : Fin 48) (rec : Bytes) (s : State) : Host.Outcome State Fault Refusal :=
  let s1 := s.elapse dt
  let r := Bytes.slice rec 0 (min rec.len (capLen rec))
  if s1.kinikLocked l ∧ capSound rec then .next (s1.takeRecord l r) else .next s1

/-- `CAP_ACK` (R224): of the CRC of the lane's own record. -/
def execCapAck (dt : Nat) (l : Fin 48) (version result : Byte) (crc : Word) (s : State) :
    Host.Outcome State Fault Refusal :=
  let s1 := s.elapse dt
  let x := s1.links.lane l
  if !s1.kinikLocked l ∨ x.state ≠ .exchange ∨ crc.toNat ≠ capCrc (s1.ownRecord l) then .next s1
  else if result ≠ 0 then
    match x.partner with
    | some r => .next (s1.incompatible l r)
    | none => .next s1
  else if x.ackSent then
    if x.version = version.toNat then .next ((s1.setLane l { x with ackRcvd := true }).checkUp l) else .next s1
  else .next (s1.setLane l { x with ackRcvd := true, version := version.toNat })

/-- `CAP_RESEND` (R224). -/
def execCapResend (dt : Nat) (l : Fin 48) (s : State) : Host.Outcome State Fault Refusal :=
  let s1 := s.elapse dt
  let st := (s1.links.lane l).state
  if s1.kinikLocked l ∧ st ≠ .up then .next (s1.sendCap l) else .next s1

/-! ## Block lock (R220 to R224) -/

/-- `BLOCK_LOCK_GAINED`: the exchange begins, with the first `CAP` record. The lock of an Ethernet lane is its port's own
(R236). -/
def execBlockLockGained (dt : Nat) (l : Fin 48) (s : State) : Host.Outcome State Fault Refusal :=
  let s1 := s.elapse dt
  if s1.windowUp ∧ (s1.links.lane l).state = .hunting ∧ s1.links.role l ≠ 4 then
    let s2 := s1.laneTo l .exchange
    .next ((s2.setLane l { s2.links.lane l with ppm := Config.ppm s2.draw l }).sendCap l)
  else .next s1

/-- `BLOCK_LOCK_LOST`: the lane hunts again. -/
def execBlockLockLost (dt : Nat) (l : Fin 48) (s : State) : Host.Outcome State Fault Refusal :=
  let s1 := s.elapse dt
  let x := s1.links.lane l
  if s1.windowUp ∧ x.locked then
    .next ((s1.setLane l { x with lockLosses := w32 (x.lockLosses + 1), lossesSince := w32 (x.lossesSince + 1) }).laneTo l
      .hunting)
  else .next s1

/-- `HUNT_TIMEOUT` (R224 step 2). -/
def execHuntTimeout (dt : Nat) (l : Fin 48) (s : State) : Host.Outcome State Fault Refusal :=
  let s1 := s.elapse dt
  let x := s1.links.lane l
  if s1.windowUp ∧ x.state = .hunting ∧ s1.links.role l ≠ 4 then
    .next (s1.setLane l { x with crResets := w32 (x.crResets + 1) })
  else .next s1

/-- A block that met a full elastic buffer is counted and recorded; a source frame open on the lane is discarded (R223). -/
def State.elasticOverflow (s : State) (l : Nat) : State :=
  let x := s.links.lane l
  ((s.setLane l { x with overflows := w32 (x.overflows + 1) }).logLimited 0x7021 l tenSeconds 1 0
    (fun n _ => [l, n, twos 32 x.ppm, 0])).discardKinik l

/-- `KINIK_UNKNOWN_BLOCK` (R221, R223): type 0x00 is FILLER whatever its payload. -/
def execKinikUnknownBlock (dt : Nat) (l : Fin 48) (why : BadBlock) (type : Byte) (s : State) :
    Host.Outcome State Fault Refusal :=
  let s1 := s.elapse dt
  let x := s1.links.lane l
  if !s1.kinikLocked l then .next s1
  else match why with
    | .header => .next (s1.setLane l { x with badHeaders := w32 (x.badHeaders + 1) })
    | .type => if type = 0 then .next s1 else .next (s1.unknownBlock l)
    | .overflow => .next (s1.elasticOverflow l)

/-! ## References and self-test (R215, R238) -/

/-- Lanes of a quad. -/
def quadLanes (q : Nat) : List Nat := from' (4 * q) 4

/-- `QUAD_REF_FAULT` (R215). -/
def execQuadRefFault (dt : Nat) (q : Fin 12) (ok : Bool) (s : State) : Host.Outcome State Fault Refusal :=
  let s1 := s.elapse dt
  let was := s1.links.refBad.toNat.testBit q
  let m : BitVec 12 := BitVec.ofNat 12 (1 <<< q.val)
  if !s1.windowUp then .next s1
  else if !ok ∧ !was then
    let s2 := { s1 with links := { s1.links with refBad := s1.links.refBad ||| m } }
    .next ((each (quadLanes q) s2 (fun s l =>
      if (s.links.lane l).state = .retired then s else s.laneTo l .off)).raised 0x030 q)
  else if ok ∧ was then
    let s2 := { s1 with links := { s1.links with refBad := s1.links.refBad &&& ~~~m } }
    .next ((each (quadLanes q) s2 State.laneHunt).cleared 0x030 q)
  else .next s1

/-- The lanes of a quad pair whose domain powers up are tested (R238). -/
def State.lanesUp (s : State) (d : Nat) : State :=
  each (from' (8 * (d - 18)) 8) s (fun s l =>
    let x := s.links.lane l
    if s.links.role l = 0 ∨ x.state = .retired then s
    else if s.links.refBad.toNat.testBit (l / 4) then s.laneTo l .off
    else (s.laneTo l .off).setLane l { (s.laneTo l .off).links.lane l with state := .selftest, testFails := 0 })

/-- The lanes of a quad pair whose domain is off: `OFF`. -/
def State.lanesDown (s : State) (d : Nat) : State :=
  each (from' (8 * (d - 18)) 8) s (fun s l => if (s.links.lane l).state = .retired then s else s.laneTo l .off)

/-- The self-test of a lane has ended: a second failure in a row retires the lane (R238). -/
def State.laneTested (s : State) (l bitErrors : Nat) : State :=
  let x := s.links.lane l
  if bitErrors = 0 then s.setLane l { x with state := .hunting }
  else
    let n := x.testFails + 1
    let s2 := (s.setLane l { x with testFails := n }).log 0x7030 [l, bitErrors, n, 0]
    if n < 2 then s2
    else
      ((s2.setLane l { x with state := .retired, testFails := n }).log 0x7031
        ([l, s2.links.role l] ++ s2.openWords 1 ++ [0])).raised 0x031 l

/-- `LANE_SELFTEST_DONE` (R238). The last lane tested ends start step 6 (Table 17-5). -/
def execLaneSelftestDone (dt : Nat) (l : Fin 48) (bitErrors : Nat) (s : State) : Host.Outcome State Fault Refusal :=
  let s1 := s.elapse dt
  if !s1.tellerUp ∨ (s1.links.lane l).state ≠ .selftest then .next s1
  else
    let s2 := s1.laneTested l bitErrors
    let testing := s2.links.lanes.any (fun e => decide (e.2.state = .selftest))
    .next (if s2.power.step = 5 ∧ !testing then s2.reach 6 else s2)

/-! ## The lane table (R216, R217) -/

/-- Fields of the lane words 1 to 3 outside their ranges (Table 9-3, R217). -/
def tuneBad (w1 : Nat) : Bool :=
  let pre := bitsOf w1 23 16
  let main := bitsOf w1 15 8
  let post := bitsOf w1 7 0
  decide (16 < pre ∨ main < 24 ∨ 63 < main ∨ 24 < post ∨ 63 < pre + main + post)

/-- Role counts beyond R214. -/
def rolesExceed (t : LaneTable) : Bool :=
  let n (role : Nat) : Nat := countIf (upTo 48) (fun l => tabRole t l == role)
  decide (24 < n 1 ∨ 32 < n 2 ∨ 4 < n 3 ∨ 8 < n 4)

/-- A table's CRC holds. -/
def tableCrcOk (t : LaneTable) : Bool := crc32 (Bytes.slice (bytesOf t) 0 832) == tabCrc t

/-- A table fails the checks of R217 other than the CRC. -/
def tableBad (t : LaneTable) : Bool :=
  tabFormat t != 1 || tabLanes t != 48
    || (upTo 12).any (fun q => decide (1 < tabFec t q ∨ 1 < tabRate t q ∨ 2 < tabProtocol t q)
        || (tabFec t q == 1 && (tabProtocol t q != 1 || tabRate t q != 1)))
    || (upTo 48).any (fun l =>
        let role := tabRole t l
        let proto := tabProtocol t (l / 4)
        decide (4 < role) || tuneBad (tabWord t l 1) || (proto == 0 && role != 0)
          || (proto == 1 && role != 0 && role != 4) || (proto == 2 && role == 4))
    || rolesExceed t

/-- A lane table that may be stored (R216, R217); its CRC is its last four bytes. -/
def tableFits (b : Bytes) : Bool :=
  let t : LaneTable := b.bits 6688
  crc32 (Bytes.slice b 0 (b.len - 4)) == tabCrc t && !tableBad t

/-- `LANE_TABLE_LOAD` (R216, R217). -/
def execLaneTableLoad (dt : Nat) (p : Fin 4) (s : State) : Host.Outcome State Fault Refusal :=
  .next (s.serveFlash dt p 0x0D01 (fun s r =>
    if tableFits r.payload then s.beginFlash p r none else s.status p r stNotSupported))

/-- The table of a load has been written to flash. -/
def State.storeTable (s : State) (t : LaneTable) : State :=
  { s with links := { s.links with stored := some t, waiting := true } }

/-- Start step 6 applies the lane table, or the default table (R216). -/
def State.applyTable (s : State) : State :=
  if !s.links.applyDue then s
  else
    let k := { s.links with applyDue := false, waiting := false }
    match s.links.stored with
    | none => { s with links := { k with table := none } }.log 0x7002 [1, 0, 0, 0]
    | some t =>
      if !tableCrcOk t then { s with links := { k with table := none } }.log 0x7002 [2, 0, 0, 0]
      else if tableBad t then { s with links := { k with table := none } }.log 0x7002 [3, 0, 0, 0]
      else { s with links := { k with table := some t } }.log 0x7001 [tabBoard t, tabRevision t, tabCrc t, 0]

/-- The table in force as software reads it. -/
def LinksSt.inForce (k : LinksSt) : LaneTable := k.table.getD defaultLaneTable

/-- The reserved bits of a lane table (Tables 9-1 to 9-3). -/
def laneTableReserved : Nat :=
  sumOf (wordMask 3 31 0 :: ((upTo 12).map (fun q => wordMask (4 + q) 31 24)
    ++ (upTo 48).flatMap (fun l =>
      let w := 16 + 4 * l
      [wordMask w 24 0, wordMask (w + 1) 31 24, wordMask (w + 2) 31 8, wordMask (w + 3) 31 30])))

/-- A table as a response gives it: its reserved fields are zero (R4). -/
def tableShown (t : LaneTable) : Bytes := ⟨836, t.toNat - (t.toNat &&& laneTableReserved)⟩

/-- `LANE_TABLE_GET` (R216). -/
def execLaneTableGet (dt : Nat) (p : Fin 4) (s : State) : Host.Outcome State Fault Refusal :=
  .next (s.serve dt p 0x0D02 (fun s r =>
    let k := s.links
    let wait := if k.waiting then k.stored else none
    s.answer p r stOk (Bytes.join [leBytes 4 (b2n wait.isSome), tableShown k.inForce,
      match wait with | some t => tableShown t | none => leBytes 836 0])))

/-- `LANE_TUNE` (R218): words 1 to 3 of the entry in force; the link drops and starts again. -/
def execLaneTune (dt : Nat) (p : Fin 4) (s : State) : Host.Outcome State Fault Refusal :=
  .next (s.serve dt p 0x0D04 (fun s r =>
    let l := r.u8 0
    let w := [r.u32 4 % 2 ^ 24, r.u32 8 % 2 ^ 8, r.u32 12 % 2 ^ 30]
    if 47 < l ∨ tuneBad (w.getD 0 0) then s.status p r stNotSupported
    else
      let t := (from' 1 3).foldl (fun t i => setFld t (16 + 4 * l + i) 31 0 (w.getD (i - 1) 0)) s.links.inForce
      let s1 := { s with links := { s.links with table := some t } }
      let s2 := if (s1.links.lane l).state = .selftest then s1 else s1.laneHunt l
      (s2.log 0x7050 (l :: w)).status p r stOk))

/-! ## Lane status (Table 12-13) -/

/-- RS-FEC counts of an Ethernet lane that uses it: what they grew by since the last read is a free value (log entry 3). -/
def State.readFec (s : State) (l : Nat) : State :=
  let x := s.links.lane l
  let fec := match s.links.table with | some t => tabFec t (l / 4) | none => defaultFec (l / 4)
  if s.links.role l = 4 ∧ fec = 1 ∧ x.state = .up then
    s.setLane l { x with
      fecCorrected := w32 (x.fecCorrected + Config.measured (s.draw + 2 * l))
      fecUncorrected := w32 (x.fecUncorrected + Config.measured (s.draw + 2 * l + 1)) }
  else s

/-- A record of `LANE_STATUS_GET`. -/
def State.laneRecord (s : State) (l : Nat) : Bytes :=
  let x := s.links.lane l
  Bytes.join [wordsLE [l, laneCode x.state, x.version], Bytes.slice (x.partner.getD Bytes.none) 0 48,
    wordsLE [twos 32 x.ppm, x.badHeaders, x.lockLosses, x.crResets, x.overflows, x.unknown, x.fecCorrected,
      x.fecUncorrected, 0]]

/-- `LANE_STATUS_GET` (R224). -/
def execLaneStatusGet (dt : Nat) (p : Fin 4) (s : State) : Host.Outcome State Fault Refusal :=
  .next (s.serve dt p 0x0D03 (fun s r =>
    match cutList (r.u16 0) (r.u16 2) 48 96 r.room with
    | none => s.status p r stNotSupported
    | some l =>
      let s1 := each l s State.readFec
      s1.answer p r stOk (listPayload (l.map s1.laneRecord))))

/-! ## Board tests (R238) -/

/-- `LANE_PRBS`: a count of zero completes at once; a test is held until it ends. -/
def execLanePrbs (dt : Nat) (p : Fin 4) (s : State) : Host.Outcome State Fault Refusal :=
  .next (s.serve dt p 0x0D06 (fun s r =>
    let l := r.u8 0
    let x := s.links.lane l
    if 47 < l then s.status p r stNotSupported
    else if s.links.role l ≠ 0 then s.status p r stDenied
    else if r.u32 4 = 0 then s.answer p r stOk (leBytes 16 0)
    else if x.prbs.isSome ∨ !s.canHold p then s.status p r stBusy
    else (s.setLane l { x with prbs := some (p, r.tag) }).hold p r 0))

/-- `LANE_PRBS_DONE`: the held response gives the bit errors and the bits checked. -/
def execLanePrbsDone (dt : Nat) (l : Fin 48) (errors checked : Nat) (s : State) : Host.Outcome State Fault Refusal :=
  let s1 := s.elapse dt
  let x := s1.links.lane l
  match x.prbs with
  | some (p, tag) =>
    .next ((s1.setLane l { x with prbs := none }).release p 0x0D06 tag stOk
      (Bytes.cat (leBytes 8 errors) (leBytes 8 checked)))
  | none => .next s1

/-! ## Ethernet ports (R236, R237) -/

/-- `ETH_PORT_LINK` (R236). -/
def execEthPortLink (dt : Nat) (port : Fin 8) (up : Bool) (s : State) : Host.Outcome State Fault Refusal :=
  let s1 := s.elapse dt
  match s1.links.laneOf 4 port with
  | some l =>
    let x := s1.links.lane l
    if !s1.windowUp then .next s1
    else if up ∧ x.state = .hunting then .next (s1.laneTo l .up)
    else if !up ∧ x.state = .up then
      .next ((s1.setLane l { x with lockLosses := w32 (x.lockLosses + 1), lossesSince := w32 (x.lossesSince + 1) }).laneTo l
        .hunting)
    else .next s1
  | none => .next s1

/-- Reserved bits of `ETH_PORT_SET`: `FLAGS` 7:1 and bytes 15:13. -/
def ethReserved : Nat := 0xFE <<< 8 + 0xFFFFFF <<< 104

/-- The addresses and prefixes of a setting that R237 does not support. -/
def ethBad (d : EthDesc) : Bool :=
  let mac := ethNet d 4 6
  let v4 := ethNet d 16 4
  (mac >>> 40).testBit 0 || decide (32 < Bytes.byte (bytesOf d) 10) || decide (128 < Bytes.byte (bytesOf d) 11)
    || decide (128 < Bytes.byte (bytesOf d) 12) || decide (4094 < ethVlan d) || (v4 != 0 && isMulticast (mapped4 v4))
    || isMulticast (ethNet d 24 16) || isMulticast (ethNet d 40 16)

/-- A change of an address or of the VLAN: the membership reports of a port are sent again (R237, R65). -/
def State.reportAgain (s : State) (port : Nat) : State :=
  let on (x : SrcRun) : Option Nat := x.joined.bind (fun j => if j.port = port then some j.group else none)
  let s1 := each ((s.src.run.filter (fun e => (on e.2).isSome)).map (·.1)) s (fun s i =>
    s.setSrc i { s.srcRun i with reportDue := true })
  each ((s.src.run.filterMap (fun e => on e.2)).foldl insertNat []) s1 (fun s g =>
    s.reportJoin port g ((s.memberOf port g).getD []))

/-- `ETH_PORT_SET` (R237). -/
def execEthPortSet (dt : Nat) (p : Fin 4) (s : State) : Host.Outcome State Fault Refusal :=
  .next (s.serve dt p 0x0D05 (fun s r =>
    let v := Bytes.at r.payload 0 72
    let d : EthDesc := BitVec.ofNat 576 (v - (v &&& ethReserved))
    let port := ethPort d
    if 7 < port ∨ (s.links.lanesOf 4).length ≤ port then s.status p r stNoResource
    else if ethBad d then s.status p r stNotSupported
    else
      let old := (s.eth port).setting
      let key (x : EthDesc) : Nat × Nat := (ethVlan x, (bytesOf x).val >>> 128)
      let moved : Bool := match old with | some x => key x != key d | none => key d != (0, 0)
      let s1 := s.setEth port { s.eth port with setting := some d }
      (if moved then s1.reportAgain port else s1).status p r stOk))

end Sys2Proof.Machine
end

