-- ==== Sys2Proof/Machine/Kinik.lean ====
section
/-!
DEFINITION. Source mode of the Kinik link (R229 to R231, R71): time pairs, and the assembly and the mint of a source frame.
-/
namespace Sys2Proof.Machine

/-- A source lane whose link is `UP`. -/
def State.sourceLane (s : State) (l : Nat) : Bool :=
  s.windowUp && s.links.role l == 2 && decide ((s.links.lane l).state = .up)

/-- `TIME_PAIR_SEND` (R229): the room time at which the pair leaves; the tag advances by one at each pair. -/
def execTimePairSend (dt : Nat) (l : Fin 48) (s : State) : Host.Outcome State Fault Refusal :=
  let s1 := s.elapse dt
  let x := s1.links.lane l
  if s1.sourceLane l then
    let tag := x.tag % 256
    let t := s1.time.room
    let s2 := s1.setLane l { x with tag := (tag + 1) % 256, pairs := ((tag, t) :: x.pairs).take 16 }
    let s3 := s2.send (.block l 0x10 (Bytes.join [leBytes 1 tag, leBytes 4 (hi32 t), leBytes 1 (rtCode s2.time.state),
      leBytes 1 (b2n s2.time.traceable)]))
    .next (s3.send (.block l 0x11 (Bytes.join [leBytes 1 tag, leBytes 4 (w32 t), leBytes 2 0])))
  else .next s1

def State.setKinik (s : State) (l : Nat) (f : KinikFrame) : State :=
  { s with src := { s.src with kinik := Tbl.put s.src.kinik l f } }

/-- A block of source mode: not allowed elsewhere on the link (R221), and without effect where no frame is open. -/
def State.onFrame (s : State) (l : Nat) (f : KinikFrame → Bytes → State) : State :=
  if s.links.role l ≠ 2 then s.unknownBlock l
  else match Tbl.find s.src.kinik l, (s.links.lane l).partner with
    | some k, some r => if s.sourceLane l then f k r else s
    | _, _ => s

/-- `SRC_FRAME_START`: a frame still incomplete is discarded (R71). -/
def execSrcFrameStart (dt : Nat) (l : Fin 48) (num : Word) (locked follows : Bool) (s : State) :
    Host.Outcome State Fault Refusal :=
  let s1 := s.elapse dt
  if s1.links.role l ≠ 2 then .next (s1.unknownBlock l)
  else if s1.sourceLane l then
    .next ((s1.discardKinik l).setKinik l { num := num.toNat, locked := locked, follows := follows })
  else .next s1

/-- `SRC_FRAME_TIME` (R230): the room time of the pair that the tag names, plus the offset. -/
def execSrcFrameTime (dt : Nat) (l : Fin 48) (tag : Byte) (offset : Int) (s : State) : Host.Outcome State Fault Refusal :=
  let s1 := s.elapse dt
  .next (s1.onFrame l (fun k _ =>
    if !k.follows then s1
    else match (s1.links.lane l).pairs.find? (fun e => e.1 == tag.toNat) with
      | some (_, t) => s1.setKinik l { k with capture := some (twos 64 ((t : Int) + offset)), badTag := false }
      | none => s1.setKinik l { k with capture := none, badTag := true }))

/-- Tile columns and tiles of a source frame. -/
def kinikCols (r : Bytes) : Nat := ceilDiv (capWidth r) 64
def kinikTiles (r : Bytes) : Nat := kinikCols r * ceilDiv (capHeight r) 32

/-- `SRC_TILE` with its data (R230, R231): a frame with a wrong tile is discarded. -/
def execSrcTile (dt : Nat) (l : Fin 48) (tile : SrcTileMsg) (s : State) : Host.Outcome State Fault Refusal :=
  let s0 := s.elapse dt
  let s1 := if tile.overflow ∧ s0.kinikLocked l then s0.elasticOverflow l else s0
  .next (s1.onFrame l (fun k r =>
    let n := tileBlocks (capFormat r)
    let i := tile.row * kinikCols r + tile.col
    let v2 := decide (0x20 ≤ (s1.links.lane l).version)
    if tile.announced ≠ n ∨ tile.received ≠ n ∨ kinikCols r ≤ tile.col
        ∨ ceilDiv (capHeight r) 32 ≤ tile.row ∨ tile.frameLow ≠ k.num % 256 ∨ k.openTile.isSome
        ∨ k.tiles.any (fun e => e.1 == i) then s1.discardKinik l
    else s1.dramRequest.setKinik l { k with
      tiles := (i, Bytes.slice tile.data 0 (8 * n)) :: k.tiles, openTile := if v2 then some i else none }))

/-- `SRC_TILE_CRC` (R231), which only link version 2.0 carries (R227). -/
def execSrcTileCrc (dt : Nat) (l : Fin 48) (crc : Word) (frameLow : Byte) (s : State) : Host.Outcome State Fault Refusal :=
  let s1 := s.elapse dt
  if (s1.links.lane l).version < 0x20 then .next (s1.unknownBlock l)
  else .next (s1.onFrame l (fun k _ =>
    match k.openTile, k.tiles with
    | some _, (_, data) :: _ =>
      if crc32 data = crc.toNat ∧ frameLow.toNat = k.num % 256 then s1.setKinik l { k with openTile := none }
      else s1.discardKinik l
    | _, _ => s1))

/-- Content signature of a frame (R27): its pixels in raster order, without those outside the frame (R230). -/
def kinikSignature (r : Bytes) (tiles : List (Nat × Bytes)) : Nat :=
  let f := capFormat r
  let tile (i : Nat) : Bytes := (Tbl.find tiles i).getD Bytes.none
  let n := formatBytes f
  let pixels (f : (Nat → Nat) → Nat → List Nat) : List Nat :=
    (upTo (capHeight r)).flatMap (fun y => (upTo (capWidth r)).flatMap (fun x =>
      f (Bytes.byte (tile (y / 32 * kinikCols r + x / 64))) (n * (y % 32 * 64 + x % 64))))
  if formatPlanar f then lumaCrc (pixels (sampleBytes f))
  else w32 (Config.lumaSignature f ((pixels (fun byte off => [bytesFrom byte off n])).foldr (fun v acc => v + acc <<< (8 * n)) 0))

/-- Mint a complete frame for a source of the lane (R71, R74): front-end time where the front end declares `TIME`, is locked
and names a pair; else arrival, which is the frame's completion. -/
def State.mintKinik (s : State) (l i : Nat) (k : KinikFrame) (r : Bytes) : State :=
  let d := s.srcDesc i
  let now := s.time.room
  let (ev, cap) := match k.capture with
    | some t =>
      if capTime r && k.locked && k.follows && !srcArrivalOnly d then (1, t) else (3, arrivalCapture d now)
    | none => (3, arrivalCapture d now)
  let b := (Tbl.get s.src.kinikBuf 0 l + 1) % 3
  let x := s.srcRun i
  let s1 := { s with src := { s.src with kinikBuf := Tbl.set s.src.kinikBuf 0 l b } }
  let s2 := s1.setSrc i { x with lastArrival := now, cTag := if k.badTag then w32 (x.cTag + 1) else x.cTag }
  s2.mint i {
    row := if ev = 1 then 4 else 6, evidence := ev, capture := cap, arrival := now, signature := kinikSignature r k.tiles, width := capWidth r
    height := capHeight r, format := capFormat r, buffer := b, tiles := k.tiles, colour := capColour r }

/-- `SRC_FRAME_END` (R231): a complete frame is minted for the admitted sources of the lane. One written while a channel is
frozen is discarded (R252): it spans every channel. -/
def execSrcFrameEnd (dt : Nat) (l : Fin 48) (num : Word) (tiles : Nat) (s : State) : Host.Outcome State Fault Refusal :=
  let s1 := s.elapse dt
  .next (s1.onFrame l (fun k r =>
    if s1.frozenChans ≠ [] ∨ num.toNat ≠ k.num ∨ tiles ≠ kinikTiles r ∨ k.tiles.length ≠ kinikTiles r ∨ k.openTile.isSome then s1.discardKinik l
    else
      let s2 := { s1 with src := { s1.src with kinik := Tbl.del s1.src.kinik l } }
      each ((s2.kinikSources l).filter (fun i => !(s2.srcRun i).notAdmitted)) s2 (fun s i => s.mintKinik l i k r)))

end Sys2Proof.Machine
end

