-- ==== Sys2Proof/Machine/Ledger.lean ====
section
/-!
DEFINITION. The messages and timers of the ledger (14_ledger_and_tally.md).
-/
namespace Sys2Proof.Machine

/-- `LEDGER_INFO_GET` (R319). -/
def execLedgerInfoGet (dt : Nat) (p : Fin 4) (s : State) : Host.Outcome State Fault Refusal :=
  .next (s.serve dt p 0x0901 (fun s r =>
    s.answer p r stOk (Bytes.join [wordsLE [s.ledgerOldest, s.ledger.next, s.ringOldest, s.ledger.powerCycle],
      leBytes 6 s.optime, leBytes 2 0])))

/-- Every valid record with its full sequence, oldest first: flash, then what the ring holds and flash does not. -/
def State.validRecords (s : State) : List (Nat × LedgerRec) :=
  let n := subMod 32 s.ledger.next s.ledger.spilled
  s.ledger.inFlash ++ (upTo n).filterMap (fun i =>
    let seq := w32 (s.ledger.spilled + i)
    (Tbl.find s.ledger.ring (seq % 8192)).map (fun r => (seq, r)))

/-- The records from a sequence on that are still valid; none for a sequence at or beyond the next (R295). Sequences
are compared by their distance from the next one, modulo 2^32. -/
def State.recordsFrom (s : State) (first : Nat) : List (Nat × LedgerRec) :=
  if subMod 32 first s.ledger.next < 2 ^ 31 then []
  else s.validRecords.filter (fun e => decide (subMod 32 s.ledger.next e.1 ≤ subMod 32 s.ledger.next first))

/-- `LEDGER_READ` (R295, R326). -/
def execLedgerRead (dt : Nat) (p : Fin 4) (s : State) : Host.Outcome State Fault Refusal :=
  .next (s.serve dt p 0x0902 (fun s r =>
    let valid := s.recordsFrom (r.u32 0)
    let l := valid.take (min (r.u32 4) ((r.room - 8) / 32))
    let first := match valid with | e :: _ => e.1 | [] => r.u32 0
    s.answer p r stOk (Bytes.cat (wordsLE [first, l.length]) (Bytes.join (l.map (fun e => e.2.bytes))))))

/-- Notes of a port within the last second. -/
def State.recentNotes (s : State) (p : Nat) : List Nat :=
  (s.port p).notes.filter (fun t => decide (s.time.now < t + 1000000000))

/-- `LEDGER_NOTE` (R321, Table 12-8): at most 100 notes per port in any second. -/
def execLedgerNote (dt : Nat) (p : Fin 4) (s : State) : Host.Outcome State Fault Refusal :=
  .next (s.serve dt p 0x0903 (fun s r =>
    let l := s.recentNotes p
    if 100 ≤ l.length then s.status p r stBusy
    else
      ((s.setPort p { s.port p with notes := l ++ [s.time.now] }).logFrom 2 p 0xC020
        [r.u32 0, r.u32 4, r.u32 8, r.u32 12]).status p r stOk))

/-- A page is due: 8 records wait, or the oldest that waits was written 100 ms ago (R323). -/
def State.pageDue (s : State) : Bool :=
  let g := s.ledger
  let n := subMod 32 g.next g.spilled
  n != 0 && (decide (8 ≤ n) || decide (Tbl.get g.ringTimes 0 (g.spilled % 8192) + 100000000 ≤ s.time.now))

/-- `LEDGER_SPILL` (R323, R324): one page of up to 8 records, or a failed write. -/
def execLedgerSpill (dt : Nat) (ok : Bool) (s : State) : Host.Outcome State Fault Refusal :=
  let s1 := s.elapse dt
  if !s1.tellerUp ∨ !s1.pageDue then .next s1
  else if ok then .next (s1.spill 8).reportLost
  else .next s1.flashError

/-- `OPTIME_MARK` (R320): written every 60 s, never sooner than 59.9 s after the last (Table 14-7), and spilled at once. -/
def execOptimeMark (dt : Nat) (s : State) : Host.Outcome State Fault Refusal :=
  let s1 := s.elapse dt
  if !s1.tellerUp ∨ s1.time.now < s1.ledger.markAt.getD s1.ledger.porAt + 59900000000 then .next s1
  else
    let s2 := { s1 with ledger := { s1.ledger with markAt := some s1.time.now } }.log 0x0F02 [w32 s1.time.room, hi32 s1.time.room, rtCode s1.time.state, b2n s1.time.traceable]
    .next (if s2.ledger.flashFailing then s2.flashError else s2.spillNow)

end Sys2Proof.Machine
end

