-- ==== Sys2Proof/Machine/RoomCommit.lean ====
section
/-!
DEFINITION. Room-wide commits (R143 to R146): the coordinator, the participants, their votes and decisions.
-/
namespace Sys2Proof.Machine

/-! ## Shared -/

/-- The cleared commit of a unit with a `ROOM_ID` (R143 step 1). -/
def State.roomCommit (s : State) (id : Nat) : Option Commit :=
  match s.sets.pending with
  | some c => if c.room = some id ∧ c.eligibleAt.isSome then some c else none
  | none => none

/-- A unit's vote (R139, R143 step 5). -/
def State.voteOf (s : State) (c : Commit) : Vote :=
  if !c.stagingDone then .staging else if s.waitingFences ≠ [] then .fence else .ready

def voteCode : Vote → Nat | .ready => 0 | .staging => 1 | .fence => 2
def decisionCode : Decision → Nat | .settle => 0 | .settleForced => 1 | .deferUncounted => 2 | .deferCounted => 3
def decisionSettles : Decision → Bool | .settle => true | .settleForced => true | _ => false

/-- Settle the commit of a decision, with the counted deferrals of the room-wide commit. -/
def State.roomSettle (s : State) (id defers : Nat) : State :=
  match s.roomCommit id with
  | some c => s.settle { c with defers := defers }
  | none => s

/-- A decision to defer: the commit is deferred as R139 defers it, counted where the decision is. -/
def State.roomDefer (s : State) (id defers : Nat) (counted : Bool) : State :=
  match s.roomCommit id with
  | some c =>
    if counted then s.defer { c with defers := defers, stageRun := 0 } 2
    else s.deferStaging c
  | none => s

def State.setCo (s : State) (x : RoomCo) : State := { s with links := { s.links with roomCo := some x } }
def State.setPart (s : State) (x : RoomPart) : State := { s with links := { s.links with roomPart := some x } }

/-- The link of a peer port carries room-wide commit messages (R227). -/
def State.peerRoom (s : State) (pp : Nat) : Bool :=
  s.peerUp pp && (match s.peerLane pp with | some l => decide (0x20 ≤ (s.links.lane l).version) | none => false)

/-! ## The coordinator -/

/-- End a room-wide commit with ROOM_ABORTED (R144): the codes of the cause are not stated. -/
def State.roomAbort (s : State) (x : RoomCo) (fault : Nat) : State :=
  (({ s with links := { s.links with roomCo := none } }.log 0x3111
    [x.roomId, fault, w32 (Config.measured s.draw), x.decisions])).release x.port 0x0505 x.tag stRoomAborted Bytes.none

/-- Complete a room-wide commit (R146). -/
def State.roomComplete (s : State) (x : RoomCo) : State :=
  let tf := x.tf.getD 0
  let time (pp : Nat) : Option Nat := Tbl.find x.doneTimes pp
  let late := maskOf ((maskBits 4 x.mask).filter (fun pp => match time pp with | some t => t != tf | none => false))
  let unsure := maskOf ((maskBits 4 x.mask).filter (fun pp => (time pp).isNone))
  let item (pp : Nat) : Bytes :=
    let (r, t) := if !x.mask.testBit pp then (3, 0) else match time pp with
      | some t => if t = tf then (0, t) else (1, t)
      | none => (2, 0)
    Bytes.join [leBytes 1 r, leBytes 3 0, leBytes 8 t]
  ({ s with links := { s.links with roomCo := none } }.log 0x3110
    [x.roomId, x.mask, w32 tf, late + unsure <<< 8]).release x.port 0x0505 x.tag stOk (Bytes.join ((upTo 4).map item))

/-- Every participant is prepared: choose the target frame and ask for votes (R143 step 4). -/
def State.chooseTarget (s : State) (x : RoomCo) : State :=
  let lead := grpLead (s.group x.group) * 1000
  let tf := s.time.clock.after (s.time.room + lead + 200000 - 1)
  each (maskBits 4 x.mask) (s.setCo { x with tf := some tf, votes := [], own := none }) (fun s pp =>
    s.sendPeer pp 0x0003 (Bytes.join [leBytes 2 x.roomId, leBytes 2 0, leBytes 8 tf]))

/-- `ROOM_COMMIT` (R143): always held. -/
def execRoomCommit (dt : Nat) (p : Fin 4) (s : State) : Host.Outcome State Fault Refusal :=
  .next (s.serve dt p 0x0505 (fun s r =>
    let id := r.u16 0
    let mask := r.u8 2 % 16
    let g := r.u8 3
    if s.links.roomCo.isSome ∨ !s.canHold p then s.status p r stBusy
    else if 15 < g then s.status p r stNotSupported
    else match s.roomCommit id with
      | none => s.status p r stDenied
      | some c =>
        if c.group ≠ g then s.status p r stDenied
        else
          let x : RoomCo := { roomId := id, mask := mask, group := g, port := p, tag := r.tag, startedAt := s.time.now }
          let k := s.time.clock
          let s1 := each (maskBits 4 mask) ((s.hold p r id).setCo x) (fun s pp =>
            s.sendPeer pp 0x0001 (Bytes.join [leBytes 2 id, leBytes 1 g, leBytes 1 0, leBytes 2 k.num, leBytes 2 k.den,
              leBytes 8 k.phase]))
          if mask = 0 then s1.chooseTarget x else s1))

/-- `ROOM_PREPARED` (R143): the last of them chooses the target frame; a failure aborts. -/
def execRoomPrepared (dt : Nat) (pp : Fin 4) (roomId result commitSeq : Nat) (s : State) :
    Host.Outcome State Fault Refusal :=
  let s1 := s.elapse dt
  match s1.links.roomCo with
  | some x =>
    if !s1.tellerUp ∨ !s1.peerRoom pp ∨ x.roomId ≠ roomId ∨ x.tf.isSome ∨ !x.mask.testBit pp ∨ 2 ^ 32 ≤ commitSeq then
      .next s1
    else if result ≠ 0 then .next (s1.roomAbort x (1 <<< pp.val))
    else
      let y : RoomCo := { x with prepared := insertNat x.prepared pp }
      if maskOf y.prepared = x.mask then .next (s1.chooseTarget y) else .next (s1.setCo y)
  | none => .next s1

/-- `ROOM_PREPARE_TIMEOUT` (R144): 2 ms. -/
def execRoomPrepareTimeout (dt : Nat) (s : State) : Host.Outcome State Fault Refusal :=
  let s1 := s.elapse dt
  match s1.links.roomCo with
  | some x =>
    if s1.tellerUp ∧ x.tf.isNone ∧ x.startedAt + 2000000 ≤ s1.time.now then
      .next (s1.roomAbort x (maskOf ((maskBits 4 x.mask).filter (fun pp => !x.prepared.contains pp))))
    else .next s1
  | none => .next s1

/-- `ROOM_VOTE` (R143): for the target frame in force. -/
def execRoomVote (dt : Nat) (pp : Fin 4) (roomId : Nat) (vote : Vote) (tf : Nat) (s : State) :
    Host.Outcome State Fault Refusal :=
  let s1 := s.elapse dt
  match s1.links.roomCo with
  | some x =>
    if s1.tellerUp ∧ s1.peerRoom pp ∧ x.roomId = roomId ∧ x.tf = some tf ∧ x.mask.testBit pp
        ∧ !(x.decided.any decisionSettles) then
      .next (s1.setCo { x with votes := Tbl.put x.votes pp vote })
    else .next s1
  | none => .next s1

/-- The decision on the votes at hand (R143 step 6): a vote that is missing counts as FENCE. -/
def RoomCo.decide' (x : RoomCo) (limit : Nat) : Decision :=
  let all := x.own :: (maskBits 4 x.mask).map (fun pp => Tbl.find x.votes pp)
  if all.all (· == some .ready) then .settle
  else if all.any (· == some .staging) then .deferUncounted
  else if all.all (·.isSome) ∧ limit ≤ x.defers then .settleForced
  else .deferCounted

/-- Make the decision and send it; the third in a row with a missing vote aborts (R144). -/
def State.roomDecide (s : State) (x : RoomCo) (tf : Nat) : State :=
  let d := x.decide' (grpDeferLimit (s.group x.group))
  let lost := (maskBits 4 x.mask).filter (fun pp => !Tbl.has x.votes pp)
  let counted := d == Decision.deferCounted
  let defers := if counted then x.defers + 1 else x.defers
  let next := if decisionSettles d then tf else s.time.clock.after tf
  let y : RoomCo := { x with
    defers := defers, decisions := x.decisions + 1, decided := some d, tf := some next
    missing := if lost = [] then 0 else x.missing + 1
    votes := if decisionSettles d then x.votes else [], own := if decisionSettles d then x.own else none }
  let s1 := each (maskBits 4 x.mask) (s.setCo y) (fun s pp =>
    s.sendPeer pp 0x0005 (Bytes.join [leBytes 2 x.roomId, leBytes 1 (decisionCode d), leBytes 1 defers, leBytes 8 next]))
  let s2 := if decisionSettles d then s1.roomSettle x.roomId defers else s1.roomDefer x.roomId defers counted
  if 3 ≤ y.missing then s2.roomAbort y (maskOf lost) else s2

/-- `ROOM_DECISION_POINT` (R143): at T_f − `ROOM_LEAD` / 2. -/
def execRoomDecisionPoint (dt : Nat) (s : State) : Host.Outcome State Fault Refusal :=
  let s1 := s.elapse dt
  match s1.links.roomCo with
  | some x =>
    match x.tf with
    | some tf =>
      if s1.tellerUp ∧ !(x.decided.any decisionSettles) ∧ tf ≤ s1.time.room + grpLead (s1.group x.group) * 500 then
        .next (s1.roomDecide x tf)
      else .next s1
    | none => .next s1
  | none => .next s1

/-- `ROOM_DONE` (R146): the last one completes. -/
def execRoomDone (dt : Nat) (pp : Fin 4) (roomId frameTime commitSeq : Nat) (s : State) :
    Host.Outcome State Fault Refusal :=
  let s1 := s.elapse dt
  match s1.links.roomCo with
  | some x =>
    if s1.tellerUp ∧ s1.peerRoom pp ∧ x.roomId = roomId ∧ x.decided.any decisionSettles ∧ x.mask.testBit pp
        ∧ commitSeq < 2 ^ 32 then
      let y : RoomCo := { x with doneTimes := Tbl.put x.doneTimes pp frameTime }
      if (maskBits 4 x.mask).all (fun q => Tbl.has y.doneTimes q) then .next (s1.roomComplete y) else .next (s1.setCo y)
    else .next s1
  | none => .next s1

/-- `ROOM_DONE_WAIT_EXPIRY` (R146): 200 ms after T_f. -/
def execRoomDoneWaitExpiry (dt : Nat) (s : State) : Host.Outcome State Fault Refusal :=
  let s1 := s.elapse dt
  match s1.links.roomCo with
  | some x =>
    if s1.tellerUp ∧ x.decided.any decisionSettles ∧ x.tf.getD 0 + 200000000 ≤ s1.time.room then
      .next (s1.roomComplete x)
    else .next s1
  | none => .next s1

/-! ## Participants -/

/-- `ROOM_PREPARE` (R143): the first condition that fails is the answer. -/
def execRoomPrepare (dt : Nat) (pp : Fin 4) (roomId : Nat) (_group : Fin 16) (num den phase : Nat) (s : State) :
    Host.Outcome State Fault Refusal :=
  let s1 := s.elapse dt
  if !s1.tellerUp ∨ !s1.peerRoom pp then .next s1
  else
    let k := s1.time.clock
    let c := s1.roomCommit roomId
    let result :=
      if c.isNone then 1
      else if s1.time.state ≠ .locked ∧ s1.time.state ≠ .holdover then 2
      else if k.genlockIn ∨ k.num ≠ num ∨ k.den ≠ den ∨ k.phase ≠ phase then 3
      else 0
    let s2 := if result = 0 then s1.setPart { roomId := roomId, coord := pp } else s1
    .next (s2.sendPeer pp 0x0002 (Bytes.join [leBytes 2 roomId, leBytes 1 result, leBytes 1 0,
      leBytes 4 ((c.map (·.seq)).getD 0)]))

/-- `ROOM_VOTE_REQ` (R143). -/
def execRoomVoteReq (dt : Nat) (pp : Fin 4) (roomId tf : Nat) (s : State) : Host.Outcome State Fault Refusal :=
  let s1 := s.elapse dt
  match s1.links.roomPart with
  | some x =>
    if s1.tellerUp ∧ s1.peerRoom pp ∧ x.roomId = roomId ∧ x.coord = pp ∧ x.decided.isNone then
      .next (s1.setPart { x with tf := some tf, vote := none, doubtSince := none })
    else .next s1
  | none => .next s1

/-- The coordinator's own vote at the vote point. -/
def State.voteOwn (s : State) : State :=
  match s.links.roomCo with
  | some x =>
    match x.tf, s.roomCommit x.roomId with
    | some tf, some c =>
      if x.own.isNone ∧ !(x.decided.any decisionSettles)
          ∧ tf ≤ s.time.room + grpLead (s.group x.group) * 1000 then s.setCo { x with own := some (s.voteOf c) }
      else s
    | _, _ => s
  | none => s

/-- A participant's vote at the vote point of its own group. -/
def State.votePart (s : State) : State :=
  match s.links.roomPart with
  | some x =>
    match x.tf, s.roomCommit x.roomId with
    | some tf, some c =>
      if x.vote.isNone ∧ x.decided.isNone ∧ tf ≤ s.time.room + grpLead (s.group c.group) * 1000 then
        let v := s.voteOf c
        (s.setPart { x with vote := some v }).sendPeer x.coord 0x0004
          (Bytes.join [leBytes 2 x.roomId, leBytes 1 (voteCode v), leBytes 1 0, leBytes 8 tf])
      else s
    | _, _ => s
  | none => s

/-- `ROOM_VOTE_POINT` (R143): at T_f − `ROOM_LEAD`. A unit whose commit is gone casts no vote. -/
def execRoomVotePoint (dt : Nat) (s : State) : Host.Outcome State Fault Refusal :=
  let s1 := s.elapse dt
  if s1.tellerUp then .next (s1.voteOwn.votePart) else .next s1

/-- `ROOM_DECIDE` (R143, R145): a participant settles, at T_f where it holds the decision 20 µs before, else late at its own
next frame start. -/
def execRoomDecide (dt : Nat) (pp : Fin 4) (roomId : Nat) (dec : Decision) (defers tf : Nat) (s : State) :
    Host.Outcome State Fault Refusal :=
  let s1 := s.elapse dt
  match s1.links.roomPart with
  | some x =>
    if !s1.tellerUp ∨ !s1.peerRoom pp ∨ x.roomId ≠ roomId ∨ x.coord ≠ pp ∨ x.decided.isSome then .next s1
    else if (s1.roomCommit roomId).isNone then .next { s1 with links := { s1.links with roomPart := none } }
    else if decisionSettles dec then
      .next ((s1.setPart { x with
        decided := some dec, tf := some tf, settleLate := decide (tf < s1.time.room + 20000) }).roomSettle roomId defers)
    else
      .next ((s1.setPart { x with tf := some tf, vote := none, doubtSince := none }).roomDefer roomId defers
        (dec == Decision.deferCounted))
  | none => .next s1

/-- A participant in doubt: it voted READY, T_f has come, and it holds no decision (R145). -/
def State.inDoubt (s : State) (x : RoomPart) : Bool :=
  x.vote == some .ready && x.decided.isNone && (match x.tf with | some tf => decide (tf ≤ s.time.room) | none => false)

/-- `ROOM_QUERY` (R145): the participant's own query, or a query received, which the coordinator answers with its last
decision. -/
def execRoomQuery (dt : Nat) (received : Option (Fin 4)) (roomId tf : Nat) (s : State) :
    Host.Outcome State Fault Refusal :=
  let s1 := s.elapse dt
  if !s1.tellerUp then .next s1
  else match received with
  | none =>
    match s1.links.roomPart with
    | some x =>
      if s1.inDoubt x ∧ x.roomId = roomId then
        .next ((s1.setPart { x with doubtSince := some (x.doubtSince.getD s1.time.now) }).sendPeer x.coord 0x0007
          (Bytes.join [leBytes 2 x.roomId, leBytes 2 0, leBytes 8 (x.tf.getD 0)]))
      else .next s1
    | none => .next s1
  | some pp =>
    match s1.links.roomCo with
    | some x =>
      match x.decided, x.tf with
      | some d, some next =>
        if s1.peerRoom pp ∧ x.roomId = roomId ∧ x.mask.testBit pp ∧ (decisionSettles d ∨ tf < next) then
          .next (s1.sendPeer pp 0x0005 (Bytes.join [leBytes 2 x.roomId, leBytes 1 (decisionCode d), leBytes 1 x.defers,
            leBytes 8 next]))
        else .next s1
      | _, _ => .next s1
    | none => .next s1

/-- `ROOM_IN_DOUBT_TIMEOUT` (R145): 100 ms after the first query the commit is withdrawn. -/
def execRoomInDoubtTimeout (dt : Nat) (s : State) : Host.Outcome State Fault Refusal :=
  let s1 := s.elapse dt
  match s1.links.roomPart with
  | some x =>
    match x.doubtSince, s1.roomCommit x.roomId with
    | some t, some c =>
      if s1.tellerUp ∧ s1.inDoubt x ∧ t + 100000000 ≤ s1.time.now then
        let s2 := { s1 with links := { s1.links with roomPart := none } }.endCommit c .withdrawn
        .next ((s2.log 0x3113 [x.roomId, c.seq, x.coord, 0]).deferResponse c)
      else .next s1
    | _, _ => .next s1
  | none => .next s1

end Sys2Proof.Machine
end

