-- ==== Sys2Proof/Machine/Peers.lean ====
section
/-!
DEFINITION. Peer messages and heartbeats (R232, R233, R337, R339): acknowledgement, resending, failure and restoration.
-/
namespace Sys2Proof.Machine

/-! ## Status (Table 12-13) -/

/-- One record of `PEER_STATUS_GET`. -/
def State.peerRecord (s : State) (pp : Nat) : Bytes :=
  match s.peerLane pp with
  | none => wordsLE [pp, 0, 0, 0, 0, 0, 0, (s.peer pp).lost]
  | some l =>
    let x := s.links.lane l
    let r := x.partner.getD Bytes.none
    wordsLE [pp, laneCode x.state, x.version, capPairId r, capRole r, capHostMajor r * 256 + capHostMinor r,
      capFirmware r, (s.peer pp).lost]

/-- `PEER_STATUS_GET` (R287). -/
def execPeerStatusGet (dt : Nat) (p : Fin 4) (s : State) : Host.Outcome State Fault Refusal :=
  .next (s.serve dt p 0x0C04 (fun s r =>
    match cutList (r.u16 0) (r.u16 2) 4 32 r.room with
    | none => s.status p r stNotSupported
    | some l => s.answer p r stOk (listPayload (l.map s.peerRecord))))

/-! ## Delivery (R233) -/

/-- The types a peer lane knows at its link version (R227, Table 9-7, Table 15-3). -/
def peerTypeKnown (version type : Nat) : Bool :=
  type == 0x10 || (decide (0x20 ≤ type) && decide (type ≤ 0x29))
    || (decide (0x20 ≤ version) && decide (1 ≤ type) && decide (type ≤ 7))

/-- `PEER_ACK` with a result (Table 9-6). -/
def State.ackPeer (s : State) (lane seq result : Nat) : State :=
  s.send (.block lane 0x62 (Bytes.join [leBytes 2 seq, leBytes 1 result, leBytes 4 0]))

/-- A message is whole: the data blocks that its length asks for, one sequence, and the CRC of its payload (R233). -/
def peerSound (m : PeerMsgIn) : Bool :=
  decide (m.length ≤ 4096) && m.data.len == 8 * ceilDiv m.length 8 && w16 m.endSeq == w16 m.seq
    && crc32 (Bytes.slice m.data 0 m.length) == m.crc.toNat

/-- The sequence of a list that comes first from a position on. -/
def firstFrom (q : Nat) : List (Nat × Nat) → Nat
  | [] => q
  | w :: r => let n := firstFrom q r; if r = [] ∨ subMod 16 w.1 q ≤ subMod 16 n q then w.1 else n

/-- Deliver what is in sequence (R233; fuel: the messages that wait). A message that its sender has given up is passed over: it had
440 µs from its first sending, and one behind it has waited as long (DEDUCED from the resends of R233, log entry 58). -/
def PeerRun.deliver (now : Nat) : Nat → PeerRun → PeerRun
  | 0, x => x
  | n + 1, x =>
    match x.waiting with
    | [] => x
    | w :: _ =>
      let q := x.next.getD w.1
      let go (q : Nat) : PeerRun := { x with
        next := some (w16 (q + 1)), delivered := (q :: x.delivered).take 64, waiting := x.waiting.filter (fun e => e.1 != q) }
      if x.waiting.any (fun e => e.1 == q) then (go q).deliver now n
      else if w.2 + 440000 ≤ now then (go (firstFrom q x.waiting)).deliver now n
      else x

/-- A message of a sequence has arrived that was not delivered before: it waits for its turn. One from behind the position restarts
the sequence there (log entry 58). -/
def PeerRun.arrive (x : PeerRun) (seq now : Nat) : PeerRun :=
  if x.delivered.contains seq ∨ x.waiting.any (fun e => e.1 == seq) then x
  else
    let next := match x.next with
      | some q => if subMod 16 seq q < 32768 then some q else some seq
      | none => some seq
    let y := { x with next := next, waiting := x.waiting ++ [(seq, now)] }
    y.deliver now y.waiting.length

/-- `PEER_MSG_END` (R233): the acknowledgement of a message received. Messages are delivered in sequence order; the command of a
delivered message is its own. -/
def execPeerMsgEnd (dt : Nat) (pp : Fin 4) (msg : PeerMsgIn) (s : State) : Host.Outcome State Fault Refusal :=
  let s1 := s.elapse dt
  match s1.peerLane pp with
  | none => .next s1
  | some l =>
    let x := s1.peer pp
    if !s1.peerUp pp then .next s1
    else if !peerSound msg then .next (s1.ackPeer l msg.seq 2)
    else
      let result := if peerTypeKnown (s1.links.lane l).version msg.type then 0 else 1
      .next ((s1.setPeer pp (x.arrive (w16 msg.seq) s1.time.now)).ackPeer l msg.seq result)

/-- What follows when a message is acknowledged as taken or as of an unknown type: a coordinator's `ROOM_PREPARE` of an
unknown type has failed (R235); once the end of a snapshot is taken, the twin is in step (R342). -/
def State.peerAcked (s : State) (pp : Nat) (m : PeerTx) (result : Nat) : State :=
  if m.type = 1 ∧ result = 1 then
    match s.links.roomCo with
    | some x => if x.tf.isNone ∧ x.mask.testBit pp then s.roomAbort x (1 <<< pp) else s
    | none => s
  else if m.type = 0x27 ∧ result = 0 ∧ s.mirrors ∧ pp = s.pair.port then s.setMirror .inStep
  else s

/-- `PEER_ACK` (R233): result 2 leaves the message to be resent. -/
def execPeerAck (dt : Nat) (pp : Fin 4) (seq : BitVec 16) (result : Byte) (s : State) :
    Host.Outcome State Fault Refusal :=
  let s1 := s.elapse dt
  let x := s1.peer pp
  match x.outstanding.find? (fun m => m.seq == seq.toNat) with
  | some m =>
    if !s1.peerUp pp ∨ 2 ≤ result.toNat then .next s1
    else
      .next (((s1.setPeer pp { x with outstanding := x.outstanding.filter (fun n => n.seq != seq.toNat) }).peerAcked pp m
        result.toNat).drainPeer pp)
  | none => .next s1

/-- A message is reported lost to its user (R233); a lost mirror message makes the twin catch up (R342). -/
def State.peerLost (s : State) (pp : Nat) (m : PeerTx) : State :=
  let x := s.peer pp
  let s1 := (s.setPeer pp { x with
    lost := w32 (x.lost + 1), outstanding := x.outstanding.filter (fun n => n.seq != m.seq) }).log 0x7040
    [pp, m.type, m.seq, 0]
  let s2 := if 0x20 ≤ m.type ∧ m.type ≤ 0x23 ∧ s1.mirrors ∧ pp = s1.pair.port then s1.setMirror .catchingUp else s1
  s2.drainPeer pp

/-- `PEER_MSG_RESEND` (R233): the first message whose 100 µs have passed is resent, after 3 resends it is lost. -/
def execPeerMsgResend (dt : Nat) (pp : Fin 4) (s : State) : Host.Outcome State Fault Refusal :=
  let s1 := s.elapse dt
  let x := s1.peer pp
  match x.outstanding.find? (fun m => decide (m.sentAt + 100000 ≤ s1.time.now)) with
  | some m =>
    if !s1.tellerUp then .next s1
    else if 3 ≤ m.resends then .next (s1.peerLost pp m)
    else
      .next ((s1.setPeer pp { x with
        outstanding := x.outstanding.map (fun n =>
          if n.seq = m.seq then { n with sentAt := s1.time.now, resends := n.resends + 1 } else n) }).emitPeer pp m.type
        m.seq m.payload)
  | none => .next s1

/-! ## Heartbeats (R232, R337, R339) -/

/-- Own ledger records not yet mirrored, oldest first (R340): mirrored records are not sent back. -/
def State.ledgerToMirror (s : State) : List LedgerRec :=
  ((upTo (min 8192 (subMod 32 s.ledger.next s.pair.ledgerSent))).filterMap (fun i =>
    Tbl.find s.ledger.ring (w32 (s.pair.ledgerSent + i) % 8192))).filter (fun r => !r.mirrored)

/-- Send the records due to the twin, at most 8 to a message. Nothing is sent while mirroring is stopped (R342). -/
def State.sendLedger (s : State) : State :=
  if !s.pair.enabled ∨ s.pair.mirror = .stopped then s
  else
    let l := s.ledgerToMirror
    each (chunks 8 l.length l) { s with pair := { s.pair with ledgerSent := s.ledger.next } } (fun s rs =>
      s.sendPeer s.pair.port 0x0024 (Bytes.join (leBytes 1 rs.length :: leBytes 3 0 :: rs.map LedgerRec.bytes)))

/-- `HEARTBEAT_SEND` (R232, Table 9-6). On the twin port the ledger records of the time since the last one follow, within
the 100 ms of R340. -/
def execHeartbeatSend (dt : Nat) (pp : Fin 4) (s : State) : Host.Outcome State Fault Refusal :=
  let s1 := s.elapse dt
  match s1.peerLane pp with
  | none => .next s1
  | some l =>
    if !s1.peerUp pp then .next s1
    else
      let x := s1.peer pp
      let s2 := (s1.setPeer pp { x with hbCount := w32 (x.hbCount + 1) }).send (.block l 0x68
        (Bytes.join [leBytes 4 x.hbCount, leBytes 1 (roleCode s1.pair.role), leBytes 1 s1.pair.id,
          leBytes 1 (b2n !s1.pair.arbHigh)]))
      .next (if s2.pair.port = pp.val ∧ s2.tellerUp then s2.sendLedger else s2)

/-- A standby asks for what it lacks (R342): the last mirror sequence it applied. -/
def State.requestSync (s : State) : State :=
  if s.pair.role = .standby then s.sendPeer s.pair.port 0x0025 (leBytes 4 s.pair.mseq) else s

/-- Begin to catch up, unless the units are incompatible. -/
def State.catchUp (s : State) : State :=
  if s.pair.incompatible then s else (s.setMirror .catchingUp).requestSync

/-- The first heartbeat after a start or a failure (R337, R342). Records written meanwhile are not mirrored (R341). -/
def State.heartbeatBack (s : State) (failed : Bool) : State :=
  let s1 := if !failed then s
    else
      let x := s.pair
      let s1 := { s with pair := { x with hbFailed := false, linkRaised := false } }.log 0x9021
        [x.port, (s.time.now - x.hbFailedAt) / 1000000, roleCode x.role, 0]
      if x.linkRaised then s1.cleared 0x032 x.port else s1
  { s1 with pair := { s1.pair with ledgerSent := s1.ledger.next } }.catchUp

/-- Two active units (R339): at the third heartbeat in a row that says so, the unit with `PAIR_ID` 1 yields. -/
def State.dualActive (s : State) (role : Nat) : State :=
  let n := if s.pair.role = .active ∧ role = 1 then s.pair.dualRun + 1 else 0
  let s1 := { s with pair := { s.pair with dualRun := n } }
  if 3 ≤ n ∧ s.pair.id = 1 then (s1.log 0x9012 [s.pair.id, s.pair.port, 1, 0]).yieldRole else s1

/-- The standby's view of ARB against the active unit's drive (R337): 8 disagreeing heartbeats in a row are a fault, which
ends at the first that agrees. -/
def State.arbCheck (s : State) (role : Nat) (low : Bool) : State :=
  let x := s.pair
  if x.role = .active ∧ x.driveLow ∧ role = 2 ∧ !low then
    let s1 := { s with pair := { x with arbDisagree := x.arbDisagree + 1 } }
    if x.arbDisagree + 1 = 8 then
      ({ s1 with pair := { s1.pair with linkRaised := true } }.log 0x9052 [x.port, 8, 0, 0]).raised 0x032 x.port
    else s1
  else
    let s1 := { s with pair := { x with arbDisagree := 0, linkRaised := x.linkRaised && decide (x.arbDisagree < 8) } }
    if 8 ≤ x.arbDisagree ∧ x.linkRaised then s1.cleared 0x032 x.port else s1

/-- The twin reports active: a switch that has handed over is done (R344). -/
def State.switchConfirmed (s : State) (role : Nat) : State :=
  match s.pair.switch with
  | some w =>
    if (w.released ∨ s.pair.role ≠ .active) ∧ role = 1 then
      ({ s with pair := { s.pair with switch := none } }.log 0x9040 [w32 w.tf, s.pair.port, 0, 0]).release w.port 0x0C03
        w.tag stOk Bytes.none
    else s
  | none => s

/-- `HEARTBEAT` (R337): only the twin port's counts. -/
def execHeartbeat (dt : Nat) (pp : Fin 4) (hb : HeartbeatBlock) (s : State) : Host.Outcome State Fault Refusal :=
  let s1 := s.elapse dt
  if !s1.tellerUp ∨ !s1.peerUp pp ∨ !s1.pair.enabled ∨ s1.pair.port ≠ pp.val then .next s1
  else
    let first : Bool := s1.pair.hbLast.isNone || s1.pair.hbFailed
    let failed := s1.pair.hbFailed
    let s2 := { s1 with pair := { s1.pair with hbLast := some s1.time.now, hbCount := w32 hb.count } }
    let s3 := if first then s2.heartbeatBack failed else s2
    .next (((s3.arbCheck hb.role hb.arbLow).dualActive hb.role).switchConfirmed hb.role)

/-- `HEARTBEAT_FAIL` (R337, Table 15-1): 8 ms without a heartbeat on the twin port. -/
def execHeartbeatFail (dt : Nat) (s : State) : Host.Outcome State Fault Refusal :=
  let s1 := s.elapse dt
  let x := s1.pair
  if !s1.tellerUp ∨ !s1.power.started ∨ !x.enabled ∨ x.hbFailed
      ∨ s1.time.now < x.hbLast.getD s1.power.resetAt + 8000000 then .next s1
  else
    let raise : Bool := decide (x.role = .active) || !x.arbHigh
    let s2 := ({ s1 with pair := { x with
      hbFailed := true, hbFailedAt := s1.time.now, linkRaised := x.linkRaised || raise, dualRun := 0, arbDisagree := 0 } }.log
      0x9020 [x.port, b2n !x.arbHigh, roleCode x.role, x.hbCount]).setMirror .stopped
    .next (if raise then s2.raised 0x032 x.port else s2)

end Sys2Proof.Machine
end

