-- ==== Sys2Proof/Machine/Pair.lean ====
section
/-!
DEFINITION. Redundant pairs (15_redundant_pairs.md): roles and ARB, mirroring on the standby, the manual switch and the
pair reset.
-/
namespace Sys2Proof.Machine

/-! ## Messages -/

/-- `PAIR_CONFIG_SET` (R334): in force from the next POR, PIN or WARM reset. -/
def execPairConfigSet (dt : Nat) (p : Fin 4) (s : State) : Host.Outcome State Fault Refusal :=
  .next (s.serveFlash dt p 0x0C01 (fun s r =>
    if 1 < r.u8 0 ∨ 3 < r.u8 1 then s.status p r stNotSupported else s.beginFlash p r none))

/-- The configuration of a `PAIR_CONFIG_SET` has been written to flash. -/
def State.storePair (s : State) (r : Request) : State :=
  { s with pair := { s.pair with cfgId := r.u8 0, cfgPort := r.u8 1, cfgOn := (r.u8 2).testBit 0 } }

/-- `PAIR_STATUS_GET` (R342, Table 12-13). -/
def execPairStatusGet (dt : Nat) (p : Fin 4) (s : State) : Host.Outcome State Fault Refusal :=
  .next (s.serve dt p 0x0C02 (fun s r =>
    let x := s.pair
    s.answer p r stOk (wordsLE [x.id, roleCode x.role, x.port, b2n !x.arbHigh, b2n x.hbFailed, mirrorCode x.mirror])))

/-- `PAIR_SWITCH` (R344): T_f is the first room frame start at least 10 ms ahead. -/
def execPairSwitch (dt : Nat) (p : Fin 4) (s : State) : Host.Outcome State Fault Refusal :=
  .next (s.serve dt p 0x0C03 (fun s r =>
    if s.pair.switch.isSome ∨ !s.canHold p then s.status p r stBusy
    else if r.u8 0 ≠ 1 then s.status p r stNotSupported
    else if !s.pair.enabled ∨ s.pair.role ≠ .active ∨ s.pair.mirror ≠ .inStep then s.status p r stDenied
    else
      let tf := w64 (s.time.clock.after (s.time.room + 9999999))
      let w : Switch := { tf := tf, startedAt := s.time.now, port := p, tag := r.tag }
      { s.hold p r 0 with pair := { s.pair with switch := some w } }.sendPeer s.pair.port 0x0028
        (Bytes.join [leBytes 8 tf, leBytes 4 s.pair.mseq])))

/-! ## Taking the active role (R335, R336, R341) -/

/-- ALIVE toggles and the unit is not in safe state (R336). -/
def State.mayDrive (s : State) : Bool :=
  s.tellerUp && s.pair.enabled && decide (s.pair.role = .standby) && s.fault.alive && !s.inSafe

/-- Become active: ARB is driven low; snapshots of the mirrored key states, then the change of role (R296, R341). -/
def State.becomeActive (s : State) (cause : Nat) : State :=
  let x := s.pair
  let s1 := { s with pair := { x with
    role := .active, driveLow := true, arbHigh := false, seenLow := true, takeAt := none, dualRun := 0, arbDisagree := 0 } }
  let s2 := each (upTo 8) s1 (fun s g =>
    if keyGrpEnable (s.keyGroup g).set then
      match Tbl.find x.keys g with
      | some (f, multi) => s.postSnapshot g multi f
      | none => s.postSnapshot g (s.keyGroup g).multi (s.keyGroup g).field
    else s)
  (s2.postAll 0x0C01 [roleCode x.role, 1, cause, x.port]).log 0x9010 [x.id, cause, b2n x.hbFailed, mirrorCode x.mirror]

/-- The take time (R336). -/
def PairSt.takeTime (x : PairSt) : Nat := if x.id = 1 ∧ !x.seenLow then 10000000 else 2000000

/-- ARB has read high for the take time, and a unit that handed over has waited its 100 ms (R336, R344). -/
def State.arbFree (s : State) : Bool :=
  s.pair.arbHigh && decide (s.pair.arbSince + s.pair.takeTime ≤ s.time.now) && decide (s.pair.holdOff ≤ s.time.now)

/-- `PAIR_PROMOTE` (R336): a unit that has not seen ARB low since its reset takes the role at its start. -/
def execPairPromote (dt : Nat) (s : State) : Host.Outcome State Fault Refusal :=
  let s1 := s.elapse dt
  if s1.mayDrive ∧ s1.arbFree then .next (s1.becomeActive (if s1.pair.seenLow then 1 else 2)) else .next s1

/-- A unit that leaves safe state while ARB has been high for the take time is active at once (R336). -/
def State.promoteAfterSafe (s : State) : State := if s.mayDrive ∧ s.arbFree then s.becomeActive 4 else s

/-- ARB was low until now for longer than its rise time: another unit held it, where this one does not drive it (R335, R336). -/
def PairSt.heldLow (x : PairSt) (now : Nat) : Bool := !x.arbHigh && !x.driveLow && decide (x.arbSince + 10000 < now)

/-- The releases of t_pr_pulse in the last 4 ms, with the one that ends now if it is one (R345, Table 15-2). -/
def PairSt.pulsesTo (x : PairSt) (now : Nat) : List Nat :=
  x.arbPulses.filter (fun t => decide (now ≤ t + 4000000))
    ++ (if x.arbHigh ∧ x.arbSince + 450000 ≤ now ∧ now ≤ x.arbSince + 550000 then [x.arbSince] else [])

/-- `ARB_LEVEL_CHANGE` (R336): the continuous-high time starts or ends. A unit without pairing only reads the level (R334). -/
def execArbLevelChange (dt : Nat) (high : Bool) (s : State) : Host.Outcome State Fault Refusal :=
  let s1 := s.elapse dt
  let x := s1.pair
  let now := s1.time.now
  if x.arbHigh = high then .next s1
  else .next { s1 with pair := { x with
    arbHigh := high, arbSince := now, seenLow := x.seenLow || (x.enabled && (!high || x.heldLow now)), arbPulses := x.pulsesTo now } }

/-! ## The manual switch (R344) -/

/-- End a switch with DENIED. -/
def State.failSwitch (s : State) (w : Switch) (cause : Nat) : State :=
  ({ s with pair := { s.pair with switch := none } }.log 0x9041 [w32 w.tf, cause, 0, 0]).release w.port 0x0C03 w.tag
    stDenied Bytes.none

/-- The twin's answer to a hand-over (Table 15-3). -/
def State.handoverResult (s : State) (mseq : Nat) : Nat :=
  if s.pair.role ≠ .standby ∨ s.pair.mirror ≠ .inStep ∨ s.pair.mseq ≠ mseq then 1 else if s.inSafe then 2 else 0

/-- A message of the twin can arrive: the twin port's lane is `UP` and the unit is paired. -/
def State.twinTalks (s : State) : Bool := s.tellerUp && s.pair.enabled && s.peerUp s.pair.port

/-- `PAIR_HANDOVER` (R344): the twin answers ready or not. -/
def execPairHandover (dt tf mirrorSeq : Nat) (s : State) : Host.Outcome State Fault Refusal :=
  let s1 := s.elapse dt
  if !s1.twinTalks then .next s1
  else
    let res := s1.handoverResult (w32 mirrorSeq)
    let s2 := if res = 0 then { s1 with pair := { s1.pair with takeAt := some (w64 tf) } } else s1
    .next (s2.sendPeer s2.pair.port 0x0029 (Bytes.join [leBytes 8 tf, leBytes 1 res]))

/-- `PAIR_HANDOVER_ACK` (R344): a result other than ready ends the switch. -/
def execPairHandoverAck (dt tf result : Nat) (s : State) : Host.Outcome State Fault Refusal :=
  let s1 := s.elapse dt
  match s1.pair.switch with
  | some w =>
    if !s1.twinTalks ∨ w.ready ∨ w.tf ≠ tf then .next s1
    else if result = 0 then .next { s1 with pair := { s1.pair with switch := some { w with ready := true } } }
    else .next (s1.failSwitch w 1)
  | none => .next s1

/-- `PAIR_HANDOVER_TIMEOUT` (R344): 2 ms without an answer. -/
def execPairHandoverTimeout (dt : Nat) (s : State) : Host.Outcome State Fault Refusal :=
  let s1 := s.elapse dt
  match s1.pair.switch with
  | some w =>
    if s1.tellerUp ∧ !w.ready ∧ w.startedAt + 2000000 ≤ s1.time.now then .next (s1.failSwitch w 2) else .next s1
  | none => .next s1

/-- `PAIR_HANDOVER_RELEASE` (R344): at T_f − 200 µs. The heads are held from their next frame; ARB is not taken under R336
for 100 ms. -/
def execPairHandoverRelease (dt : Nat) (s : State) : Host.Outcome State Fault Refusal :=
  let s1 := s.elapse dt
  match s1.pair.switch with
  | some w =>
    if s1.tellerUp ∧ w.ready ∧ !w.released ∧ s1.pair.role = .active ∧ w.tf ≤ s1.time.room + 200000 then
      let s2 := s1.yieldRole
      .next { s2 with pair := { s2.pair with
        switch := some { w with released := true }, holdOff := s2.time.now + 100000000 } }
    else .next s1
  | none => .next s1

/-- `PAIR_HANDOVER_TAKE` (R344): at T_f − 100 µs the twin takes ARB if it reads high, and otherwise follows R336. -/
def execPairHandoverTake (dt : Nat) (s : State) : Host.Outcome State Fault Refusal :=
  let s1 := s.elapse dt
  match s1.pair.takeAt with
  | some tf =>
    if s1.time.room + 100000 < tf then .next s1
    else if s1.mayDrive ∧ s1.pair.arbHigh then .next (s1.becomeActive 3)
    else .next { s1 with pair := { s1.pair with takeAt := none } }
  | none => .next s1

/-- `PAIR_SWITCH_CONFIRM_EXPIRY` (R344): at T_f + 100 ms. -/
def execPairSwitchConfirmExpiry (dt : Nat) (s : State) : Host.Outcome State Fault Refusal :=
  let s1 := s.elapse dt
  match s1.pair.switch with
  | some w =>
    if s1.tellerUp ∧ w.ready ∧ w.tf + 100000000 ≤ s1.time.room then .next (s1.failSwitch w 3) else .next s1
  | none => .next s1

/-- `PAIR_RESET_SEND` (R345): the twin has not been in step for 10 s while its heartbeat holds. -/
def execPairResetSend (dt : Nat) (s : State) : Host.Outcome State Fault Refusal :=
  let s1 := s.elapse dt
  let x := s1.pair
  let since := max x.mirrorSince (x.pulsesAt.getD 0)
  if s1.tellerUp ∧ x.enabled ∧ x.role = .active ∧ x.hbLast.isSome ∧ !x.hbFailed ∧ x.mirror ≠ .inStep
      ∧ since + 10000000000 ≤ s1.time.now then
    let s2 := each (upTo 3) { s1 with pair := { x with pulsesAt := some s1.time.now } } (fun s _ => s.send .arbPulse)
    .next (s2.log 0x9050 [x.port, mirrorCode x.mirror, (s1.time.now - x.mirrorSince) / 1000000, 0])
  else .next s1

/-! ## Mirroring on the standby (R340 to R343) -/

/-- The standby receives from its twin. -/
def State.mirrorHere (s : State) : Bool := s.twinTalks && decide (s.pair.role = .standby)

/-- Take a message of a mirror sequence (R342): the next one is applied; one already applied is passed over; a missing one
makes the standby catch up. Until it is in step only its snapshot counts. -/
def State.mirrorNext (s : State) (n : Nat) (f : State → State) : State :=
  if !s.mirrorHere ∨ s.pair.mirror ≠ .inStep then s
  else if n = w32 (s.pair.mseq + 1) then f { s with pair := { s.pair with mseq := n } }
  else if subMod 32 s.pair.mseq n < 2 ^ 31 then s
  else s.catchUp

/-- The message belongs to the snapshot being received. -/
def State.inSnapshot (s : State) (n : Nat) : Bool :=
  s.mirrorHere && decide (s.pair.mirror = .catchingUp)
    && (match s.pair.snapshot with | some x => decide (x.mseq = n) | none => false)

/-- Items of a mirror message. -/
def mirrorItemsOf (k : SetKind) (count : Nat) (b : Bytes) : List Nat :=
  (upTo count).map (fun i => Bytes.at b (i * kindSize k) (kindSize k))

/-- The item range of a message exists. -/
def itemsExist (k : SetKind) (first count : Nat) (b : Bytes) : Bool :=
  decide (0 < count) && decide (first + count ≤ kindLast k + 1) && decide (b.len = count * kindSize k)

/-- `MIRROR_WRITE` (R341, R343): the messages of one write are applied together at the last. -/
def execMirrorWrite (dt : Nat) (kind : SetKind) (first count mseq : Nat) (more : Bool) (items : Bytes) (s : State) :
    Host.Outcome State Fault Refusal :=
  let s1 := s.elapse dt
  if !itemsExist kind first count items then .next s1
  else
    .next (s1.mirrorNext (w32 mseq) (fun s =>
      let new : List HeldWrite := ((upTo count).zip (mirrorItemsOf kind count items)).map (fun e => ⟨kind, first + e.1, e.2⟩)
      let all := s.pair.parts ++ new
      if more then { s with pair := { s.pair with parts := all } }
      else each all { s with pair := { s.pair with parts := [] } } (fun s w => s.mirrorTake (.write w.kind w.index [w.value]))))

/-- `MIRROR_SETTLE` (R341). -/
def execMirrorSettle (dt commitSeq : Nat) (group : Fin 16) (swap : Bool) (mseq _frameTime : Nat) (s : State) :
    Host.Outcome State Fault Refusal :=
  .next ((s.elapse dt).mirrorNext (w32 mseq) (fun s => s.mirrorTake (.settle (w32 commitSeq) group swap)))

/-- A mirrored key group setting; one the standby rejects stops mirroring (R346). -/
def State.mirrorKeyGroup (s : State) (g : Nat) (b : Bytes) : State :=
  match keyCheck (b.bits 896) with
  | some st => s.mirrorReject 0 ⟨st, Config.measured s.draw, g, 0⟩
  | none => s.acceptKeys g b.val

/-- `MIRROR_SETTING` (R340, Table 15-3). -/
def execMirrorSetting (dt item index mseq : Nat) (payload : Bytes) (s : State) : Host.Outcome State Fault Refusal :=
  let s1 := s.elapse dt
  let n := w32 mseq
  let group := groupKept (Bytes.at payload 0 16)
  if item = 0 ∧ index < 16 then
    .next (if s1.inSnapshot n then s1.setGroup index group else s1.mirrorNext n (fun s => s.mirrorTake (.group index group)))
  else if item = 1 ∧ index < 8 then
    .next (if s1.inSnapshot n then s1.mirrorKeyGroup index payload
      else s1.mirrorNext n (fun s => s.mirrorKeyGroup index payload))
  else if item = 2 then .next (s1.mirrorNext n (fun s => s.mirrorTake .copy))
  else .next s1

/-- `MIRROR_KEYS` (R340). -/
def execMirrorKeys (dt : Nat) (g : Fin 8) (multi : Bool) (mseq : Nat) (field : BitVec 128) (s : State) :
    Host.Outcome State Fault Refusal :=
  let s1 := s.elapse dt
  let put (s : State) : State := { s with pair := { s.pair with keys := Tbl.put s.pair.keys g (field, multi) } }
  .next (if s1.inSnapshot (w32 mseq) then put s1 else s1.mirrorNext (w32 mseq) put)

/-- A mirrored record is written as the receiver's own, with `MIRRORED` (R341). -/
def State.logMirrored (s : State) (b : BitVec 256) : State :=
  let x := LedgerRec.ofBits b
  let s1 := s.ledgerStart
  (s1.putRecord { s1.makeRecord 3 s.pair.port x.code [x.p0, x.p1, x.p2, x.p3] with mirrored := true }).anchor

/-- `MIRROR_LEDGER` (R341): both units receive it. -/
def execMirrorLedger (dt : Nat) (recs : List (BitVec 256)) (s : State) : Host.Outcome State Fault Refusal :=
  let s1 := s.elapse dt
  if s1.twinTalks then .next (each (recs.take 8) s1 State.logMirrored) else .next s1

/-! ## Catching up (R342) -/

/-- All items of a set in `SET_READ` kind and index order. -/
def ConfigSet.items (c : ConfigSet) (k : SetKind) : List Nat := (upTo (kindLast k + 1)).map (c.read k)

def allKinds : List SetKind := [.source, .layer, .tone, .output, .fresh]

/-- The bytes the CRC of `MIRROR_SNAPSHOT_END` covers: the active set, then the shadow set. -/
def snapshotBytes (a b : ConfigSet) : Bytes :=
  Bytes.join ([a, b].flatMap (fun c => allKinds.flatMap (fun k => (c.items k).map (leBytes (kindSize k)))))

/-- Send every item of a kind of a set. -/
def State.sendItems (s : State) (set n : Nat) (c : ConfigSet) (k : SetKind) : State :=
  let per := (4096 - 12) / kindSize k
  let parts := chunks per (kindLast k + 1) (c.items k)
  each ((upTo parts.length).zip parts) s (fun s e =>
    s.sendPeer s.pair.port 0x0026 (mirrorItems set (kindCode k) (e.1 * per) (kindSize k) e.2 n))

/-- Send the snapshot: both sets, the commit groups, the key group settings and the key states, and its end. -/
def State.sendSnapshot (s : State) : State :=
  let n := s.pair.mseq
  let pp := s.pair.port
  let s1 := each allKinds s (fun s k => s.sendItems 0 n s.sets.active k)
  let s2 := each allKinds s1 (fun s k => s.sendItems 1 n s.sets.shadow k)
  let s3 := each (upTo 16) s2 (fun s g => s.sendPeer pp 0x0022
    (Bytes.join [leBytes 1 0, leBytes 1 g, leBytes 2 0, leBytes 4 n, bytesOf (s.group g)]))
  let s4 := each (upTo 8) s3 (fun s g =>
    let x := s.keyGroup g
    let s1 := s.sendPeer pp 0x0022
      (Bytes.join [leBytes 1 1, leBytes 1 g, leBytes 2 0, leBytes 4 n, bytesOf (x.nextSetting.getD x.set)])
    s1.sendPeer pp 0x0023
      (Bytes.join [leBytes 1 g, leBytes 1 (b2n x.multi), leBytes 2 0, leBytes 4 n, leBytes 16 x.field.toNat]))
  s4.sendPeer pp 0x0027 (wordsLE [n, crc32 (snapshotBytes s.sets.active s.sets.shadow)])

/-- `MIRROR_SYNC_REQ` (R342): the active unit answers with a snapshot. -/
def execMirrorSyncReq (dt _last : Nat) (s : State) : Host.Outcome State Fault Refusal :=
  let s1 := s.elapse dt
  if s1.twinTalks ∧ s1.pair.role = .active ∧ !s1.pair.incompatible then .next (s1.setMirror .catchingUp).sendSnapshot
  else .next s1

/-- `MIRROR_SNAPSHOT` (R342): items of either set; a new mirror sequence begins a new snapshot. -/
def execMirrorSnapshot (dt : Nat) (shadow : Bool) (kind : SetKind) (first count mseq : Nat) (items : Bytes) (s : State) :
    Host.Outcome State Fault Refusal :=
  let s1 := s.elapse dt
  if !s1.mirrorHere ∨ s1.pair.mirror ≠ .catchingUp ∨ !itemsExist kind first count items then .next s1
  else
    let x : Snapshot := match s1.pair.snapshot with
      | some x => if x.mseq = w32 mseq then x else { mseq := w32 mseq }
      | none => { mseq := w32 mseq }
    let put (c : ConfigSet) : ConfigSet :=
      each ((upTo count).zip (mirrorItemsOf kind count items)) c (fun c e => c.write kind (first + e.1) e.2)
    let y : Snapshot := if shadow then { x with shadow := put x.shadow } else { x with active := put x.active }
    .next { s1 with pair := { s1.pair with snapshot := some y } }

/-- Take the sets of a snapshot: an active set that differs is cleared, staged and settled as a mirrored settlement is, and
the shadow set follows it. A commit still pending is withdrawn. -/
def State.adopt (s : State) (x : Snapshot) : State :=
  let s1 := match s.sets.pending with
    | some c => (s.endCommit c .withdrawn).deferResponse c
    | none => s
  if x.active = s1.sets.active then { s1 with sets := { s1.sets with shadow := x.shadow } }
  else
    let s2 := { s1 with sets := { s1.sets with shadow := x.active } }.mirrorClear s1.sets.seq 0 false
    s2.mirrorTake (.shadow x.shadow)

/-- `MIRROR_SNAPSHOT_END` (R342): in step when the CRC matches; otherwise the catch-up starts again. -/
def execMirrorSnapshotEnd (dt mseq : Nat) (crc : Word) (s : State) : Host.Outcome State Fault Refusal :=
  let s1 := s.elapse dt
  if !s1.mirrorHere ∨ s1.pair.mirror ≠ .catchingUp then .next s1
  else
    match s1.pair.snapshot with
    | some x =>
      if x.mseq = w32 mseq ∧ crc32 (snapshotBytes x.active x.shadow) = crc.toNat then
        .next (({ s1 with pair := { s1.pair with mseq := x.mseq } }.setMirror .inStep).adopt x)
      else .next { s1 with pair := { s1.pair with snapshot := none } }.requestSync
    | none => .next s1.requestSync

end Sys2Proof.Machine
end

