-- ==== Sys2Proof/Machine/Mem.lean ====
section
/-!
DEFINITION. The memory system (10_memory.md): policy and status, refresh, retraining, freezes and their recovery, repair,
self-refresh, training and the scrub of the on-chip SRAM.
-/
namespace Sys2Proof.Machine

/-! ## Shared -/

def State.setMem (s : State) (m : MemSt) : State := { s with mem := m }

/-- The hottest readout of a channel's ranks. -/
def ChanRun.readout (x : ChanRun) : Int :=
  match x.ranks with
  | [] => ({} : RankSt).temp
  | l => maxInt (l.map (·.2.temp))

/-- The effective window of the retraining interval, in ms (R247, R314). -/
def retrainWindow (m : BitVec 128) : Nat × Nat := (min (memRetrainLo m) 500, min (memRetrainHi m) 500)

/-- Bands of a fixed-delay table, lowest first: the lower bounds in °C (R248). -/
def delayBands (b : Bytes) : List Int := (upTo (b.len / 32)).map (fun i => signed 8 (Bytes.byte b (32 * i)))

/-- The band a readout lies in: below the lowest bound, the lowest. -/
def bandOf (bands : List Int) (t : Int) : Nat := countIf bands (fun b => decide (b ≤ t)) - 1

/-- The entry of the table a fixed-delay channel took at training that its readout asks for (R248): none for another channel. -/
def ChanRun.delayFor (x : ChanRun) : Option Bytes :=
  x.table.map (fun b => Bytes.slice b (32 * bandOf (delayBands b) x.readout) 32)

/-- Panic in ns up to now. -/
def State.panicNow (s : State) : Nat :=
  s.mem.panicNs + (match s.mem.panicFrom with | some t => s.time.now - t | none => 0)

/-- Repairs left in a bank group of a channel (R256). -/
def State.repairsIn (s : State) (c bg : Nat) : Nat := Config.repairs c bg - Tbl.get (s.chan c).repairsUsed 0 bg

/-! ## Messages (R260) -/

/-- One channel record of `MEM_STATUS_GET`. -/
def State.chanRecord (s : State) (c : Nat) : Bytes :=
  let x := s.chan c
  wordsLE [c, chanCode x.state, x.sizeMiB, x.rate, b2n x.compat + 2 * b2n x.fixed, twos 32 x.readout,
    if x.ranks.isEmpty ∨ x.ranks.any (fun e => e.2.doubled) then 2 else 1, x.corrections, x.uncorrectable, x.freezes,
    x.replays, x.pauses, sumOf ((upTo 16).map (s.repairsIn c)), w32 ((s.panicNow - x.panicRead) / 1000)]

/-- One region record. -/
def State.regionRecord (s : State) (i : Nat) : Bytes :=
  let (b, n) := (regionMap s.mem.regionWord s.mem.capacity).getD i (0, 0)
  wordsLE [i, w32 b, hi32 b, w32 n, hi32 n]

/-- `MEM_STATUS_GET` (R260): reading a channel's panic time begins it anew. -/
def execMemStatusGet (dt : Nat) (p : Fin 4) (s : State) : Host.Outcome State Fault Refusal :=
  .next (s.serve dt p 0x0E01 (fun s r =>
    let view := r.u8 0
    let cut := if view = 0 then cutList (r.u16 2) (r.u16 4) 8 56 r.room else cutList (r.u16 2) (r.u16 4) 6 20 r.room
    match cut with
    | none => s.status p r stNotSupported
    | some l =>
      if 1 < view then s.status p r stNotSupported
      else if view = 1 then s.answer p r stOk (listPayload (l.map s.regionRecord))
      else
        (each l s (fun s c => s.setChan c { s.chan c with panicRead := s.panicNow })).answer p r stOk
          (listPayload (l.map s.chanRecord))))

/-- The status of a policy that cannot be taken. -/
def State.policyCheck (s : State) (m : BitVec 128) : Option Nat :=
  let w := memRegionWord m
  if memRetrainLo m = 0 ∨ memRetrainHi m = 0 ∨ memCeLimit m = 0 ∨ bitsOf w.toNat 7 0 = 0 ∨ bitsOf w.toNat 15 8 = 0 then
    some stZeroField
  else if memRetrainHi m < memRetrainLo m ∨ memRefreshHi m < memRefreshLo m
      ∨ memRefreshLo m = 0 ∨ 2 < memRefreshLo m ∨ 2 < memRefreshHi m
      ∨ 2 < (maskBits 8 (memFixed m)).length ∨ (maskBits 8 (memFixed m)).any (fun c => decide ((s.chan c).state = .absent))
      ∨ s.mem.capacity < sumOf (regionSizes w) + gib then some stNotSupported
  else none

/-! ## Adaptive loops of memory (R246, R247, R314) -/

/-- What a readout makes of a rank (R246): doubling above 85 °C until 1 s at or below 82 °C, within the envelope; a pin at 1×
holds up to 85 °C. -/
def RankSt.read' (k : RankSt) (pol : BitVec 128) (t : Int) (now : Nat) : RankSt :=
  let since := if t ≤ 82 then some (k.coolSince.getD now) else none
  let cool : Bool := match since with | some n => decide (n + 1000000000 ≤ now) | none => false
  let hot : Bool := decide (85 < t) || (k.hot && !cool)
  let doubled : Bool := memRefreshLo pol == 2 || (if memRefreshHi pol = 1 then decide (85 < t) else hot)
  { k with temp := t, read := true, hot := hot, coolSince := since, doubled := doubled }

/-- A rank is held at 2× against a pin at 1× (R246). -/
def State.refreshHeld (s : State) : Bool :=
  memRefreshHi s.mem.pol == 1 && (upTo 8).any (fun c => (s.chan c).ranks.any (fun e => e.2.read && decide (85 < e.2.temp)))

/-- The channel is refreshed by its controller: it is in use or frozen. -/
def ChanRun.alive (x : ChanRun) : Bool := decide (x.state = .run ∨ x.state = .frozen)

/-- The policy in force acts on a rank at a temperature (R246, R314): its rate, with the record of a change, and the report of an
override. -/
def State.refreshActs (s : State) (c rank : Nat) (temp : Int) : State :=
  let x := s.chan c
  let k : RankSt := Tbl.get x.ranks {} rank
  let k1 := k.read' s.mem.pol temp s.time.now
  let s1 := s.setChan c { x with ranks := Tbl.put x.ranks rank k1 }
  let s2 := if k1.doubled ≠ k.doubled then
      s1.log 0x6030 [c + rank <<< 8, if k1.doubled then 2 else 1, twos 32 temp, 0]
    else s1
  if memRefreshHi s2.mem.pol = 1 ∧ 85 < temp then s2.overridden 2 (c + rank <<< 3) (memRefreshLo s2.mem.pol) 1 2
  else if s2.refreshHeld then s2 else s2.setOverride 2 false

/-- The report of a retraining interval above the fuse bound, by a channel (R247, R314). -/
def State.retrainHeld (s : State) (c : Nat) : State :=
  if 500 < memRetrainHi s.mem.pol then s.overridden 3 c (memRetrainLo s.mem.pol) (memRetrainHi s.mem.pol) 500
  else s.setOverride 3 false

/-- Words 0 and 1 of a policy act when accepted (R260, R314): on the refresh rate of every rank read, and on the interval of every
channel that retrains. -/
def State.policyActs (s : State) : State :=
  let (lo, hi) := retrainWindow s.mem.pol
  each ((upTo 8).filter (fun c => (s.chan c).alive)) s (fun s c =>
    let s1 := each (((s.chan c).ranks.filter (·.2.read)).map (·.1)) s (fun s r =>
      s.refreshActs c r (Tbl.get (s.chan c).ranks {} r).temp)
    let x := s1.chan c
    if x.fixed then s1 else (s1.setChan c { x with interval := max lo (min hi x.interval) }).retrainHeld c)

/-- `MEM_POLICY_SET` (R260). -/
def execMemPolicySet (dt : Nat) (p : Fin 4) (s : State) : Host.Outcome State Fault Refusal :=
  .next (s.serve dt p 0x0E02 (fun s r =>
    let v := Bytes.at r.payload 0 16
    let m : BitVec 128 := BitVec.ofNat 128 (v - (v &&& sumOf [wordMask 1 15 12, wordMask 1 7 4, wordMask 3 31 16]))
    match s.policyCheck m with
    | some st => s.status p r st
    | none =>
      -- Word 2 in force until the next reset stays as it is.
      { s with mem := { s.mem with policy := some m, regions := some s.mem.regionWord } }.policyActs.status p r stOk))

/-- The bounds of a list of bands rise. -/
def rising : List Int → Bool
  | a :: b :: r => decide (a < b) && rising (b :: r)
  | _ => true

/-- `MEM_FIXED_DELAYS_SET` (R248). -/
def execMemFixedDelaysSet (dt : Nat) (p : Fin 4) (s : State) : Host.Outcome State Fault Refusal :=
  .next (s.serveFlash dt p 0x0E03 (fun s r =>
    let n := r.u8 1
    let bounds := (upTo n).map (fun i => signed 8 (r.u8 (4 + 32 * i)))
    if 7 < r.u8 0 ∨ 16 < n then s.status p r stNotSupported
    else if r.length ≠ 4 + 32 * n then s.status p r stBadLength
    else if !rising bounds then s.status p r stNotSupported
    else s.beginFlash p r none))

/-- The table of a `MEM_FIXED_DELAYS_SET` has been written to flash: it acts at the channel's next training. -/
def State.storeDelays (s : State) (r : Request) : State :=
  let b := if r.u8 1 = 0 then none else some (Bytes.slice r.payload 4 (32 * r.u8 1))
  { s with mem := { s.mem with delays := Tbl.opt s.mem.delays (r.u8 0) b } }

/-- An entry of a capture buffer. -/
def CaptureEntry.bytes (e : CaptureEntry) : Bytes :=
  Bytes.join [leBytes 1 e.cmd, leBytes 1 e.rank, leBytes 1 e.bankGroup, leBytes 1 e.bank, leBytes 4 e.row,
    leBytes 1 e.master, leBytes 1 e.cls, leBytes 2 0, leBytes 4 e.clock]

/-- `MEM_FREEZE_DUMP_GET` (R253): at most 14 entries. -/
def execMemFreezeDumpGet (dt : Nat) (p : Fin 4) (s : State) : Host.Outcome State Fault Refusal :=
  .next (s.serve dt p 0x0E04 (fun s r =>
    let c := r.u8 0
    let x := s.chan c
    let held := x.capture.length
    if 7 < c ∨ (r.u8 1 ≠ 0 ∧ held ≤ r.u8 1) then s.status p r stNotSupported
    else
      let n := min (min (r.u8 2) 14) (min (held - r.u8 1) ((r.room - 4) / 16))
      let l := (x.capture.drop (r.u8 1)).take n
      s.answer p r stOk (Bytes.join ([leBytes 1 c, leBytes 1 (chanCode x.state), leBytes 1 held, leBytes 1 n]
        ++ l.map CaptureEntry.bytes))))

/-! ## Refresh, temperature and retraining (R244 to R248) -/

/-- The controller uses a rank of a channel (R240). -/
def ChanRun.uses (x : ChanRun) (rank : Nat) : Bool := x.alive && (rank == 0 || x.twoRanks)

/-- `REFRESH_DUE` (R244, R245): postponed in panic up to four intervals; a refresh that is issued is a refresh boundary, at
which a change of mode and of the delay band take effect (R248, R255). -/
def execRefreshDue (dt : Nat) (c : Fin 8) (rank : Fin 2) (s : State) : Host.Outcome State Fault Refusal :=
  let s1 := (s.elapse dt).lookPushes
  let x := s1.chan c
  let k : RankSt := Tbl.get x.ranks {} rank
  if !s1.windowUp ∨ !x.uses rank then .next s1
  else if s1.mem.panicFrom.isSome ∧ k.postponed < 4 then
    .next (s1.setChan c { x with ranks := Tbl.put x.ranks rank { k with postponed := k.postponed + 1 } })
  else
    let k1 : RankSt := { k with postponed := if s1.mem.panicFrom.isSome then k.postponed else 0 }
    .next (s1.setChan c { x with
      ranks := Tbl.put x.ranks rank k1
      compat := if x.state = .frozen then x.compat else (memCompat s1.mem.pol).testBit c
      delay := x.delayFor })

/-- `MR4_READOUT` (R246, R247, R248). The controller reads on while debug halts Teller; the records are then written at the event
(log entry 58). -/
def execMr4Readout (dt : Nat) (c : Fin 8) (rank : Fin 2) (temp : Int) (s : State) : Host.Outcome State Fault Refusal :=
  let s1 := s.elapse dt
  let x := s1.chan c
  if !s1.windowUp ∨ !x.uses rank then .next s1
  else
    let moved : Bool := decide (2 * max 1 Config.readoutStep ≤ (temp - x.pauseTemp).natAbs)
    let s2 := (s1.setChan c { x with pauseDue := x.pauseDue || (moved && !x.fixed) }).refreshActs c rank temp
    let hotter (z : ChanRun) : Bool := z.ranks.any (fun e => e.2.read && decide (95 < e.2.temp))
    let y := s2.chan c
    .next (if hotter y ∧ !hotter x then s2.raised 0x022 c else if !hotter y ∧ hotter x then s2.cleared 0x022 c else s2)

/-- `RETRAIN_PAUSE` (R244, R245, R247): deferred in panic up to the fuse bound of 500 ms. The interval to the next adapts to
a measured drift. -/
def execRetrainPause (dt : Nat) (c : Fin 8) (s : State) : Host.Outcome State Fault Refusal :=
  let s1 := (s.elapse dt).lookPushes
  let x := s1.chan c
  let due : Bool := x.pauseDue || decide (x.lastPause + x.interval * 1000000 ≤ s1.time.now)
  if !s1.windowUp ∨ x.state ≠ .run ∨ x.fixed ∨ !due then .next s1
  else if s1.mem.panicFrom.isSome ∧ s1.time.now < x.lastPause + 500000000 then
    .next (s1.setChan c { x with pauseDue := true })
  else
    let (lo, hi) := retrainWindow s1.mem.pol
    let s2 := s1.setChan c { x with
      pauses := w32 (x.pauses + 1), lastPause := s1.time.now, pauseTemp := x.readout, pauseDue := false
      interval := lo + Config.measured s1.draw % (hi - lo + 1) }
    .next (s2.retrainHeld c)

/-- Age promotion (R243): of an ISO request older than 2 µs to RT, of a BE request older than 20 µs to ISO. -/
def promoteReq (r : MemReq) : MemReq :=
  { r with promoted := r.promoted || match r.master.cls with
    | .rt => false
    | .iso => decide (2000 < r.age)
    | .be => decide (20000 < r.age) }

/-- Place of a request in service (R243, R244): RT, then in panic what was promoted to RT, ISO, BE. -/
def reqRank (panic : Bool) (r : MemReq) : Nat :=
  match r.master.cls, r.promoted with
  | .rt, _ => 0
  | .iso, true => if panic then 1 else 0
  | .iso, false | .be, true => 2
  | .be, false => 3

/-- An older request of the same master to the same line goes first (R243). -/
def reqFollows (l : List MemReq) (r : MemReq) : Bool :=
  l.any (fun q => q.master == r.master && q.line == r.line && decide (r.age < q.age))

/-- The oldest of a list of requests. -/
def oldestReq : List MemReq → Option MemReq
  | [] => none
  | r :: l => some (l.foldl (fun a b => if a.age < b.age then b else a) r)

/-- The request served next (R243): the oldest of the first class, or one that hits an open row ahead of it, where none of those it
passes has been passed by 8. Which of the two, where both may be, is free (log entry 3). -/
def nextReq (draw c : Nat) (panic : Bool) (l : List MemReq) : Option MemReq :=
  let ready := l.filter (fun r => !reqFollows l r)
  let best := (ready.map (reqRank panic)).foldl min 3
  let first := ready.filter (fun r => reqRank panic r == best)
  let older (y : MemReq) : List MemReq := l.filter (fun q => reqRank panic q == best && decide (y.age < q.age))
  let hit := first.find? (fun y => y.rowHit && older y != [] && (older y).all (fun q => decide (q.passed < 8)))
  match hit with
  | some y => if Config.bypass draw c l.length then some y else oldestReq first
  | none => oldestReq first

/-- What is left of a list of requests when one is served. -/
def servedReq (panic : Bool) (y : MemReq) (l : List MemReq) : List MemReq :=
  (l.erase y).map (fun q => if reqRank panic q = reqRank panic y ∧ y.age < q.age then { q with passed := q.passed + 1 } else q)

/-- The order in which a channel serves the requests that wait (R243), with as many steps as there are requests. -/
def serviceOrder (draw c : Nat) (panic : Bool) : Nat → List MemReq → List MemReq
  | 0, _ => []
  | n + 1, l =>
    match nextReq draw c panic l with
    | some y => y :: serviceOrder draw c panic n (servedReq panic y l)
    | none => []

/-- `REQUEST_PROMOTION` (R243, R244): the requests that wait at a channel are promoted once by age, though not in panic, and put in
their order of service. -/
def execRequestPromotion (dt : Nat) (c : Fin 8) (reqs : List MemReq) (s : State) : Host.Outcome State Fault Refusal :=
  let s1 := (s.elapse dt).lookPushes
  let s2 := if s1.windowUp && reqs != [] then s1.dramRequest else s1
  let x := s2.chan c
  let panic := s2.mem.panicFrom.isSome
  if s2.windowUp ∧ x.state = .run then
    let l := if panic then reqs else reqs.map promoteReq
    .next (s2.setChan c { x with queue := serviceOrder s2.draw c panic l.length l })
  else .next s2

/-! ## Freezes (R251 to R255) -/

/-- Entry `i` of a capture: what commands were issued is free. -/
def captureEntry (draw i : Nat) : CaptureEntry :=
  let v := Config.captured draw i
  { cmd := bitsOf v 7 0, rank := bitsOf v 8 8, bankGroup := bitsOf v 11 9, bank := bitsOf v 13 12, row := bitsOf v 45 14
    master := bitsOf v 53 46, cls := bitsOf v 55 54, clock := bitsOf v 87 56 }

/-- Times of freezes within 10 minutes. -/
def ChanRun.recentFreezes (x : ChanRun) (now : Nat) : List Nat :=
  x.freezeTimes.filter (fun t => decide (now < t + 600000000000))

/-- The channel freezes (R252): pending requests are error-completed, the last 64 commands are captured. -/
def State.freeze (s : State) (c cause addr : Nat) : State :=
  let x := s.chan c
  let times := x.recentFreezes s.time.now ++ [s.time.now]
  let s1 := s.setChan c { x with
    state := .frozen, freezes := w32 (x.freezes + 1), freezeTimes := times, frozenAt := s.time.now, queue := []
    uncorrectable := if cause = 1 then w32 (x.uncorrectable + 1) else x.uncorrectable
    capture := (upTo 64).map (captureEntry s.draw) }
  (s1.raised 0x020 c).log 0x6020 [c, cause, addr / 4096, times.length]

/-- What the error completion of a request makes its master do (R252): a tile that scan-out cannot read voids as FAULT until it is
recomposed; one that composition read for is not published, and stays marked; the stream of a decoder stops with REF_READ; a source
frame is discarded; a held packet is lost, which the spec leaves open which; a capture is dropped; a read of a host completes with
Completer Abort, and a write is dropped and counted. -/
def State.memOutcome (s : State) (c : Nat) : Requester → State
  | .scanOut o t =>
    if o < 32 ∧ s.sets.active.shows o ∧ t < outTiles o (s.outSet o) then
      (s.setTile o t { s.tile o t with fault := true }).mark o [t]
    else s
  | .composition o t =>
    if o < 32 ∧ s.sets.active.shows o ∧ t < outTiles o (s.outSet o) then
      let x := s.outComp o
      (s.setOutComp o { x with round := x.round.map (fun r =>
        { r with tiles := r.tiles.filter (· != t), recs := r.recs.filter (·.1 != t) }) }).mark o [t]
    else s
  | .decoder i =>
    let x := s.decRun i
    if x.state = .running ∨ x.state = .recovering then
      let poc := Config.stopPoc s.draw i
      s.damage i 0x2018 poc [twos 32 poc, c, (s.srcRun i).lastRtpSeq] x.queue.length
    else s
  | .jitter i => let x := s.srcRun i; s.setSrc i { x with packets := x.packets.drop 1 }
  | .kinik l => s.discardKinik l
  | .encoder j =>
    let x := s.encRun j
    if x.ring.all (·.done) then s
    else (s.setEncRun j { x with ring := x.ring.filter (·.done) }).dropCapture j (encInput (s.encJob j))
  | .hostRead p => s.send (.readData p 0 true)
  | .hostWrite p => s.discardWrite p
  | .other _ => s

/-- An uncorrectable error of a channel in compatibility mode (R255): the request that met it alone is error-completed. -/
def State.memUe (s : State) (c addr : Nat) (asker : Requester) : State :=
  let x := s.chan c
  let m := asker.master
  (((s.setChan c { x with uncorrectable := w32 (x.uncorrectable + 1) }).happened 0x021 c).log 0x6011
    [c, addr / 4096, w32 (Config.masterCode m), w32 (Config.classCode m.cls)]).memOutcome c asker

/-- An uncorrectable error of a channel in native mode (R252): it freezes, and the request that met it is error-completed with all
others. Of scan-out the tiles that lie in a frozen channel void while it is frozen. -/
def State.freezeBy (s : State) (c addr : Nat) (asker : Requester) : State :=
  let s1 := s.freeze c 1 addr
  match asker with
  | .scanOut _ _ => s1
  | _ => s1.memOutcome c asker

/-- A parity alert of a channel in compatibility mode (R255): replayed; the fourth during one replay freezes. -/
def State.memReplay (s : State) (c alerts : Nat) : State :=
  if 4 ≤ alerts then s.freeze c 3 0
  else
    let x := s.chan c
    (s.setChan c { x with replays := w32 (x.replays + 1) }).logLimited 0x6023 c tenSeconds 1 0 (fun n _ => [c, n, 0, 0])

def freezeCode : FreezeCause → Nat | .uncorrectable => 1 | .parity => 2 | .replayExhausted => 3

/-- `MEM_FREEZE` (R252): a channel in compatibility mode handles the error under R255 instead. -/
def execMemFreeze (dt : Nat) (c : Fin 8) (cause : FreezeCause) (req : FailedReq) (s : State) :
    Host.Outcome State Fault Refusal :=
  let s1 := s.elapse dt
  let x := s1.chan c
  if !s1.windowUp ∨ x.state ≠ .run then .next s1
  else if x.compat then
    match cause with
    | .uncorrectable => .next (s1.memUe c req.addr req.asker)
    | .parity => .next (s1.memReplay c 1)
    | .replayExhausted => .next (s1.freeze c 3 req.addr)
  else
    match cause with
    | .uncorrectable => .next (s1.freezeBy c req.addr req.asker)
    | .parity => .next (s1.freeze c (freezeCode cause) req.addr)
    | .replayExhausted => .next s1

/-- `MEM_PARITY_REPLAY` (R255): of a channel in compatibility mode, with the alerts of the replay so far. -/
def execMemParityReplay (dt : Nat) (c : Fin 8) (alerts : Nat) (s : State) : Host.Outcome State Fault Refusal :=
  let s1 := s.elapse dt
  let x := s1.chan c
  if s1.windowUp ∧ x.state = .run ∧ x.compat then .next (s1.memReplay c alerts) else .next s1

/-- A channel is retired in service (R253): it stays frozen until the remap; the codes of the cause are not stated. -/
def State.retireChannel (s : State) (c : Nat) : State :=
  ({ s with mem := { s.mem with remapDue := some c } }.log 0x6022
    [c, w32 (Config.measured s.draw), s.mem.inService.length - 1, 0]).raised 0x023 c

/-- Write zero to a line (R253). -/
def Memory.zeroLine (m : List Host.Cell) (a : Nat) : List Host.Cell :=
  Memory.writeAll m ((upTo 64).map (fun i => a / 64 * 64 + i)) 0

/-- Write zero to lines of device memory (R253). -/
def State.zeroLines (s : State) (lines : List Nat) : State :=
  { s with mem := { s.mem with dram := lines.foldl Memory.zeroLine s.mem.dram } }

/-- `MEM_RESUME` (R253): the channel resumes, or is retired at a failed test, its third freeze in 10 minutes, or a row that
could not be repaired. -/
def execMemResume (dt : Nat) (c : Fin 8) (testOk : Bool) (linesZeroed : List Nat) (s : State) :
    Host.Outcome State Fault Refusal :=
  let s1 := s.elapse dt
  let x := s1.chan c
  if !s1.tellerUp ∨ x.state ≠ .frozen ∨ s1.mem.remapDue.isSome then .next s1
  else if !testOk ∨ 3 ≤ (x.recentFreezes s1.time.now).length ∨ x.repairShort then .next (s1.retireChannel c)
  else
    let lines := linesZeroed.filter (fun a => (s1.mem.locate a).map (·.1) == some c.val)
    let s2 := s1.setChan c { x with
      state := .run, compat := (memCompat s1.mem.pol).testBit c, lastPause := s1.time.now, pauseDue := false }
    .next (((s2.zeroLines lines).cleared 0x020 c).log 0x6021 [c, (s1.time.now - x.frozenAt) / 1000, lines.length, 0])

/-- DRAM content is lost (R254 step 3). -/
def State.dramLost (s : State) (c : Nat) : State :=
  let decoding := (s.src.dec.filter (fun e => decide (e.2.state = .running ∨ e.2.state = .recovering))).map (·.1)
  let s1 := each decoding s (fun s i =>
    s.damage i 0x2018 (Config.stopPoc s.draw i) [twos 32 (Config.stopPoc s.draw i), c, (s.srcRun i).lastRtpSeq]
      (s.decRun i).queue.length)
  let s2 := s1.withdraw (fun _ => true)
  { s2 with
    src := { s2.src with
      run := Tbl.mapAll s2.src.run {} (fun _ x => x.flushed)
      kinik := []
      surf := Tbl.mapAll s2.src.surf {} (fun _ x => { x with newest := none, fence := 0, inUse := 0 }) }
    enc := Tbl.mapAll s2.enc {} (fun _ x => { x with needIdr := true, ring := [], rowMints := [], carriedFrom := none })
    sec := { s2.sec with rewriting := [] }
    mem := { s2.mem with dram := [] } }

/-- The settings of the vault regions are applied again to a new map (R355): each keeps its place in the Teller region, which began at
`old` (DEDUCED, log entry 58). -/
def State.vaultsMoved (s : State) (old : Nat) : State :=
  { s with sec := { s.sec with vault := Tbl.mapAll s.sec.vault 0 (fun _ v => vaultMoved old s.mem.tellerBase v) } }

/-- Every tile of every output voids as FAULT until it is recomposed (R254 step 1). -/
def State.voidAllTiles (s : State) : State :=
  each ((upTo 32).filter s.sets.active.shows) s (fun s o =>
    let n := outTiles o (s.outSet o)
    (each (upTo n) s (fun s t => s.setTile o t { s.tile o t with fault := true })).markAll o)

/-- The sets of groups over a new map (R242, R361): Teller's own groups have their defaults; of a host's regions none
writes the reservation. -/
def State.remapMpu (s : State) : State :=
  let s1 := each [2, 4, 5, 6, 7, 8] s (fun s g => s.setMpu g { s.mpu g with
    regions := (s.defaultSets g).regions })
  each [0, 1] s1 (fun s g =>
    let m := s.mpu g
    s.setMpu g { m with regions := m.regions.filter (fun e => !s.mem.writesReservation e.2) })

/-- `MEM_REMAP` (R254). -/
def execMemRemap (dt : Nat) (c : Fin 8) (s : State) : Host.Outcome State Fault Refusal :=
  let s1 := s.elapse dt
  if !s1.tellerUp ∨ s1.mem.remapDue ≠ some c.val then .next s1
  else
    let s2 := s1.voidAllTiles
    let s3 := s2.setChan c { s2.chan c with state := .retired }
    let s4 := ((({ s3 with mem := { s3.mem with
      remapDue := none, laid := s3.mem.inService } }.cleared 0x020 c).dramLost c).vaultsMoved s2.mem.tellerBase).remapMpu
    let ps := [s4.mem.inService.length, s4.mem.capacity / 2 ^ 20, s4.mem.hostSize / 2 ^ 20, 0]
    .next ((s4.postAll 0x0E01 ps).log 0x6060 ps)

/-! ## Repair (R256) -/

/-- Key of a row of a channel. -/
def rowKey (rank bg bank row : Nat) : Nat := rank % 2 + 2 * (bg % 8 + 8 * (bank % 4 + 4 * row))

/-- Times of a channel's corrections within the last hour. -/
def ChanRun.hourTimes (x : ChanRun) (now : Nat) : List Nat :=
  x.corrTimes.filter (fun t => decide (now < t + 3600000000000))

/-- A correction in a row: the third within 24 h is repaired, or finds no repair left. -/
def State.corrected (s : State) (c rank bg bank row : Nat) : State :=
  let x := s.chan c
  let k := rowKey rank bg bank row
  let times := ((Tbl.get x.rowHits [] k).filter (fun t => decide (s.time.now < t + 86400000000000))) ++ [s.time.now]
  let y : ChanRun := { x with
    corrections := w32 (x.corrections + 1), corrTimes := x.hourTimes s.time.now ++ [s.time.now], rowHits := Tbl.put x.rowHits k times }
  let s1 := s.setChan c y
  if times.length < 3 then s1
  else
    let g := 8 * (rank % 2) + bg % 8
    if 0 < s1.repairsIn c g then
      let s2 := s1.setChan c { y with
        rowHits := Tbl.del y.rowHits k, repairsUsed := Tbl.upd y.repairsUsed 0 g (· + 1) }
      s2.log 0x6040 [c + rank <<< 8, bg + bank <<< 8, row, s2.repairsIn c g]
    else
      ((s1.setChan c { y with repairShort := true, rowHits := Tbl.del y.rowHits k }).log 0x6041
        [c, rank, bg + bank <<< 8, row]).raised 0x025 c

/-- An uncorrectable error found on a channel. -/
def State.uncorrectableAt (s : State) (c addr : Nat) : State :=
  if (s.chan c).state ≠ .run then s else if (s.chan c).compat then s.memUe c addr (.other .scrub) else s.freeze c 1 addr

/-- `PATROL_SCRUB` (R251, R252, R256). -/
def execPatrolScrub (dt : Nat) (c : Fin 8) (found : List ScrubFinding) (s : State) : Host.Outcome State Fault Refusal :=
  let s1 := s.elapse dt
  let s2 := if s1.windowUp then s1.dramRequest else s1
  if !s2.windowUp ∨ (s2.chan c).state ≠ .run then .next s2
  else .next (each found s2 (fun s f =>
    match f with
    | .corrected rank bg bank row | .met rank bg bank row => s.corrected c rank bg bank row
    | .uncorrectable addr => s.uncorrectableAt c addr))

/-- `CE_HOUR_CHECK` (R256): the corrections of an hour exceed the limit, recorded at most once in an hour. -/
def execCeHourCheck (dt : Nat) (c : Fin 8) (s : State) : Host.Outcome State Fault Refusal :=
  let s1 := s.elapse dt
  let x := s1.chan c
  let limit := memCeLimit s1.mem.pol
  let n := (x.hourTimes s1.time.now).length
  let spent := match x.ceAt with | some t => decide (s1.time.now < t + 3600000000000) | none => false
  if !s1.tellerUp ∨ n ≤ limit ∨ spent = true then .next s1
  else .next (((s1.setChan c { x with ceAt := some s1.time.now }).log 0x6010 [c, n, limit, 0]).happened 0x024 c)

/-! ## Self-refresh (R250) -/

/-- Latency tolerance of a panel in ns, none while it states no limit (R187). A push in progress tolerates less than
200 µs: its buffer holds 16 KiB. -/
def State.panelTolerates (s : State) (p : Nat) : Bool :=
  let x := s.panel p
  let d := s.sets.active.output (24 + p)
  if x.push.isSome then false
  else match x.lastTe with
    | some t =>
      if x.state = .running ∨ x.state = .dark then
        decide (s.time.now + 200000 < t + (panelTePeriod d * 950 - 20000))
      else true
    | none => true

/-- Every consumer tolerates more than 200 µs and no request has come for 10 µs. -/
def State.tolerant (s : State) : Bool :=
  (upTo 24).all (fun h => !s.scanning h) && (upTo 8).all s.panelTolerates && decide (s.mem.lastReq + 10000 ≤ s.time.now)

/-- `SELF_REFRESH_ENTRY` (R250). -/
def execSelfRefreshEntry (dt : Nat) (s : State) : Host.Outcome State Fault Refusal :=
  let s1 := s.elapse dt
  if s1.windowUp ∧ !s1.mem.selfRefresh ∧ s1.tolerant then .next (s1.sleepDram true) else .next s1

/-- `SELF_REFRESH_EXIT` (R250): not while a power state holds the memory domains off. -/
def execSelfRefreshExit (dt : Nat) (s : State) : Host.Outcome State Fault Refusal :=
  let s1 := s.elapse dt
  if s1.windowUp ∧ s1.mem.selfRefresh ∧ !s1.dramAsleep then .next s1.dramRequest else .next s1

/-! ## Training (R240, R249) -/

/-- Size of a channel in MiB by what it holds (R240): two ranks of 16 Gb devices are used as one. -/
def geometryMib (g : Geometry) : Nat := if g.ranks = 2 ∧ g.gbit = 16 then 8192 else g.ranks * g.gbit * 512

/-- One channel after training. A second rank carries data where the size trained to takes both; else it is kept in self-refresh and
never selected, which R240 says of two ranks of 16 Gb devices (log entry 58). -/
def State.trainChannel (s : State) (res : TrainingResult) (size c : Nat) : State :=
  let x := s.chan c
  let (lo, hi) := retrainWindow s.mem.pol
  let wants := (memFixed s.mem.pol).testBit c
  let has' := Tbl.has s.mem.delays c
  let g := res.geom.getD c ⟨0, 0⟩
  let both : Bool := g.ranks == 2 && g.gbit == 8 && size == 8192
  let table := if wants then Tbl.find s.mem.delays c else none
  if !res.populated.toNat.testBit c then s.setChan c { x with state := .absent, sizeMiB := 0 }
  else if !res.passed.toNat.testBit c then
    ((s.setChan c { x with state := .retired, sizeMiB := 0 }).log 0x6022
      [c, w32 (Config.measured s.draw), countIf (upTo 8) (fun i => res.passed.toNat.testBit i && res.populated.toNat.testBit i),
        0]).raised 0x023 c
  else
    let s1 := s.setChan c { x with
      state := .run, sizeMiB := size, rate := res.rate, compat := (memCompat s.mem.pol).testBit c
      twoRanks := both, idleRank := g.ranks == 2 && !both, ranks := if both then x.ranks else Tbl.del x.ranks 1
      fixed := wants && has', interval := (lo + hi) / 2, lastPause := s.time.now, pauseDue := false
      pauseTemp := x.readout, table := table, delay := { x with table := table }.delayFor }
    let s2 := if wants && !has' then s1.log 0x6002 [c, 0, 0, 0] else s1
    s2.cleared 0x023 c

/-- Sets that memory gives the groups at a start (R361, Table 17-4): hosts have theirs after POR and PIN. -/
def State.startMpu (s : State) : State :=
  let s1 := each [2, 4, 5, 6, 7, 8] s (fun s g => s.setMpu g (s.defaultSets g))
  each [0, 1] s1 (fun s g =>
    if 2 < s.power.resetKind ∨ Tbl.has s.sec.mpu g then s else s.setMpu g (s.defaultSets g))

/-- Device memory after training: its content, kept where the map is the one by which it was laid, or lost; the channels are out of
self-refresh. -/
def State.dramKept (s : State) (kept : Bool) : State :=
  { s with mem := { s.mem with
    selfRefresh := false, laid := s.mem.inService, dram := if kept then s.mem.dram else [] } }

/-- The lowest channel that a new map takes in or leaves out. -/
def MemSt.changedChannel (m : MemSt) (up : List Nat) : Nat :=
  ((upTo 8).find? (fun c => m.laid.contains c != up.contains c)).getD 0

/-- `MEM_TRAINING_DONE` (R240, R249): start step 5, or the return of the memory domains. Every channel is trained to the
smallest geometry found, of at most 8 GiB. A return that leaves the map another one loses the content of DRAM, of which the spec
speaks at a reset and a remap (log entry 58). -/
def execMemTrainingDone (dt : Nat) (res : TrainingResult) (s : State) : Host.Outcome State Fault Refusal :=
  let s1 := s.elapse dt
  let starting := decide (s1.power.step < 5)
  let training := (upTo 8).any (fun c => decide ((s1.chan c).state = .training))
  if !s1.tellerUp ∨ (!starting ∧ (!training ∨ !(s1.domain 14).on)) then .next s1
  else
    let there := (upTo 8).filter (fun c => res.populated.toNat.testBit c)
    let size := (there.map (fun c => geometryMib (res.geom.getD c ⟨0, 0⟩))).foldl min 8192
    let s2 := s1.reach 5
    let s3 := each ((upTo 8).filter (fun c => decide ((s2.chan c).state = .training))) s2
      (fun s c => s.trainChannel res size c)
    let up := s3.mem.inService
    let kept : Bool := s3.mem.laid == up
    let s4 := if kept || starting then s3.dramKept kept else ((((s3.dramKept false).dramLost (s3.mem.changedChannel up)).vaultsMoved
      s2.mem.tellerBase).remapMpu)
    let fixed := maskOf (up.filter (fun c => (s4.chan c).fixed))
    let compat := maskOf (up.filter (fun c => (s4.chan c).compat))
    let s5 := s4.log 0x6001 [maskOf up, res.rate, size, compat + fixed <<< 8]
    .next (if (s5.mpu 2).regions.isEmpty then s5.startMpu else s5)

/-! ## On-chip SRAM (R258, R305) -/

/-- An uncorrectable error of a scan-out queue: the tile row leaving voids as after an underrun (R157). -/
def State.queueError (s : State) (h : Nat) : State :=
  let x := s.head h
  let d := s.outSet h
  match x.line with
  | some (k + 1) =>
    if s.inSafe ∨ !s.scanning h ∨ headVActive d ≤ k then s
    else each (s.headSplit h) s (fun s e =>
      let (_, upper, first, cols) := e
      if (s.head h).underrunRows.contains (upper, k / 32) then s else s.underrun h k upper first cols 0)
  | _ => s

/-- What an uncorrectable error does at its point of use: a tile of the tile book, or a head's queue. -/
def State.sramUse (s : State) (block : SramBlock) (unit : Nat) : State :=
  match block with
  | .tileBook =>
    let o := unit / 16384
    let t := unit % 16384
    if o < 32 ∧ s.sets.active.shows o ∧ t < outTiles o (s.outSet o) then
      (s.setTile o t { s.tile o t with fault := true }).mark o [t]
    else s
  | .scanOut => if unit < 24 then s.queueError unit else s
  | _ => s

/-- `SRAM_SCRUB` (R258): every 10 s, per block. The error of a tile or a queue names it. -/
def execSramScrub (dt : Nat) (block : SramBlock) (uncorrectable : Option Nat) (s : State) :
    Host.Outcome State Fault Refusal :=
  let s1 := s.elapse dt
  match uncorrectable with
  | some unit => if s1.windowUp then .next ((s1.sramUse block unit).happened 0x028 (sramIndex block)) else .next s1
  | none => .next s1

end Sys2Proof.Machine
end

