-- ==== Sys2Proof/Machine/Power.lean ====
section
/-!
DEFINITION. Power (R370 to R378): domains and their need, the voltage and thermal loops, and the four power states.
-/
namespace Sys2Proof.Machine

/-! ## Need (Table 17-1) -/

/-- A domain is needed in RUN (Table 17-1, R215). -/
def State.needs (s : State) (d : Nat) : Bool :=
  let c := s.sets.active
  let output := (upTo 32).any c.shows
  if d < 4 ∨ (14 ≤ d ∧ d < 18) ∨ d = 25 then true
  else if d < 8 then s.coreStreams (d - 4) 256 != []
  else if d = 8 then s.encJobs.any (fun e => encEnable e.2)
  else if d < 14 then output
  else if d < 24 then
    (from' (8 * (d - 18)) 8).any (fun l => s.links.role l != 0 && decide ((s.links.lane l).state ≠ .retired))
  else decide (d = 24) && ((from' 24 8).any c.shows || (upTo 8).any (fun g => keyGrpEnable (s.keyGroup g).set))

/-- The power state and mask that switching follows: those of the transition in progress, or those in force. -/
def State.aim (s : State) : PowerState × Nat :=
  match s.power.transition with
  | some t => (t.target, t.mask)
  | none => (s.power.state, s.power.mask)

/-- The domain may be on under what switching follows. -/
def State.allows (s : State) (d : Nat) : Bool := !s.masks s.aim.1 s.aim.2 d

/-! ## Messages (R375, R377, R314) -/

/-- `POWER_STATUS_GET` (Table 12-13). -/
def execPowerStatusGet (dt : Nat) (p : Fin 4) (s : State) : Host.Outcome State Fault Refusal :=
  .next (s.serve dt p 0x0B02 (fun s r =>
    let mask (f : DomainSt → Bool) : Nat := maskOf ((upTo 26).filter (fun d => f (s.domain d)))
    s.answer p r stOk (wordsLE [powerCode s.power.state, mask (·.on) ||| 1, mask (·.heldLimit), s.power.lastWake,
      twos 32 s.hottest, mask (·.throttled)])))

/-- The checks of an item of `LOOP_ENVELOPE_SET` for a domain: loop, low, high. -/
def loopItemBad (d v : Nat) : Bool :=
  let loop := v % 256
  let lo := (v >>> 32) % 65536
  let hi := (v >>> 48) % 65536
  decide (1 < loop) || decide (hi < lo) || (loop == 0 && d == 0) || (loop == 1 && !(decide (2 ≤ d) && decide (d ≤ 12)))

/-- Take one envelope. -/
def State.setEnvelope (s : State) (d v : Nat) : State :=
  let lo := (v >>> 32) % 65536
  let hi := (v >>> 48) % 65536
  let x := s.domain d
  s.setDomain d (if v % 256 = 0 then { x with loMv := lo, hiMv := hi } else { x with loC := lo, hiC := hi })

/-- `LOOP_ENVELOPE_SET` (R314, R372 to R374): the index of an item is its domain; it acts at the loop's next step. -/
def execLoopEnvelopeSet (dt : Nat) (p : Fin 4) (s : State) : Host.Outcome State Fault Refusal :=
  .next (s.serve dt p 0x0B03 (fun s r =>
    match itemList r 8 25 with
    | .inl st => s.status p r st
    | .inr (first, items) =>
      let l := ((upTo items.length).zip items).map (fun e => (first + e.1, e.2))
      if l.any (fun e => loopItemBad e.1 e.2) then s.status p r stNotSupported
      else (each l s (fun s e => s.setEnvelope e.1 e.2)).status p r stOk))

/-- `WAKE_SOURCES_SET` (R377). -/
def execWakeSourcesSet (dt : Nat) (p : Fin 4) (s : State) : Host.Outcome State Fault Refusal :=
  .next (s.serve dt p 0x0B04 (fun s r =>
    { s with power := { s.power with wakeMask := r.u8 0 % 128, alarm := r.u64 8 } }.status p r stOk))

/-- A DIM mask that cannot be taken (R375). -/
def State.maskDenied (s : State) (m : Nat) : Bool :=
  let mem := bitsOf m 17 14
  let twin : Bool := s.pair.enabled && (match s.peerLane s.pair.port with
    | some l => m.testBit (lanePair l)
    | none => false)
  decide (m % 16 ≠ 0) || m.testBit 25 || decide (2 ^ 26 ≤ m) || (decide (mem ≠ 0) && decide (mem ≠ 15))
    || (decide (mem = 15) && !((from' 4 10).all m.testBit && m.testBit 24)) || twin

def powerOfCode : Nat → Option PowerState
  | 0 => some .run | 1 => some .dim | 2 => some .night | 3 => some .off | _ => none

/-- `POWER_STATE_SET` (R375): the change follows in `POWER_TRANSITION_DONE`; a later request replaces one in progress. -/
def execPowerStateSet (dt : Nat) (p : Fin 4) (s : State) : Host.Outcome State Fault Refusal :=
  .next (s.serve dt p 0x0B01 (fun s r =>
    let m := r.u32 4
    match powerOfCode (r.u8 0) with
    | none => s.status p r stNotSupported
    | some st =>
      let deep := decide (st = .night ∨ st = .off)
      if m ≠ 0 ∧ st ≠ .dim then s.status p r stNotSupported
      else if (st = .dim ∧ s.maskDenied m) ∨ (deep ∧ s.pair.enabled) then s.status p r stDenied
      else if deep ∧ s.sets.pending.isSome then s.status p r stBusy
      else
        let t : Option Transition :=
          if s.power.state = st ∧ s.power.mask = m then none else some ⟨st, m, 0xFF, 0⟩
        { s with power := { s.power with transition := t } }.status p r stOk))

/-! ## The loops (R372 to R374) -/

/-- Whether any domain's voltage, or any thermal threshold, is held at a limit (R314). -/
def State.loopHeld (s : State) (loop : Nat) : Bool :=
  if loop = 0 then (upTo 26).any (fun d => (s.domain d).heldLimit)
  else (from' 2 11).any (fun d => decide (105 < (s.domain d).loC))

/-- `VOLTAGE_LOOP_STEP` (R372, R373): a step of 2.5 mV, which never leaves the effective window. -/
def execVoltageLoopStep (dt : Nat) (d : Fin 26) (slack : ReplicaReading) (s : State) :
    Host.Outcome State Fault Refusal :=
  let s1 := s.elapse dt
  let x := s1.domain d
  if !s1.windowUp ∨ d = 0 ∨ !x.on then .next s1
  else
    let (lo, hi, held) := s1.voltWindow d
    let want := match slack with
      | .someBelowGuard => x.hmv + 5
      | .allAboveTwice => x.hmv - 5
      | .between => x.hmv
    let v := max (2 * lo) (min want (2 * hi))
    let s2 := s1.setDomain d { x with hmv := v, heldLimit := held }
    .next (if held then s2.overridden 0 d x.loMv x.hiMv (v / 2)
      else if s2.loopHeld 0 then s2 else s2.setOverride 0 false)

/-- The effective thermal window of a domain in °C: each bound clipped to the fuse ceiling (R374). -/
def DomainSt.window (x : DomainSt) : Nat × Nat := (min x.loC 105, min x.hiC 105)

/-- The clock of a domain after a step of the thermal loop. -/
def DomainSt.stepClock (x : DomainSt) (reading : Int) (now : Nat) : Nat :=
  if (x.window.2 : Int) < reading then max 2 (x.clock - 1)
  else if reading < x.window.1 ∧ x.clock < 8 ∧ x.clockAt + 10000000 ≤ now then x.clock + 1
  else x.clock

/-- A domain takes a reading and the clock that follows from it: the floor of a rising clock is reached before it rises
(R373), `THERMAL_THROTTLE` is raised below full clock, and `THERMAL_STEP` records the change (R374). -/
def State.throttle (s : State) (d : Nat) (reading : Int) (clock : Nat) : State :=
  let x := s.domain d
  let floor := max 680 (min (Config.auditorFloor d clock) 860)
  let s1 := s.setDomain d { x with
    temp := reading, clock := clock, throttled := decide (clock < 8)
    clockAt := if clock = x.clock then x.clockAt else s.time.now
    hmv := if x.clock < clock then max x.hmv (2 * floor) else x.hmv }
  let s2 := if clock = x.clock then s1
    else s1.logLimited 0x0030 d tenSeconds 1 0 (fun n _ => [d, clock, twos 32 reading, n])
  if clock < 8 ∧ x.clock = 8 then s2.raised 0x050 d
  else if clock = 8 ∧ x.clock < 8 then s2.cleared 0x050 d else s2

/-- The fuse ceiling held a software bound (R314). -/
def State.thermalHeld (s : State) (d : Nat) : State :=
  let x := s.domain d
  if 105 < x.loC then s.overridden 1 d x.loC x.hiC 105 else if s.loopHeld 1 then s else s.setOverride 1 false

/-- `THERMAL_LOOP_STEP` (R374), every 1 ms. Time above 105 °C is counted by the lowest-numbered hot domain (R316). -/
def execThermalLoopStep (dt : Nat) (d : Fin 26) (reading : Int) (s : State) : Host.Outcome State Fault Refusal :=
  let s1 := s.elapse dt
  let x := s1.domain d
  if !s1.tellerUp ∨ d.val < 2 ∨ 12 < d.val ∨ !x.on then .next s1
  else
    let hot : Bool := decide (105 < reading) && (from' 2 (d - 2)).all (fun e => decide ((s1.domain e).temp ≤ 105))
    let s2 := (s1.throttle d reading (x.stepClock reading s1.time.now)).thermalHeld d
    .next (if hot then s2.addHot 1 else s2)

/-! ## Switching domains (R371, R258) -/

/-- The built-in self-tests of a domain (R88, R212, R258, R371): cores that fail are out of service. -/
def State.selfTests (s : State) (d : Nat) (t : SelfTest) : State :=
  let (s1, l) := s.testDomain d t
  each l s1 (fun s u => if d = 8 then s.encCoreFails u else s.coreFails u)

/-- What a domain's units do when it comes up: lanes are tested, memory channels train, at 2× refresh until a readout, and keys are
scanned at their fastest rate (R238, R249, R381). -/
def State.domainStarts (s : State) (d : Nat) : State :=
  let afresh (x : ChanRun) : Tbl RankSt :=
    Tbl.mapAll x.ranks {} (fun _ k => { k with read := false, hot := false, coolSince := none, doubled := true })
  if 18 ≤ d ∧ d < 24 then s.lanesUp d
  else if 14 ≤ d ∧ d < 18 then
    each [2 * (d - 14), 2 * (d - 14) + 1] s (fun s c =>
      let x := s.chan c
      match x.state with
      | .absent => s
      | .retired => s.setChan c { x with state := .training, sizeMiB := 0, queue := [], ranks := afresh x }
      | _ => s.setChan c { x with state := .training, queue := [], ranks := afresh x })
  else if d = 24 then s.keysFast
  else s

/-- The cause of switching (Table 17-9): demand, or a power state. -/
def State.switchCause (s : State) : Nat := if s.power.transition.isSome then 2 else 1

/-- What leaves with a domain's power: links go `OFF`, DRAM sleeps. -/
def State.domainStops (s : State) (d : Nat) : State :=
  if 18 ≤ d ∧ d < 24 then s.lanesDown d else if 14 ≤ d ∧ d < 18 then s.sleepDram true else s

/-! ## Power states (Table 17-2) -/

/-- Scan-out goes off: scanning heads stop with reason 1, and what the domain holds of its heads is lost (Table 17-4). That safe
state stopped a head outlasts it (R308, R376). -/
def State.stopScanout (s : State) : State :=
  each (upTo 24) s (fun s h =>
    let s1 := s.proofDrop h
    let s2 := match (s1.head h).state with
      | .scanning => s1.stopHead h 1 .off
      | _ => s1
    s2.setHead h { rasterId := (s2.head h).rasterId, safeStopped := (s2.head h).safeStopped })

/-- The Console goes off, or NIGHT comes: every panel takes the stop sequence with reason 3. -/
def State.stopConsole (s : State) : State :=
  each (upTo 8) s (fun s p =>
    match (s.panel p).state with
    | .off => s
    | .stopping => s.setPanel p { s.panel p with restart := false }
    | _ => s.beginPanelStop p 3 false)

/-- A decoder core is switched off: its streams are not admitted (NO_CORE). -/
def State.stopCore (s : State) (c : Nat) : State :=
  let streams := (s.src.dec.filter (fun e => e.2.core == some c)).map (·.1)
  each streams s (fun s i =>
    let x := s.decRun i
    let s1 := s.setDec i { x with core := none }
    match x.state with
    | .running | .recovering =>
      s1.damage i 0x201B (Config.stopPoc s.draw i) [x.cost / 1000, s1.largestSpare i / 1000, 0] x.queue.length
    | _ => s1)

/-- The Encoder is switched off: its jobs stop. -/
def State.stopEncoder (s : State) : State :=
  each (upTo 16) s (fun s j =>
    let s1 := match (s.encRun j).state with
      | .running | .inputIdle => s.stopJob j 4 .stopped
      | _ => s
    if (s1.encRun j).core.isSome then s1.setEncRun j { s1.encRun j with core := none } else s1)

/-- What stops with a domain that a power state switches off. -/
def State.maskStops (s : State) (d : Nat) : State :=
  if 4 ≤ d ∧ d < 8 then s.stopCore (d - 4)
  else if d = 8 then s.stopEncoder
  else if d = 13 then s.stopScanout.dropTags
  else if d = 24 then s.stopConsole
  else s.domainStops d

/-- The jobs and heads of a domain that comes up again start (R17, R376). -/
def State.unitsStart (s : State) (d : Nat) : State :=
  if d = 8 then s.replaceJobs
  else if d = 13 then
    each ((upTo 24).filter s.sets.active.shows) s (fun s h =>
      if (s.head h).state = .off ∧ !(s.head h).safeStopped then
        (s.setHead h { s.head h with state := .locking, held := 0 }).refreshProven h
      else s)
  else s

/-- What begins with a domain that a power state allows again. -/
def State.maskStarts (s : State) (d : Nat) : State :=
  let on : Bool := s.needs d && !(s.domain d).on
  let s1 := s.domainOn d 2
  (if on then (s1.selfTests d (s1.testOf d)).domainStarts d else s).unitsStart d

/-- `DOMAIN_POWER_UP` (R371): of a domain that is off, needed and allowed. Its units start with it, unless a set still to
be restored starts them (R381). Lane pairs take their table first (Table 17-5 step 6). -/
def execDomainPowerUp (dt : Nat) (d : Fin 26) (test : SelfTest) (s : State) : Host.Outcome State Fault Refusal :=
  let s1 := s.elapse dt
  let s2 := if 18 ≤ d.val ∧ d.val < 24 ∧ s1.tellerUp ∧ 4 ≤ s1.power.step then s1.applyTable else s1
  if !s2.tellerUp ∨ s2.power.step < 4 ∨ (s2.domain d).on ∨ !s2.needs d ∨ !s2.allows d then .next s2
  else
    let s3 := ((s2.domainOn d s2.switchCause).selfTests d test).domainStarts d
    .next (if s3.maskedOff d || s3.sets.restorePending then s3 else s3.unitsStart d)

/-- `DOMAIN_POWER_DOWN` (R371): of a domain that is on and no longer needed, or kept off by the power state aimed at. Its
units stop with it. The four domains of memory go down together (R250). -/
def execDomainPowerDown (dt : Nat) (d : Fin 26) (s : State) : Host.Outcome State Fault Refusal :=
  let s1 := s.elapse dt
  if !s1.tellerUp ∨ !(s1.domain d).on ∨ (s1.needs d ∧ s1.allows d) then .next s1
  else
    let group := if 14 ≤ d.val ∧ d.val < 18 then from' 14 4 else [d.val]
    let s2 := each group s1 (fun s d => (s.maskStops d).domainOff d s1.switchCause)
    .next { s2 with power := { s2.power with
      transition := s2.power.transition.map (fun t => { t with step := t.step + 1 }) } }

/-- Every enabled panel takes its start sequence. -/
def State.startConsole (s : State) : State :=
  each ((upTo 8).filter (fun p => s.sets.active.shows (24 + p))) s (fun s p =>
    match (s.panel p).state with
    | .off => s.beginPanelStart p 0
    | .stopping => s.setPanel p { s.panel p with restart := true }
    | _ => s)

/-- The tile book, the required tags and all that the assay and composition hold of them (Table 17-4, R427). -/
def State.dropTiles (s : State) : State :=
  let s := each (upTo 32) s State.clearMismatch
  { s with comp := { s.comp with
    tiles := [], out := [], anchors := [], layerSeq := [], episodes := [], voids := [] } }

/-- Minted frames, jitter buffers, decoder state and published surface buffers (Table 17-4). -/
def State.dropFrames (s : State) : State :=
  { s with src := { s.src with
    run := Tbl.mapAll s.src.run {} (fun _ x => { subCount := x.subCount, subscribed := false }), dec := [], kinik := []
    coreBits := [], stored := []
    surf := Tbl.mapAll s.src.surf {} (fun _ x => { x with newest := none, fence := 0, inUse := 0 }) } }

/-- Enter NIGHT, once its outputs have stopped (Table 17-4, R376). -/
def State.enterNight (s : State) : State :=
  let s1 := (s.dropTiles).dropFrames
  { s1 with
    keys := Tbl.mapAll s1.keys {} (fun _ x => { x with rate := keyScanFloor x.set }) }

/-- Leave NIGHT (R376): subscriptions start again, and panels and jobs do where the state returned to has their domains. -/
def State.leaveNight (s : State) : State :=
  let s1 := s.subscribeAll
  let s2 := if s1.maskedOff 24 then s1 else s1.startConsole
  if s2.inSafe || s2.maskedOff 8 then s2 else s2.encRestart

/-- Enter OFF (R378): the ring is spilled, operating time persisted, the change recorded; then AON alone is on. -/
def State.enterOff (s : State) : State :=
  let s1 := s.spillNow.log 0x0F02 [w32 s.time.room, hi32 s.time.room, rtCode s.time.state, b2n s.time.traceable]
  let s2 := (s1.spillNow.log 0x0010 [powerCode s.power.state, 3, 0xFF, 0]).postAll 0x0B01 [powerCode s.power.state, 3, 0xFF, 0]
  { s2 with
    power := { s2.power with
      state := .off, mask := 0, transition := none
      domains := Tbl.mapAll s2.power.domains {} (fun _ x => { x with on := false }) }
    fault := { s2.fault with alive := false } }

/-- Carry out a transition. -/
def State.changePower (s : State) (t : Transition) : State :=
  let old := s.power.state
  let oldMask := s.power.mask
  let masked (f : PowerState × Nat) : List Nat := (from' 4 21).filter (s.masks f.1 f.2)
  let before := masked (old, oldMask)
  let after := masked (t.target, t.mask)
  let stops := after.filter (fun d => !before.contains d)
  let frees := before.filter (fun d => !after.contains d)
  let deep := decide (t.target = .night ∨ t.target = .off)
  let s0 := if deep then s.stopConsole.unsubscribeAll 4 else s
  let s1 := each stops s0 (fun s d => (s.maskStops d).domainOff d 2)
  if t.target = .off then s1.enterOff
  else
    let s2 := if deep then s1.enterNight else s1
    let s3 := { s2 with power := { s2.power with
      state := t.target, mask := t.mask, transition := none
      back := if t.target = .night then old else .run
      backMask := if t.target = .night then oldMask else 0
      lastWake := if t.wake = 0xFF then s2.power.lastWake else t.wake } }
    let s4 := each frees s3 State.maskStarts
    let s5 := if old = .night then s4.leaveNight else if frees.contains 24 && decide (t.target ≠ .night) then s4.startConsole else s4
    (s5.log 0x0010 [powerCode old, powerCode t.target, t.wake, t.mask]).postAll 0x0B01
      [powerCode old, powerCode t.target, t.wake, 0]

/-- Memory that a transition brings back is up and trained. -/
def State.memoryBack (s : State) (t : Transition) : Bool :=
  s.masks t.target t.mask 14
    || ((from' 14 4).all (fun d => (s.domain d).on) && (upTo 8).all (fun c => decide ((s.chan c).state ≠ .training)))

/-- `POWER_TRANSITION_DONE` (R377). -/
def execPowerTransitionDone (dt : Nat) (s : State) : Host.Outcome State Fault Refusal :=
  let s1 := s.elapse dt
  match s1.power.transition with
  | some t => if s1.tellerUp ∧ s1.power.started ∧ s1.memoryBack t then .next (s1.changePower t) else .next s1
  | none => .next s1

/-- What the state holds of a wake source has happened (R377): a key is pressed, a doorbell rings, GENLOCK_IN is in lock, the alarm time
has come; a packet for the night port is the event itself. -/
def State.wakeFires (s : State) (w : Nat) : Bool :=
  s.power.wakeMask.testBit w
    && (if w = 0 then s.keys.any (fun e => e.2.keys.any (fun k => k.2.pressed))
      else if w ≤ 3 then (s.port (w - 1)).ring != []
      else if w = 5 then s.time.glLock
      else if w = 6 then decide (s.power.alarm ≤ s.time.room)
      else true)

/-- `WAKE_EVENT` (R377): the device leaves NIGHT for the state it held before, or the entry is aborted. -/
def execWakeEvent (dt : Nat) (w : Fin 7) (s : State) : Host.Outcome State Fault Refusal :=
  let s1 := s.elapse dt
  let x := s1.power
  if !s1.tellerUp ∨ !s1.wakeFires w then .next s1
  else match x.transition with
    | some t =>
      if t.target = .night then
        .next ({ s1 with power := { x with transition := none } }.log 0x0011 [powerCode t.target, w, t.step, 0])
      else .next s1
    | none =>
      if x.state = .night then
        .next { s1 with power := { x with transition := some ⟨x.back, x.backMask, w, 0⟩ } }
      else .next s1

end Sys2Proof.Machine
end

