-- ==== Sys2Proof/Machine/Security.lean ====
section
/-!
DEFINITION. Lifecycle, firmware images, the Vault, debug sessions and JTAG (16_protection_and_secrets.md).
-/
namespace Sys2Proof.Machine

/-! ## OTP fields (R350) -/

def otpIndex : OtpField → Nat
  | .prodHash => 0 | .devHash => 1 | .provKey => 2 | .debugKey => 3 | .secVersion => 4
def otpBits : OtpField → Nat
  | .prodHash => 384 | .devHash => 384 | .provKey => 256 | .debugKey => 256 | .secVersion => 32

/-- An OTP field as it reads: zero while unprogrammed. -/
def State.otpField (s : State) (f : OtpField) : Nat := Tbl.get s.sec.otp 0 (otpIndex f)

/-- `OTP_PROGRAM` (R350): once per field, and only in MANUFACTURE. -/
def execOtpProgram (dt : Nat) (field : OtpField) (value : Nat) (s : State) : Host.Outcome State Fault Refusal :=
  let s1 := s.elapse dt
  let i := otpIndex field
  if s1.sec.lifecycle = .manufacture then
    if Tbl.has s1.sec.otp i then .next { s1 with sec := { s1.sec with jtag := 6 } }
    else .next { s1 with sec := { s1.sec with
      jtag := 6, otp := Tbl.put s1.sec.otp i (value % 2 ^ otpBits field) } }
  else .next s1

/-- `OTP_READ` (R350): the two hashes and the security version counter only. -/
def execOtpRead (dt : Nat) (s : State) : Host.Outcome State Fault Refusal :=
  let s1 := s.elapse dt
  .next ({ s1 with sec := { s1.sec with jtag := 5 } }.send
    (.jtag (s1.otpField .prodHash + s1.otpField .devHash <<< 384 + s1.otpField .secVersion <<< 768)))

/-- The lifecycle states in which boundary and internal test work (R367). -/
def State.scanAllowed (s : State) : Bool :=
  decide (s.sec.lifecycle = .manufacture ∨ s.sec.lifecycle = .develop)

/-- Select a JTAG instruction and shift a value out. -/
def State.jtagShift (s : State) (i v : Nat) : State :=
  { s with sec := { s.sec with jtag := i } }.send (.jtag v)

/-- `EXTEST` (R367). -/
def execExtest (dt : Nat) (s : State) : Host.Outcome State Fault Refusal :=
  let s1 := s.elapse dt
  .next (if s1.scanAllowed then s1.jtagShift 3 (Config.scanOut s1.draw) else s1)

/-- `INTEST` (R367). -/
def execIntest (dt : Nat) (s : State) : Host.Outcome State Fault Refusal :=
  let s1 := s.elapse dt
  .next (if s1.scanAllowed then s1.jtagShift 4 (Config.scanOut s1.draw) else s1)

/-- `BYPASS` (R367). -/
def execBypass (dt : Nat) (s : State) : Host.Outcome State Fault Refusal :=
  .next ((s.elapse dt).jtagShift 0 0)

/-- `IDCODE` (R367). -/
def execIdcode (dt : Nat) (s : State) : Host.Outcome State Fault Refusal :=
  .next ((s.elapse dt).jtagShift 1 Config.idcode)

/-- `SAMPLE` (R367). -/
def execSample (dt : Nat) (s : State) : Host.Outcome State Fault Refusal :=
  let s1 := s.elapse dt
  .next (s1.jtagShift 2 (Config.scanOut s1.draw))

/-! ## Firmware images (R351, R352) -/

/-- Why an image is not authentic: 1 signature, 2 key hash, 3 security version (Table 16-6); none when it is. The image
without bytes stands for the one the device was made with (log entry 15). -/
def State.imageFault (s : State) (img : Image) : Option Nat :=
  let n := img.bytes.len
  let sv := if n = 0 then 0 else Bytes.at img.bytes (n - 208) 4
  let key := Config.keyHash (Bytes.at img.bytes (n - 208 + 8) 97)
  let devOk := decide (s.sec.lifecycle = .manufacture ∨ s.sec.lifecycle = .develop)
  if n ≠ 0 ∧ (n < 208 ∨ Bytes.at img.bytes (n - 204) 4 ≠ n - 208 ∨ !Config.imageSigned n img.bytes.val) then some 1
  else if n ≠ 0 ∧ Tbl.find s.sec.otp 0 ≠ some key ∧ !(devOk && decide (Tbl.find s.sec.otp 1 = some key)) then some 2
  else if sv < s.otpField .secVersion then some 3
  else none

/-- The image a payload carries. -/
def imageOf (b : Bytes) : Image :=
  { version := w32 (Config.imageVersion b.len b.val), crc := crc32 b, bytes := b }

/-- Keep the status of a `FIRMWARE_STAGE` (Table 12-13). -/
def State.stageEnd (s : State) (st : Nat) : State := { s with sec := { s.sec with stageStatus := st } }

/-- `FIRMWARE_STAGE` (R351, R289): the image is checked, then written to flash; length 0 removes the staged image. -/
def execFirmwareStage (dt : Nat) (p : Fin 4) (s : State) : Host.Outcome State Fault Refusal :=
  .next (s.serveFlash dt p 0x0103 (fun s r =>
    let img := imageOf r.payload
    if 4194304 < r.length then (s.stageEnd stBadLength).status p r stBadLength
    else if r.length = 0 then s.beginFlash p r none
    else if !Config.imageTallyOk img.bytes.len img.bytes.val ∨ (s.imageFault img).isSome then
      (s.stageEnd stNotSupported).status p r stNotSupported
    else s.beginFlash p r (some img)))

/-- `FIRMWARE_STATUS_GET` (Table 12-13). -/
def execFirmwareStatusGet (dt : Nat) (p : Fin 4) (s : State) : Host.Outcome State Fault Refusal :=
  .next (s.serve dt p 0x0104 (fun s r =>
    let st := s.sec.staged.getD {}
    s.answer p r stOk (wordsLE [s.sec.running.version, st.version, st.crc, s.sec.stageStatus])))

/-! ## Lifecycle (R349) -/

/-- `LIFECYCLE_GET` (Table 12-13). -/
def execLifecycleGet (dt : Nat) (p : Fin 4) (s : State) : Host.Outcome State Fault Refusal :=
  .next (s.serve dt p 0x0F01 (fun s r =>
    s.answer p r stOk (wordsLE [lifeCode s.sec.lifecycle, b2n s.sec.dbg.openSince.isSome, s.sec.slots.length])))

/-- `LIFECYCLE_SET` (R349): checked, then written to flash. -/
def execLifecycleSet (dt : Nat) (p : Fin 4) (s : State) : Host.Outcome State Fault Refusal :=
  .next (s.serveFlash dt p 0x0F02 (fun s r =>
    match lifeOfCode (r.u8 0) with
    | none => s.status p r stNotSupported
    | some t =>
      if lifeCode t < lifeCode s.sec.lifecycle then s.status p r stDenied
      else if r.u32 4 ≠ s.ledger.powerCycle then s.status p r stNotSupported
      else s.beginFlash p r none))

/-- Destroy every key (R349): every unprogrammed bit of the key fields is programmed, and the slots are cleared. -/
def State.destroyKeys (s : State) (p : Nat) : State :=
  let n := s.sec.slots.length
  { s with sec := { s.sec with
    otp := Tbl.put (Tbl.put s.sec.otp 2 (2 ^ 256 - 1)) 3 (2 ^ 256 - 1), keysDestroyed := true, slots := [] } }.log 0xA012
    [p, n, 0, 0]

/-- Enter a lifecycle state (R349). -/
def State.setLife (s : State) (t : Lifecycle) : State :=
  { s with sec := { s.sec with lifecycle := t, lifecycleNext := none } }

/-- Ask for a WARM reset within 1 ms (R291, R349). -/
def State.askWarm (s : State) (p : Nat) : State := { s with power := { s.power with warmDue := some p } }

/-- The flash write of `LIFECYCLE_SET` ended (R349): RETIRED is entered at once, with its keys destroyed and a WARM reset
within 1 ms; another advance waits for the next reset. States advance only in the order of Table 16-1. -/
def State.advanceLifecycle (s : State) (p : Nat) (t : Lifecycle) : State :=
  if lifeCode t ≤ lifeCode s.sec.lifecycle then s
  else if t = .retired then
    ((((s.destroyKeys p).closeDebug 2).setLife .retired).askWarm p).log 0xA001 [lifeCode s.sec.lifecycle, 3, p, 0]
  else { s with sec := { s.sec with lifecycleNext := some (t, p) } }

/-! ## The Vault (R353 to R358) -/

/-- Restart the SRTP contexts of every descriptor and job that names a slot (R353). -/
def State.restartSrtp (s : State) (slot : Nat) : State :=
  let c := s.sets.active
  let srcs := c.enabledSources.filter (fun i => srcSrtp (c.source i) != 0 && srcKeySlot (c.source i) == slot)
  let s1 := each srcs s (fun s i => s.setSrc i { s.srcRun i with srtpRestart := true })
  let jobs := (upTo 16).filter (fun j => encSrtp (s.encJob j) != 0 && encKeySlot (s.encJob j) == slot)
  each jobs s1 (fun s j => s.setEncRun j { s.encRun j with srtpRestart := true })

/-- `VAULT_KEY_LOAD` (R353, R358). -/
def execVaultKeyLoad (dt : Nat) (p : Fin 4) (s : State) : Host.Outcome State Fault Refusal :=
  .next (s.serve dt p 0x0F03 (fun s r =>
    let slot := r.u8 0
    if 63 < slot ∨ r.u8 1 ≠ 1 ∨ s.sec.vaultLocked ∨ s.sec.keysDestroyed ∨ s.sec.lifecycle = .retired then
      s.status p r stNotSupported
    else match Config.unwrap (s.otpField .provKey) (Bytes.at r.payload 4 40) with
      | none => s.status p r stNotSupported
      | some key =>
        let s1 := { s with sec := { s.sec with slots := Tbl.put s.sec.slots slot key } }
        ((s1.restartSrtp slot).log 0xA010 [slot, 1, p, 0]).status p r stOk))

/-- The geometry R355 allows: a power of two from 64 KiB to 512 MiB, aligned, in the Teller region, outside the key
area. -/
def MemSt.vaultLegal (m : MemSt) (base size : Nat) : Bool :=
  (from' 16 14).any (fun k => size == 2 ^ k) && base % size == 0 && decide (m.tellerBase ≤ base)
    && decide (base + size ≤ m.keyBase)

/-- log2 of a power of two. -/
def log2Of (n : Nat) : Nat := Nat.log2 n

/-- `VAULT_REGION_SET` (R355): a disabled region needs no geometry. -/
def execVaultRegionSet (dt : Nat) (p : Fin 4) (s : State) : Host.Outcome State Fault Refusal :=
  .next (s.serve dt p 0x0F04 (fun s r =>
    match itemList r 20 7 with
    | .inl st => s.status p r st
    | .inr (first, items) =>
      let l := ((upTo items.length).zip items).map (fun e => (first + e.1, BitVec.ofNat 160 e.2))
      if l.any (fun e => vaultOn e.2 && !s.mem.vaultLegal (vaultBase e.2) (vaultSize e.2)) then
        s.status p r stNotSupported
      else
        let s1 := each l s (fun s e =>
          { s with sec := { s.sec with
            vault := Tbl.set s.sec.vault 0 e.1 e.2, rewriting := insertNat s.sec.rewriting e.1 } }.log 0xA011
            [e.1, b2n (vaultOn e.2), vaultBase e.2 / 65536, log2Of (vaultSize e.2)])
        s1.status p r stOk))

/-- `VAULT_REGION_REWRITE_DONE` (R355): the bursts are rewritten, their content kept. -/
def execVaultRegionRewriteDone (dt : Nat) (s : State) : Host.Outcome State Fault Refusal :=
  let s1 := s.elapse dt
  .next { s1 with sec := { s1.sec with rewriting := [] } }

/-! ## Debug sessions (R368) -/

/-- A failed answer. -/
def State.debugFail (s : State) (p : Nat) (r : Request) : State :=
  let n := s.sec.dbg.failures + 1
  ({ s with sec := { s.sec with dbg := { s.sec.dbg with failures := n, challenge := none } } }.log 0xA043
    [n, 0, 0, 0]).status p r stDenied

/-- `DEBUG_UNLOCK` (R368). -/
def execDebugUnlock (dt : Nat) (p : Fin 4) (s : State) : Host.Outcome State Fault Refusal :=
  .next (s.serve dt p 0x0F08 (fun s r =>
    if 3 ≤ s.sec.dbg.failures then s.status p r stDenied
    else if r.u8 0 = 0 then
      let c := Config.challenge s.draw % 2 ^ 128 + (Config.serial % 2 ^ 64) <<< 128 + (w32 s.ledger.powerCycle) <<< 192
      let s1 := s.closeDebug 3
      { s1 with sec := { s1.sec with dbg := { s1.sec.dbg with challenge := some c } } }.answer p r stOk ⟨32, c⟩
    else if r.u8 0 = 1 then
      match s.sec.dbg.challenge with
      | none => s.debugFail p r
      | some c =>
        if Bytes.at r.payload 4 32 = Config.hmac (s.otpField .debugKey) c % 2 ^ 256 then
          ({ s with sec := { s.sec with dbg := { s.sec.dbg with
            challenge := none, openSince := some s.time.now } } }.log 0xA040
            [lifeCode s.sec.lifecycle, s.ledger.powerCycle, 0, 0]).status p r stOk
        else s.debugFail p r
    else s.status p r stNotSupported))

end Sys2Proof.Machine
end

