-- ==== Sys2Proof/Machine/Reset.lean ====
section
/-!
DEFINITION. Resets and starts (R352, R357, R358, R379 to R384): what each kind keeps (Table 17-4), the holds in reset, the
end of a start, and the end of a flash write (R289).
-/
namespace Sys2Proof.Machine

/-- The kinds of reset of ranks 1 to 6 (Table 17-3). -/
inductive ResetKind where
  | por | pin | auditor | pair | watchdog | warm
  deriving DecidableEq, Repr

def ResetKind.rank : ResetKind → Nat
  | .por => 1 | .pin => 2 | .auditor => 3 | .pair => 4 | .watchdog => 5 | .warm => 6

/-- POR and PIN return the host-visible configuration to its defaults (Table 17-4). -/
def ResetKind.defaults (k : ResetKind) : Bool := decide (k = .por ∨ k = .pin)

/-- POR, PIN and WARM check images, apply the lane table, the memory regions and the pair configuration, and re-examine
the service causes (R216, R242, R313, R334, R352). -/
def ResetKind.applies (k : ResetKind) : Bool := k.defaults || decide (k = .warm)

/-! ## What ends at a reset, and the records due for it -/

/-- Add a record to write at start step 4. -/
def State.later (s : State) (code : Nat) (ps : List Nat) : State :=
  { s with power := { s.power with due := s.power.due ++ [(code, ps)] } }

/-- Add a coded message to send at start step 4. -/
def State.laterFault (s : State) (msg : Nat) : State :=
  { s with power := { s.power with dueFaults := s.power.dueFaults ++ [msg] } }

/-- A port at a reset that ends sessions (R275, R390, R394): rung requests stay, all else is as after power-on. -/
def PortSt.ended (q : PortSt) : PortSt :=
  { slots := q.slots, reqBell := q.reqBell, ring := q.ring, reqTime := q.reqTime, resp := q.resp }

/-- Every session ends (R275). -/
def State.endSessions (s : State) : State :=
  let s1 := each (upTo 4) s (fun s p =>
    let q := s.port p
    if q.session = 0 then s else s.later 0xC002 [p, q.session, 3, q.served])
  { s1 with mail := { s1.mail with ports := Tbl.mapAll s1.mail.ports {} (fun _ q => q.ended), turn := 0 } }

/-- Every subscription ends for reason 3 (Table 2-7). -/
def State.endSubscriptions (s : State) : State :=
  each s.src.run s (fun s e =>
    if e.2.subscribed then s.later 0x1002 [e.1, e.2.minted, (e.2.lastMint.map (·.seq)).getD 0, 3] else s)

/-- The debug session ends (R368). -/
def State.endDebug (s : State) : State :=
  let d := s.sec.dbg
  let s1 := match d.openSince with
    | some t => s.later 0xA041 [1, (s.time.now - t) / 1000000000, 0, 0]
    | none => s
  { s1 with sec := { s1.sec with dbg := { d with challenge := none, openSince := none } } }

/-- Sessions, subscriptions, the pending commit and the debug session end. -/
def State.endAll (s : State) (kind : Nat) : State :=
  ((s.endSessions.endSubscriptions).withdrawAtReset kind).endDebug

/-! ## What each part keeps (Table 17-4) -/

/-- Sets: a settled commit that has not taken effect takes effect with the restored set (R381). -/
def State.resetSets (s : State) : State :=
  { s with sets := { s.sets with effect := none, restorePending := true, notReady := [] } }

/-- Room time (R425, R381): POR counts from zero; PIN returns the configuration and keeps the count; otherwise it is kept,
and a peer source is lost with its link. -/
def State.resetTime (s : State) (k : ResetKind) : State :=
  let t := s.time
  match k with
  | .por => { s with time := { now := t.now } }
  | .pin =>
    let st : RtState := if t.state = .unset then .unset else .free
    let s1 := { s with time := { now := t.now, room := t.room, state := st, frameN := t.frameN, frameT := t.frameT
                                 framePast := t.framePast } }
    let s2 := if t.glLock then s1.later 0x1053 [0, t.glPeriod, 0, 0] else s1
    if st = t.state then s2 else s2.later 0x1052 [rtCode t.state, rtCode st, 3, 0]
  | _ =>
    let s1 := { s with time := { t with syncT1 := none, glOutUntil := 0 } }
    if t.disc = .peer ∧ t.state = .locked then
      { s1 with time := { s1.time with state := .holdover } }.later 0x1052 [1, 2, 1, b2n t.traceable]
    else s1

/-- One key at a reset: AON keeps its baseline and its debounced state (R193); what was being counted starts again. -/
def KeyRun.afterReset (x : KeyRun) : KeyRun :=
  { x with
    count := 0, hoverCount := 0, recent := []
    scans := if x.base.isSome then x.scans else 0
    sum := if x.base.isSome then x.sum else 0
    refHits := if x.base.isSome then x.refHits else 0 }

/-- Outputs, keys and encode jobs. -/
def State.resetOutputs (s : State) (k : ResetKind) : State :=
  { s with
    heads := [], panels := [], enc := []
    keys := if k = .por then []
      else Tbl.mapAll s.keys {} (fun _ g =>
        { g with keys := Tbl.mapAll g.keys {} (fun _ x => x.afterReset), rate := keyScanHigh g.set, lastScan := none }) }

/-- Composition and the assay. The episodes that are open, and a replacement of colour, end with no record, on which the spec is
silent (log entry 58). -/
def State.resetCompose (s : State) : State := { s with comp := {} }

/-- Lanes, peers and encoder cores: a retired lane is tested anew at POR and PIN only (Table 9-4), a core at WARM too. -/
def State.resetLinks (s : State) (k : ResetKind) : State :=
  let x := s.links
  { s with links := { x with
    applyDue := x.applyDue || k.applies
    lanes := if k.defaults then []
      else Tbl.mapAll x.lanes {} (fun _ l => { state := if l.state = .retired then .retired else .off })
    eth := Tbl.mapAll x.eth {} (fun _ e => { setting := e.setting })
    peers := [], roomCo := none, roomPart := none
    encCores := if k.applies then [] else x.encCores } }

/-- The pair (R334, R336): a paired unit starts every reset as standby, with ARB released. -/
def State.resetPair (s : State) (k : ResetKind) : State :=
  let x := s.pair
  let on := if k.applies then x.cfgOn else x.enabled
  { s with pair := {
    cfgId := x.cfgId, cfgPort := x.cfgPort, cfgOn := x.cfgOn
    id := if k.applies then x.cfgId else x.id
    port := if k.applies then x.cfgPort else x.port
    enabled := on
    role := if on then .standby else .none
    arbHigh := x.arbHigh, arbSince := s.time.now, seenLow := on && !x.arbHigh && !x.driveLow, mirrorSince := s.time.now, mseq := x.mseq
    ledgerSent := x.ledgerSent } }

/-- Memory: DRAM content survives WARM alone, in self-refresh. A post-package repair is permanent (R256). -/
def State.resetMem (s : State) (k : ResetKind) : State :=
  let m := s.mem
  let keep : Bool := decide (k = .warm)
  { s with
    mem := { m with
      dram := if keep then m.dram else []
      chans := Tbl.mapAll m.chans {} (fun _ c => { repairsUsed := c.repairsUsed, repairShort := c.repairShort })
      regions := if k.applies then m.policy.map memRegionWord else m.regions
      teller := [], laid := if keep then m.laid else [], selfRefresh := keep, lastReq := s.time.now, panicFrom := none, panicNs := 0, remapDue := none }
    sec := { s.sec with vault := if keep then s.sec.vault else [], rewriting := [] } }

/-- Faults: active sources end; the Auditor keeps its log through the resets that do not restart it. -/
def State.resetFaults (s : State) (k : ResetKind) : State :=
  let f := s.fault
  { s with fault := { f with
    active := [], bursts := [], safe := none, exit := none, auditorBad := false, resetDue := none, alive := false
    log := if k.defaults then [] else f.log
    override := 0, healthSeq := 0, healthSeen := []
    thermalHold := f.thermalHold && !k.defaults
    tamperHold := if k = .por then none else f.tamperHold
    dead := f.dead && !k.defaults } }

/-- Protection (R354, R358, R361): the sets of the groups Teller owns return to their defaults once memory is trained. -/
def State.resetSec (s : State) (k : ResetKind) : State :=
  let x := s.sec
  let por : Bool := decide (k = .por)
  { s with sec := { x with
    stageStatus := 0, tally := [], halted := none
    mpu := Tbl.mapAll (x.mpu.filter (fun e => decide (e.1 < 2))) {} (fun _ g => { g with noticeOpen := none, drained := true })
    xtsKey := if por then x.xtsKey + 1 else x.xtsKey
    tamperTimes := if por then [] else x.tamperTimes
    tamperCount := if por then 0 else x.tamperCount
    vaultLocked := x.vaultLocked && !por
    dbg := if por then {} else x.dbg
    jtag := if por then 1 else x.jtag } }

/-- The ledger (R320, R325): at POR only spilled records survive, the power-cycle count rises, and operating time resumes
from the newest record in flash. -/
def State.resetLedger (s : State) (k : ResetKind) : State :=
  let g := s.ledger
  if k = .por then
    { s with ledger := {
      flash := g.flash, flashPos := g.flashPos, flashFailing := g.flashFailing, erases := g.erases
      powerCycle := if g.flash.isEmpty then 1 else w32 (g.powerCycle + 1)
      opBase := (g.inFlash.getLast?.map (fun e => e.2.optime)).getD 0
      porAt := s.time.now } }
  else { s with ledger := { g with limits := [] } }

/-- The session counter at POR (R274): the block after the newest one recorded in flash. -/
def State.resetCounter (s : State) (k : ResetKind) : State :=
  if k = .por then
    let newest := ((s.ledger.inFlash.filter (fun e => e.2.code == 0xC004 && !e.2.mirrored)).getLast?).map (fun e => e.2.p0)
    let n := match newest with
      | some b => let m := (b / 256 + 1) * 256; if 65535 < m then 1 else m
      | none => 1
    { s with mail := { s.mail with nextSession := n, block := none } }
  else s

/-- Power: every domain restarts but AON and, below PIN, the Auditor; the loops keep their envelopes with the
configuration, and their operating points restart (R381). -/
def State.resetPower (s : State) (k : ResetKind) (detail : Nat) : State :=
  let x := s.power
  let begun : Bool := !x.started && decide (x.resetKind < k.rank)
  { s with power := { x with
    state := .run, mask := 0, back := .run, backMask := 0, transition := none
    lastWake := if k.defaults then 0xFF else x.lastWake
    domains := Tbl.mapAll x.domains {} (fun d y =>
      if k.defaults then { temp := y.temp }
      else { on := y.on && d == 1, temp := y.temp, loMv := y.loMv, hiMv := y.hiMv, loC := y.loC, hiC := y.hiC })
    resetKind := if begun then x.resetKind else k.rank
    resetDetail := if begun then x.resetDetail else detail
    step := 0, started := false, resetAt := s.time.now, tellerAt := none
    startInSafe := if x.started ∨ k = .por then none else x.startInSafe
    auditorTimes := if k = .por then [] else x.auditorTimes
    reexamine := (!x.started && x.reexamine) || k.applies
    warmDue := none, flash := none } }

/-! ## Boot (R349, R352) -/

/-- An accepted lifecycle advance takes effect (R349): states advance only in the order of Table 16-1. -/
def State.applyLifecycle (s : State) : State :=
  match s.sec.lifecycleNext with
  | some (t, p) =>
    let old := lifeCode s.sec.lifecycle
    if lifeCode t ≤ old then { s with sec := { s.sec with lifecycleNext := none } }
    else (s.setLife t).later 0xA001 [old, lifeCode t, p, 0]
  | none => s

/-- Security version of an image (R351). -/
def Image.securityVersion (img : Image) : Nat :=
  if img.bytes.len = 0 then 0 else Bytes.at img.bytes (img.bytes.len - 208) 4

/-- The boot ROM checks the images (R352). -/
def State.boot (s : State) : State :=
  let s1 := match s.sec.staged with
    | none => s
    | some img =>
      match s.imageFault img with
      | none => { s with sec := { s.sec with
          running := img, staged := none
          otp := if img.securityVersion = s.otpField .secVersion then s.sec.otp
            else Tbl.put s.sec.otp (otpIndex .secVersion) img.securityVersion } }
      | some cause => s.later 0xA002 [cause, img.version, s.otpField .secVersion, 0]
  if (s1.imageFault s1.sec.running).isSome then { s1 with fault := { s1.fault with dead := true } } else s1

/-! ## The resets (R379) -/

/-- A reset of a kind of ranks 1 to 6, with its detail. -/
def State.reset' (s : State) (k : ResetKind) (detail : Nat) : State :=
  let s1 := s.endAll k.rank
  let s2 := if k.defaults then s1.configDefaults else s1
  let s3 := (s2.resetSets.resetTime k).dropFrames
  let s4 := ((s3.resetOutputs k).resetCompose.resetLinks k).resetPair k
  let s5 := ((s4.resetMem k).resetFaults k).resetSec k
  let s6 := (s5.resetCounter k).resetLedger k
  let s7 := s6.resetPower k detail
  if k.applies then s7.applyLifecycle.boot else s7

/-- The detail of a reset whose detail the spec does not give (log entry 24). -/
def State.openDetail (s : State) : Nat := w16 (Config.measured s.draw)

/-- An AUDITOR reset (R304): it is counted, and the third within 10 minutes starts in safe state. -/
def State.auditorReset (s : State) (detail msg : Nat) : State :=
  let s1 := s.reset' .auditor detail
  let times := s1.auditorRecent ++ [s1.time.now]
  { s1 with power := { s1.power with
    auditorTimes := times
    startInSafe := if 3 ≤ times.length then some msg else s1.power.startInSafe } }

/-- `POWER_ON_RESET`. -/
def execPowerOnReset (dt : Nat) (s : State) : Host.Outcome State Fault Refusal :=
  let s1 := s.elapse dt
  .next (s1.reset' .por 0)

/-- `PIN_RESET`. -/
def execPinReset (dt : Nat) (s : State) : Host.Outcome State Fault Refusal :=
  let s1 := s.elapse dt
  .next (s1.reset' .pin s1.openDetail)

/-- `WATCHDOG_RESET`: of Teller firmware that has started; `TELLER_WATCHDOG` reports it (Table 13-2). -/
def execWatchdogReset (dt : Nat) (s : State) : Host.Outcome State Fault Refusal :=
  let s1 := s.elapse dt
  if s1.heldInReset ∨ s1.power.state = .off ∨ s1.power.step < 3 then .next s1
  else .next ((s1.reset' .watchdog s1.openDetail).laterFault (faultMsg 0x070 2 0))

/-- `AUDITOR_RESET` (R304): 10 ms after the fault of severity 4. A trip of the junction sensors holds the reset. -/
def execAuditorReset (dt : Nat) (s : State) : Host.Outcome State Fault Refusal :=
  let s1 := s.elapse dt
  match s1.fault.resetDue with
  | some (t, msg) =>
    if !s1.auditorUp ∨ s1.time.now < t then .next s1
    else
      let hot : Bool := msg % 256 == 9 || s1.fault.active.any (fun a => a.source == 9)
      let s2 := s1.auditorReset (msg % 256) msg
      .next { s2 with fault := { s2.fault with thermalHold := s2.fault.thermalHold || hot } }
  | none => .next s1

/-- `PAIR_RESET` (R345): of a standby that has seen three releases of the pulse's length within 4 ms. -/
def execPairReset (dt : Nat) (s : State) : Host.Outcome State Fault Refusal :=
  let s1 := s.elapse dt
  let seen := s1.pair.arbPulses.filter (fun t => decide (s1.time.now ≤ t + 4000000))
  if !s1.windowUp ∨ !s1.pair.enabled ∨ s1.pair.role ≠ .standby ∨ seen.length < 3 then .next s1
  else .next (s1.reset' .pair s1.openDetail)

/-- `WARM_RESET`: once `DEVICE_RESET` or an advance to RETIRED has asked for it. -/
def execWarmReset (dt : Nat) (s : State) : Host.Outcome State Fault Refusal :=
  let s1 := s.elapse dt
  match s1.power.warmDue with
  | some p => if s1.tellerUp then .next (s1.reset' .warm p) else .next s1
  | none => .next s1

/-! ## Tamper and the holds in reset (R304, R357, R358) -/

/-- The Vault after a tamper reset (R357, R358): its slots are cleared, and the eighth within 10 minutes locks it. -/
def State.tampered (s : State) (m : Nat) : State :=
  let x := s.sec
  let times := (x.tamperTimes.filter (fun t => decide (s.time.now < t + 600000000000))) ++ [s.time.now]
  let n := x.tamperCount + 1
  let locks : Bool := decide (8 ≤ times.length) && !x.vaultLocked
  let sec : SecSt := { x with
    slots := [], tamperTimes := times, tamperCount := n, vaultLocked := x.vaultLocked || locks }
  let s1 : State := { s with sec := sec, fault := { s.fault with tamperHold := some m } }
  let s2 := s1.later 0xA020 [m, n, 0, 0]
  if locks then s2.later 0xA013 [times.length, m, 0, 0] else s2

/-- `TAMPER_TRIP` (R357, R358): an AUDITOR reset with cause TAMPER; in OFF nothing runs that it could reset. -/
def execTamperTrip (dt : Nat) (m : Fin 4) (s : State) : Host.Outcome State Fault Refusal :=
  let s1 := s.elapse dt
  if s1.power.state = .off then .next s1
  else
    let msg := faultMsg 0x080 2 m
    .next (((s1.auditorReset m msg).tampered m).laterFault msg)

/-- A hold in reset ends: the start counts from here (R383). -/
def State.released (s : State) : State := { s with power := { s.power with resetAt := s.time.now } }

/-- `TAMPER_HOLD_RELEASE` (R357): 1 ms after the condition has ended, and so after the trip. -/
def execTamperHoldRelease (dt : Nat) (s : State) : Host.Outcome State Fault Refusal :=
  let s1 := s.elapse dt
  if s1.fault.tamperHold.isSome ∧ s1.power.resetAt + 1000000 ≤ s1.time.now then .next { s1 with fault := { s1.fault with tamperHold := none } }.released else .next s1

/-- `THERMAL_TRIP_HOLD_RELEASE` (R304). -/
def execThermalTripHoldRelease (dt : Nat) (s : State) : Host.Outcome State Fault Refusal :=
  let s1 := s.elapse dt
  if s1.fault.thermalHold then .next { s1 with fault := { s1.fault with thermalHold := false } }.released else .next s1

/-! ## DOMAIN resets (Table 17-3) -/

/-- A stream loses its decoder state with its core: it waits for a random-access point and a core (Table 17-4), with the held
parameter sets loaded (R82). -/
def DecRun.afterReset (x : DecRun) (held : List ParamSet) : DecRun :=
  match x.state with
  | .idle | .stopped => { x with core := none }
  | _ => { state := .waitRap, sets := replaceSets [] held, lastClass := x.lastClass, lastPoc := x.lastPoc, discarded := x.discarded, stops := x.stops
           restarts := x.restarts, stopTimes := x.stopTimes, summary := x.summary }

/-- The round of an output begins again: its tiles are marked. -/
def OutComp.restart (x : OutComp) : OutComp :=
  match x.round with
  | some r => if r.done then x else { x with round := none, marks := r.tiles.foldl insertNat x.marks }
  | none => x

/-- The units of a domain are as after a fresh power-up. -/
def State.freshUnits (s : State) (d : Nat) : State :=
  if 4 ≤ d ∧ d < 8 then
    { s with src := { s.src with dec := Tbl.mapAll s.src.dec {} (fun i x =>
      if x.core = some (d - 4) then x.afterReset (s.heldSets i) else x) } }
  else if d = 8 then s.stopEncoder.replaceJobs
  else if 9 ≤ d ∧ d < 13 then
    { s with comp := { s.comp with out := Tbl.mapAll s.comp.out {} (fun _ x => x.restart) } }
  else if d = 13 then
    let s1 := (each (upTo 24) s (fun s h => (s.proofDrop h).endVoids h)).dropTags
    let s2 := { s1 with
      heads := []
      panels := Tbl.mapAll s1.panels {} (fun _ x =>
        if x.push.isSome then { x with push := none, fullDue := true } else x) }
    each ((upTo 24).filter s2.sets.active.shows) s2.notePanic (fun s h =>
      let stopped := (s1.head h).safeStopped
      (s.setHead h { state := if stopped then .off else .locking, safeStopped := stopped }).refreshProven h)
  else if 14 ≤ d ∧ d < 18 then
    each [2 * (d - 14), 2 * (d - 14) + 1] s (fun s c =>
      let x := s.chan c
      match x.state with
      | .absent => s
      | .retired => s.setChan c { repairsUsed := x.repairsUsed, repairShort := x.repairShort }
      | _ => s.setChan c { repairsUsed := x.repairsUsed, repairShort := x.repairShort, sizeMiB := x.sizeMiB, rate := x.rate })
  else if 18 ≤ d ∧ d < 24 then (s.lanesDown d).lanesUp d
  else if d = 24 then { s with panels := [] }.keysFast.startConsole
  else
    each [0, 1] s (fun s p =>
      s.setPort p { s.port p with msixTable := ({} : PortSt).msixTable, msixPending := 0 })

/-- `DOMAIN_RESET`: of a switched domain other than 1 to 3 that is on. The pending commit is withdrawn, its held response
posted (R141); sessions and safe state stay. -/
def execDomainReset (dt : Nat) (d : Fin 26) (s : State) : Host.Outcome State Fault Refusal :=
  let s1 := s.elapse dt
  if !s1.tellerUp ∨ d.val < 4 ∨ !(s1.domain d).on then .next s1
  else
    let detail := s1.openDetail
    let s2 := match s1.sets.pending with
      | some c => ((s1.endCommit c .withdrawn).log 0x3104 [c.seq, c.group, 7, 0]).deferResponse c
      | none => s1
    let s3 := if s2.power.started then
        { s2 with power := { s2.power with resetKind := 7, resetDetail := detail } } else s2
    let s4 := s3.log 0x0001 [7, detail, s3.auditorRecent.length, w32 s3.time.room]
    let s5 := ((s4.domainOff d 3).freshUnits d).domainOn d 3
    .next (s5.selfTests d (s5.testOf d))

/-! ## The end of a start (R88, R313, R383) -/

/-- The self-test of a decoder core at a start (R88): its domain comes up for the test and goes down again. -/
def State.testCore (s : State) (c : Nat) : State :=
  let s1 := s.domainOn (4 + c) 1
  let (s2, l) := s1.testDomain (4 + c) (s1.testOf (4 + c))
  if l ≠ [] then s2.coreFails c
  else
    let s3 := { s2 with src := { s2.src with cores := Tbl.set s2.src.cores {} c { failed := false } } }
    if s3.needs (4 + c) then s3 else s3.domainOff (4 + c) 1

/-- Re-examine the stored service causes (R313): a cause whose condition was not found again clears; those of R316 bits 6
to 8 never do. -/
def State.reexamineCauses (s : State) : State :=
  if !s.power.reexamine then s
  else
    each (upTo 6) { s with power := { s.power with reexamine := false } } (fun s b =>
      if s.fault.service.toNat.testBit b ∧ !s.fault.active.any (fun a => serviceCause a.source == some b) then
        { s with fault := { s.fault with service := s.fault.service &&& ~~~(BitVec.ofNat 9 (1 <<< b)) } }.log 0x8031
          [b, w32 (Config.measured s.draw), 0, 0]
      else s)

/-- A lane that stays retired keeps its fault, and with it its service cause (Table 9-4, R313; log entry 58). -/
def State.stillRetired (s : State) : State :=
  each ((upTo 48).filter (fun l => decide ((s.links.lane l).state = .retired)
    && !s.fault.active.any (fun a => a.source == 0x031 && a.param == l))) s (fun s l => s.raised 0x031 l)

/-- Step 7 (Table 17-5): the domains the restored configuration needs, each tested. -/
def State.powerNeeded (s : State) : State :=
  each ((from' 8 17).filter (fun d => s.needs d && s.allows d && !(s.domain d).on)) s (fun s d =>
    let s1 := s.domainOn d 1
    (s1.selfTests d (s1.testOf d)).domainStarts d)

/-- `START_COMPLETE` (R383, R336): every step has finished; ALIVE begins, unless the device starts in safe state. -/
def execStartComplete (dt : Nat) (s : State) : Host.Outcome State Fault Refusal :=
  let s1 := s.elapse dt
  if !s1.tellerUp ∨ s1.power.started then .next s1
  else
    let s2 := (s1.reach 6).applyTable
    let s3 := ((each (upTo 4) s2 State.testCore).reach 7).powerNeeded.stillRetired.reexamineCauses
    let s4 := { s3 with
      power := { s3.power with started := true }
      fault := { s3.fault with alive := !s3.inSafe }
      pair := { s3.pair with arbSince := s3.time.now } }
    .next ((s4.log 0x0002
      [(s4.time.now - s4.power.resetAt) / 1000000, s4.sec.running.version, lifeCode s4.sec.lifecycle, 0]).notifyHealth false)

/-- `PERST_RISE` (R384): the port answers configuration requests, whatever the progress of start. -/
def execPerstRise (dt : Nat) (h : Fin 2) (s : State) : Host.Outcome State Fault Refusal :=
  let s1 := s.elapse dt
  .next { s1 with power := { s1.power with perst := s1.power.perst ||| BitVec.ofNat 2 (1 <<< h.val) } }

/-! ## The end of a flash write (R289) -/

/-- What a message marked Flash stores, and its answer. -/
def State.flashDone (s : State) (j : FlashJob) : State :=
  let p := j.port
  let r := j.req
  match r.opcode with
  | 0x0103 =>
    let img := j.image.getD {}
    ({ s with sec := { s.sec with staged := j.image } }.stageEnd stOk).answer p r stOk (wordsLE [img.crc, img.version])
  | 0x0803 => (s.storeReference (r.u8 0)).status p r stOk
  | 0x0C01 => (s.storePair r).status p r stOk
  | 0x0D01 => (s.storeTable (r.payload.bits 6688)).status p r stOk
  | 0x0E03 => (s.storeDelays r).status p r stOk
  | 0x0F02 =>
    (match lifeOfCode (r.u8 0) with
      | some t => s.advanceLifecycle p t
      | none => s).status p r stOk
  | _ => s.status p r stOk

/-- `FLASH_WRITE_COMPLETE` (R289): a failed write leaves the stored copy in force. -/
def execFlashWriteComplete (dt : Nat) (ok : Bool) (s : State) : Host.Outcome State Fault Refusal :=
  let s1 := s.elapse dt
  match s1.power.flash with
  | some j =>
    if !s1.tellerUp then .next s1
    else
      let s2 := { s1 with power := { s1.power with flash := none } }
      if ok then .next (s2.flashDone j)
      else
        let s3 := if j.req.opcode = 0x0103 then s2.stageEnd stFlashFailed else s2
        .next (s3.flashError.status j.port j.req stFlashFailed)
  | none => .next s1

end Sys2Proof.Machine
end

