-- ==== Sys2Proof/Machine/RoomFrame.lean ====
section
/-!
DEFINITION. The start of a room frame (R57 to R60, R424): what takes effect there.
-/
namespace Sys2Proof.Machine

/-! ## What takes effect at a frame start -/

/-- Perform an accepted backward step (R55): every frame is withdrawn and every record aged before room time steps. -/
def State.performStepBack (s : State) : State :=
  match s.time.stepBack with
  | some n =>
    let s2 := each ((upTo 32).filter s.sets.active.shows) s.outdate.ageAll State.markAll
    let s3 := { s2 with time := { s2.time with stepBack := none } }
    ((s3.stepRoom (-(n : Int)) s3.time.state).setOffset 0).endAhead
  | none => s

/-- The frame clock takes another setting. One that turns to GENLOCK_IN while it is lost runs on at the last measured period and
phase; one that leaves it while it moves to the phase of the returned input needs that no longer (R58, R60). -/
def TimeSt.clocked (t : TimeSt) (k : FrameClock) : TimeSt :=
  let last := t.glLast.getD 0
  { t with
    clock := k, clockNext := none
    glRunOn := t.glRunOn && (!t.glLock || k.genlockIn)
    glNext := if t.clock.genlockIn ∨ t.glPeriod = 0 then t.glNext
      else last + ((t.now - last) / t.glPeriod + 1) * t.glPeriod }

/-- An accepted change of the frame clock (R60): every scanning head stops in place of its next `FRAME_START`. -/
def State.changeClock (s : State) : State :=
  match s.time.clockNext with
  | some k =>
    let s1 := { s with time := s.time.clocked k }.encReprice
    each (upTo 24) s1 (fun s h =>
      if s.scanning h then s.setHead h { s.head h with stopNext := some ((s.head h).stopNext.getD 3) } else s)
  | none => s

/-- A frame start for heads that do not scan (R154): a synthesiser holds on; an unlocked head locks again. -/
def State.holdHeads (s : State) : State :=
  each (upTo 24) s (fun s h =>
    let x := s.head h
    match x.state with
    | .locking => s.setHead h { x with held := x.held + 1 }
    | .unlocked => s.setHead h { x with state := .locking, held := 0 }
    | _ => s)

/-- Every enabled head that is off, and not stopped by safe state, locks. -/
def State.lockHeads (s : State) : State :=
  each ((upTo 24).filter s.sets.active.shows) s (fun s h =>
    let x := s.head h
    match x.state, x.safeStopped with
    | .off, false => (s.setHead h { x with state := .locking, held := 0 }).refreshProven h
    | _, _ => s)

/-- Scan-out and the Console start under the restored set; a panel that starts in safe state is voided (R184). -/
def State.restoreOutputs (s : State) : State :=
  let s1 := if s.maskedOff 13 then s else s.lockHeads
  let s2 := if s1.maskedOff 24 then s1 else s1.startConsole
  if s2.inSafe then each (upTo 8) s2 State.safePanel else s2

/-- Encode jobs restart, outside safe state and where the Encoder may be on (R213, R376). -/
def State.restartJobs (s : State) : State := if s.inSafe || s.maskedOff 8 then s else s.encRestart

/-- The restored active set takes effect (R381, R17, R63): subscriptions, outputs and jobs start. -/
def State.restoreSet (s : State) : State :=
  if !s.sets.restorePending || decide (s.power.state = .night) then s
  else
    let s1 := { s with sets := { s.sets with restorePending := false } }
    s1.subscribeAll.checkColours.restoreOutputs.restartJobs

/-- The output emits frames at its own frame starts or TEs. -/
def State.emits (s : State) (o : Nat) : Bool :=
  if isHead o then s.scanning o
  else match (s.panel (o - 24)).lastTe with
    | some t => !(s.panel (o - 24)).teLost && decide (s.time.now ≤ t + 100000000)
    | none => false

/-- The outputs of the settled commit that emit nothing take it at the room frame start, which reports it where no output
is its master (R133, R139). -/
def State.effectAtRoom (s : State) : State :=
  match s.sets.effect with
  | some (c, outs) =>
    let s1 := each (outs.filter (fun o => !s.emits o)) s (fun s o => s.takeEffect o)
    let live : Bool := match c.master with | some o => s.emits o | none => false
    if live ∨ c.reported then s1 else s1.report 0
  | none => s

/-- The exit from safe state takes effect (R310); each layer takes the reason the assay then finds (R428). -/
def State.leaveSafe (s : State) : State :=
  match s.fault.safe, s.fault.exit with
  | some x, some (p, session) =>
    let s1 := { s with
      fault := { s.fault with safe := none, exit := none, alive := s.power.started }
      comp := { s.comp with voids := [] } }
    let s2 := each (upTo 24) s1 (fun s h =>
      let y := s.head h
      if y.safeStopped then
        (s.setHead h { y with
          safeStopped := false, held := 0
          state := if s.sets.active.shows h ∧ !s.maskedOff 13 then .locking else .off }).refreshProven h
      else s)
    let s3 := each (upTo 8) s2 (fun s q =>
      let y := s.panel q
      match y.state with
      | .running | .dark => s.setPanel q { y with fullDue := true, voidDue := false }
      | .starting => s.setPanel q { y with voidDue := false, fullOwed := y.fullOwed || decide (6 ≤ y.step) }
      | _ => s.setPanel q { y with voidDue := false })
    let s4 := s3.snapshotKeys
    let s5 := s4.restartJobs
    let s6 := s5.log 0x8011 [p, session, (s5.time.now - x.since) / 1000000, x.faults]
    (s6.postAll 0x0A02 [0, x.msg % 256, bitsOf x.msg 15 10, bitsOf x.msg 31 16]).promoteAfterSafe
  | _, _ => s

/-- A room frame starts at a room time (R57, R59, R424). While a start is in progress nothing acts on it (R381). -/
def State.roomFrame (s : State) (t : Nat) : State :=
  let s1 := { s with time := { s.time with
    frameN := w32 (s.time.frameN + 1), frameT := t, framePast := t, glOutUntil := s.time.now + 4000 } }
  if !s1.tellerUp ∨ !s1.power.started then s1
  else ((s1.performStepBack.changeClock.holdHeads.restoreSet).effectAtRoom.leaveSafe).notifyHealth false

/-! ## The commands -/

/-- How far the next frame start of a clock that runs on lies from the input's phase, signed ns. -/
def TimeSt.phaseError (t : TimeSt) : Int :=
  let period : Int := t.glPeriod
  let r := ((t.glNext : Int) + period - (t.glLast.getD 0 : Int)) % period
  if 2 * r ≤ period then -r else period - r

/-- The frame start of a clock that runs on (R58): at the last measured period, and, once lock has returned, moving to the
input's phase by at most 0.1 % of a period per frame. -/
def TimeSt.runOn (t : TimeSt) : TimeSt :=
  if t.glLock then
    let most : Int := t.glPeriod / 1000
    let err := t.phaseError
    { t with glNext := ((t.glNext : Int) + t.glPeriod + max (-most) (min err most)).toNat }
  else { t with glNext := t.glNext + t.glPeriod }

/-- `ROOM_FRAME_START` (R57, R424): a formula time has been reached, or the frame start of a clock that runs on. -/
def execRoomFrameStart (dt : Nat) (s : State) : Host.Outcome State Fault Refusal :=
  let s1 := s.elapse dt
  let t := s1.time
  if s1.power.state = .off then .next s1
  else if t.clock.genlockIn then
    if t.glRunOn ∧ t.glNext ≤ t.now then .next ({ s1 with time := t.runOn }.roomFrame t.room) else .next s1
  else match t.clock.upTo t.room with
    | some f => if t.framePast < f then .next (s1.roomFrame f) else .next s1
    | none => .next s1

/-- `now` lies within 0.1 % of a period of a frame start of the clock that runs on. -/
def TimeSt.atStart (t : TimeSt) (start : Nat) : Bool :=
  decide ((if t.now ≤ start then start - t.now else t.now - start) * 1000 ≤ t.glPeriod)

/-- An edge of the returned input and a clock that runs on (R58): at the clock's own next start the edge starts that frame; just
after its last start the frame has begun. Either way the clock is in the input's phase, and edges start frames again. -/
def State.rejoin (s : State) : State :=
  let t := s.time
  let joined := { s with time := { t with glRunOn := false } }
  if !(t.clock.genlockIn && t.glRunOn && t.glLock) then s
  else if t.atStart t.glNext then joined.roomFrame t.room
  else if t.atStart (t.glNext - t.glPeriod) then joined
  else s

/-- `GENLOCK_IN_EDGE` (R57, R58): the edge is measured, and starts a frame under frame source `GENLOCK_IN`. -/
def execGenlockInEdge (dt : Nat) (s : State) : Host.Outcome State Fault Refusal :=
  let s1 := s.elapse dt
  if !s1.tellerUp then .next s1
  else
    let s2 := if s1.time.glLock then s1.genlockTrack else s1.genlockSeek
    .next (if s1.edgeStarts then s2.roomFrame s2.time.room else s2.rejoin)

end Sys2Proof.Machine
end

