-- ==== Sys2Proof/Machine/Tally.lean ====
section
/-!
DEFINITION. The Tally engines (14_ledger_and_tally.md): jobs, contexts, and the scrub of the configuration sets.
-/
namespace Sys2Proof.Machine

def State.tally (s : State) (e : Nat) : TallyRun := Tbl.get s.sec.tally {} e
def State.setTally (s : State) (e : Nat) (x : TallyRun) : State :=
  { s with sec := { s.sec with tally := Tbl.set s.sec.tally {} e x } }

/-- The job a `TALLY_RUN` payload asks for (Table 14-5). -/
def tallyJob (r : Request) : TallyCtx :=
  { compare := (r.u8 1).testBit 0, refIn := (r.u8 25).testBit 0, refOut := (r.u8 25).testBit 1,
    xorOut := (r.u8 25).testBit 2, width := r.u8 24, poly := r.u32 28, addr := r.u64 4, remaining := r.u32 12,
    reg := r.u32 16, expected := r.u32 20 }

/-- A configuration R328 accepts. -/
def tallyLegal (c : TallyCtx) : Bool :=
  (c.width == 16 || c.width == 32) && c.poly % 2 == 1
    && (c.width == 32 || (decide (c.reg < 65536) && decide (c.expected < 65536)))

/-- The bytes of a job can be read: under the host's MPU set, and from channels that answer (R330). -/
def State.tallyReadable (s : State) (g addr len : Nat) : Bool :=
  (linesOf addr len).all (fun l => s.mpuAllows g false l && s.dramAnswers l)

/-- A context `n` bytes further on (R328). -/
def TallyCtx.advance (c : TallyCtx) (m : List Host.Cell) (n : Nat) : TallyCtx :=
  let bytes := (upTo n).map (fun i => (Memory.read m (c.addr + i)).toNat)
  { c with addr := c.addr + n, remaining := c.remaining - n,
           reg := crcFeed c.width c.poly c.refIn c.reg bytes % 2 ^ c.width }

/-- The result of a job whose bytes have all been read. -/
def TallyCtx.result (c : TallyCtx) : Nat := crcFinal c.width c.refOut c.xorOut c.reg

/-- A job meets a read that is denied or error-completed: what it had read, and the notice of a denial (R330, R362). -/
def State.tallyBlocked (s : State) (e : Nat) : State :=
  let x := s.tally e
  match (linesOf x.ctx.addr x.ctx.remaining).find? (fun l => !(s.mpuAllows x.port false l && s.dramAnswers l)) with
  | some l =>
    let s1 := s.setTally e { x with state := 2, ctx := x.ctx.advance s.mem.dram (l - x.ctx.addr), tag := none }
    if s.mpuAllows x.port false l then s1 else s1.deniedRead x.port l
  | none => s.setTally e { x with state := 2, tag := none }

/-- Finish the job of an engine with every byte read: the result, and a mismatch counted and recorded (R330). -/
def State.tallyFinish (s : State) (e : Nat) : State :=
  let x := s.tally e
  let c := x.ctx.advance s.mem.dram x.ctx.remaining
  let bad := c.compare && c.result != c.expected
  let s1 := s.dramRequest.setTally e { x with
    state := 2, ctx := c, result := c.result, tag := none, mismatches := x.mismatches + b2n bad }
  if bad then s1.log 0x8050 [e, c.result, c.expected, x.port] else s1

/-- Payload of a `TALLY_RUN` response: result and match. -/
def tallyPayload (x : TallyRun) : Bytes :=
  Bytes.join [leBytes 4 x.result, leBytes 1 (b2n (x.ctx.compare && x.result == x.ctx.expected)), leBytes 3 0]

/-- `TALLY_RUN` (R328 to R330): a job above 64 KiB is held until it completes (R290); a shorter one completes within its
response. -/
def execTallyRun (dt : Nat) (p : Fin 4) (s : State) : Host.Outcome State Fault Refusal :=
  .next (s.serve dt p 0x1001 (fun s r =>
    let e := r.u8 0
    let c := tallyJob r
    if 1 < e ∨ !tallyLegal c then s.status p r stNotSupported
    else if (s.tally e).state = 1 then s.status p r stBusy
    else if 65536 < c.remaining then
      if !s.canHold p then s.status p r stBusy
      else
        (s.setTally e { s.tally e with state := 1, ctx := c, port := p, tag := some (r.tag, true) }).hold p r e
    else if !s.tallyReadable p c.addr c.remaining then
      ((s.setTally e { s.tally e with state := 1, ctx := c, port := p, tag := none }).tallyBlocked e).status p r stDenied
    else
      let s1 := (s.setTally e { s.tally e with state := 1, ctx := c, port := p, tag := none }).tallyFinish e
      s1.answer p r stOk (tallyPayload (s1.tally e))))

/-- `TALLY_JOB_DONE` (R330). `readOk` is false when a read was error-completed. -/
def execTallyJobDone (dt : Nat) (e : Fin 2) (readOk : Bool) (s : State) : Host.Outcome State Fault Refusal :=
  let s1 := s.elapse dt
  let x := s1.tally e
  if x.state ≠ 1 then .next s1
  else if readOk && s1.tallyReadable x.port x.ctx.addr x.ctx.remaining then
    let s2 := s1.tallyFinish e
    match x.tag with
    | some (t, _) => .next (s2.release x.port 0x1001 t stOk (tallyPayload (s2.tally e)))
    | none => .next s2
  else
    let s2 := s1.tallyBlocked e
    match x.tag with
    | some (t, _) => .next (s2.release x.port 0x1001 t stDenied Bytes.none)
    | none => .next s2

/-- `TALLY_STATUS_GET` (Table 12-13). -/
def execTallyStatusGet (dt : Nat) (p : Fin 4) (s : State) : Host.Outcome State Fault Refusal :=
  .next (s.serve dt p 0x1002 (fun s r =>
    s.answer p r stOk (wordsLE ((upTo 2).flatMap (fun e =>
      [e, (s.tally e).state, (s.tally e).result, (s.tally e).mismatches])))))

/-- A context in the layout of Table 14-6, with its check. -/
def TallyCtx.bytes (c : TallyCtx) : Bytes :=
  let b := Bytes.join [leBytes 1 1,
    leBytes 1 (b2n c.compare + 2 * b2n c.refIn + 4 * b2n c.refOut + 8 * b2n c.xorOut), leBytes 1 c.width, leBytes 1 0,
    leBytes 4 c.poly, leBytes 8 c.addr, leBytes 4 c.remaining, leBytes 4 c.reg, leBytes 4 c.expected]
  Bytes.cat b (leBytes 4 (crc32 b))

/-- The context 32 bytes spell, when its version and check hold (R332). -/
def tallyContext (b : Bytes) : Option TallyCtx :=
  let f := Bytes.byte b 1
  if Bytes.byte b 0 = 1 ∧ Bytes.at b 28 4 = crc32 (Bytes.slice b 0 28) then
    some { compare := f.testBit 0, refIn := f.testBit 1, refOut := f.testBit 2, xorOut := f.testBit 3,
           width := Bytes.byte b 2, poly := Bytes.at b 4 4, addr := Bytes.at b 8 8, remaining := Bytes.at b 16 4,
           reg := Bytes.at b 20 4, expected := Bytes.at b 24 4 }
  else none

/-- How many bytes a running job has read when it is stopped: free within the job, at a 64-byte boundary or its end. -/
def State.tallyStop (s : State) (c : TallyCtx) : Nat :=
  let n := Config.measured s.draw % (c.remaining + 1)
  min c.remaining ((c.addr + n + 63) / 64 * 64 - c.addr)

/-- `TALLY_CONTEXT_SAVE` (R332). -/
def execTallyContextSave (dt : Nat) (p : Fin 4) (s : State) : Host.Outcome State Fault Refusal :=
  .next (s.serve dt p 0x1003 (fun s r =>
    let e := r.u8 0
    if 1 < e then s.status p r stNotSupported
    else
      let x := s.tally e
      if x.state = 1 then
        let c := x.ctx.advance s.mem.dram (s.tallyStop x.ctx)
        let s1 := s.setTally e { x with state := 0, ctx := c, tag := none }
        let s2 := match x.tag with
          | some (t, _) =>
            s1.release x.port 0x1001 t stDeferred (Bytes.join [leBytes 4 c.reg, leBytes 4 0])
          | none => s1
        s2.answer p r stOk c.bytes
      else s.answer p r stOk { x.ctx with remaining := 0 }.bytes))

/-- `TALLY_CONTEXT_RESTORE` (R332). -/
def execTallyContextRestore (dt : Nat) (p : Fin 4) (s : State) : Host.Outcome State Fault Refusal :=
  .next (s.serve dt p 0x1004 (fun s r =>
    let e := r.u8 0
    if 1 < e then s.status p r stNotSupported
    else if (s.tally e).state = 1 then s.status p r stBusy
    else match tallyContext (Bytes.slice r.payload 4 32) with
      | none => s.status p r stNotSupported
      | some c => (s.setTally e { s.tally e with state := 1, ctx := c, port := p, tag := none }).status p r stOk))

/-- `CONFIG_SCRUB` (R331): a mismatch raises `TELLER_ASSERT` with check code 1. -/
def execConfigScrub (dt : Nat) (intact : Bool) (s : State) : Host.Outcome State Fault Refusal :=
  let s1 := s.elapse dt
  if !s1.tellerUp then .next s1
  else if intact then .next s1
  else .next ({ s1 with sets := { s1.sets with crcOk := false } }.happened 0x071 1)

end Sys2Proof.Machine
end

