-- ==== Sys2Proof/Machine/Dispatch.lean ====
section
/-!
DEFINITION. The dispatch of commands: one arm per constructor of `Instr`, each a direct call of its meaning.
-/
namespace Sys2Proof.Machine

def exec (i : Instr) (s : State) : Host.Outcome State Fault Refusal :=
  match i with
  | .sessionOpen dt p => Sys2Proof.Machine.execSessionOpen dt p s
  | .sessionClose dt p => Sys2Proof.Machine.execSessionClose dt p s
  | .deviceInfoGet dt p => Sys2Proof.Machine.execDeviceInfoGet dt p s
  | .deviceReset dt p => Sys2Proof.Machine.execDeviceReset dt p s
  | .firmwareStage dt p => Sys2Proof.Machine.execFirmwareStage dt p s
  | .firmwareStatusGet dt p => Sys2Proof.Machine.execFirmwareStatusGet dt p s
  | .sourceSet dt p => Sys2Proof.Machine.execSourceSet dt p s
  | .sourceStatusGet dt p => Sys2Proof.Machine.execSourceStatusGet dt p s
  | .surfaceSet dt p => Sys2Proof.Machine.execSurfaceSet dt p s
  | .surfacePublish dt p => Sys2Proof.Machine.execSurfacePublish dt p s
  | .sourceParamsSet dt p => Sys2Proof.Machine.execSourceParamsSet dt p s
  | .decodeRestart dt p => Sys2Proof.Machine.execDecodeRestart dt p s
  | .roomTimeConfig dt p => Sys2Proof.Machine.execRoomTimeConfig dt p s
  | .roomTimeStatus dt p => Sys2Proof.Machine.execRoomTimeStatus dt p s
  | .roomTimeStepBack dt p => Sys2Proof.Machine.execRoomTimeStepBack dt p s
  | .decodeStatusGet dt p => Sys2Proof.Machine.execDecodeStatusGet dt p s
  | .layerSet dt p => Sys2Proof.Machine.execLayerSet dt p s
  | .layerStripe dt p => Sys2Proof.Machine.execLayerStripe dt p s
  | .toneProfileSet dt p => Sys2Proof.Machine.execToneProfileSet dt p s
  | .composeStatusGet dt p => Sys2Proof.Machine.execComposeStatusGet dt p s
  | .tileRecordGet dt p => Sys2Proof.Machine.execTileRecordGet dt p s
  | .outputSet dt p => Sys2Proof.Machine.execOutputSet dt p s
  | .outputStatusGet dt p => Sys2Proof.Machine.execOutputStatusGet dt p s
  | .outputEventsSet dt p => Sys2Proof.Machine.execOutputEventsSet dt p s
  | .panelInitSet dt p => Sys2Proof.Machine.execPanelInitSet dt p s
  | .commit dt p => Sys2Proof.Machine.execCommit dt p s
  | .commitStatusGet dt p => Sys2Proof.Machine.execCommitStatusGet dt p s
  | .commitCancel dt p => Sys2Proof.Machine.execCommitCancel dt p s
  | .commitGroupSet dt p => Sys2Proof.Machine.execCommitGroupSet dt p s
  | .roomCommit dt p => Sys2Proof.Machine.execRoomCommit dt p s
  | .setCopy dt p => Sys2Proof.Machine.execSetCopy dt p s
  | .setRead dt p => Sys2Proof.Machine.execSetRead dt p s
  | .freshPolicySet dt p => Sys2Proof.Machine.execFreshPolicySet dt p s
  | .freshStatusGet dt p => Sys2Proof.Machine.execFreshStatusGet dt p s
  | .freshProofRun dt p => Sys2Proof.Machine.execFreshProofRun dt p s
  | .encodeSet dt p => Sys2Proof.Machine.execEncodeSet dt p s
  | .encodeStatusGet dt p => Sys2Proof.Machine.execEncodeStatusGet dt p s
  | .encodeRefresh dt p => Sys2Proof.Machine.execEncodeRefresh dt p s
  | .keyGroupSet dt p => Sys2Proof.Machine.execKeyGroupSet dt p s
  | .keyStateGet dt p => Sys2Proof.Machine.execKeyStateGet dt p s
  | .keyReferenceStore dt p => Sys2Proof.Machine.execKeyReferenceStore dt p s
  | .keyRawGet dt p => Sys2Proof.Machine.execKeyRawGet dt p s
  | .ledgerInfoGet dt p => Sys2Proof.Machine.execLedgerInfoGet dt p s
  | .ledgerRead dt p => Sys2Proof.Machine.execLedgerRead dt p s
  | .ledgerNote dt p => Sys2Proof.Machine.execLedgerNote dt p s
  | .healthGet dt p => Sys2Proof.Machine.execHealthGet dt p s
  | .faultSeveritySet dt p => Sys2Proof.Machine.execFaultSeveritySet dt p s
  | .faultLogGet dt p => Sys2Proof.Machine.execFaultLogGet dt p s
  | .safeExit dt p => Sys2Proof.Machine.execSafeExit dt p s
  | .powerStateSet dt p => Sys2Proof.Machine.execPowerStateSet dt p s
  | .powerStatusGet dt p => Sys2Proof.Machine.execPowerStatusGet dt p s
  | .loopEnvelopeSet dt p => Sys2Proof.Machine.execLoopEnvelopeSet dt p s
  | .wakeSourcesSet dt p => Sys2Proof.Machine.execWakeSourcesSet dt p s
  | .pairConfigSet dt p => Sys2Proof.Machine.execPairConfigSet dt p s
  | .pairStatusGet dt p => Sys2Proof.Machine.execPairStatusGet dt p s
  | .pairSwitch dt p => Sys2Proof.Machine.execPairSwitch dt p s
  | .peerStatusGet dt p => Sys2Proof.Machine.execPeerStatusGet dt p s
  | .laneTableLoad dt p => Sys2Proof.Machine.execLaneTableLoad dt p s
  | .laneTableGet dt p => Sys2Proof.Machine.execLaneTableGet dt p s
  | .laneStatusGet dt p => Sys2Proof.Machine.execLaneStatusGet dt p s
  | .laneTune dt p => Sys2Proof.Machine.execLaneTune dt p s
  | .ethPortSet dt p => Sys2Proof.Machine.execEthPortSet dt p s
  | .lanePrbs dt p => Sys2Proof.Machine.execLanePrbs dt p s
  | .memStatusGet dt p => Sys2Proof.Machine.execMemStatusGet dt p s
  | .memPolicySet dt p => Sys2Proof.Machine.execMemPolicySet dt p s
  | .memFixedDelaysSet dt p => Sys2Proof.Machine.execMemFixedDelaysSet dt p s
  | .memFreezeDumpGet dt p => Sys2Proof.Machine.execMemFreezeDumpGet dt p s
  | .lifecycleGet dt p => Sys2Proof.Machine.execLifecycleGet dt p s
  | .lifecycleSet dt p => Sys2Proof.Machine.execLifecycleSet dt p s
  | .vaultKeyLoad dt p => Sys2Proof.Machine.execVaultKeyLoad dt p s
  | .vaultRegionSet dt p => Sys2Proof.Machine.execVaultRegionSet dt p s
  | .mpuSetWrite dt p => Sys2Proof.Machine.execMpuSetWrite dt p s
  | .mpuSwap dt p => Sys2Proof.Machine.execMpuSwap dt p s
  | .mpuStatusGet dt p => Sys2Proof.Machine.execMpuStatusGet dt p s
  | .debugUnlock dt p => Sys2Proof.Machine.execDebugUnlock dt p s
  | .tallyRun dt p => Sys2Proof.Machine.execTallyRun dt p s
  | .tallyStatusGet dt p => Sys2Proof.Machine.execTallyStatusGet dt p s
  | .tallyContextSave dt p => Sys2Proof.Machine.execTallyContextSave dt p s
  | .tallyContextRestore dt p => Sys2Proof.Machine.execTallyContextRestore dt p s
  | .unknownOpcode dt p => Sys2Proof.Machine.execUnknownOpcode dt p s
  | .reqBell dt p bits => Sys2Proof.Machine.execReqBell dt p bits s
  | .requestTaken dt desc => Sys2Proof.Machine.execRequestTaken dt desc s
  | .respBell dt p bits => Sys2Proof.Machine.execRespBell dt p bits s
  | .responsePosted dt p => Sys2Proof.Machine.execResponsePosted dt p s
  | .evqRd dt p idx => Sys2Proof.Machine.execEvqRd dt p idx s
  | .latchingRead dt p off => Sys2Proof.Machine.execLatchingRead dt p off s
  | .registerWrite dt p off data => Sys2Proof.Machine.execRegisterWrite dt p off data s
  | .spiInvalidTransaction dt cmd off => Sys2Proof.Machine.execSpiInvalidTransaction dt cmd off s
  | .hostMemoryAccess dt h acc => Sys2Proof.Machine.execHostMemoryAccess dt h acc s
  | .debugMemoryAccess dt target acc => Sys2Proof.Machine.execDebugMemoryAccess dt target acc s
  | .tellerHaltRequest dt => Sys2Proof.Machine.execTellerHaltRequest dt s
  | .otpProgram dt field value => Sys2Proof.Machine.execOtpProgram dt field value s
  | .otpRead dt => Sys2Proof.Machine.execOtpRead dt s
  | .extest dt => Sys2Proof.Machine.execExtest dt s
  | .intest dt => Sys2Proof.Machine.execIntest dt s
  | .bypass dt => Sys2Proof.Machine.execBypass dt s
  | .idcode dt => Sys2Proof.Machine.execIdcode dt s
  | .sample dt => Sys2Proof.Machine.execSample dt s
  | .ptpMessageReceived dt port msg => Sys2Proof.Machine.execPtpMessageReceived dt port msg s
  | .ptpSyncTimeout dt => Sys2Proof.Machine.execPtpSyncTimeout dt s
  | .genlockInEdge dt => Sys2Proof.Machine.execGenlockInEdge dt s
  | .genlockLoss dt => Sys2Proof.Machine.execGenlockLoss dt s
  | .timeSync dt pp msg => Sys2Proof.Machine.execTimeSync dt pp msg s
  | .roomFrameStart dt => Sys2Proof.Machine.execRoomFrameStart dt s
  | .ethPacketReceived dt port pkt => Sys2Proof.Machine.execEthPacketReceived dt port pkt s
  | .ethPortLink dt port up => Sys2Proof.Machine.execEthPortLink dt port up s
  | .membershipReportRepeat dt src => Sys2Proof.Machine.execMembershipReportRepeat dt src s
  | .rtcpRrSend dt src => Sys2Proof.Machine.execRtcpRrSend dt src s
  | .jitterDeadline dt src => Sys2Proof.Machine.execJitterDeadline dt src s
  | .ssrcChanged dt src => Sys2Proof.Machine.execSsrcChanged dt src s
  | .sourceLossTimeout dt src => Sys2Proof.Machine.execSourceLossTimeout dt src s
  | .decodePictureDone dt src => Sys2Proof.Machine.execDecodePictureDone dt src s
  | .decodeRateWindow dt src => Sys2Proof.Machine.execDecodeRateWindow dt src s
  | .damageSummaryPeriod dt src => Sys2Proof.Machine.execDamageSummaryPeriod dt src s
  | .summaryEnd dt src => Sys2Proof.Machine.execSummaryEnd dt src s
  | .decoderCoreFault dt core => Sys2Proof.Machine.execDecoderCoreFault dt core s
  | .surfaceReleased dt surf buf => Sys2Proof.Machine.execSurfaceReleased dt surf buf s
  | .clearingComplete dt => Sys2Proof.Machine.execClearingComplete dt s
  | .stagingComplete dt => Sys2Proof.Machine.execStagingComplete dt s
  | .settlementLine dt g => Sys2Proof.Machine.execSettlementLine dt g s
  | .roundComplete dt out => Sys2Proof.Machine.execRoundComplete dt out s
  | .headFrameStart dt h => Sys2Proof.Machine.execHeadFrameStart dt h s
  | .headLineStart dt h fill => Sys2Proof.Machine.execHeadLineStart dt h fill s
  | .voidEpisodeEnd dt out layer => Sys2Proof.Machine.execVoidEpisodeEnd dt out layer s
  | .scanoutUnderrun dt h upper pixel => Sys2Proof.Machine.execScanoutUnderrun dt h upper pixel s
  | .tileCrcVerdict dt o tile crc => Sys2Proof.Machine.execTileCrcVerdict dt o tile crc s
  | .headUnlocked dt h skew => Sys2Proof.Machine.execHeadUnlocked dt h skew s
  | .echo dt lane blk => Sys2Proof.Machine.execEcho dt lane blk s
  | .echoDeadline dt h => Sys2Proof.Machine.execEchoDeadline dt h s
  | .teTaken dt pn => Sys2Proof.Machine.execTeTaken dt pn s
  | .teLost dt pn => Sys2Proof.Machine.execTeLost dt pn s
  | .pushComplete dt pn => Sys2Proof.Machine.execPushComplete dt pn s
  | .pushWindowExpiry dt pn => Sys2Proof.Machine.execPushWindowExpiry dt pn s
  | .panelAckReceived dt pn report => Sys2Proof.Machine.execPanelAckReceived dt pn report s
  | .btaTimeout dt pn => Sys2Proof.Machine.execBtaTimeout dt pn s
  | .lpContention dt pn => Sys2Proof.Machine.execLpContention dt pn s
  | .panelSequenceWait dt pn => Sys2Proof.Machine.execPanelSequenceWait dt pn s
  | .panelStartRetry dt pn => Sys2Proof.Machine.execPanelStartRetry dt pn s
  | .keyScan dt g raws => Sys2Proof.Machine.execKeyScan dt g raws s
  | .keyHeld dt g k => Sys2Proof.Machine.execKeyHeld dt g k s
  | .keyStuck dt g k => Sys2Proof.Machine.execKeyStuck dt g k s
  | .keyRateStep dt g => Sys2Proof.Machine.execKeyRateStep dt g s
  | .encodeCaptureComplete dt j => Sys2Proof.Machine.execEncodeCaptureComplete dt j s
  | .encodePictureCoded dt j costs => Sys2Proof.Machine.execEncodePictureCoded dt j costs s
  | .encodePacketSend dt j => Sys2Proof.Machine.execEncodePacketSend dt j s
  | .encodeSrSend dt j => Sys2Proof.Machine.execEncodeSrSend dt j s
  | .blockLockGained dt l => Sys2Proof.Machine.execBlockLockGained dt l s
  | .blockLockLost dt l => Sys2Proof.Machine.execBlockLockLost dt l s
  | .huntTimeout dt l => Sys2Proof.Machine.execHuntTimeout dt l s
  | .cap dt l rec => Sys2Proof.Machine.execCap dt l rec s
  | .capAck dt l version result crc => Sys2Proof.Machine.execCapAck dt l version result crc s
  | .capResend dt l => Sys2Proof.Machine.execCapResend dt l s
  | .timePairSend dt l => Sys2Proof.Machine.execTimePairSend dt l s
  | .srcFrameStart dt l num locked follows => Sys2Proof.Machine.execSrcFrameStart dt l num locked follows s
  | .srcFrameTime dt l tag offset => Sys2Proof.Machine.execSrcFrameTime dt l tag offset s
  | .srcTile dt l tile => Sys2Proof.Machine.execSrcTile dt l tile s
  | .srcTileCrc dt l crc frameLow => Sys2Proof.Machine.execSrcTileCrc dt l crc frameLow s
  | .srcFrameEnd dt l num tiles => Sys2Proof.Machine.execSrcFrameEnd dt l num tiles s
  | .kinikUnknownBlock dt l why type => Sys2Proof.Machine.execKinikUnknownBlock dt l why type s
  | .heartbeatSend dt pp => Sys2Proof.Machine.execHeartbeatSend dt pp s
  | .heartbeat dt pp hb => Sys2Proof.Machine.execHeartbeat dt pp hb s
  | .heartbeatFail dt => Sys2Proof.Machine.execHeartbeatFail dt s
  | .peerAck dt pp seq result => Sys2Proof.Machine.execPeerAck dt pp seq result s
  | .peerMsgResend dt pp => Sys2Proof.Machine.execPeerMsgResend dt pp s
  | .roomPrepare dt pp roomId group num den phase => Sys2Proof.Machine.execRoomPrepare dt pp roomId group num den phase s
  | .roomPrepared dt pp roomId result commitSeq => Sys2Proof.Machine.execRoomPrepared dt pp roomId result commitSeq s
  | .roomPrepareTimeout dt => Sys2Proof.Machine.execRoomPrepareTimeout dt s
  | .roomVoteReq dt pp roomId tf => Sys2Proof.Machine.execRoomVoteReq dt pp roomId tf s
  | .roomVotePoint dt => Sys2Proof.Machine.execRoomVotePoint dt s
  | .roomVote dt pp roomId vote tf => Sys2Proof.Machine.execRoomVote dt pp roomId vote tf s
  | .roomDecisionPoint dt => Sys2Proof.Machine.execRoomDecisionPoint dt s
  | .roomDecide dt pp roomId dec defers tf => Sys2Proof.Machine.execRoomDecide dt pp roomId dec defers tf s
  | .roomDone dt pp roomId frameTime commitSeq => Sys2Proof.Machine.execRoomDone dt pp roomId frameTime commitSeq s
  | .roomQuery dt received roomId tf => Sys2Proof.Machine.execRoomQuery dt received roomId tf s
  | .roomInDoubtTimeout dt => Sys2Proof.Machine.execRoomInDoubtTimeout dt s
  | .roomDoneWaitExpiry dt => Sys2Proof.Machine.execRoomDoneWaitExpiry dt s
  | .pairPromote dt => Sys2Proof.Machine.execPairPromote dt s
  | .pairHandover dt tf mirrorSeq => Sys2Proof.Machine.execPairHandover dt tf mirrorSeq s
  | .pairHandoverAck dt tf result => Sys2Proof.Machine.execPairHandoverAck dt tf result s
  | .pairHandoverTimeout dt => Sys2Proof.Machine.execPairHandoverTimeout dt s
  | .pairHandoverRelease dt => Sys2Proof.Machine.execPairHandoverRelease dt s
  | .pairHandoverTake dt => Sys2Proof.Machine.execPairHandoverTake dt s
  | .pairSwitchConfirmExpiry dt => Sys2Proof.Machine.execPairSwitchConfirmExpiry dt s
  | .pairResetSend dt => Sys2Proof.Machine.execPairResetSend dt s
  | .mirrorWrite dt kind first count mseq more items => Sys2Proof.Machine.execMirrorWrite dt kind first count mseq more items s
  | .mirrorSettle dt commitSeq group swap mseq frameTime => Sys2Proof.Machine.execMirrorSettle dt commitSeq group swap mseq frameTime s
  | .mirrorSetting dt item index mseq payload => Sys2Proof.Machine.execMirrorSetting dt item index mseq payload s
  | .mirrorKeys dt g multi mseq field => Sys2Proof.Machine.execMirrorKeys dt g multi mseq field s
  | .mirrorLedger dt recs => Sys2Proof.Machine.execMirrorLedger dt recs s
  | .mirrorSyncReq dt last => Sys2Proof.Machine.execMirrorSyncReq dt last s
  | .mirrorSnapshot dt shadow kind first count mseq items => Sys2Proof.Machine.execMirrorSnapshot dt shadow kind first count mseq items s
  | .mirrorSnapshotEnd dt mseq crc => Sys2Proof.Machine.execMirrorSnapshotEnd dt mseq crc s
  | .quadRefFault dt q ok => Sys2Proof.Machine.execQuadRefFault dt q ok s
  | .laneSelftestDone dt l bitErrors => Sys2Proof.Machine.execLaneSelftestDone dt l bitErrors s
  | .lanePrbsDone dt l errors checked => Sys2Proof.Machine.execLanePrbsDone dt l errors checked s
  | .refreshDue dt c rank => Sys2Proof.Machine.execRefreshDue dt c rank s
  | .mr4Readout dt c rank temp => Sys2Proof.Machine.execMr4Readout dt c rank temp s
  | .retrainPause dt c => Sys2Proof.Machine.execRetrainPause dt c s
  | .requestPromotion dt c reqs => Sys2Proof.Machine.execRequestPromotion dt c reqs s
  | .memFreeze dt c cause req => Sys2Proof.Machine.execMemFreeze dt c cause req s
  | .memParityReplay dt c alerts => Sys2Proof.Machine.execMemParityReplay dt c alerts s
  | .memResume dt c testOk linesZeroed => Sys2Proof.Machine.execMemResume dt c testOk linesZeroed s
  | .memRemap dt c => Sys2Proof.Machine.execMemRemap dt c s
  | .patrolScrub dt c found => Sys2Proof.Machine.execPatrolScrub dt c found s
  | .ceHourCheck dt c => Sys2Proof.Machine.execCeHourCheck dt c s
  | .selfRefreshEntry dt => Sys2Proof.Machine.execSelfRefreshEntry dt s
  | .selfRefreshExit dt => Sys2Proof.Machine.execSelfRefreshExit dt s
  | .memTrainingDone dt res => Sys2Proof.Machine.execMemTrainingDone dt res s
  | .sramScrub dt block uncorrectable => Sys2Proof.Machine.execSramScrub dt block uncorrectable s
  | .dualRailChange dt id p n => Sys2Proof.Machine.execDualRailChange dt id p n s
  | .dualRailHealthyExpiry dt id => Sys2Proof.Machine.execDualRailHealthyExpiry dt id s
  | .faultMessageReceived dt msg => Sys2Proof.Machine.execFaultMessageReceived dt msg s
  | .faultSummaryTimer dt src => Sys2Proof.Machine.execFaultSummaryTimer dt src s
  | .voltageLoopStep dt d slack => Sys2Proof.Machine.execVoltageLoopStep dt d slack s
  | .thermalLoopStep dt d reading => Sys2Proof.Machine.execThermalLoopStep dt d reading s
  | .tamperTrip dt m => Sys2Proof.Machine.execTamperTrip dt m s
  | .mpuNoticeClose dt g => Sys2Proof.Machine.execMpuNoticeClose dt g s
  | .epochDrained dt g => Sys2Proof.Machine.execEpochDrained dt g s
  | .tallyJobDone dt e readOk => Sys2Proof.Machine.execTallyJobDone dt e readOk s
  | .configScrub dt intact => Sys2Proof.Machine.execConfigScrub dt intact s
  | .ledgerSpill dt ok => Sys2Proof.Machine.execLedgerSpill dt ok s
  | .optimeMark dt => Sys2Proof.Machine.execOptimeMark dt s
  | .wakeEvent dt w => Sys2Proof.Machine.execWakeEvent dt w s
  | .powerTransitionDone dt => Sys2Proof.Machine.execPowerTransitionDone dt s
  | .domainPowerUp dt d test => Sys2Proof.Machine.execDomainPowerUp dt d test s
  | .domainPowerDown dt d => Sys2Proof.Machine.execDomainPowerDown dt d s
  | .powerOnReset dt => Sys2Proof.Machine.execPowerOnReset dt s
  | .pinReset dt => Sys2Proof.Machine.execPinReset dt s
  | .watchdogReset dt => Sys2Proof.Machine.execWatchdogReset dt s
  | .auditorReset dt => Sys2Proof.Machine.execAuditorReset dt s
  | .pairReset dt => Sys2Proof.Machine.execPairReset dt s
  | .warmReset dt => Sys2Proof.Machine.execWarmReset dt s
  | .domainReset dt d => Sys2Proof.Machine.execDomainReset dt d s
  | .startComplete dt => Sys2Proof.Machine.execStartComplete dt s
  | .perstRise dt h => Sys2Proof.Machine.execPerstRise dt h s
  | .flashWriteComplete dt ok => Sys2Proof.Machine.execFlashWriteComplete dt ok s
  | .peerMsgEnd dt pp msg => Sys2Proof.Machine.execPeerMsgEnd dt pp msg s
  | .arbLevelChange dt high => Sys2Proof.Machine.execArbLevelChange dt high s
  | .thermalTripHoldRelease dt => Sys2Proof.Machine.execThermalTripHoldRelease dt s
  | .tamperHoldRelease dt => Sys2Proof.Machine.execTamperHoldRelease dt s
  | .timeSyncSend dt => Sys2Proof.Machine.execTimeSyncSend dt s
  | .vaultRegionRewriteDone dt => Sys2Proof.Machine.execVaultRegionRewriteDone dt s

end Sys2Proof.Machine
end

