-- ==== Sys2Proof/Laws/Keep.lean ====
section
/-!
SUPPORT. What every operation leaves unchanged: the queue, device memory, the lifecycle and the OTP fields. One lemma per
operation; the few operations that change one of them have lemmas of their own in Laws/Keeps.lean.
-/
namespace Sys2Proof.Machine

@[simp] theorem each_keep {α : Type} (l : List α) (s : State) (f : State → α → State)
    (h : ∀ s a, (f s a).pending = s.pending ∧ (f s a).mem.dram = s.mem.dram ∧
      (f s a).sec.lifecycle = s.sec.lifecycle ∧ (f s a).sec.otp = s.sec.otp) :
    (each l s f).pending = s.pending ∧ (each l s f).mem.dram = s.mem.dram ∧
      (each l s f).sec.lifecycle = s.sec.lifecycle ∧ (each l s f).sec.otp = s.sec.otp := by
  induction l generalizing s with
  | nil => simp [each]
  | cons a l ih => simpa [each, h] using ih (f s a)

@[simp] theorem ite_keep (c : Prop) [Decidable c] (a b : State) :
    (if c then a else b).pending = (if c then a.pending else b.pending) ∧
      (if c then a else b).mem.dram = (if c then a.mem.dram else b.mem.dram) ∧
      (if c then a else b).sec.lifecycle = (if c then a.sec.lifecycle else b.sec.lifecycle) ∧
      (if c then a else b).sec.otp = (if c then a.sec.otp else b.sec.otp) := by
  split <;> simp

theorem each_from {α : Type} (l : List α) (s0 s : State) (f : State → α → State)
    (h : ∀ s a, (f s a).pending = s.pending ∧ (f s a).mem.dram = s.mem.dram ∧
      (f s a).sec.lifecycle = s.sec.lifecycle ∧ (f s a).sec.otp = s.sec.otp)
    (h0 : s.pending = s0.pending ∧ s.mem.dram = s0.mem.dram ∧
      s.sec.lifecycle = s0.sec.lifecycle ∧ s.sec.otp = s0.sec.otp) :
    (each l s f).pending = s0.pending ∧ (each l s f).mem.dram = s0.mem.dram ∧
      (each l s f).sec.lifecycle = s0.sec.lifecycle ∧ (each l s f).sec.otp = s0.sec.otp := by
  simp [each_keep l s f h, h0]

theorem ite_from {c : Prop} [Decidable c] {s a b : State}
    (h1 : a.pending = s.pending ∧ a.mem.dram = s.mem.dram ∧ a.sec.lifecycle = s.sec.lifecycle ∧
      a.sec.otp = s.sec.otp)
    (h2 : b.pending = s.pending ∧ b.mem.dram = s.mem.dram ∧ b.sec.lifecycle = s.sec.lifecycle ∧
      b.sec.otp = s.sec.otp) :
    (if c then a else b).pending = s.pending ∧ (if c then a else b).mem.dram = s.mem.dram ∧
      (if c then a else b).sec.lifecycle = s.sec.lifecycle ∧ (if c then a else b).sec.otp = s.sec.otp := by
  split <;> assumption

theorem keep_trans {a b c : State}
    (h1 : a.pending = b.pending ∧ a.mem.dram = b.mem.dram ∧ a.sec.lifecycle = b.sec.lifecycle ∧ a.sec.otp = b.sec.otp)
    (h2 : b.pending = c.pending ∧ b.mem.dram = c.mem.dram ∧ b.sec.lifecycle = c.sec.lifecycle ∧ b.sec.otp = c.sec.otp) :
    a.pending = c.pending ∧ a.mem.dram = c.mem.dram ∧ a.sec.lifecycle = c.sec.lifecycle ∧ a.sec.otp = c.sec.otp :=
  ⟨h1.1.trans h2.1, h1.2.1.trans h2.2.1, h1.2.2.1.trans h2.2.2.1, h1.2.2.2.trans h2.2.2.2⟩

@[simp] theorem State.elapse_keep (s : State) (dt : Nat) :
    (State.elapse s dt).pending = s.pending ∧ (State.elapse s dt).mem.dram = s.mem.dram ∧ (State.elapse s dt).sec.lifecycle = s.sec.lifecycle ∧ (State.elapse s dt).sec.otp = s.sec.otp := by
  simp [State.elapse]

@[simp] theorem State.send_keep (s : State) (x : Tx) :
    (State.send s x).pending = s.pending ∧ (State.send s x).mem.dram = s.mem.dram ∧ (State.send s x).sec.lifecycle = s.sec.lifecycle ∧ (State.send s x).sec.otp = s.sec.otp := by
  simp [State.send]

@[simp] theorem State.setPort_keep (s : State) (p : Nat) (q : PortSt) :
    (State.setPort s p q).pending = s.pending ∧ (State.setPort s p q).mem.dram = s.mem.dram ∧ (State.setPort s p q).sec.lifecycle = s.sec.lifecycle ∧ (State.setPort s p q).sec.otp = s.sec.otp := by
  simp [State.setPort]

@[simp] theorem State.setHead_keep (s : State) (h : Nat) (x : HeadRun) :
    (State.setHead s h x).pending = s.pending ∧ (State.setHead s h x).mem.dram = s.mem.dram ∧ (State.setHead s h x).sec.lifecycle = s.sec.lifecycle ∧ (State.setHead s h x).sec.otp = s.sec.otp := by
  simp [State.setHead]

@[simp] theorem State.setPanel_keep (s : State) (p : Nat) (x : PanelRun) :
    (State.setPanel s p x).pending = s.pending ∧ (State.setPanel s p x).mem.dram = s.mem.dram ∧ (State.setPanel s p x).sec.lifecycle = s.sec.lifecycle ∧ (State.setPanel s p x).sec.otp = s.sec.otp := by
  simp [State.setPanel]

@[simp] theorem State.setSrc_keep (s : State) (i : Nat) (x : SrcRun) :
    (State.setSrc s i x).pending = s.pending ∧ (State.setSrc s i x).mem.dram = s.mem.dram ∧ (State.setSrc s i x).sec.lifecycle = s.sec.lifecycle ∧ (State.setSrc s i x).sec.otp = s.sec.otp := by
  simp [State.setSrc]

@[simp] theorem State.setDec_keep (s : State) (i : Nat) (x : DecRun) :
    (State.setDec s i x).pending = s.pending ∧ (State.setDec s i x).mem.dram = s.mem.dram ∧ (State.setDec s i x).sec.lifecycle = s.sec.lifecycle ∧ (State.setDec s i x).sec.otp = s.sec.otp := by
  simp [State.setDec]

@[simp] theorem State.setSurface_keep (s : State) (i : Nat) (x : SurfSt) :
    (State.setSurface s i x).pending = s.pending ∧ (State.setSurface s i x).mem.dram = s.mem.dram ∧ (State.setSurface s i x).sec.lifecycle = s.sec.lifecycle ∧ (State.setSurface s i x).sec.otp = s.sec.otp := by
  simp [State.setSurface]

@[simp] theorem State.setTile_keep (s : State) (o t : Nat) (x : TileSt) :
    (State.setTile s o t x).pending = s.pending ∧ (State.setTile s o t x).mem.dram = s.mem.dram ∧ (State.setTile s o t x).sec.lifecycle = s.sec.lifecycle ∧ (State.setTile s o t x).sec.otp = s.sec.otp := by
  simp [State.setTile]

@[simp] theorem State.setOutComp_keep (s : State) (o : Nat) (x : OutComp) :
    (State.setOutComp s o x).pending = s.pending ∧ (State.setOutComp s o x).mem.dram = s.mem.dram ∧ (State.setOutComp s o x).sec.lifecycle = s.sec.lifecycle ∧ (State.setOutComp s o x).sec.otp = s.sec.otp := by
  simp [State.setOutComp]

@[simp] theorem State.setEncRun_keep (s : State) (j : Nat) (x : EncRun) :
    (State.setEncRun s j x).pending = s.pending ∧ (State.setEncRun s j x).mem.dram = s.mem.dram ∧ (State.setEncRun s j x).sec.lifecycle = s.sec.lifecycle ∧ (State.setEncRun s j x).sec.otp = s.sec.otp := by
  simp [State.setEncRun]

@[simp] theorem State.setKeyGroup_keep (s : State) (g : Nat) (x : KeyGroup) :
    (State.setKeyGroup s g x).pending = s.pending ∧ (State.setKeyGroup s g x).mem.dram = s.mem.dram ∧ (State.setKeyGroup s g x).sec.lifecycle = s.sec.lifecycle ∧ (State.setKeyGroup s g x).sec.otp = s.sec.otp := by
  simp [State.setKeyGroup]

@[simp] theorem State.setLane_keep (s : State) (l : Nat) (x : LaneRun) :
    (State.setLane s l x).pending = s.pending ∧ (State.setLane s l x).mem.dram = s.mem.dram ∧ (State.setLane s l x).sec.lifecycle = s.sec.lifecycle ∧ (State.setLane s l x).sec.otp = s.sec.otp := by
  simp [State.setLane]

@[simp] theorem State.setChan_keep (s : State) (c : Nat) (x : ChanRun) :
    (State.setChan s c x).pending = s.pending ∧ (State.setChan s c x).mem.dram = s.mem.dram ∧ (State.setChan s c x).sec.lifecycle = s.sec.lifecycle ∧ (State.setChan s c x).sec.otp = s.sec.otp := by
  simp [State.setChan]

@[simp] theorem State.setDomain_keep (s : State) (d : Nat) (x : DomainSt) :
    (State.setDomain s d x).pending = s.pending ∧ (State.setDomain s d x).mem.dram = s.mem.dram ∧ (State.setDomain s d x).sec.lifecycle = s.sec.lifecycle ∧ (State.setDomain s d x).sec.otp = s.sec.otp := by
  simp [State.setDomain]

@[simp] theorem State.setMpu_keep (s : State) (g : Nat) (x : MpuGroup) :
    (State.setMpu s g x).pending = s.pending ∧ (State.setMpu s g x).mem.dram = s.mem.dram ∧ (State.setMpu s g x).sec.lifecycle = s.sec.lifecycle ∧ (State.setMpu s g x).sec.otp = s.sec.otp := by
  simp [State.setMpu]

@[simp] theorem State.setPeer_keep (s : State) (p : Nat) (x : PeerRun) :
    (State.setPeer s p x).pending = s.pending ∧ (State.setPeer s p x).mem.dram = s.mem.dram ∧ (State.setPeer s p x).sec.lifecycle = s.sec.lifecycle ∧ (State.setPeer s p x).sec.otp = s.sec.otp := by
  simp [State.setPeer]

@[simp] theorem State.setEth_keep (s : State) (port : Nat) (x : EthRun) :
    (State.setEth s port x).pending = s.pending ∧ (State.setEth s port x).mem.dram = s.mem.dram ∧ (State.setEth s port x).sec.lifecycle = s.sec.lifecycle ∧ (State.setEth s port x).sec.otp = s.sec.otp := by
  simp [State.setEth]

@[simp] theorem State.ethSend_keep (s : State) (port : Nat) (f : EthFrame) :
    (State.ethSend s port f).pending = s.pending ∧ (State.ethSend s port f).mem.dram = s.mem.dram ∧ (State.ethSend s port f).sec.lifecycle = s.sec.lifecycle ∧ (State.ethSend s port f).sec.otp = s.sec.otp := by
  unfold State.ethSend; (repeat' split) <;> simp

@[simp] theorem State.ethSendTo_keep (s : State) (port dst : Nat) (f : EthFrame) :
    (State.ethSendTo s port dst f).pending = s.pending ∧ (State.ethSendTo s port dst f).mem.dram = s.mem.dram ∧ (State.ethSendTo s port dst f).sec.lifecycle = s.sec.lifecycle ∧ (State.ethSendTo s port dst f).sec.otp = s.sec.otp := by
  simp [State.ethSendTo]

@[simp] theorem State.encReprice_keep (s : State) :
    (State.encReprice s).pending = s.pending ∧ (State.encReprice s).mem.dram = s.mem.dram ∧ (State.encReprice s).sec.lifecycle = s.sec.lifecycle ∧ (State.encReprice s).sec.otp = s.sec.otp := by
  simp [State.encReprice]

@[simp] theorem State.notePanic_keep (s : State) :
    (State.notePanic s).pending = s.pending ∧ (State.notePanic s).mem.dram = s.mem.dram ∧ (State.notePanic s).sec.lifecycle = s.sec.lifecycle ∧ (State.notePanic s).sec.otp = s.sec.otp := by
  unfold State.notePanic; (repeat' split) <;> simp

@[simp] theorem State.lookPush_keep (s : State) (p : Nat) :
    (State.lookPush s p).pending = s.pending ∧ (State.lookPush s p).mem.dram = s.mem.dram ∧ (State.lookPush s p).sec.lifecycle = s.sec.lifecycle ∧ (State.lookPush s p).sec.otp = s.sec.otp := by
  simp [State.lookPush]

@[simp] theorem State.lookPushes_keep (s : State) :
    (State.lookPushes s).pending = s.pending ∧ (State.lookPushes s).mem.dram = s.mem.dram ∧ (State.lookPushes s).sec.lifecycle = s.sec.lifecycle ∧ (State.lookPushes s).sec.otp = s.sec.otp := by
  simp [State.lookPushes]

@[simp] theorem State.putRecord_keep (s : State) (r : LedgerRec) :
    (State.putRecord s r).pending = s.pending ∧ (State.putRecord s r).mem.dram = s.mem.dram ∧ (State.putRecord s r).sec.lifecycle = s.sec.lifecycle ∧ (State.putRecord s r).sec.otp = s.sec.otp := by
  simp [State.putRecord]

@[simp] theorem State.ledgerStart_keep (s : State) :
    (State.ledgerStart s).pending = s.pending ∧ (State.ledgerStart s).mem.dram = s.mem.dram ∧ (State.ledgerStart s).sec.lifecycle = s.sec.lifecycle ∧ (State.ledgerStart s).sec.otp = s.sec.otp := by
  unfold State.ledgerStart; (repeat' split) <;> simp

@[simp] theorem State.anchor_keep (s : State) :
    (State.anchor s).pending = s.pending ∧ (State.anchor s).mem.dram = s.mem.dram ∧ (State.anchor s).sec.lifecycle = s.sec.lifecycle ∧ (State.anchor s).sec.otp = s.sec.otp := by
  unfold State.anchor; (repeat' split) <;> simp

@[simp] theorem State.logFrom_keep (s : State) (origin inst code : Nat) (ps : List Nat) :
    (State.logFrom s origin inst code ps).pending = s.pending ∧ (State.logFrom s origin inst code ps).mem.dram = s.mem.dram ∧ (State.logFrom s origin inst code ps).sec.lifecycle = s.sec.lifecycle ∧ (State.logFrom s origin inst code ps).sec.otp = s.sec.otp := by
  simp [State.logFrom]

@[simp] theorem State.log_keep (s : State) (code : Nat) (ps : List Nat) :
    (State.log s code ps).pending = s.pending ∧ (State.log s code ps).mem.dram = s.mem.dram ∧ (State.log s code ps).sec.lifecycle = s.sec.lifecycle ∧ (State.log s code ps).sec.otp = s.sec.otp := by
  simp [State.log]

@[simp] theorem State.logLimited_keep (s : State) (code unit period n aux : Nat) (mk : Nat → Nat → List Nat) :
    (State.logLimited s code unit period n aux mk).pending = s.pending ∧ (State.logLimited s code unit period n aux mk).mem.dram = s.mem.dram ∧ (State.logLimited s code unit period n aux mk).sec.lifecycle = s.sec.lifecycle ∧ (State.logLimited s code unit period n aux mk).sec.otp = s.sec.otp := by
  simp [State.logLimited]

@[simp] theorem State.notify_keep (s : State) (p v : Nat) :
    (State.notify s p v).pending = s.pending ∧ (State.notify s p v).mem.dram = s.mem.dram ∧ (State.notify s p v).sec.lifecycle = s.sec.lifecycle ∧ (State.notify s p v).sec.otp = s.sec.otp := by
  simp [State.notify]

@[simp] theorem State.pushEvent_keep (s : State) (p : Nat) (event flags time : Nat) (ps : List Nat) :
    (State.pushEvent s p event flags time ps).pending = s.pending ∧ (State.pushEvent s p event flags time ps).mem.dram = s.mem.dram ∧ (State.pushEvent s p event flags time ps).sec.lifecycle = s.sec.lifecycle ∧ (State.pushEvent s p event flags time ps).sec.otp = s.sec.otp := by
  simp [State.pushEvent]

@[simp] theorem State.dropEvent_keep (s : State) (p time : Nat) :
    (State.dropEvent s p time).pending = s.pending ∧ (State.dropEvent s p time).mem.dram = s.mem.dram ∧ (State.dropEvent s p time).sec.lifecycle = s.sec.lifecycle ∧ (State.dropEvent s p time).sec.otp = s.sec.otp := by
  simp [State.dropEvent]

@[simp] theorem State.postEventAt_keep (s : State) (p event flags time : Nat) (ps : List Nat) :
    (State.postEventAt s p event flags time ps).pending = s.pending ∧ (State.postEventAt s p event flags time ps).mem.dram = s.mem.dram ∧ (State.postEventAt s p event flags time ps).sec.lifecycle = s.sec.lifecycle ∧ (State.postEventAt s p event flags time ps).sec.otp = s.sec.otp := by
  simp [State.postEventAt]

@[simp] theorem State.postEvent_keep (s : State) (p event : Nat) (ps : List Nat) :
    (State.postEvent s p event ps).pending = s.pending ∧ (State.postEvent s p event ps).mem.dram = s.mem.dram ∧ (State.postEvent s p event ps).sec.lifecycle = s.sec.lifecycle ∧ (State.postEvent s p event ps).sec.otp = s.sec.otp := by
  simp [State.postEvent]

@[simp] theorem State.postAll_keep (s : State) (event : Nat) (ps : List Nat) :
    (State.postAll s event ps).pending = s.pending ∧ (State.postAll s event ps).mem.dram = s.mem.dram ∧ (State.postAll s event ps).sec.lifecycle = s.sec.lifecycle ∧ (State.postAll s event ps).sec.otp = s.sec.otp := by
  simp [State.postAll]

@[simp] theorem State.postEnabled_keep (s : State) (event : Nat) (test : BitVec 544 → Bool) (ps : List Nat) :
    (State.postEnabled s event test ps).pending = s.pending ∧ (State.postEnabled s event test ps).mem.dram = s.mem.dram ∧ (State.postEnabled s event test ps).sec.lifecycle = s.sec.lifecycle ∧ (State.postEnabled s event test ps).sec.otp = s.sec.otp := by
  simp [State.postEnabled]

@[simp] theorem State.postLost_keep (s : State) (p : Nat) :
    (State.postLost s p).pending = s.pending ∧ (State.postLost s p).mem.dram = s.mem.dram ∧ (State.postLost s p).sec.lifecycle = s.sec.lifecycle ∧ (State.postLost s p).sec.otp = s.sec.otp := by
  simp only [State.postLost]; (repeat' split) <;> simp

@[simp] theorem State.fillSlot_keep (s : State) (p : Nat) (r : Response) :
    (State.fillSlot s p r).pending = s.pending ∧ (State.fillSlot s p r).mem.dram = s.mem.dram ∧ (State.fillSlot s p r).sec.lifecycle = s.sec.lifecycle ∧ (State.fillSlot s p r).sec.otp = s.sec.otp := by
  simp only [State.fillSlot]; (repeat' split) <;> simp

@[simp] theorem State.postResponse_keep (s : State) (p : Nat) (r : Response) :
    (State.postResponse s p r).pending = s.pending ∧ (State.postResponse s p r).mem.dram = s.mem.dram ∧ (State.postResponse s p r).sec.lifecycle = s.sec.lifecycle ∧ (State.postResponse s p r).sec.otp = s.sec.otp := by
  simp [State.postResponse]

@[simp] theorem State.answer_keep (s : State) (p : Nat) (r : Request) (status : Nat) (payload : Bytes) :
    (State.answer s p r status payload).pending = s.pending ∧ (State.answer s p r status payload).mem.dram = s.mem.dram ∧ (State.answer s p r status payload).sec.lifecycle = s.sec.lifecycle ∧ (State.answer s p r status payload).sec.otp = s.sec.otp := by
  simp [State.answer]

@[simp] theorem State.status_keep (s : State) (p : Nat) (r : Request) (st : Nat) :
    (State.status s p r st).pending = s.pending ∧ (State.status s p r st).mem.dram = s.mem.dram ∧ (State.status s p r st).sec.lifecycle = s.sec.lifecycle ∧ (State.status s p r st).sec.otp = s.sec.otp := by
  simp [State.status]

@[simp] theorem State.hold_keep (s : State) (p : Nat) (r : Request) (job : Nat) :
    (State.hold s p r job).pending = s.pending ∧ (State.hold s p r job).mem.dram = s.mem.dram ∧ (State.hold s p r job).sec.lifecycle = s.sec.lifecycle ∧ (State.hold s p r job).sec.otp = s.sec.otp := by
  simp [State.hold]

@[simp] theorem State.release_keep (s : State) (p opcode tag status : Nat) (payload : Bytes) :
    (State.release s p opcode tag status payload).pending = s.pending ∧ (State.release s p opcode tag status payload).mem.dram = s.mem.dram ∧ (State.release s p opcode tag status payload).sec.lifecycle = s.sec.lifecycle ∧ (State.release s p opcode tag status payload).sec.otp = s.sec.otp := by
  simp only [State.release]; (repeat' split) <;> simp

@[simp] theorem State.notifyHealth_keep (s : State) (force : Bool) :
    (State.notifyHealth s force).pending = s.pending ∧ (State.notifyHealth s force).mem.dram = s.mem.dram ∧ (State.notifyHealth s force).sec.lifecycle = s.sec.lifecycle ∧ (State.notifyHealth s force).sec.otp = s.sec.otp := by
  simp only [State.notifyHealth]; (repeat' split) <;> simp

@[simp] theorem State.sendHead_keep (s : State) (h type : Nat) (payload : Bytes) :
    (State.sendHead s h type payload).pending = s.pending ∧ (State.sendHead s h type payload).mem.dram = s.mem.dram ∧ (State.sendHead s h type payload).sec.lifecycle = s.sec.lifecycle ∧ (State.sendHead s h type payload).sec.otp = s.sec.otp := by
  simp [State.sendHead]

@[simp] theorem State.sendHeadStop_keep (s : State) (h reason : Nat) :
    (State.sendHeadStop s h reason).pending = s.pending ∧ (State.sendHeadStop s h reason).mem.dram = s.mem.dram ∧ (State.sendHeadStop s h reason).sec.lifecycle = s.sec.lifecycle ∧ (State.sendHeadStop s h reason).sec.otp = s.sec.otp := by
  simp [State.sendHeadStop]

@[simp] theorem State.endVoids_keep (s : State) (o : Nat) :
    (State.endVoids s o).pending = s.pending ∧ (State.endVoids s o).mem.dram = s.mem.dram ∧ (State.endVoids s o).sec.lifecycle = s.sec.lifecycle ∧ (State.endVoids s o).sec.otp = s.sec.otp := by
  simp [State.endVoids]

@[simp] theorem State.calmUpper_keep (s : State) (h : Nat) :
    (State.calmUpper s h).pending = s.pending ∧ (State.calmUpper s h).mem.dram = s.mem.dram ∧ (State.calmUpper s h).sec.lifecycle = s.sec.lifecycle ∧ (State.calmUpper s h).sec.otp = s.sec.otp := by
  simp [State.calmUpper]

@[simp] theorem State.stopHead_keep (s : State) (h reason : Nat) (st : HeadState) :
    (State.stopHead s h reason st).pending = s.pending ∧ (State.stopHead s h reason st).mem.dram = s.mem.dram ∧ (State.stopHead s h reason st).sec.lifecycle = s.sec.lifecycle ∧ (State.stopHead s h reason st).sec.otp = s.sec.otp := by
  simp [State.stopHead]

@[simp] theorem State.proofFinish_keep (s : State) :
    (State.proofFinish s).pending = s.pending ∧ (State.proofFinish s).mem.dram = s.mem.dram ∧ (State.proofFinish s).sec.lifecycle = s.sec.lifecycle ∧ (State.proofFinish s).sec.otp = s.sec.otp := by
  unfold State.proofFinish; (repeat' split) <;> simp

@[simp] theorem State.proofResult_keep (s : State) (o result : Nat) :
    (State.proofResult s o result).pending = s.pending ∧ (State.proofResult s o result).mem.dram = s.mem.dram ∧ (State.proofResult s o result).sec.lifecycle = s.sec.lifecycle ∧ (State.proofResult s o result).sec.otp = s.sec.otp := by
  unfold State.proofResult; (repeat' split) <;> simp

@[simp] theorem State.proofDrop_keep (s : State) (o : Nat) :
    (State.proofDrop s o).pending = s.pending ∧ (State.proofDrop s o).mem.dram = s.mem.dram ∧ (State.proofDrop s o).sec.lifecycle = s.sec.lifecycle ∧ (State.proofDrop s o).sec.otp = s.sec.otp := by
  unfold State.proofDrop; (repeat' split) <;> simp

@[simp] theorem State.proofAbort_keep (s : State) :
    (State.proofAbort s).pending = s.pending ∧ (State.proofAbort s).mem.dram = s.mem.dram ∧ (State.proofAbort s).sec.lifecycle = s.sec.lifecycle ∧ (State.proofAbort s).sec.otp = s.sec.otp := by
  unfold State.proofAbort; (repeat' split) <;> simp

@[simp] theorem State.encSendRtcp_keep (s : State) (j : Nat) (f : Option Nat → EthFrame) :
    (State.encSendRtcp s j f).pending = s.pending ∧ (State.encSendRtcp s j f).mem.dram = s.mem.dram ∧ (State.encSendRtcp s j f).sec.lifecycle = s.sec.lifecycle ∧ (State.encSendRtcp s j f).sec.otp = s.sec.otp := by
  simp [State.encSendRtcp]

@[simp] theorem State.stopJob_keep (s : State) (j reason : Nat) (st : EncState) :
    (State.stopJob s j reason st).pending = s.pending ∧ (State.stopJob s j reason st).mem.dram = s.mem.dram ∧ (State.stopJob s j reason st).sec.lifecycle = s.sec.lifecycle ∧ (State.stopJob s j reason st).sec.otp = s.sec.otp := by
  simp [State.stopJob]

@[simp] theorem State.safePanel_keep (s : State) (p : Nat) :
    (State.safePanel s p).pending = s.pending ∧ (State.safePanel s p).mem.dram = s.mem.dram ∧ (State.safePanel s p).sec.lifecycle = s.sec.lifecycle ∧ (State.safePanel s p).sec.otp = s.sec.otp := by
  simp only [State.safePanel]; (repeat' split) <;> simp

@[simp] theorem State.safeHead_keep (s : State) (h : Nat) :
    (State.safeHead s h).pending = s.pending ∧ (State.safeHead s h).mem.dram = s.mem.dram ∧ (State.safeHead s h).sec.lifecycle = s.sec.lifecycle ∧ (State.safeHead s h).sec.otp = s.sec.otp := by
  unfold State.safeHead; (repeat' split) <;> simp

@[simp] theorem State.rendererCuts_keep (s : State) (h : Nat) :
    (State.rendererCuts s h).pending = s.pending ∧ (State.rendererCuts s h).mem.dram = s.mem.dram ∧ (State.rendererCuts s h).sec.lifecycle = s.sec.lifecycle ∧ (State.rendererCuts s h).sec.otp = s.sec.otp := by
  unfold State.rendererCuts; (repeat' split) <;> simp

@[simp] theorem State.yieldRole_keep (s : State) :
    (State.yieldRole s).pending = s.pending ∧ (State.yieldRole s).mem.dram = s.mem.dram ∧ (State.yieldRole s).sec.lifecycle = s.sec.lifecycle ∧ (State.yieldRole s).sec.otp = s.sec.otp := by
  unfold State.yieldRole; (repeat' split) <;> simp

@[simp] theorem State.dropKeeps_keep (s : State) :
    (State.dropKeeps s).pending = s.pending ∧ (State.dropKeeps s).mem.dram = s.mem.dram ∧ (State.dropKeeps s).sec.lifecycle = s.sec.lifecycle ∧ (State.dropKeeps s).sec.otp = s.sec.otp := by
  simp [State.dropKeeps]

@[simp] theorem State.enterSafe_keep (s : State) (msg sev : Nat) :
    (s.enterSafe msg sev).pending = s.pending ∧ (s.enterSafe msg sev).mem.dram = s.mem.dram ∧ (s.enterSafe msg sev).sec.lifecycle = s.sec.lifecycle ∧ (s.enterSafe msg sev).sec.otp = s.sec.otp := by
  unfold State.enterSafe
  simp
  apply each_from
  · intros; (repeat' split) <;> simp
  · simp

@[simp] theorem State.furtherSafe_keep (s : State) (msg : Nat) :
    (State.furtherSafe s msg).pending = s.pending ∧ (State.furtherSafe s msg).mem.dram = s.mem.dram ∧ (State.furtherSafe s msg).sec.lifecycle = s.sec.lifecycle ∧ (State.furtherSafe s msg).sec.otp = s.sec.otp := by
  unfold State.furtherSafe; (repeat' split) <;> simp

@[simp] theorem State.faultLog_keep (s : State) (msg sev : Nat) :
    (State.faultLog s msg sev).pending = s.pending ∧ (State.faultLog s msg sev).mem.dram = s.mem.dram ∧ (State.faultLog s msg sev).sec.lifecycle = s.sec.lifecycle ∧ (State.faultLog s msg sev).sec.otp = s.sec.otp := by
  simp [State.faultLog]

@[simp] theorem State.faultRecord_keep (s : State) (msg sev : Nat) (since : Nat) :
    (State.faultRecord s msg sev since).pending = s.pending ∧ (State.faultRecord s msg sev since).mem.dram = s.mem.dram ∧ (State.faultRecord s msg sev since).sec.lifecycle = s.sec.lifecycle ∧ (State.faultRecord s msg sev since).sec.otp = s.sec.otp := by
  simp [State.faultRecord]

@[simp] theorem State.serviceFor_keep (s : State) (src param msg sev : Nat) :
    (State.serviceFor s src param msg sev).pending = s.pending ∧ (State.serviceFor s src param msg sev).mem.dram = s.mem.dram ∧ (State.serviceFor s src param msg sev).sec.lifecycle = s.sec.lifecycle ∧ (State.serviceFor s src param msg sev).sec.otp = s.sec.otp := by
  unfold State.serviceFor; (repeat' split) <;> simp

@[simp] theorem State.auditor_keep (s : State) (msg : Nat) :
    (State.auditor s msg).pending = s.pending ∧ (State.auditor s msg).mem.dram = s.mem.dram ∧ (State.auditor s msg).sec.lifecycle = s.sec.lifecycle ∧ (State.auditor s msg).sec.otp = s.sec.otp := by
  simp [State.auditor]

@[simp] theorem State.raised_keep (s : State) (src param : Nat) :
    (State.raised s src param).pending = s.pending ∧ (State.raised s src param).mem.dram = s.mem.dram ∧ (State.raised s src param).sec.lifecycle = s.sec.lifecycle ∧ (State.raised s src param).sec.otp = s.sec.otp := by
  simp [State.raised]

@[simp] theorem State.cleared_keep (s : State) (src param : Nat) :
    (State.cleared s src param).pending = s.pending ∧ (State.cleared s src param).mem.dram = s.mem.dram ∧ (State.cleared s src param).sec.lifecycle = s.sec.lifecycle ∧ (State.cleared s src param).sec.otp = s.sec.otp := by
  simp [State.cleared]

@[simp] theorem State.happened_keep (s : State) (src param : Nat) :
    (State.happened s src param).pending = s.pending ∧ (State.happened s src param).mem.dram = s.mem.dram ∧ (State.happened s src param).sec.lifecycle = s.sec.lifecycle ∧ (State.happened s src param).sec.otp = s.sec.otp := by
  simp [State.happened]

@[simp] theorem State.setOverride_keep (s : State) (b : Nat) (on : Bool) :
    (State.setOverride s b on).pending = s.pending ∧ (State.setOverride s b on).mem.dram = s.mem.dram ∧ (State.setOverride s b on).sec.lifecycle = s.sec.lifecycle ∧ (State.setOverride s b on).sec.otp = s.sec.otp := by
  simp [State.setOverride]

@[simp] theorem State.overridden_keep (s : State) (loop unit lo hi held : Nat) :
    (State.overridden s loop unit lo hi held).pending = s.pending ∧ (State.overridden s loop unit lo hi held).mem.dram = s.mem.dram ∧ (State.overridden s loop unit lo hi held).sec.lifecycle = s.sec.lifecycle ∧ (State.overridden s loop unit lo hi held).sec.otp = s.sec.otp := by
  simp [State.overridden]

@[simp] theorem State.checkWear_keep (s before : State) :
    (State.checkWear s before).pending = s.pending ∧ (State.checkWear s before).mem.dram = s.mem.dram ∧ (State.checkWear s before).sec.lifecycle = s.sec.lifecycle ∧ (State.checkWear s before).sec.otp = s.sec.otp := by
  simp [State.checkWear]

@[simp] theorem State.reportLost_keep (s : State) :
    (State.reportLost s).pending = s.pending ∧ (State.reportLost s).mem.dram = s.mem.dram ∧ (State.reportLost s).sec.lifecycle = s.sec.lifecycle ∧ (State.reportLost s).sec.otp = s.sec.otp := by
  unfold State.reportLost; (repeat' split) <;> simp

@[simp] theorem State.spill_keep (s : State) (n : Nat) :
    (State.spill s n).pending = s.pending ∧ (State.spill s n).mem.dram = s.mem.dram ∧ (State.spill s n).sec.lifecycle = s.sec.lifecycle ∧ (State.spill s n).sec.otp = s.sec.otp := by
  simp [State.spill]

@[simp] theorem State.flashError_keep (s : State) :
    (State.flashError s).pending = s.pending ∧ (State.flashError s).mem.dram = s.mem.dram ∧ (State.flashError s).sec.lifecycle = s.sec.lifecycle ∧ (State.flashError s).sec.otp = s.sec.otp := by
  simp [State.flashError]

@[simp] theorem State.spillNow_keep (s : State) :
    (State.spillNow s).pending = s.pending ∧ (State.spillNow s).mem.dram = s.mem.dram ∧ (State.spillNow s).sec.lifecycle = s.sec.lifecycle ∧ (State.spillNow s).sec.otp = s.sec.otp := by
  simp [State.spillNow]

@[simp] theorem State.closeDebug_keep (s : State) (cause : Nat) :
    (State.closeDebug s cause).pending = s.pending ∧ (State.closeDebug s cause).mem.dram = s.mem.dram ∧ (State.closeDebug s cause).sec.lifecycle = s.sec.lifecycle ∧ (State.closeDebug s cause).sec.otp = s.sec.otp := by
  unfold State.closeDebug; (repeat' split) <;> simp

@[simp] theorem State.closeSession_keep (s : State) (p cause : Nat) :
    (State.closeSession s p cause).pending = s.pending ∧ (State.closeSession s p cause).mem.dram = s.mem.dram ∧ (State.closeSession s p cause).sec.lifecycle = s.sec.lifecycle ∧ (State.closeSession s p cause).sec.otp = s.sec.otp := by
  simp [State.closeSession]

theorem State.serve_keep (s : State) (dt : Nat) (p : Fin 4) (op : Nat) (f : State → Request → State)
    (h : ∀ t r, (f t r).pending = t.pending ∧ (f t r).mem.dram = t.mem.dram ∧ (f t r).sec.lifecycle = t.sec.lifecycle ∧ (f t r).sec.otp = t.sec.otp) :
    (s.serve dt p op f).pending = s.pending ∧ (s.serve dt p op f).mem.dram = s.mem.dram ∧ (s.serve dt p op f).sec.lifecycle = s.sec.lifecycle ∧ (s.serve dt p op f).sec.otp = s.sec.otp := by
  unfold State.serve; dsimp only; (repeat' split) <;> simp [h]

theorem State.serveFlash_keep (s : State) (dt : Nat) (p : Fin 4) (op : Nat) (f : State → Request → State)
    (h : ∀ t r, (f t r).pending = t.pending ∧ (f t r).mem.dram = t.mem.dram ∧ (f t r).sec.lifecycle = t.sec.lifecycle ∧ (f t r).sec.otp = t.sec.otp) :
    (s.serveFlash dt p op f).pending = s.pending ∧ (s.serveFlash dt p op f).mem.dram = s.mem.dram ∧ (s.serveFlash dt p op f).sec.lifecycle = s.sec.lifecycle ∧ (s.serveFlash dt p op f).sec.otp = s.sec.otp := by
  unfold State.serveFlash; split
  · simp
  · exact State.serve_keep s dt p op f h

@[simp] theorem State.beginFlash_keep (s : State) (p : Nat) (r : Request) (image : Option Image) :
    (State.beginFlash s p r image).pending = s.pending ∧ (State.beginFlash s p r image).mem.dram = s.mem.dram ∧ (State.beginFlash s p r image).sec.lifecycle = s.sec.lifecycle ∧ (State.beginFlash s p r image).sec.otp = s.sec.otp := by
  simp [State.beginFlash]

@[simp] theorem State.domainOn_keep (s : State) (d cause : Nat) :
    (State.domainOn s d cause).pending = s.pending ∧ (State.domainOn s d cause).mem.dram = s.mem.dram ∧ (State.domainOn s d cause).sec.lifecycle = s.sec.lifecycle ∧ (State.domainOn s d cause).sec.otp = s.sec.otp := by
  simp [State.domainOn]

@[simp] theorem State.domainOff_keep (s : State) (d cause : Nat) :
    (State.domainOff s d cause).pending = s.pending ∧ (State.domainOff s d cause).mem.dram = s.mem.dram ∧ (State.domainOff s d cause).sec.lifecycle = s.sec.lifecycle ∧ (State.domainOff s d cause).sec.otp = s.sec.otp := by
  simp [State.domainOff]

@[simp] theorem State.macroExhausted_keep (s : State) (block : SramBlock) (arr unit : Nat) :
    (State.macroExhausted s block arr unit).pending = s.pending ∧ (State.macroExhausted s block arr unit).mem.dram = s.mem.dram ∧ (State.macroExhausted s block arr unit).sec.lifecycle = s.sec.lifecycle ∧ (State.macroExhausted s block arr unit).sec.otp = s.sec.otp := by
  unfold State.macroExhausted; (repeat' split) <;> simp

@[simp] theorem State.testDomain_keep (s : State) (d : Nat) (t : SelfTest) :
    (s.testDomain d t).1.pending = s.pending ∧ (s.testDomain d t).1.mem.dram = s.mem.dram ∧ (s.testDomain d t).1.sec.lifecycle = s.sec.lifecycle ∧ (s.testDomain d t).1.sec.otp = s.sec.otp := by
  unfold State.testDomain; (try dsimp only); (repeat' split) <;> simp

@[simp] theorem State.configDefaults_keep (s : State) :
    (State.configDefaults s).pending = s.pending ∧ (State.configDefaults s).mem.dram = s.mem.dram ∧ (State.configDefaults s).sec.lifecycle = s.sec.lifecycle ∧ (State.configDefaults s).sec.otp = s.sec.otp := by
  simp [State.configDefaults]

@[simp] theorem State.keysFast_keep (s : State) :
    (State.keysFast s).pending = s.pending ∧ (State.keysFast s).mem.dram = s.mem.dram ∧ (State.keysFast s).sec.lifecycle = s.sec.lifecycle ∧ (State.keysFast s).sec.otp = s.sec.otp := by
  simp [State.keysFast]

@[simp] theorem State.configLost_keep (s : State) :
    (State.configLost s).pending = s.pending ∧ (State.configLost s).mem.dram = s.mem.dram ∧ (State.configLost s).sec.lifecycle = s.sec.lifecycle ∧ (State.configLost s).sec.otp = s.sec.otp := by
  simp [State.configLost]

@[simp] theorem State.tellerStart_keep (s : State) :
    (State.tellerStart s).pending = s.pending ∧ (State.tellerStart s).mem.dram = s.mem.dram ∧ (State.tellerStart s).sec.lifecycle = s.sec.lifecycle ∧ (State.tellerStart s).sec.otp = s.sec.otp := by
  unfold State.tellerStart; dsimp only; (repeat' split) <;> simp (disch := (intros; (try dsimp only); (repeat' split) <;> (try simp)))

@[simp] theorem State.earlyDomains_keep (s : State) :
    (State.earlyDomains s).pending = s.pending ∧ (State.earlyDomains s).mem.dram = s.mem.dram ∧ (State.earlyDomains s).sec.lifecycle = s.sec.lifecycle ∧ (State.earlyDomains s).sec.otp = s.sec.otp := by
  simp [State.earlyDomains]

@[simp] theorem State.testDomains_keep (s : State) (l : List Nat) :
    (State.testDomains s l).pending = s.pending ∧ (State.testDomains s l).mem.dram = s.mem.dram ∧ (State.testDomains s l).sec.lifecycle = s.sec.lifecycle ∧ (State.testDomains s l).sec.otp = s.sec.otp := by
  unfold State.testDomains; (repeat' split) <;> simp (disch := (intros; (try dsimp only); (repeat' split) <;> (try simp)))

@[simp] theorem State.reach_keep (s : State) (n : Nat) :
    (State.reach s n).pending = s.pending ∧ (State.reach s n).mem.dram = s.mem.dram ∧ (State.reach s n).sec.lifecycle = s.sec.lifecycle ∧ (State.reach s n).sec.otp = s.sec.otp := by
  simp [State.reach]

@[simp] theorem State.ringBells_keep (s : State) (p : Nat) (bits : BitVec 8) :
    (State.ringBells s p bits).pending = s.pending ∧ (State.ringBells s p bits).mem.dram = s.mem.dram ∧ (State.ringBells s p bits).sec.lifecycle = s.sec.lifecycle ∧ (State.ringBells s p bits).sec.otp = s.sec.otp := by
  simp [State.ringBells]

@[simp] theorem State.clearResp_keep (s : State) (p : Nat) (bits : BitVec 8) :
    (State.clearResp s p bits).pending = s.pending ∧ (State.clearResp s p bits).mem.dram = s.mem.dram ∧ (State.clearResp s p bits).sec.lifecycle = s.sec.lifecycle ∧ (State.clearResp s p bits).sec.otp = s.sec.otp := by
  simp [State.clearResp]

@[simp] theorem State.advanceRd_keep (s : State) (p idx : Nat) :
    (State.advanceRd s p idx).pending = s.pending ∧ (State.advanceRd s p idx).mem.dram = s.mem.dram ∧ (State.advanceRd s p idx).sec.lifecycle = s.sec.lifecycle ∧ (State.advanceRd s p idx).sec.otp = s.sec.otp := by
  simp [State.advanceRd]

@[simp] theorem State.unmask_keep (s : State) (p v : Nat) :
    (State.unmask s p v).pending = s.pending ∧ (State.unmask s p v).mem.dram = s.mem.dram ∧ (State.unmask s p v).sec.lifecycle = s.sec.lifecycle ∧ (State.unmask s p v).sec.otp = s.sec.otp := by
  simp [State.unmask]

@[simp] theorem State.writeWord_keep (s : State) (p off v : Nat) :
    (State.writeWord s p off v).pending = s.pending ∧ (State.writeWord s p off v).mem.dram = s.mem.dram ∧ (State.writeWord s p off v).sec.lifecycle = s.sec.lifecycle ∧ (State.writeWord s p off v).sec.otp = s.sec.otp := by
  unfold State.writeWord; (repeat' split) <;> simp

@[simp] theorem State.sleepDram_keep (s : State) (on : Bool) :
    (State.sleepDram s on).pending = s.pending ∧ (State.sleepDram s on).mem.dram = s.mem.dram ∧ (State.sleepDram s on).sec.lifecycle = s.sec.lifecycle ∧ (State.sleepDram s on).sec.otp = s.sec.otp := by
  simp [State.sleepDram]

@[simp] theorem State.dramRequest_keep (s : State) :
    (State.dramRequest s).pending = s.pending ∧ (State.dramRequest s).mem.dram = s.mem.dram ∧ (State.dramRequest s).sec.lifecycle = s.sec.lifecycle ∧ (State.dramRequest s).sec.otp = s.sec.otp := by
  simp [State.dramRequest]

@[simp] theorem State.closeNotice_keep (s : State) (g : Nat) :
    (State.closeNotice s g).pending = s.pending ∧ (State.closeNotice s g).mem.dram = s.mem.dram ∧ (State.closeNotice s g).sec.lifecycle = s.sec.lifecycle ∧ (State.closeNotice s g).sec.otp = s.sec.otp := by
  simp only [State.closeNotice]; (repeat' split) <;> simp

@[simp] theorem State.deniedWrite_keep (s : State) (g line : Nat) :
    (State.deniedWrite s g line).pending = s.pending ∧ (State.deniedWrite s g line).mem.dram = s.mem.dram ∧ (State.deniedWrite s g line).sec.lifecycle = s.sec.lifecycle ∧ (State.deniedWrite s g line).sec.otp = s.sec.otp := by
  simp only [State.deniedWrite]; (repeat' split) <;> simp

@[simp] theorem State.deniedRead_keep (s : State) (g line : Nat) :
    (State.deniedRead s g line).pending = s.pending ∧ (State.deniedRead s g line).mem.dram = s.mem.dram ∧ (State.deniedRead s g line).sec.lifecycle = s.sec.lifecycle ∧ (State.deniedRead s g line).sec.otp = s.sec.otp := by
  simp [State.deniedRead]

@[simp] theorem State.deniedDebug_keep (s : State) (kind addr : Nat) :
    (State.deniedDebug s kind addr).pending = s.pending ∧ (State.deniedDebug s kind addr).mem.dram = s.mem.dram ∧ (State.deniedDebug s kind addr).sec.lifecycle = s.sec.lifecycle ∧ (State.deniedDebug s kind addr).sec.otp = s.sec.otp := by
  simp [State.deniedDebug]

@[simp] theorem State.discardWrite_keep (s : State) (g : Nat) :
    (State.discardWrite s g).pending = s.pending ∧ (State.discardWrite s g).mem.dram = s.mem.dram ∧ (State.discardWrite s g).sec.lifecycle = s.sec.lifecycle ∧ (State.discardWrite s g).sec.otp = s.sec.otp := by
  simp [State.discardWrite]

@[simp] theorem State.writeTeller_keep (s : State) (acc : MemAccess) :
    (State.writeTeller s acc).pending = s.pending ∧ (State.writeTeller s acc).mem.dram = s.mem.dram ∧ (State.writeTeller s acc).sec.lifecycle = s.sec.lifecycle ∧ (State.writeTeller s acc).sec.otp = s.sec.otp := by
  simp [State.writeTeller]

theorem hostReadLine_list_keep (p : Nat) (d : MemAccess) (l : List Nat) (x : State × Nat × Bool) :
    (l.foldl (State.hostReadLine p d) x).1.pending = x.1.pending ∧ (l.foldl (State.hostReadLine p d) x).1.mem.dram = x.1.mem.dram ∧ (l.foldl (State.hostReadLine p d) x).1.sec.lifecycle = x.1.sec.lifecycle ∧ (l.foldl (State.hostReadLine p d) x).1.sec.otp = x.1.sec.otp := by
  induction l generalizing x with
  | nil => simp
  | cons a l ih =>
    rw [List.foldl_cons]
    simp only [ih]
    unfold State.hostReadLine
    dsimp only
    (repeat' split) <;> simp

@[simp] theorem State.readPayload_keep (s : State) (p : Nat) (r : Request) :
    (s.readPayload p r).1.pending = s.pending ∧ (s.readPayload p r).1.mem.dram = s.mem.dram ∧ (s.readPayload p r).1.sec.lifecycle = s.sec.lifecycle ∧ (s.readPayload p r).1.sec.otp = s.sec.otp := by
  unfold State.readPayload
  split
  · dsimp only
    exact hostReadLine_list_keep _ _ _ _
  · simp

@[simp] theorem State.takeFrom_keep (s : State) (p : Nat) (desc : Option DescRead) :
    (s.takeFrom p desc).pending = s.pending ∧ (s.takeFrom p desc).mem.dram = s.mem.dram ∧ (s.takeFrom p desc).sec.lifecycle = s.sec.lifecycle ∧ (s.takeFrom p desc).sec.otp = s.sec.otp := by
  unfold State.takeFrom
  dsimp only; split
  · simp
  · (repeat' split) <;> simp

@[simp] theorem State.reserveBlock_keep (s : State) (p : Nat) :
    (State.reserveBlock s p).pending = s.pending ∧ (State.reserveBlock s p).mem.dram = s.mem.dram ∧ (State.reserveBlock s p).sec.lifecycle = s.sec.lifecycle ∧ (State.reserveBlock s p).sec.otp = s.sec.otp := by
  simp [State.reserveBlock]

@[simp] theorem State.openSession_keep (s : State) (p : Nat) (r : Request) (major : Nat) :
    (State.openSession s p r major).pending = s.pending ∧ (State.openSession s p r major).mem.dram = s.mem.dram ∧ (State.openSession s p r major).sec.lifecycle = s.sec.lifecycle ∧ (State.openSession s p r major).sec.otp = s.sec.otp := by
  simp [State.openSession]

@[simp] theorem State.setTally_keep (s : State) (e : Nat) (x : TallyRun) :
    (State.setTally s e x).pending = s.pending ∧ (State.setTally s e x).mem.dram = s.mem.dram ∧ (State.setTally s e x).sec.lifecycle = s.sec.lifecycle ∧ (State.setTally s e x).sec.otp = s.sec.otp := by
  simp [State.setTally]

@[simp] theorem State.tallyBlocked_keep (s : State) (e : Nat) :
    (State.tallyBlocked s e).pending = s.pending ∧ (State.tallyBlocked s e).mem.dram = s.mem.dram ∧ (State.tallyBlocked s e).sec.lifecycle = s.sec.lifecycle ∧ (State.tallyBlocked s e).sec.otp = s.sec.otp := by
  simp only [State.tallyBlocked]; (repeat' split) <;> simp

@[simp] theorem State.tallyFinish_keep (s : State) (e : Nat) :
    (State.tallyFinish s e).pending = s.pending ∧ (State.tallyFinish s e).mem.dram = s.mem.dram ∧ (State.tallyFinish s e).sec.lifecycle = s.sec.lifecycle ∧ (State.tallyFinish s e).sec.otp = s.sec.otp := by
  simp [State.tallyFinish]

@[simp] theorem State.jtagShift_keep (s : State) (i v : Nat) :
    (State.jtagShift s i v).pending = s.pending ∧ (State.jtagShift s i v).mem.dram = s.mem.dram ∧ (State.jtagShift s i v).sec.lifecycle = s.sec.lifecycle ∧ (State.jtagShift s i v).sec.otp = s.sec.otp := by
  simp [State.jtagShift]

@[simp] theorem State.stageEnd_keep (s : State) (st : Nat) :
    (State.stageEnd s st).pending = s.pending ∧ (State.stageEnd s st).mem.dram = s.mem.dram ∧ (State.stageEnd s st).sec.lifecycle = s.sec.lifecycle ∧ (State.stageEnd s st).sec.otp = s.sec.otp := by
  simp [State.stageEnd]

@[simp] theorem State.askWarm_keep (s : State) (p : Nat) :
    (State.askWarm s p).pending = s.pending ∧ (State.askWarm s p).mem.dram = s.mem.dram ∧ (State.askWarm s p).sec.lifecycle = s.sec.lifecycle ∧ (State.askWarm s p).sec.otp = s.sec.otp := by
  simp [State.askWarm]

@[simp] theorem State.restartSrtp_keep (s : State) (slot : Nat) :
    (State.restartSrtp s slot).pending = s.pending ∧ (State.restartSrtp s slot).mem.dram = s.mem.dram ∧ (State.restartSrtp s slot).sec.lifecycle = s.sec.lifecycle ∧ (State.restartSrtp s slot).sec.otp = s.sec.otp := by
  simp [State.restartSrtp]

@[simp] theorem State.debugFail_keep (s : State) (p : Nat) (r : Request) :
    (State.debugFail s p r).pending = s.pending ∧ (State.debugFail s p r).mem.dram = s.mem.dram ∧ (State.debugFail s p r).sec.lifecycle = s.sec.lifecycle ∧ (State.debugFail s p r).sec.otp = s.sec.otp := by
  simp [State.debugFail]

@[simp] theorem State.addHot_keep (s : State) (ms : Nat) :
    (State.addHot s ms).pending = s.pending ∧ (State.addHot s ms).mem.dram = s.mem.dram ∧ (State.addHot s ms).sec.lifecycle = s.sec.lifecycle ∧ (State.addHot s ms).sec.otp = s.sec.otp := by
  simp [State.addHot]

@[simp] theorem State.setSeverity_keep (s : State) (p src v : Nat) :
    (State.setSeverity s p src v).pending = s.pending ∧ (State.setSeverity s p src v).mem.dram = s.mem.dram ∧ (State.setSeverity s p src v).sec.lifecycle = s.sec.lifecycle ∧ (State.setSeverity s p src v).sec.otp = s.sec.otp := by
  simp [State.setSeverity]

@[simp] theorem State.refreshProven_keep (s : State) (h : Nat) :
    (State.refreshProven s h).pending = s.pending ∧ (State.refreshProven s h).mem.dram = s.mem.dram ∧ (State.refreshProven s h).sec.lifecycle = s.sec.lifecycle ∧ (State.refreshProven s h).sec.otp = s.sec.otp := by
  simp [State.refreshProven]

@[simp] theorem State.mark_keep (s : State) (o : Nat) (tiles : List Nat) :
    (State.mark s o tiles).pending = s.pending ∧ (State.mark s o tiles).mem.dram = s.mem.dram ∧ (State.mark s o tiles).sec.lifecycle = s.sec.lifecycle ∧ (State.mark s o tiles).sec.otp = s.sec.otp := by
  simp [State.mark]

@[simp] theorem State.markAll_keep (s : State) (o : Nat) :
    (State.markAll s o).pending = s.pending ∧ (State.markAll s o).mem.dram = s.mem.dram ∧ (State.markAll s o).sec.lifecycle = s.sec.lifecycle ∧ (State.markAll s o).sec.otp = s.sec.otp := by
  simp [State.markAll]

@[simp] theorem State.markLayers_keep (s : State) (ls : List Nat) :
    (State.markLayers s ls).pending = s.pending ∧ (State.markLayers s ls).mem.dram = s.mem.dram ∧ (State.markLayers s ls).sec.lifecycle = s.sec.lifecycle ∧ (State.markLayers s ls).sec.otp = s.sec.otp := by
  simp [State.markLayers]

@[simp] theorem State.ageOutput_keep (s : State) (o : Nat) :
    (State.ageOutput s o).pending = s.pending ∧ (State.ageOutput s o).mem.dram = s.mem.dram ∧ (State.ageOutput s o).sec.lifecycle = s.sec.lifecycle ∧ (State.ageOutput s o).sec.otp = s.sec.otp := by
  simp [State.ageOutput]

@[simp] theorem State.clearMismatch_keep (s : State) (o : Nat) :
    (State.clearMismatch s o).pending = s.pending ∧ (State.clearMismatch s o).mem.dram = s.mem.dram ∧ (State.clearMismatch s o).sec.lifecycle = s.sec.lifecycle ∧ (State.clearMismatch s o).sec.otp = s.sec.otp := by
  simp [State.clearMismatch]

@[simp] theorem State.dropTags_keep (s : State) :
    (State.dropTags s).pending = s.pending ∧ (State.dropTags s).mem.dram = s.mem.dram ∧ (State.dropTags s).sec.lifecycle = s.sec.lifecycle ∧ (State.dropTags s).sec.otp = s.sec.otp := by
  simp [State.dropTags]

@[simp] theorem State.resumeOutput_keep (s : State) (o : Nat) :
    (State.resumeOutput s o).pending = s.pending ∧ (State.resumeOutput s o).mem.dram = s.mem.dram ∧ (State.resumeOutput s o).sec.lifecycle = s.sec.lifecycle ∧ (State.resumeOutput s o).sec.otp = s.sec.otp := by
  simp [State.resumeOutput]

@[simp] theorem State.ageAll_keep (s : State) :
    (State.ageAll s).pending = s.pending ∧ (State.ageAll s).mem.dram = s.mem.dram ∧ (State.ageAll s).sec.lifecycle = s.sec.lifecycle ∧ (State.ageAll s).sec.otp = s.sec.otp := by
  simp [State.ageAll]

@[simp] theorem State.emitPeer_keep (s : State) (pp type seq : Nat) (b : Bytes) :
    (State.emitPeer s pp type seq b).pending = s.pending ∧ (State.emitPeer s pp type seq b).mem.dram = s.mem.dram ∧ (State.emitPeer s pp type seq b).sec.lifecycle = s.sec.lifecycle ∧ (State.emitPeer s pp type seq b).sec.otp = s.sec.otp := by
  simp [State.emitPeer]

@[simp] theorem State.sendPeer_keep (s : State) (pp type : Nat) (b : Bytes) :
    (State.sendPeer s pp type b).pending = s.pending ∧ (State.sendPeer s pp type b).mem.dram = s.mem.dram ∧ (State.sendPeer s pp type b).sec.lifecycle = s.sec.lifecycle ∧ (State.sendPeer s pp type b).sec.otp = s.sec.otp := by
  simp [State.sendPeer]

@[simp] theorem State.drainPeer_keep (s : State) (pp : Nat) :
    (State.drainPeer s pp).pending = s.pending ∧ (State.drainPeer s pp).mem.dram = s.mem.dram ∧ (State.drainPeer s pp).sec.lifecycle = s.sec.lifecycle ∧ (State.drainPeer s pp).sec.otp = s.sec.otp := by
  simp only [State.drainPeer]; (repeat' split) <;> simp

@[simp] theorem State.mirror_keep (s : State) (type : Nat) (mk : Nat → Bytes) :
    (State.mirror s type mk).pending = s.pending ∧ (State.mirror s type mk).mem.dram = s.mem.dram ∧ (State.mirror s type mk).sec.lifecycle = s.sec.lifecycle ∧ (State.mirror s type mk).sec.otp = s.sec.otp := by
  simp [State.mirror]

@[simp] theorem State.mirrorWrite_keep (s : State) (k : SetKind) (first : Nat) (items : List Nat) :
    (State.mirrorWrite s k first items).pending = s.pending ∧ (State.mirrorWrite s k first items).mem.dram = s.mem.dram ∧ (State.mirrorWrite s k first items).sec.lifecycle = s.sec.lifecycle ∧ (State.mirrorWrite s k first items).sec.otp = s.sec.otp := by
  simp [State.mirrorWrite]

@[simp] theorem State.mirrorSetting_keep (s : State) (item index : Nat) (b : Bytes) :
    (State.mirrorSetting s item index b).pending = s.pending ∧ (State.mirrorSetting s item index b).mem.dram = s.mem.dram ∧ (State.mirrorSetting s item index b).sec.lifecycle = s.sec.lifecycle ∧ (State.mirrorSetting s item index b).sec.otp = s.sec.otp := by
  simp [State.mirrorSetting]

@[simp] theorem State.mirrorSettle_keep (s : State) (c : Commit) :
    (State.mirrorSettle s c).pending = s.pending ∧ (State.mirrorSettle s c).mem.dram = s.mem.dram ∧ (State.mirrorSettle s c).sec.lifecycle = s.sec.lifecycle ∧ (State.mirrorSettle s c).sec.otp = s.sec.otp := by
  simp [State.mirrorSettle]

@[simp] theorem State.setMirror_keep (s : State) (new : Mirror) :
    (State.setMirror s new).pending = s.pending ∧ (State.setMirror s new).mem.dram = s.mem.dram ∧ (State.setMirror s new).sec.lifecycle = s.sec.lifecycle ∧ (State.setMirror s new).sec.otp = s.sec.otp := by
  simp [State.setMirror]

@[simp] theorem State.checkTwin_keep (s : State) (pp : Nat) :
    (State.checkTwin s pp).pending = s.pending ∧ (State.checkTwin s pp).mem.dram = s.mem.dram ∧ (State.checkTwin s pp).sec.lifecycle = s.sec.lifecycle ∧ (State.checkTwin s pp).sec.otp = s.sec.otp := by
  unfold State.checkTwin; (repeat' split) <;> simp

@[simp] theorem State.writeShadow_keep (s : State) (k : SetKind) (first : Nat) (items : List Nat) :
    (State.writeShadow s k first items).pending = s.pending ∧ (State.writeShadow s k first items).mem.dram = s.mem.dram ∧ (State.writeShadow s k first items).sec.lifecycle = s.sec.lifecycle ∧ (State.writeShadow s k first items).sec.otp = s.sec.otp := by
  simp [State.writeShadow]

@[simp] theorem State.applyHeld_keep (s : State) :
    (State.applyHeld s).pending = s.pending ∧ (State.applyHeld s).mem.dram = s.mem.dram ∧ (State.applyHeld s).sec.lifecycle = s.sec.lifecycle ∧ (State.applyHeld s).sec.otp = s.sec.otp := by
  simp [State.applyHeld]

@[simp] theorem State.writeItems_keep (s : State) (p : Nat) (r : Request) (k : SetKind) (first : Nat) (items : List Nat) :
    (State.writeItems s p r k first items).pending = s.pending ∧ (State.writeItems s p r k first items).mem.dram = s.mem.dram ∧ (State.writeItems s p r k first items).sec.lifecycle = s.sec.lifecycle ∧ (State.writeItems s p r k first items).sec.otp = s.sec.otp := by
  simp [State.writeItems]

@[simp] theorem State.setItems_keep (s : State) (dt : Nat) (p : Fin 4) (op : Nat) (k : SetKind) :
    (s.setItems dt p op k).pending = s.pending ∧ (s.setItems dt p op k).mem.dram = s.mem.dram ∧ (s.setItems dt p op k).sec.lifecycle = s.sec.lifecycle ∧ (s.setItems dt p op k).sec.otp = s.sec.otp := by
  apply State.serve_keep
  intro t r
  (repeat' split) <;> simp

@[simp] theorem State.setGroup_keep (s : State) (g : Nat) (x : GroupDesc) :
    (State.setGroup s g x).pending = s.pending ∧ (State.setGroup s g x).mem.dram = s.mem.dram ∧ (State.setGroup s g x).sec.lifecycle = s.sec.lifecycle ∧ (State.setGroup s g x).sec.otp = s.sec.otp := by
  simp [State.setGroup]

@[simp] theorem State.noteSeq_keep (s : State) (c : ConfigSet) (frames : List Frame) (notReady : List Nat) (r : TileRec) :
    (State.noteSeq s c frames notReady r).pending = s.pending ∧ (State.noteSeq s c frames notReady r).mem.dram = s.mem.dram ∧ (State.noteSeq s c frames notReady r).sec.lifecycle = s.sec.lifecycle ∧ (State.noteSeq s c frames notReady r).sec.otp = s.sec.otp := by
  unfold State.noteSeq; simp (disch := (intros; (try dsimp only); (repeat' split) <;> (try simp)))

@[simp] theorem State.dropStaged_keep (s : State) :
    (State.dropStaged s).pending = s.pending ∧ (State.dropStaged s).mem.dram = s.mem.dram ∧ (State.dropStaged s).sec.lifecycle = s.sec.lifecycle ∧ (State.dropStaged s).sec.otp = s.sec.otp := by
  simp [State.dropStaged]

@[simp] theorem State.outdate_keep (s : State) :
    (State.outdate s).pending = s.pending ∧ (State.outdate s).mem.dram = s.mem.dram ∧ (State.outdate s).sec.lifecycle = s.sec.lifecycle ∧ (State.outdate s).sec.otp = s.sec.otp := by
  simp [State.outdate]

@[simp] theorem State.withdraw_keep (s : State) (test : Frame → Bool) :
    (State.withdraw s test).pending = s.pending ∧ (State.withdraw s test).mem.dram = s.mem.dram ∧ (State.withdraw s test).sec.lifecycle = s.sec.lifecycle ∧ (State.withdraw s test).sec.otp = s.sec.otp := by
  simp [State.withdraw]

@[simp] theorem State.sendMembership_keep (s : State) (port group kind : Nat) (sources : List Nat) (left : Bool) :
    (State.sendMembership s port group kind sources left).pending = s.pending ∧ (State.sendMembership s port group kind sources left).mem.dram = s.mem.dram ∧ (State.sendMembership s port group kind sources left).sec.lifecycle = s.sec.lifecycle ∧ (State.sendMembership s port group kind sources left).sec.otp = s.sec.otp := by
  unfold State.sendMembership; dsimp only; (repeat' split) <;> simp (disch := (intros; (try dsimp only); (repeat' split) <;> (try simp)))

@[simp] theorem State.reportJoin_keep (s : State) (port group : Nat) (sources : List Nat) :
    (State.reportJoin s port group sources).pending = s.pending ∧ (State.reportJoin s port group sources).mem.dram = s.mem.dram ∧ (State.reportJoin s port group sources).sec.lifecycle = s.sec.lifecycle ∧ (State.reportJoin s port group sources).sec.otp = s.sec.otp := by
  unfold State.reportJoin; (repeat' split) <;> simp

@[simp] theorem State.reportChange_keep (s s0 : State) (port group : Nat) :
    (State.reportChange s s0 port group).pending = s.pending ∧ (State.reportChange s s0 port group).mem.dram = s.mem.dram ∧ (State.reportChange s s0 port group).sec.lifecycle = s.sec.lifecycle ∧ (State.reportChange s s0 port group).sec.otp = s.sec.otp := by
  simp [State.reportChange]

@[simp] theorem State.loseSource_keep (s : State) (i condition : Nat) :
    (State.loseSource s i condition).pending = s.pending ∧ (State.loseSource s i condition).mem.dram = s.mem.dram ∧ (State.loseSource s i condition).sec.lifecycle = s.sec.lifecycle ∧ (State.loseSource s i condition).sec.otp = s.sec.otp := by
  simp [State.loseSource]

@[simp] theorem State.subscribe_keep (s : State) (i : Nat) :
    (State.subscribe s i).pending = s.pending ∧ (State.subscribe s i).mem.dram = s.mem.dram ∧ (State.subscribe s i).sec.lifecycle = s.sec.lifecycle ∧ (State.subscribe s i).sec.otp = s.sec.otp := by
  simp [State.subscribe]

@[simp] theorem State.leaveCore_keep (s : State) (i : Nat) :
    (State.leaveCore s i).pending = s.pending ∧ (State.leaveCore s i).mem.dram = s.mem.dram ∧ (State.leaveCore s i).sec.lifecycle = s.sec.lifecycle ∧ (State.leaveCore s i).sec.otp = s.sec.otp := by
  unfold State.leaveCore; (repeat' split) <;> simp

@[simp] theorem State.unsubscribe_keep (s : State) (i reason : Nat) (d : SrcDesc) :
    (State.unsubscribe s i reason d).pending = s.pending ∧ (State.unsubscribe s i reason d).mem.dram = s.mem.dram ∧ (State.unsubscribe s i reason d).sec.lifecycle = s.sec.lifecycle ∧ (State.unsubscribe s i reason d).sec.otp = s.sec.otp := by
  simp only [State.unsubscribe]; (repeat' split) <;> simp

@[simp] theorem State.kinikLost_keep (s : State) (i : Nat) :
    (State.kinikLost s i).pending = s.pending ∧ (State.kinikLost s i).mem.dram = s.mem.dram ∧ (State.kinikLost s i).sec.lifecycle = s.sec.lifecycle ∧ (State.kinikLost s i).sec.otp = s.sec.otp := by
  unfold State.kinikLost; (repeat' split) <;> simp

@[simp] theorem State.admitKinik_keep (s : State) (i : Nat) :
    (State.admitKinik s i).pending = s.pending ∧ (State.admitKinik s i).mem.dram = s.mem.dram ∧ (State.admitKinik s i).sec.lifecycle = s.sec.lifecycle ∧ (State.admitKinik s i).sec.otp = s.sec.otp := by
  simp [State.admitKinik]

@[simp] theorem State.subscribeAll_keep (s : State) :
    (State.subscribeAll s).pending = s.pending ∧ (State.subscribeAll s).mem.dram = s.mem.dram ∧ (State.subscribeAll s).sec.lifecycle = s.sec.lifecycle ∧ (State.subscribeAll s).sec.otp = s.sec.otp := by
  simp [State.subscribeAll]

@[simp] theorem State.unsubscribeAll_keep (s : State) (reason : Nat) :
    (State.unsubscribeAll s reason).pending = s.pending ∧ (State.unsubscribeAll s reason).mem.dram = s.mem.dram ∧ (State.unsubscribeAll s reason).sec.lifecycle = s.sec.lifecycle ∧ (State.unsubscribeAll s reason).sec.otp = s.sec.otp := by
  simp [State.unsubscribeAll]

@[simp] theorem State.encodeMint_keep (s : State) (i : Nat) (f : Frame) :
    (State.encodeMint s i f).pending = s.pending ∧ (State.encodeMint s i f).mem.dram = s.mem.dram ∧ (State.encodeMint s i f).sec.lifecycle = s.sec.lifecycle ∧ (State.encodeMint s i f).sec.otp = s.sec.otp := by
  simp [State.encodeMint]

@[simp] theorem State.mint_keep (s : State) (i : Nat) (f : Frame) :
    (State.mint s i f).pending = s.pending ∧ (State.mint s i f).mem.dram = s.mem.dram ∧ (State.mint s i f).sec.lifecycle = s.sec.lifecycle ∧ (State.mint s i f).sec.otp = s.sec.otp := by
  simp only [State.mint]; (repeat' split) <;> simp

@[simp] theorem State.endCommit_keep (s : State) (c : Commit) (st : CommitState) :
    (State.endCommit s c st).pending = s.pending ∧ (State.endCommit s c st).mem.dram = s.mem.dram ∧ (State.endCommit s c st).sec.lifecycle = s.sec.lifecycle ∧ (State.endCommit s c st).sec.otp = s.sec.otp := by
  simp [State.endCommit]

@[simp] theorem State.deferResponse_keep (s : State) (c : Commit) :
    (State.deferResponse s c).pending = s.pending ∧ (State.deferResponse s c).mem.dram = s.mem.dram ∧ (State.deferResponse s c).sec.lifecycle = s.sec.lifecycle ∧ (State.deferResponse s c).sec.otp = s.sec.otp := by
  unfold State.deferResponse; (repeat' split) <;> simp

@[simp] theorem State.reject_keep (s : State) (c : Commit) (f : Reject) :
    (State.reject s c f).pending = s.pending ∧ (State.reject s c f).mem.dram = s.mem.dram ∧ (State.reject s c f).sec.lifecycle = s.sec.lifecycle ∧ (State.reject s c f).sec.otp = s.sec.otp := by
  unfold State.reject; (repeat' split) <;> simp

@[simp] theorem State.eligible_keep (s : State) (c : Commit) :
    (State.eligible s c).pending = s.pending ∧ (State.eligible s c).mem.dram = s.mem.dram ∧ (State.eligible s c).sec.lifecycle = s.sec.lifecycle ∧ (State.eligible s c).sec.otp = s.sec.otp := by
  unfold State.eligible; (repeat' split) <;> simp

@[simp] theorem State.checkColours_keep (s : State) :
    (State.checkColours s).pending = s.pending ∧ (State.checkColours s).mem.dram = s.mem.dram ∧ (State.checkColours s).sec.lifecycle = s.sec.lifecycle ∧ (State.checkColours s).sec.otp = s.sec.otp := by
  simp [State.checkColours]

@[simp] theorem State.logPolicy_keep (s : State) (a b : ConfigSet) (seq : Nat) :
    (State.logPolicy s a b seq).pending = s.pending ∧ (State.logPolicy s a b seq).mem.dram = s.mem.dram ∧ (State.logPolicy s a b seq).sec.lifecycle = s.sec.lifecycle ∧ (State.logPolicy s a b seq).sec.otp = s.sec.otp := by
  simp [State.logPolicy]

@[simp] theorem State.changeSubscriptions_keep (s : State) (a : ConfigSet) :
    (State.changeSubscriptions s a).pending = s.pending ∧ (State.changeSubscriptions s a).mem.dram = s.mem.dram ∧ (State.changeSubscriptions s a).sec.lifecycle = s.sec.lifecycle ∧ (State.changeSubscriptions s a).sec.otp = s.sec.otp := by
  simp [State.changeSubscriptions]

@[simp] theorem State.settleHead_keep (s : State) (a : ConfigSet) (h : Nat) :
    (State.settleHead s a h).pending = s.pending ∧ (State.settleHead s a h).mem.dram = s.mem.dram ∧ (State.settleHead s a h).sec.lifecycle = s.sec.lifecycle ∧ (State.settleHead s a h).sec.otp = s.sec.otp := by
  simp only [State.settleHead]; (repeat' split) <;> simp

@[simp] theorem State.beginPanelStart_keep (s : State) (p retries : Nat) :
    (State.beginPanelStart s p retries).pending = s.pending ∧ (State.beginPanelStart s p retries).mem.dram = s.mem.dram ∧ (State.beginPanelStart s p retries).sec.lifecycle = s.sec.lifecycle ∧ (State.beginPanelStart s p retries).sec.otp = s.sec.otp := by
  simp [State.beginPanelStart]

@[simp] theorem State.beginPanelStop_keep (s : State) (p reason : Nat) (restart : Bool) :
    (State.beginPanelStop s p reason restart).pending = s.pending ∧ (State.beginPanelStop s p reason restart).mem.dram = s.mem.dram ∧ (State.beginPanelStop s p reason restart).sec.lifecycle = s.sec.lifecycle ∧ (State.beginPanelStop s p reason restart).sec.otp = s.sec.otp := by
  simp [State.beginPanelStop]

@[simp] theorem State.keepUnder_keep (s : State) (a : ConfigSet) (p : Nat) :
    (State.keepUnder s a p).pending = s.pending ∧ (State.keepUnder s a p).mem.dram = s.mem.dram ∧ (State.keepUnder s a p).sec.lifecycle = s.sec.lifecycle ∧ (State.keepUnder s a p).sec.otp = s.sec.otp := by
  simp [State.keepUnder]

@[simp] theorem State.settlePanel_keep (s : State) (a : ConfigSet) (p : Nat) :
    (State.settlePanel s a p).pending = s.pending ∧ (State.settlePanel s a p).mem.dram = s.mem.dram ∧ (State.settlePanel s a p).sec.lifecycle = s.sec.lifecycle ∧ (State.settlePanel s a p).sec.otp = s.sec.otp := by
  simp only [State.settlePanel]; (repeat' split) <;> simp

@[simp] theorem State.clearWritten_keep (s : State) (a : ConfigSet) :
    (State.clearWritten s a).pending = s.pending ∧ (State.clearWritten s a).mem.dram = s.mem.dram ∧ (State.clearWritten s a).sec.lifecycle = s.sec.lifecycle ∧ (State.clearWritten s a).sec.otp = s.sec.otp := by
  simp [State.clearWritten]

@[simp] theorem State.endOutputs_keep (s : State) (a : ConfigSet) :
    (State.endOutputs s a).pending = s.pending ∧ (State.endOutputs s a).mem.dram = s.mem.dram ∧ (State.endOutputs s a).sec.lifecycle = s.sec.lifecycle ∧ (State.endOutputs s a).sec.otp = s.sec.otp := by
  simp [State.endOutputs]

@[simp] theorem State.settle_keep (s : State) (c : Commit) :
    (State.settle s c).pending = s.pending ∧ (State.settle s c).mem.dram = s.mem.dram ∧ (State.settle s c).sec.lifecycle = s.sec.lifecycle ∧ (State.settle s c).sec.otp = s.sec.otp := by
  simp [State.settle]

@[simp] theorem State.defer_keep (s : State) (c : Commit) (cause : Nat) :
    (State.defer s c cause).pending = s.pending ∧ (State.defer s c cause).mem.dram = s.mem.dram ∧ (State.defer s c cause).sec.lifecycle = s.sec.lifecycle ∧ (State.defer s c cause).sec.otp = s.sec.otp := by
  simp [State.defer]

@[simp] theorem State.deferStaging_keep (s : State) (c : Commit) :
    (State.deferStaging s c).pending = s.pending ∧ (State.deferStaging s c).mem.dram = s.mem.dram ∧ (State.deferStaging s c).sec.lifecycle = s.sec.lifecycle ∧ (State.deferStaging s c).sec.otp = s.sec.otp := by
  simp [State.deferStaging]

@[simp] theorem State.mirrorReject_keep (s : State) (seq : Nat) (f : Reject) :
    (State.mirrorReject s seq f).pending = s.pending ∧ (State.mirrorReject s seq f).mem.dram = s.mem.dram ∧ (State.mirrorReject s seq f).sec.lifecycle = s.sec.lifecycle ∧ (State.mirrorReject s seq f).sec.otp = s.sec.otp := by
  simp [State.mirrorReject]

@[simp] theorem State.mirrorClear_keep (s : State) (seq group : Nat) (swap : Bool) :
    (State.mirrorClear s seq group swap).pending = s.pending ∧ (State.mirrorClear s seq group swap).mem.dram = s.mem.dram ∧ (State.mirrorClear s seq group swap).sec.lifecycle = s.sec.lifecycle ∧ (State.mirrorClear s seq group swap).sec.otp = s.sec.otp := by
  unfold State.mirrorClear; (repeat' split) <;> simp

@[simp] theorem State.mirrorDo_keep (s : State) (m : MirrorOp) :
    (State.mirrorDo s m).pending = s.pending ∧ (State.mirrorDo s m).mem.dram = s.mem.dram ∧ (State.mirrorDo s m).sec.lifecycle = s.sec.lifecycle ∧ (State.mirrorDo s m).sec.otp = s.sec.otp := by
  unfold State.mirrorDo; (repeat' split) <;> simp

@[simp] theorem State.mirrorTake_keep (s : State) (m : MirrorOp) :
    (State.mirrorTake s m).pending = s.pending ∧ (State.mirrorTake s m).mem.dram = s.mem.dram ∧ (State.mirrorTake s m).sec.lifecycle = s.sec.lifecycle ∧ (State.mirrorTake s m).sec.otp = s.sec.otp := by
  simp [State.mirrorTake]

@[simp] theorem State.mirrorDrain_keep (s : State) (n : Nat) :
    (s.mirrorDrain n).pending = s.pending ∧ (s.mirrorDrain n).mem.dram = s.mem.dram ∧ (s.mirrorDrain n).sec.lifecycle = s.sec.lifecycle ∧ (s.mirrorDrain n).sec.otp = s.sec.otp := by
  induction n generalizing s with
  | zero => simp [State.mirrorDrain]
  | succ n ih => unfold State.mirrorDrain; (repeat' split) <;> simp [ih]

@[simp] theorem State.evaluateMirrored_keep (s : State) (c : Commit) :
    (State.evaluateMirrored s c).pending = s.pending ∧ (State.evaluateMirrored s c).mem.dram = s.mem.dram ∧ (State.evaluateMirrored s c).sec.lifecycle = s.sec.lifecycle ∧ (State.evaluateMirrored s c).sec.otp = s.sec.otp := by
  unfold State.evaluateMirrored; simp (disch := (intros; (try dsimp only); (repeat' split) <;> (try simp)))

@[simp] theorem State.evaluate_keep (s : State) (c : Commit) :
    (State.evaluate s c).pending = s.pending ∧ (State.evaluate s c).mem.dram = s.mem.dram ∧ (State.evaluate s c).sec.lifecycle = s.sec.lifecycle ∧ (State.evaluate s c).sec.otp = s.sec.otp := by
  simp [State.evaluate]

@[simp] theorem State.sample_keep (s : State) (g : Nat) :
    (State.sample s g).pending = s.pending ∧ (State.sample s g).mem.dram = s.mem.dram ∧ (State.sample s g).sec.lifecycle = s.sec.lifecycle ∧ (State.sample s g).sec.otp = s.sec.otp := by
  unfold State.sample; (repeat' split) <;> simp

@[simp] theorem State.placeAnchor_keep (s : State) (l : Nat) :
    (State.placeAnchor s l).pending = s.pending ∧ (State.placeAnchor s l).mem.dram = s.mem.dram ∧ (State.placeAnchor s l).sec.lifecycle = s.sec.lifecycle ∧ (State.placeAnchor s l).sec.otp = s.sec.otp := by
  simp only [State.placeAnchor]; (repeat' split) <;> simp

@[simp] theorem State.publish_keep (s : State) (o : Nat) (recs : List (Nat × TileRec)) (tag : Option Nat) :
    (State.publish s o recs tag).pending = s.pending ∧ (State.publish s o recs tag).mem.dram = s.mem.dram ∧ (State.publish s o recs tag).sec.lifecycle = s.sec.lifecycle ∧ (State.publish s o recs tag).sec.otp = s.sec.otp := by
  simp [State.publish]

@[simp] theorem State.takeEffect_keep (s : State) (o : Nat) :
    (State.takeEffect s o).pending = s.pending ∧ (State.takeEffect s o).mem.dram = s.mem.dram ∧ (State.takeEffect s o).sec.lifecycle = s.sec.lifecycle ∧ (State.takeEffect s o).sec.otp = s.sec.otp := by
  unfold State.takeEffect; (repeat' split) <;> simp

@[simp] theorem State.roomReported_keep (s : State) (c : Commit) :
    (State.roomReported s c).pending = s.pending ∧ (State.roomReported s c).mem.dram = s.mem.dram ∧ (State.roomReported s c).sec.lifecycle = s.sec.lifecycle ∧ (State.roomReported s c).sec.otp = s.sec.otp := by
  unfold State.roomReported; (repeat' split) <;> simp

@[simp] theorem State.report_keep (s : State) (frame : Nat) :
    (State.report s frame).pending = s.pending ∧ (State.report s frame).mem.dram = s.mem.dram ∧ (State.report s frame).sec.lifecycle = s.sec.lifecycle ∧ (State.report s frame).sec.otp = s.sec.otp := by
  unfold State.report; (repeat' split) <;> simp

@[simp] theorem State.withdrawAtReset_keep (s : State) (kind : Nat) :
    (State.withdrawAtReset s kind).pending = s.pending ∧ (State.withdrawAtReset s kind).mem.dram = s.mem.dram ∧ (State.withdrawAtReset s kind).sec.lifecycle = s.sec.lifecycle ∧ (State.withdrawAtReset s kind).sec.otp = s.sec.otp := by
  unfold State.withdrawAtReset; (repeat' split) <;> simp

@[simp] theorem State.setRt_keep (s : State) (new : RtState) :
    (State.setRt s new).pending = s.pending ∧ (State.setRt s new).mem.dram = s.mem.dram ∧ (State.setRt s new).sec.lifecycle = s.sec.lifecycle ∧ (State.setRt s new).sec.otp = s.sec.otp := by
  simp [State.setRt]

@[simp] theorem State.setTraceable_keep (s : State) (t : Bool) :
    (State.setTraceable s t).pending = s.pending ∧ (State.setTraceable s t).mem.dram = s.mem.dram ∧ (State.setTraceable s t).sec.lifecycle = s.sec.lifecycle ∧ (State.setTraceable s t).sec.otp = s.sec.otp := by
  simp [State.setTraceable]

@[simp] theorem State.slewFor_keep (s : State) (off : Int) :
    (State.slewFor s off).pending = s.pending ∧ (State.slewFor s off).mem.dram = s.mem.dram ∧ (State.slewFor s off).sec.lifecycle = s.sec.lifecycle ∧ (State.slewFor s off).sec.otp = s.sec.otp := by
  simp [State.slewFor]

@[simp] theorem State.setOffset_keep (s : State) (o : Int) :
    (State.setOffset s o).pending = s.pending ∧ (State.setOffset s o).mem.dram = s.mem.dram ∧ (State.setOffset s o).sec.lifecycle = s.sec.lifecycle ∧ (State.setOffset s o).sec.otp = s.sec.otp := by
  simp [State.setOffset]

@[simp] theorem State.endAhead_keep (s : State) :
    (State.endAhead s).pending = s.pending ∧ (State.endAhead s).mem.dram = s.mem.dram ∧ (State.endAhead s).sec.lifecycle = s.sec.lifecycle ∧ (State.endAhead s).sec.otp = s.sec.otp := by
  simp [State.endAhead]

@[simp] theorem State.stepRoom_keep (s : State) (d : Int) (st : RtState) :
    (State.stepRoom s d st).pending = s.pending ∧ (State.stepRoom s d st).mem.dram = s.mem.dram ∧ (State.stepRoom s d st).sec.lifecycle = s.sec.lifecycle ∧ (State.stepRoom s d st).sec.otp = s.sec.otp := by
  simp [State.stepRoom]

@[simp] theorem State.applyOffset_keep (s : State) (off : Int) (st : RtState) :
    (State.applyOffset s off st).pending = s.pending ∧ (State.applyOffset s off st).mem.dram = s.mem.dram ∧ (State.applyOffset s off st).sec.lifecycle = s.sec.lifecycle ∧ (State.applyOffset s off st).sec.otp = s.sec.otp := by
  simp [State.applyOffset]

@[simp] theorem State.follow_keep (s : State) (off : Int) (traceable : Bool) :
    (State.follow s off traceable).pending = s.pending ∧ (State.follow s off traceable).mem.dram = s.mem.dram ∧ (State.follow s off traceable).sec.lifecycle = s.sec.lifecycle ∧ (State.follow s off traceable).sec.otp = s.sec.otp := by
  simp [State.follow]

@[simp] theorem State.peerTimeLost_keep (s : State) (pp : Nat) :
    (State.peerTimeLost s pp).pending = s.pending ∧ (State.peerTimeLost s pp).mem.dram = s.mem.dram ∧ (State.peerTimeLost s pp).sec.lifecycle = s.sec.lifecycle ∧ (State.peerTimeLost s pp).sec.otp = s.sec.otp := by
  simp [State.peerTimeLost]

@[simp] theorem State.genlockRate_keep (s : State) :
    (State.genlockRate s).pending = s.pending ∧ (State.genlockRate s).mem.dram = s.mem.dram ∧ (State.genlockRate s).sec.lifecycle = s.sec.lifecycle ∧ (State.genlockRate s).sec.otp = s.sec.otp := by
  simp [State.genlockRate]

@[simp] theorem State.genlockLock_keep (s : State) :
    (State.genlockLock s).pending = s.pending ∧ (State.genlockLock s).mem.dram = s.mem.dram ∧ (State.genlockLock s).sec.lifecycle = s.sec.lifecycle ∧ (State.genlockLock s).sec.otp = s.sec.otp := by
  simp [State.genlockLock]

@[simp] theorem State.genlockSeek_keep (s : State) :
    (State.genlockSeek s).pending = s.pending ∧ (State.genlockSeek s).mem.dram = s.mem.dram ∧ (State.genlockSeek s).sec.lifecycle = s.sec.lifecycle ∧ (State.genlockSeek s).sec.otp = s.sec.otp := by
  simp [State.genlockSeek]

@[simp] theorem State.genlockTrack_keep (s : State) :
    (State.genlockTrack s).pending = s.pending ∧ (State.genlockTrack s).mem.dram = s.mem.dram ∧ (State.genlockTrack s).sec.lifecycle = s.sec.lifecycle ∧ (State.genlockTrack s).sec.otp = s.sec.otp := by
  simp only [State.genlockTrack]; (repeat' split) <;> simp

@[simp] theorem State.selectDisc_keep (s : State) (new : Bool) :
    (State.selectDisc s new).pending = s.pending ∧ (State.selectDisc s new).mem.dram = s.mem.dram ∧ (State.selectDisc s new).sec.lifecycle = s.sec.lifecycle ∧ (State.selectDisc s new).sec.otp = s.sec.otp := by
  simp only [State.selectDisc]; (repeat' split) <;> simp

@[simp] theorem State.hostSetting_keep (s : State) (value : Nat) :
    (State.hostSetting s value).pending = s.pending ∧ (State.hostSetting s value).mem.dram = s.mem.dram ∧ (State.hostSetting s value).sec.lifecycle = s.sec.lifecycle ∧ (State.hostSetting s value).sec.otp = s.sec.otp := by
  simp [State.hostSetting]

@[simp] theorem State.configure_keep (s : State) (r : Request) (d : Discipline) (k : FrameClock) :
    (State.configure s r d k).pending = s.pending ∧ (State.configure s r d k).mem.dram = s.mem.dram ∧ (State.configure s r d k).sec.lifecycle = s.sec.lifecycle ∧ (State.configure s r d k).sec.otp = s.sec.otp := by
  simp [State.configure]

@[simp] theorem State.withdrawSurface_keep (s : State) (surf : Nat) :
    (State.withdrawSurface s surf).pending = s.pending ∧ (State.withdrawSurface s surf).mem.dram = s.mem.dram ∧ (State.withdrawSurface s surf).sec.lifecycle = s.sec.lifecycle ∧ (State.withdrawSurface s surf).sec.otp = s.sec.otp := by
  simp only [State.withdrawSurface]; (repeat' split) <;> simp

@[simp] theorem State.mintSurface_keep (s : State) (i b : Nat) (d : SurfDesc) (at' : Nat) (declared : Option Nat) :
    (State.mintSurface s i b d at' declared).pending = s.pending ∧ (State.mintSurface s i b d at' declared).mem.dram = s.mem.dram ∧ (State.mintSurface s i b d at' declared).sec.lifecycle = s.sec.lifecycle ∧ (State.mintSurface s i b d at' declared).sec.otp = s.sec.otp := by
  simp [State.mintSurface]

@[simp] theorem State.holdSets_keep (s : State) (i : Nat) (body : Bytes) :
    (State.holdSets s i body).pending = s.pending ∧ (State.holdSets s i body).mem.dram = s.mem.dram ∧ (State.holdSets s i body).sec.lifecycle = s.sec.lifecycle ∧ (State.holdSets s i body).sec.otp = s.sec.otp := by
  simp [State.holdSets]

@[simp] theorem State.retireCore_keep (s : State) (c : Nat) :
    (s.retireCore c).pending = s.pending ∧ (s.retireCore c).mem.dram = s.mem.dram ∧ (s.retireCore c).sec.lifecycle = s.sec.lifecycle ∧ (s.retireCore c).sec.otp = s.sec.otp := by
  unfold State.retireCore; simp

@[simp] theorem State.powerCore_keep (s : State) (c : Nat) :
    (s.powerCore c).1.pending = s.pending ∧ (s.powerCore c).1.mem.dram = s.mem.dram ∧ (s.powerCore c).1.sec.lifecycle = s.sec.lifecycle ∧ (s.powerCore c).1.sec.otp = s.sec.otp := by
  unfold State.powerCore; (try dsimp only); (repeat' split) <;> simp

@[simp] theorem State.placeOn_keep (s : State) (i : Nat) (p : Sps) (n : Nat) :
    (s.placeOn i p n).1.pending = s.pending ∧ (s.placeOn i p n).1.mem.dram = s.mem.dram ∧ (s.placeOn i p n).1.sec.lifecycle = s.sec.lifecycle ∧ (s.placeOn i p n).1.sec.otp = s.sec.otp := by
  induction n generalizing s with
  | zero => simp [State.placeOn]
  | succ n ih => unfold State.placeOn; (try dsimp only); (repeat' split) <;> simp [ih]

@[simp] theorem State.place_keep (s : State) (i : Nat) (p : Sps) :
    (s.place i p).1.pending = s.pending ∧ (s.place i p).1.mem.dram = s.mem.dram ∧ (s.place i p).1.sec.lifecycle = s.sec.lifecycle ∧ (s.place i p).1.sec.otp = s.sec.otp := by
  unfold State.place; (try dsimp only); simp

@[simp] theorem State.outputPic_keep (s : State) (i : Nat) (x : DpbPic) :
    (State.outputPic s i x).pending = s.pending ∧ (State.outputPic s i x).mem.dram = s.mem.dram ∧ (State.outputPic s i x).sec.lifecycle = s.sec.lifecycle ∧ (State.outputPic s i x).sec.otp = s.sec.otp := by
  simp [State.outputPic]

@[simp] theorem State.outputWhile_keep (s : State) (i : Nat) (test : List DpbPic → Bool) (n : Nat) :
    (s.outputWhile i test n).pending = s.pending ∧ (s.outputWhile i test n).mem.dram = s.mem.dram ∧ (s.outputWhile i test n).sec.lifecycle = s.sec.lifecycle ∧ (s.outputWhile i test n).sec.otp = s.sec.otp := by
  induction n generalizing s with
  | zero => simp [State.outputWhile]
  | succ n ih => unfold State.outputWhile; dsimp only; (repeat' split) <;> simp [ih]

@[simp] theorem State.flushOutput_keep (s : State) (i : Nat) :
    (State.flushOutput s i).pending = s.pending ∧ (State.flushOutput s i).mem.dram = s.mem.dram ∧ (State.flushOutput s i).sec.lifecycle = s.sec.lifecycle ∧ (State.flushOutput s i).sec.otp = s.sec.otp := by
  unfold State.flushOutput; simp (disch := (intros; (try dsimp only); (repeat' split) <;> (try simp)))

@[simp] theorem State.bumpOutput_keep (s : State) (i : Nat) :
    (State.bumpOutput s i).pending = s.pending ∧ (State.bumpOutput s i).mem.dram = s.mem.dram ∧ (State.bumpOutput s i).sec.lifecycle = s.sec.lifecycle ∧ (State.bumpOutput s i).sec.otp = s.sec.otp := by
  unfold State.bumpOutput; dsimp only; (repeat' split) <;> simp (disch := (intros; (try dsimp only); (repeat' split) <;> (try simp)))

@[simp] theorem State.countStop_keep (s : State) (i code : Nat) (poc : Int) :
    (s.countStop i code poc).1.pending = s.pending ∧ (s.countStop i code poc).1.mem.dram = s.mem.dram ∧ (s.countStop i code poc).1.sec.lifecycle = s.sec.lifecycle ∧ (s.countStop i code poc).1.sec.otp = s.sec.otp := by
  unfold State.countStop; dsimp only; (repeat' split) <;> simp

@[simp] theorem State.loseStopped_keep (s : State) (i : Nat) :
    (State.loseStopped s i).pending = s.pending ∧ (State.loseStopped s i).mem.dram = s.mem.dram ∧ (State.loseStopped s i).sec.lifecycle = s.sec.lifecycle ∧ (State.loseStopped s i).sec.otp = s.sec.otp := by
  simp [State.loseStopped]

@[simp] theorem State.damage_keep (s : State) (i code : Nat) (poc : Int) (ps : List Nat) (discard : Nat) :
    (s.damage i code poc ps discard).pending = s.pending ∧ (s.damage i code poc ps discard).mem.dram = s.mem.dram ∧ (s.damage i code poc ps discard).sec.lifecycle = s.sec.lifecycle ∧ (s.damage i code poc ps discard).sec.otp = s.sec.otp := by
  unfold State.damage; dsimp only; (repeat' split) <;> simp

@[simp] theorem State.auDamage_keep (s : State) (i code : Nat) (poc : Int) (ps : List Nat) :
    (State.auDamage s i code poc ps).pending = s.pending ∧ (State.auDamage s i code poc ps).mem.dram = s.mem.dram ∧ (State.auDamage s i code poc ps).sec.lifecycle = s.sec.lifecycle ∧ (State.auDamage s i code poc ps).sec.otp = s.sec.otp := by
  simp [State.auDamage]

@[simp] theorem State.discontinuity_keep (s : State) (i cause : Nat) :
    (State.discontinuity s i cause).pending = s.pending ∧ (State.discontinuity s i cause).mem.dram = s.mem.dram ∧ (State.discontinuity s i cause).sec.lifecycle = s.sec.lifecycle ∧ (State.discontinuity s i cause).sec.otp = s.sec.otp := by
  unfold State.discontinuity; (repeat' split) <;> simp

@[simp] theorem State.beginDecode_keep (s : State) (i : Nat) (u : AuInfo) (a : AuUnit) :
    (State.beginDecode s i u a).pending = s.pending ∧ (State.beginDecode s i u a).mem.dram = s.mem.dram ∧ (State.beginDecode s i u a).sec.lifecycle = s.sec.lifecycle ∧ (State.beginDecode s i u a).sec.otp = s.sec.otp := by
  simp [State.beginDecode]

@[simp] theorem State.loadSets_keep (s : State) (i : Nat) :
    (State.loadSets s i).pending = s.pending ∧ (State.loadSets s i).mem.dram = s.mem.dram ∧ (State.loadSets s i).sec.lifecycle = s.sec.lifecycle ∧ (State.loadSets s i).sec.otp = s.sec.otp := by
  unfold State.loadSets; (repeat' split) <;> simp (disch := (intros; (try dsimp only); (repeat' split) <;> (try simp)))

@[simp] theorem State.restartable_keep (s : State) (i : Nat) (u : AuInfo) :
    (s.restartable i u).1.pending = s.pending ∧ (s.restartable i u).1.mem.dram = s.mem.dram ∧ (s.restartable i u).1.sec.lifecycle = s.sec.lifecycle ∧ (s.restartable i u).1.sec.otp = s.sec.otp := by
  unfold State.restartable; (try dsimp only); (repeat' split) <;> simp

@[simp] theorem State.parseNext_keep (s : State) (c : Nat) :
    (State.parseNext s c).pending = s.pending ∧ (State.parseNext s c).mem.dram = s.mem.dram ∧ (State.parseNext s c).sec.lifecycle = s.sec.lifecycle ∧ (State.parseNext s c).sec.otp = s.sec.otp := by
  unfold State.parseNext; (repeat' split) <;> simp

@[simp] theorem State.runAhead_keep (s : State) (i : Nat) :
    (State.runAhead s i).pending = s.pending ∧ (State.runAhead s i).mem.dram = s.mem.dram ∧ (State.runAhead s i).sec.lifecycle = s.sec.lifecycle ∧ (State.runAhead s i).sec.otp = s.sec.otp := by
  unfold State.runAhead; (repeat' split) <;> simp

@[simp] theorem State.takeAu_keep (s : State) (i : Nat) (a : AuUnit) :
    (s.takeAu i a).pending = s.pending ∧ (s.takeAu i a).mem.dram = s.mem.dram ∧ (s.takeAu i a).sec.lifecycle = s.sec.lifecycle ∧ (s.takeAu i a).sec.otp = s.sec.otp := by
  unfold State.takeAu; dsimp only; (repeat' split) <;> simp

@[simp] theorem State.releaseAu_keep (s : State) (i : Nat) (a : AuUnit) :
    (State.releaseAu s i a).pending = s.pending ∧ (State.releaseAu s i a).mem.dram = s.mem.dram ∧ (State.releaseAu s i a).sec.lifecycle = s.sec.lifecycle ∧ (State.releaseAu s i a).sec.otp = s.sec.otp := by
  unfold State.releaseAu; (repeat' split) <;> simp (disch := (intros; (try dsimp only); (repeat' split) <;> (try simp)))

@[simp] theorem State.rateWindow_keep (s : State) (i : Nat) :
    (State.rateWindow s i).pending = s.pending ∧ (State.rateWindow s i).mem.dram = s.mem.dram ∧ (State.rateWindow s i).sec.lifecycle = s.sec.lifecycle ∧ (State.rateWindow s i).sec.otp = s.sec.otp := by
  simp only [State.rateWindow]; (repeat' split) <;> simp

@[simp] theorem State.activate_keep (s : State) (i : Nat) (u : AuInfo) (h265 : Bool) (q : Active) :
    (s.activate i u h265 q).1.pending = s.pending ∧ (s.activate i u h265 q).1.mem.dram = s.mem.dram ∧ (s.activate i u h265 q).1.sec.lifecycle = s.sec.lifecycle ∧ (s.activate i u h265 q).1.sec.otp = s.sec.otp := by
  unfold State.activate; (try dsimp only); (repeat' split) <;> simp

@[simp] theorem State.countBits_keep (s : State) (i bytes : Nat) :
    (State.countBits s i bytes).pending = s.pending ∧ (State.countBits s i bytes).mem.dram = s.mem.dram ∧ (State.countBits s i bytes).sec.lifecycle = s.sec.lifecycle ∧ (State.countBits s i bytes).sec.otp = s.sec.otp := by
  unfold State.countBits; (repeat' split) <;> simp

@[simp] theorem State.coreFails_keep (s : State) (c : Nat) :
    (s.coreFails c).pending = s.pending ∧ (s.coreFails c).mem.dram = s.mem.dram ∧ (s.coreFails c).sec.lifecycle = s.sec.lifecycle ∧ (s.coreFails c).sec.otp = s.sec.otp := by
  unfold State.coreFails
  simp
  apply each_from
  · intros; (repeat' split) <;> simp
  · simp

@[simp] theorem State.dropFrame_keep (s : State) (port : Nat) :
    (State.dropFrame s port).pending = s.pending ∧ (State.dropFrame s port).mem.dram = s.mem.dram ∧ (State.dropFrame s port).sec.lifecycle = s.sec.lifecycle ∧ (State.dropFrame s port).sec.otp = s.sec.otp := by
  simp [State.dropFrame]

@[simp] theorem State.authFails_keep (s : State) (i : Nat) :
    (State.authFails s i).pending = s.pending ∧ (State.authFails s i).mem.dram = s.mem.dram ∧ (State.authFails s i).sec.lifecycle = s.sec.lifecycle ∧ (State.authFails s i).sec.otp = s.sec.otp := by
  simp [State.authFails]

@[simp] theorem State.authRtp_keep (s : State) (i : Nat) (k : RtpPacket) :
    (s.authRtp i k).1.pending = s.pending ∧ (s.authRtp i k).1.mem.dram = s.mem.dram ∧ (s.authRtp i k).1.sec.lifecycle = s.sec.lifecycle ∧ (s.authRtp i k).1.sec.otp = s.sec.otp := by
  unfold State.authRtp; (try dsimp only); (repeat' split) <;> simp

@[simp] theorem State.authRtcp_keep (s : State) (i : Nat) (k : RtcpHead) :
    (s.authRtcp i k).1.pending = s.pending ∧ (s.authRtcp i k).1.mem.dram = s.mem.dram ∧ (s.authRtcp i k).1.sec.lifecycle = s.sec.lifecycle ∧ (s.authRtcp i k).1.sec.otp = s.sec.otp := by
  unfold State.authRtcp; (try dsimp only); (repeat' split) <;> simp

@[simp] theorem State.captureTime_keep (s : State) (i ts arrival : Nat) (annex : Option Annex) (element : Option Nat) :
    (s.captureTime i ts arrival annex element).1.pending = s.pending ∧ (s.captureTime i ts arrival annex element).1.mem.dram = s.mem.dram ∧ (s.captureTime i ts arrival annex element).1.sec.lifecycle = s.sec.lifecycle ∧ (s.captureTime i ts arrival annex element).1.sec.otp = s.sec.otp := by
  unfold State.captureTime; dsimp only; (repeat' split) <;> simp

@[simp] theorem State.emitAu_keep (s : State) (i : Nat) (l : List HeldPacket) (incomplete : Bool) (missing : Nat) :
    (s.emitAu i l incomplete missing).pending = s.pending ∧ (s.emitAu i l incomplete missing).mem.dram = s.mem.dram ∧ (s.emitAu i l incomplete missing).sec.lifecycle = s.sec.lifecycle ∧ (s.emitAu i l incomplete missing).sec.otp = s.sec.otp := by
  unfold State.emitAu; (repeat' split) <;> simp

@[simp] theorem State.releaseReady_keep (s : State) (i n : Nat) :
    (s.releaseReady i n).pending = s.pending ∧ (s.releaseReady i n).mem.dram = s.mem.dram ∧ (s.releaseReady i n).sec.lifecycle = s.sec.lifecycle ∧ (s.releaseReady i n).sec.otp = s.sec.otp := by
  induction n generalizing s with
  | zero => simp [State.releaseReady]
  | succ n ih => unfold State.releaseReady; (repeat' split) <;> simp [ih]

theorem State.jitterTakes_keep {s : State} {n : Nat} {t : State} (h : s.jitterTakes n = some t) :
    t.pending = s.pending ∧ t.mem.dram = s.mem.dram ∧ t.sec.lifecycle = s.sec.lifecycle ∧ t.sec.otp = s.sec.otp := by
  unfold State.jitterTakes at h
  dsimp only at h
  split at h
  · cases h
  · cases h; simp

@[simp] theorem State.holdPacket_keep (s : State) (i ext : Nat) (k : RtpPacket) :
    (s.holdPacket i ext k).pending = s.pending ∧ (s.holdPacket i ext k).mem.dram = s.mem.dram ∧ (s.holdPacket i ext k).sec.lifecycle = s.sec.lifecycle ∧ (s.holdPacket i ext k).sec.otp = s.sec.otp := by
  unfold State.holdPacket
  dsimp only
  split
  · simp
  split
  · simp
  split
  · simp
  · rename_i h
    have h := State.jitterTakes_keep h
    simp [h]

@[simp] theorem State.bufferPacket_keep (s : State) (i : Nat) (k : RtpPacket) :
    (State.bufferPacket s i k).pending = s.pending ∧ (State.bufferPacket s i k).mem.dram = s.mem.dram ∧ (State.bufferPacket s i k).sec.lifecycle = s.sec.lifecycle ∧ (State.bufferPacket s i k).sec.otp = s.sec.otp := by
  simp only [State.bufferPacket]; (repeat' split) <;> simp

@[simp] theorem State.changeSsrc_keep (s : State) (i new : Nat) :
    (State.changeSsrc s i new).pending = s.pending ∧ (State.changeSsrc s i new).mem.dram = s.mem.dram ∧ (State.changeSsrc s i new).sec.lifecycle = s.sec.lifecycle ∧ (State.changeSsrc s i new).sec.otp = s.sec.otp := by
  simp [State.changeSsrc]

@[simp] theorem State.deliverRtp_keep (s : State) (port i : Nat) (k : RtpPacket) :
    (s.deliverRtp port i k).pending = s.pending ∧ (s.deliverRtp port i k).mem.dram = s.mem.dram ∧ (s.deliverRtp port i k).sec.lifecycle = s.sec.lifecycle ∧ (s.deliverRtp port i k).sec.otp = s.sec.otp := by
  unfold State.deliverRtp
  dsimp only; (repeat' split) <;> simp

@[simp] theorem State.answerQuery_keep (s : State) (port : Nat) (q : MembershipQuery) :
    (State.answerQuery s port q).pending = s.pending ∧ (State.answerQuery s port q).mem.dram = s.mem.dram ∧ (State.answerQuery s port q).sec.lifecycle = s.sec.lifecycle ∧ (State.answerQuery s port q).sec.otp = s.sec.otp := by
  unfold State.answerQuery; simp (disch := (intros; (try dsimp only); (repeat' split) <;> (try simp)))

@[simp] theorem State.deliverRtcp_keep (s : State) (i : Nat) (k : EthPacket) :
    (s.deliverRtcp i k).pending = s.pending ∧ (s.deliverRtcp i k).mem.dram = s.mem.dram ∧ (s.deliverRtcp i k).sec.lifecycle = s.sec.lifecycle ∧ (s.deliverRtcp i k).sec.otp = s.sec.otp := by
  unfold State.deliverRtcp
  split <;> (try dsimp only) <;> (repeat' split) <;> simp

@[simp] theorem State.takeFrame_keep (s : State) (port : Nat) (d : EthDesc) (k : EthPacket) :
    (State.takeFrame s port d k).pending = s.pending ∧ (State.takeFrame s port d k).mem.dram = s.mem.dram ∧ (State.takeFrame s port d k).sec.lifecycle = s.sec.lifecycle ∧ (State.takeFrame s port d k).sec.otp = s.sec.otp := by
  simp only [State.takeFrame]; (repeat' split) <;> simp

@[simp] theorem State.startRound_keep (s : State) (o : Nat) :
    (State.startRound s o).pending = s.pending ∧ (State.startRound s o).mem.dram = s.mem.dram ∧ (State.startRound s o).sec.lifecycle = s.sec.lifecycle ∧ (State.startRound s o).sec.otp = s.sec.otp := by
  simp only [State.startRound]; (repeat' split) <;> simp

@[simp] theorem State.publishRound_keep (s : State) (o : Nat) :
    (State.publishRound s o).pending = s.pending ∧ (State.publishRound s o).mem.dram = s.mem.dram ∧ (State.publishRound s o).sec.lifecycle = s.sec.lifecycle ∧ (State.publishRound s o).sec.otp = s.sec.otp := by
  simp only [State.publishRound]; (repeat' split) <;> simp

@[simp] theorem State.checkTag_keep (s : State) (o t : Nat) :
    (State.checkTag s o t).pending = s.pending ∧ (State.checkTag s o t).mem.dram = s.mem.dram ∧ (State.checkTag s o t).sec.lifecycle = s.sec.lifecycle ∧ (State.checkTag s o t).sec.otp = s.sec.otp := by
  simp [State.checkTag]

@[simp] theorem State.putEpisode_keep (s : State) (e : Episode) :
    (State.putEpisode s e).pending = s.pending ∧ (State.putEpisode s e).mem.dram = s.mem.dram ∧ (State.putEpisode s e).sec.lifecycle = s.sec.lifecycle ∧ (State.putEpisode s e).sec.otp = s.sec.otp := by
  simp [State.putEpisode]

@[simp] theorem State.voidBegin_keep (s : State) (o l reason : Nat) (age : Option Nat) (tEval : Nat) (old : Option Episode) :
    (State.voidBegin s o l reason age tEval old).pending = s.pending ∧ (State.voidBegin s o l reason age tEval old).mem.dram = s.mem.dram ∧ (State.voidBegin s o l reason age tEval old).sec.lifecycle = s.sec.lifecycle ∧ (State.voidBegin s o l reason age tEval old).sec.otp = s.sec.otp := by
  simp [State.voidBegin]

@[simp] theorem State.updateEpisode_keep (s : State) (o tEval l : Nat) :
    (State.updateEpisode s o tEval l).pending = s.pending ∧ (State.updateEpisode s o tEval l).mem.dram = s.mem.dram ∧ (State.updateEpisode s o tEval l).sec.lifecycle = s.sec.lifecycle ∧ (State.updateEpisode s o tEval l).sec.otp = s.sec.otp := by
  unfold State.updateEpisode; (repeat' split) <;> simp

@[simp] theorem State.proofStart_keep (s : State) (o count : Nat) :
    (State.proofStart s o count).pending = s.pending ∧ (State.proofStart s o count).mem.dram = s.mem.dram ∧ (State.proofStart s o count).sec.lifecycle = s.sec.lifecycle ∧ (State.proofStart s o count).sec.otp = s.sec.otp := by
  unfold State.proofStart; (repeat' split) <;> simp

@[simp] theorem State.renderRow_keep (s : State) (o row : Nat) :
    (State.renderRow s o row).pending = s.pending ∧ (State.renderRow s o row).mem.dram = s.mem.dram ∧ (State.renderRow s o row).sec.lifecycle = s.sec.lifecycle ∧ (State.renderRow s o row).sec.otp = s.sec.otp := by
  simp [State.renderRow]

@[simp] theorem State.sendVoids_keep (s : State) (o : Nat) (l : List VoidArea) :
    (State.sendVoids s o l).pending = s.pending ∧ (State.sendVoids s o l).mem.dram = s.mem.dram ∧ (State.sendVoids s o l).sec.lifecycle = s.sec.lifecycle ∧ (State.sendVoids s o l).sec.otp = s.sec.otp := by
  simp [State.sendVoids]

@[simp] theorem State.sendLegends_keep (s : State) (o : Nat) (l : List Legend) :
    (State.sendLegends s o l).pending = s.pending ∧ (State.sendLegends s o l).mem.dram = s.mem.dram ∧ (State.sendLegends s o l).sec.lifecycle = s.sec.lifecycle ∧ (State.sendLegends s o l).sec.otp = s.sec.otp := by
  simp [State.sendLegends]

@[simp] theorem State.writeBack_keep (s : State) (o : Nat) (recs : List (Nat × TileRec)) :
    (State.writeBack s o recs).pending = s.pending ∧ (State.writeBack s o recs).mem.dram = s.mem.dram ∧ (State.writeBack s o recs).sec.lifecycle = s.sec.lifecycle ∧ (State.writeBack s o recs).sec.otp = s.sec.otp := by
  simp [State.writeBack]

@[simp] theorem State.evalRow_keep (s : State) (o row tEval : Nat) (emit : Bool) :
    (State.evalRow s o row tEval emit).pending = s.pending ∧ (State.evalRow s o row tEval emit).mem.dram = s.mem.dram ∧ (State.evalRow s o row tEval emit).sec.lifecycle = s.sec.lifecycle ∧ (State.evalRow s o row tEval emit).sec.otp = s.sec.otp := by
  simp [State.evalRow]

@[simp] theorem State.putLane_keep (s : State) (h : Nat) (x : LaneOut) :
    (State.putLane s h x).pending = s.pending ∧ (State.putLane s h x).mem.dram = s.mem.dram ∧ (State.putLane s h x).sec.lifecycle = s.sec.lifecycle ∧ (State.putLane s h x).sec.otp = s.sec.otp := by
  simp [State.putLane]

@[simp] theorem State.keepCrc_keep (s : State) (h row : Nat) (x : LaneOut) :
    (State.keepCrc s h row x).pending = s.pending ∧ (State.keepCrc s h row x).mem.dram = s.mem.dram ∧ (State.keepCrc s h row x).sec.lifecycle = s.sec.lifecycle ∧ (State.keepCrc s h row x).sec.otp = s.sec.otp := by
  simp [State.keepCrc]

@[simp] theorem State.noteRegion_keep (s : State) (h k x0 : Nat) (codes : List Nat) :
    (State.noteRegion s h k x0 codes).pending = s.pending ∧ (State.noteRegion s h k x0 codes).mem.dram = s.mem.dram ∧ (State.noteRegion s h k x0 codes).sec.lifecycle = s.sec.lifecycle ∧ (State.noteRegion s h k x0 codes).sec.otp = s.sec.otp := by
  unfold State.noteRegion; (repeat' split) <;> simp

@[simp] theorem State.dropCapture_keep (s : State) (j o : Nat) :
    (State.dropCapture s j o).pending = s.pending ∧ (State.dropCapture s j o).mem.dram = s.mem.dram ∧ (State.dropCapture s j o).sec.lifecycle = s.sec.lifecycle ∧ (State.dropCapture s j o).sec.otp = s.sec.otp := by
  simp [State.dropCapture]

@[simp] theorem State.sampleJob_keep (s : State) (o j : Nat) :
    (State.sampleJob s o j).pending = s.pending ∧ (State.sampleJob s o j).mem.dram = s.mem.dram ∧ (State.sampleJob s o j).sec.lifecycle = s.sec.lifecycle ∧ (State.sampleJob s o j).sec.otp = s.sec.otp := by
  simp [State.sampleJob]

@[simp] theorem State.sampleEncode_keep (s : State) (o : Nat) :
    (State.sampleEncode s o).pending = s.pending ∧ (State.sampleEncode s o).mem.dram = s.mem.dram ∧ (State.sampleEncode s o).sec.lifecycle = s.sec.lifecycle ∧ (State.sampleEncode s o).sec.otp = s.sec.otp := by
  simp [State.sampleEncode]

@[simp] theorem State.sendFrameStart_keep (s : State) (h : Nat) :
    (State.sendFrameStart s h).pending = s.pending ∧ (State.sendFrameStart s h).mem.dram = s.mem.dram ∧ (State.sendFrameStart s h).sec.lifecycle = s.sec.lifecycle ∧ (State.sendFrameStart s h).sec.otp = s.sec.otp := by
  simp [State.sendFrameStart]

@[simp] theorem State.sendLaneLine_keep (s : State) (h k : Nat) (e : Nat × Bool × Nat × Nat) :
    (State.sendLaneLine s h k e).pending = s.pending ∧ (State.sendLaneLine s h k e).mem.dram = s.mem.dram ∧ (State.sendLaneLine s h k e).sec.lifecycle = s.sec.lifecycle ∧ (State.sendLaneLine s h k e).sec.otp = s.sec.otp := by
  unfold State.sendLaneLine; (repeat' split) <;> simp

@[simp] theorem State.sendLine_keep (s : State) (h k : Nat) :
    (State.sendLine s h k).pending = s.pending ∧ (State.sendLine s h k).mem.dram = s.mem.dram ∧ (State.sendLine s h k).sec.lifecycle = s.sec.lifecycle ∧ (State.sendLine s h k).sec.otp = s.sec.otp := by
  simp [State.sendLine]

@[simp] theorem State.sendRasterInfo_keep (s : State) (h : Nat) :
    (State.sendRasterInfo s h).pending = s.pending ∧ (State.sendRasterInfo s h).mem.dram = s.mem.dram ∧ (State.sendRasterInfo s h).sec.lifecycle = s.sec.lifecycle ∧ (State.sendRasterInfo s h).sec.otp = s.sec.otp := by
  simp [State.sendRasterInfo]

@[simp] theorem State.frameMismatched_keep (s : State) (h : Nat) (k : KeptRow) :
    (State.frameMismatched s h k).pending = s.pending ∧ (State.frameMismatched s h k).mem.dram = s.mem.dram ∧ (State.frameMismatched s h k).sec.lifecycle = s.sec.lifecycle ∧ (State.frameMismatched s h k).sec.otp = s.sec.otp := by
  simp [State.frameMismatched]

@[simp] theorem State.frameMatched_keep (s : State) (h frame : Nat) :
    (State.frameMatched s h frame).pending = s.pending ∧ (State.frameMatched s h frame).mem.dram = s.mem.dram ∧ (State.frameMatched s h frame).sec.lifecycle = s.sec.lifecycle ∧ (State.frameMatched s h frame).sec.otp = s.sec.otp := by
  simp [State.frameMatched]

@[simp] theorem State.decideFrame_keep (s : State) (h frame : Nat) :
    (State.decideFrame s h frame).pending = s.pending ∧ (State.decideFrame s h frame).mem.dram = s.mem.dram ∧ (State.decideFrame s h frame).sec.lifecycle = s.sec.lifecycle ∧ (State.decideFrame s h frame).sec.otp = s.sec.otp := by
  unfold State.decideFrame; (repeat' split) <;> simp

@[simp] theorem State.decideFrames_keep (s : State) (h : Nat) :
    (State.decideFrames s h).pending = s.pending ∧ (State.decideFrames s h).mem.dram = s.mem.dram ∧ (State.decideFrames s h).sec.lifecycle = s.sec.lifecycle ∧ (State.decideFrames s h).sec.otp = s.sec.otp := by
  simp [State.decideFrames]

@[simp] theorem State.proofCheck_keep (s : State) (h : Nat) (late : Bool) :
    (State.proofCheck s h late).pending = s.pending ∧ (State.proofCheck s h late).mem.dram = s.mem.dram ∧ (State.proofCheck s h late).sec.lifecycle = s.sec.lifecycle ∧ (State.proofCheck s h late).sec.otp = s.sec.otp := by
  unfold State.proofCheck; (repeat' split) <;> simp

@[simp] theorem State.proofLost_keep (s : State) (h : Nat) :
    (State.proofLost s h).pending = s.pending ∧ (State.proofLost s h).mem.dram = s.mem.dram ∧ (State.proofLost s h).sec.lifecycle = s.sec.lifecycle ∧ (State.proofLost s h).sec.otp = s.sec.otp := by
  simp [State.proofLost]

@[simp] theorem State.echoesDue_keep (s : State) (h n : Nat) :
    (State.echoesDue s h n).pending = s.pending ∧ (State.echoesDue s h n).mem.dram = s.mem.dram ∧ (State.echoesDue s h n).sec.lifecycle = s.sec.lifecycle ∧ (State.echoesDue s h n).sec.otp = s.sec.otp := by
  simp only [State.echoesDue]; (repeat' split) <;> simp

@[simp] theorem State.discardEcho_keep (s : State) (h : Nat) :
    (State.discardEcho s h).pending = s.pending ∧ (State.discardEcho s h).mem.dram = s.mem.dram ∧ (State.discardEcho s h).sec.lifecycle = s.sec.lifecycle ∧ (State.discardEcho s h).sec.otp = s.sec.otp := by
  simp [State.discardEcho]

@[simp] theorem State.decideRow_keep (s : State) (h : Nat) (k : KeptRow) (ok : Bool) (cause : Nat) :
    (State.decideRow s h k ok cause).pending = s.pending ∧ (State.decideRow s h k ok cause).mem.dram = s.mem.dram ∧ (State.decideRow s h k ok cause).sec.lifecycle = s.sec.lifecycle ∧ (State.decideRow s h k ok cause).sec.otp = s.sec.otp := by
  simp [State.decideRow]

@[simp] theorem State.unknownBlock_keep (s : State) (l : Nat) :
    (State.unknownBlock s l).pending = s.pending ∧ (State.unknownBlock s l).mem.dram = s.mem.dram ∧ (State.unknownBlock s l).sec.lifecycle = s.sec.lifecycle ∧ (State.unknownBlock s l).sec.otp = s.sec.otp := by
  simp [State.unknownBlock]

@[simp] theorem State.effectHere_keep (s : State) (o frame : Nat) :
    (State.effectHere s o frame).pending = s.pending ∧ (State.effectHere s o frame).mem.dram = s.mem.dram ∧ (State.effectHere s o frame).sec.lifecycle = s.sec.lifecycle ∧ (State.effectHere s o frame).sec.otp = s.sec.otp := by
  simp [State.effectHere]

@[simp] theorem State.stopAtFrame_keep (s : State) (h reason : Nat) :
    (State.stopAtFrame s h reason).pending = s.pending ∧ (State.stopAtFrame s h reason).mem.dram = s.mem.dram ∧ (State.stopAtFrame s h reason).sec.lifecycle = s.sec.lifecycle ∧ (State.stopAtFrame s h reason).sec.otp = s.sec.otp := by
  simp [State.stopAtFrame]

@[simp] theorem State.beginFrame_keep (s : State) (h : Nat) :
    (State.beginFrame s h).pending = s.pending ∧ (State.beginFrame s h).mem.dram = s.mem.dram ∧ (State.beginFrame s h).sec.lifecycle = s.sec.lifecycle ∧ (State.beginFrame s h).sec.otp = s.sec.otp := by
  simp [State.beginFrame]

@[simp] theorem State.nextFrame_keep (s : State) (h : Nat) :
    (State.nextFrame s h).pending = s.pending ∧ (State.nextFrame s h).mem.dram = s.mem.dram ∧ (State.nextFrame s h).sec.lifecycle = s.sec.lifecycle ∧ (State.nextFrame s h).sec.otp = s.sec.otp := by
  simp [State.nextFrame]

@[simp] theorem State.startScanning_keep (s : State) (h : Nat) :
    (State.startScanning s h).pending = s.pending ∧ (State.startScanning s h).mem.dram = s.mem.dram ∧ (State.startScanning s h).sec.lifecycle = s.sec.lifecycle ∧ (State.startScanning s h).sec.otp = s.sec.otp := by
  simp [State.startScanning]

@[simp] theorem State.beginRow_keep (s : State) (h row : Nat) :
    (State.beginRow s h row).pending = s.pending ∧ (State.beginRow s h row).mem.dram = s.mem.dram ∧ (State.beginRow s h row).sec.lifecycle = s.sec.lifecycle ∧ (State.beginRow s h row).sec.otp = s.sec.otp := by
  simp [State.beginRow]

@[simp] theorem State.endActive_keep (s : State) (h : Nat) :
    (State.endActive s h).pending = s.pending ∧ (State.endActive s h).mem.dram = s.mem.dram ∧ (State.endActive s h).sec.lifecycle = s.sec.lifecycle ∧ (State.endActive s h).sec.otp = s.sec.otp := by
  simp only [State.endActive]; (repeat' split) <;> simp

@[simp] theorem State.lineStarts_keep (s : State) (h k : Nat) :
    (State.lineStarts s h k).pending = s.pending ∧ (State.lineStarts s h k).mem.dram = s.mem.dram ∧ (State.lineStarts s h k).sec.lifecycle = s.sec.lifecycle ∧ (State.lineStarts s h k).sec.otp = s.sec.otp := by
  simp [State.lineStarts]

@[simp] theorem State.upperFilled_keep (s : State) (h fill : Nat) :
    (State.upperFilled s h fill).pending = s.pending ∧ (State.upperFilled s h fill).mem.dram = s.mem.dram ∧ (State.upperFilled s h fill).sec.lifecycle = s.sec.lifecycle ∧ (State.upperFilled s h fill).sec.otp = s.sec.otp := by
  simp [State.upperFilled]

@[simp] theorem State.hatchRest_keep (s : State) (h k : Nat) (upper : Bool) (x0 pixel : Nat) :
    (State.hatchRest s h k upper x0 pixel).pending = s.pending ∧ (State.hatchRest s h k upper x0 pixel).mem.dram = s.mem.dram ∧ (State.hatchRest s h k upper x0 pixel).sec.lifecycle = s.sec.lifecycle ∧ (State.hatchRest s h k upper x0 pixel).sec.otp = s.sec.otp := by
  unfold State.hatchRest; (repeat' split) <;> simp

@[simp] theorem State.underrun_keep (s : State) (h k : Nat) (upper : Bool) (first cols pixel : Nat) :
    (State.underrun s h k upper first cols pixel).pending = s.pending ∧ (State.underrun s h k upper first cols pixel).mem.dram = s.mem.dram ∧ (State.underrun s h k upper first cols pixel).sec.lifecycle = s.sec.lifecycle ∧ (State.underrun s h k upper first cols pixel).sec.otp = s.sec.otp := by
  simp only [State.underrun]; (repeat' split) <;> simp

@[simp] theorem State.tileMismatch_keep (s : State) (o t count : Nat) :
    (State.tileMismatch s o t count).pending = s.pending ∧ (State.tileMismatch s o t count).mem.dram = s.mem.dram ∧ (State.tileMismatch s o t count).sec.lifecycle = s.sec.lifecycle ∧ (State.tileMismatch s o t count).sec.otp = s.sec.otp := by
  simp [State.tileMismatch]

@[simp] theorem State.crcMismatch_keep (s : State) (h t : Nat) :
    (State.crcMismatch s h t).pending = s.pending ∧ (State.crcMismatch s h t).mem.dram = s.mem.dram ∧ (State.crcMismatch s h t).sec.lifecycle = s.sec.lifecycle ∧ (State.crcMismatch s h t).sec.otp = s.sec.otp := by
  simp [State.crcMismatch]

@[simp] theorem State.readOutput_keep (s : State) (o : Nat) :
    (State.readOutput s o).pending = s.pending ∧ (State.readOutput s o).mem.dram = s.mem.dram ∧ (State.readOutput s o).sec.lifecycle = s.sec.lifecycle ∧ (State.readOutput s o).sec.otp = s.sec.otp := by
  simp [State.readOutput]

@[simp] theorem State.lightPanel_keep (s : State) (p : Nat) :
    (State.lightPanel s p).pending = s.pending ∧ (State.lightPanel s p).mem.dram = s.mem.dram ∧ (State.lightPanel s p).sec.lifecycle = s.sec.lifecycle ∧ (State.lightPanel s p).sec.otp = s.sec.otp := by
  simp only [State.lightPanel]; (repeat' split) <;> simp

@[simp] theorem State.darkenPanel_keep (s : State) (p cause : Nat) :
    (State.darkenPanel s p cause).pending = s.pending ∧ (State.darkenPanel s p cause).mem.dram = s.mem.dram ∧ (State.darkenPanel s p cause).sec.lifecycle = s.sec.lifecycle ∧ (State.darkenPanel s p cause).sec.otp = s.sec.otp := by
  simp [State.darkenPanel]

@[simp] theorem State.fullCompleted_keep (s : State) (p : Nat) (rendered : Bool) :
    (State.fullCompleted s p rendered).pending = s.pending ∧ (State.fullCompleted s p rendered).mem.dram = s.mem.dram ∧ (State.fullCompleted s p rendered).sec.lifecycle = s.sec.lifecycle ∧ (State.fullCompleted s p rendered).sec.otp = s.sec.otp := by
  simp only [State.fullCompleted]; (repeat' split) <;> simp

@[simp] theorem State.proofPushed_keep (s : State) (p : Nat) (region : Option (Nat × Nat)) :
    (State.proofPushed s p region).pending = s.pending ∧ (State.proofPushed s p region).mem.dram = s.mem.dram ∧ (State.proofPushed s p region).sec.lifecycle = s.sec.lifecycle ∧ (State.proofPushed s p region).sec.otp = s.sec.otp := by
  unfold State.proofPushed; (repeat' split) <;> simp

@[simp] theorem State.pushCompleted_keep (s : State) (p : Nat) :
    (State.pushCompleted s p).pending = s.pending ∧ (State.pushCompleted s p).mem.dram = s.mem.dram ∧ (State.pushCompleted s p).sec.lifecycle = s.sec.lifecycle ∧ (State.pushCompleted s p).sec.otp = s.sec.otp := by
  simp only [State.pushCompleted]; (repeat' split) <;> simp

@[simp] theorem State.pushAbandoned_keep (s : State) (p cause : Nat) :
    (State.pushAbandoned s p cause).pending = s.pending ∧ (State.pushAbandoned s p cause).mem.dram = s.mem.dram ∧ (State.pushAbandoned s p cause).sec.lifecycle = s.sec.lifecycle ∧ (State.pushAbandoned s p cause).sec.otp = s.sec.otp := by
  simp only [State.pushAbandoned]; (repeat' split) <;> simp

@[simp] theorem State.sendPush_keep (s : State) (p : Nat) (rects : List Rect) (legends : List Legend) :
    (State.sendPush s p rects legends).pending = s.pending ∧ (State.sendPush s p rects legends).mem.dram = s.mem.dram ∧ (State.sendPush s p rects legends).sec.lifecycle = s.sec.lifecycle ∧ (State.sendPush s p rects legends).sec.otp = s.sec.otp := by
  simp [State.sendPush]

@[simp] theorem State.startPush_keep (s : State) (p : Nat) (set : List Nat) (legends : List Legend) :
    (State.startPush s p set legends).pending = s.pending ∧ (State.startPush s p set legends).mem.dram = s.mem.dram ∧ (State.startPush s p set legends).sec.lifecycle = s.sec.lifecycle ∧ (State.startPush s p set legends).sec.otp = s.sec.otp := by
  simp [State.startPush]

@[simp] theorem State.pushAtTe_keep (s : State) (p : Nat) (set : List Nat) (legends : List Legend) :
    (State.pushAtTe s p set legends).pending = s.pending ∧ (State.pushAtTe s p set legends).mem.dram = s.mem.dram ∧ (State.pushAtTe s p set legends).sec.lifecycle = s.sec.lifecycle ∧ (State.pushAtTe s p set legends).sec.otp = s.sec.otp := by
  simp only [State.pushAtTe]; (repeat' split) <;> simp

@[simp] theorem State.sampleAtTe_keep (s : State) (o : Nat) :
    (State.sampleAtTe s o).pending = s.pending ∧ (State.sampleAtTe s o).mem.dram = s.mem.dram ∧ (State.sampleAtTe s o).sec.lifecycle = s.sec.lifecycle ∧ (State.sampleAtTe s o).sec.otp = s.sec.otp := by
  unfold State.sampleAtTe; (repeat' split) <;> simp

@[simp] theorem State.evalPanel_keep (s : State) (p : Nat) :
    (s.evalPanel p).1.pending = s.pending ∧ (s.evalPanel p).1.mem.dram = s.mem.dram ∧ (s.evalPanel p).1.sec.lifecycle = s.sec.lifecycle ∧ (s.evalPanel p).1.sec.otp = s.sec.otp := by
  unfold State.evalPanel; dsimp only; (repeat' split) <;> simp

@[simp] theorem State.finishStart_keep (s : State) (p : Nat) :
    (State.finishStart s p).pending = s.pending ∧ (State.finishStart s p).mem.dram = s.mem.dram ∧ (State.finishStart s p).sec.lifecycle = s.sec.lifecycle ∧ (State.finishStart s p).sec.otp = s.sec.otp := by
  simp [State.finishStart]

@[simp] theorem State.countTe_keep (s : State) (p : Nat) :
    (State.countTe s p).pending = s.pending ∧ (State.countTe s p).mem.dram = s.mem.dram ∧ (State.countTe s p).sec.lifecycle = s.sec.lifecycle ∧ (State.countTe s p).sec.otp = s.sec.otp := by
  simp [State.countTe]

@[simp] theorem State.resumeTe_keep (s : State) (p : Nat) :
    (State.resumeTe s p).pending = s.pending ∧ (State.resumeTe s p).mem.dram = s.mem.dram ∧ (State.resumeTe s p).sec.lifecycle = s.sec.lifecycle ∧ (State.resumeTe s p).sec.otp = s.sec.otp := by
  simp [State.resumeTe]

@[simp] theorem State.dropUnder_keep (s : State) (p : Nat) :
    (State.dropUnder s p).pending = s.pending ∧ (State.dropUnder s p).mem.dram = s.mem.dram ∧ (State.dropUnder s p).sec.lifecycle = s.sec.lifecycle ∧ (State.dropUnder s p).sec.otp = s.sec.otp := by
  simp [State.dropUnder]

@[simp] theorem State.takeTe_keep (s : State) (p : Nat) :
    (State.takeTe s p).pending = s.pending ∧ (State.takeTe s p).mem.dram = s.mem.dram ∧ (State.takeTe s p).sec.lifecycle = s.sec.lifecycle ∧ (State.takeTe s p).sec.otp = s.sec.otp := by
  unfold State.takeTe; simp (disch := (intros; (try dsimp only); (repeat' split) <;> (try simp)))

@[simp] theorem State.sendTearOn_keep (s : State) (p : Nat) :
    (State.sendTearOn s p).pending = s.pending ∧ (State.sendTearOn s p).mem.dram = s.mem.dram ∧ (State.sendTearOn s p).sec.lifecycle = s.sec.lifecycle ∧ (State.sendTearOn s p).sec.otp = s.sec.otp := by
  simp [State.sendTearOn]

@[simp] theorem State.sendEntries_keep (s : State) (p n : Nat) :
    (s.sendEntries p n).pending = s.pending ∧ (s.sendEntries p n).mem.dram = s.mem.dram ∧ (s.sendEntries p n).sec.lifecycle = s.sec.lifecycle ∧ (s.sendEntries p n).sec.otp = s.sec.otp := by
  induction n generalizing s with
  | zero => simp [State.sendEntries]
  | succ n ih => unfold State.sendEntries; dsimp only; (repeat' split) <;> simp [ih]

@[simp] theorem State.startStep_keep (s : State) (p : Nat) :
    (s.startStep p).pending = s.pending ∧ (s.startStep p).mem.dram = s.mem.dram ∧ (s.startStep p).sec.lifecycle = s.sec.lifecycle ∧ (s.startStep p).sec.otp = s.sec.otp := by
  unfold State.startStep; dsimp only; (repeat' split) <;> simp

@[simp] theorem State.stopStep_keep (s : State) (p : Nat) :
    (State.stopStep s p).pending = s.pending ∧ (State.stopStep s p).mem.dram = s.mem.dram ∧ (State.stopStep s p).sec.lifecycle = s.sec.lifecycle ∧ (State.stopStep s p).sec.otp = s.sec.otp := by
  simp [State.stopStep]

@[simp] theorem State.acceptKeys_keep (s : State) (g v : Nat) :
    (State.acceptKeys s g v).pending = s.pending ∧ (State.acceptKeys s g v).mem.dram = s.mem.dram ∧ (State.acceptKeys s g v).sec.lifecycle = s.sec.lifecycle ∧ (State.acceptKeys s g v).sec.otp = s.sec.otp := by
  simp [State.acceptKeys]

@[simp] theorem State.postSnapshot_keep (s : State) (g : Nat) (multi : Bool) (f : BitVec 128) :
    (State.postSnapshot s g multi f).pending = s.pending ∧ (State.postSnapshot s g multi f).mem.dram = s.mem.dram ∧ (State.postSnapshot s g multi f).sec.lifecycle = s.sec.lifecycle ∧ (State.postSnapshot s g multi f).sec.otp = s.sec.otp := by
  simp [State.postSnapshot]

@[simp] theorem State.snapshotKeys_keep (s : State) :
    (State.snapshotKeys s).pending = s.pending ∧ (State.snapshotKeys s).mem.dram = s.mem.dram ∧ (State.snapshotKeys s).sec.lifecycle = s.sec.lifecycle ∧ (State.snapshotKeys s).sec.otp = s.sec.otp := by
  simp [State.snapshotKeys]

@[simp] theorem State.mirrorKeyField_keep (s : State) (g : Nat) :
    (State.mirrorKeyField s g).pending = s.pending ∧ (State.mirrorKeyField s g).mem.dram = s.mem.dram ∧ (State.mirrorKeyField s g).sec.lifecycle = s.sec.lifecycle ∧ (State.mirrorKeyField s g).sec.otp = s.sec.otp := by
  simp [State.mirrorKeyField]

@[simp] theorem State.keyEvent_keep (s : State) (event record : Nat) (ps : List Nat) :
    (State.keyEvent s event record ps).pending = s.pending ∧ (State.keyEvent s event record ps).mem.dram = s.mem.dram ∧ (State.keyEvent s event record ps).sec.lifecycle = s.sec.lifecycle ∧ (State.keyEvent s event record ps).sec.otp = s.sec.otp := by
  simp [State.keyEvent]

@[simp] theorem State.beginForming_keep (s : State) (g : Nat) :
    (State.beginForming s g).pending = s.pending ∧ (State.beginForming s g).mem.dram = s.mem.dram ∧ (State.beginForming s g).sec.lifecycle = s.sec.lifecycle ∧ (State.beginForming s g).sec.otp = s.sec.otp := by
  simp [State.beginForming]

@[simp] theorem State.keyChange_keep (s : State) (g k : Nat) (old new : KeyRun) (multi : Bool) :
    (State.keyChange s g k old new multi).pending = s.pending ∧ (State.keyChange s g k old new multi).mem.dram = s.mem.dram ∧ (State.keyChange s g k old new multi).sec.lifecycle = s.sec.lifecycle ∧ (State.keyChange s g k old new multi).sec.otp = s.sec.otp := by
  simp [State.keyChange]

@[simp] theorem State.scanGroup_keep (s : State) (g : Nat) (raws : List KeySample) :
    (State.scanGroup s g raws).pending = s.pending ∧ (State.scanGroup s g raws).mem.dram = s.mem.dram ∧ (State.scanGroup s g raws).sec.lifecycle = s.sec.lifecycle ∧ (State.scanGroup s g raws).sec.otp = s.sec.otp := by
  simp [State.scanGroup]

@[simp] theorem State.storeReference_keep (s : State) (g : Nat) :
    (State.storeReference s g).pending = s.pending ∧ (State.storeReference s g).mem.dram = s.mem.dram ∧ (State.storeReference s g).sec.lifecycle = s.sec.lifecycle ∧ (State.storeReference s g).sec.otp = s.sec.otp := by
  simp [State.storeReference]

@[simp] theorem State.beginStream_keep (s : State) (j : Nat) :
    (State.beginStream s j).pending = s.pending ∧ (State.beginStream s j).mem.dram = s.mem.dram ∧ (State.beginStream s j).sec.lifecycle = s.sec.lifecycle ∧ (State.beginStream s j).sec.otp = s.sec.otp := by
  simp [State.beginStream]

@[simp] theorem State.encCoreFails_keep (s : State) (c : Nat) :
    (s.encCoreFails c).pending = s.pending ∧ (s.encCoreFails c).mem.dram = s.mem.dram ∧ (s.encCoreFails c).sec.lifecycle = s.sec.lifecycle ∧ (s.encCoreFails c).sec.otp = s.sec.otp := by
  unfold State.encCoreFails
  refine keep_trans (State.raised_keep _ _ _) (keep_trans (State.log_keep _ _ _) ?_)
  refine each_from _ _ _ _ (fun s j => ?_) (each_from _ _ _ _ (fun s j => ?_) (each_from _ _ _ _ (fun s j => ?_) ⟨rfl, rfl, rfl, rfl⟩))
  · split <;> simp
  · split <;> simp
  · simp

@[simp] theorem State.powerEncoder_keep (s : State) :
    (State.powerEncoder s).pending = s.pending ∧ (State.powerEncoder s).mem.dram = s.mem.dram ∧ (State.powerEncoder s).sec.lifecycle = s.sec.lifecycle ∧ (State.powerEncoder s).sec.otp = s.sec.otp := by
  unfold State.powerEncoder; (repeat' split) <;> simp (disch := (intros; (try dsimp only); (repeat' split) <;> (try simp)))

@[simp] theorem State.placeJob_keep (s : State) (j c : Nat) :
    (State.placeJob s j c).pending = s.pending ∧ (State.placeJob s j c).mem.dram = s.mem.dram ∧ (State.placeJob s j c).sec.lifecycle = s.sec.lifecycle ∧ (State.placeJob s j c).sec.otp = s.sec.otp := by
  simp [State.placeJob]

@[simp] theorem State.replaceJobs_keep (s : State) :
    (State.replaceJobs s).pending = s.pending ∧ (State.replaceJobs s).mem.dram = s.mem.dram ∧ (State.replaceJobs s).sec.lifecycle = s.sec.lifecycle ∧ (State.replaceJobs s).sec.otp = s.sec.otp := by
  unfold State.replaceJobs; simp (disch := (intros; (try dsimp only); (repeat' split) <;> (try simp)))

@[simp] theorem State.encIdleDomain_keep (s : State) :
    (State.encIdleDomain s).pending = s.pending ∧ (State.encIdleDomain s).mem.dram = s.mem.dram ∧ (State.encIdleDomain s).sec.lifecycle = s.sec.lifecycle ∧ (State.encIdleDomain s).sec.otp = s.sec.otp := by
  simp [State.encIdleDomain]

@[simp] theorem State.setEncJob_keep (s : State) (j : Nat) (d : EncDesc) :
    (State.setEncJob s j d).pending = s.pending ∧ (State.setEncJob s j d).mem.dram = s.mem.dram ∧ (State.setEncJob s j d).sec.lifecycle = s.sec.lifecycle ∧ (State.setEncJob s j d).sec.otp = s.sec.otp := by
  simp [State.setEncJob]

@[simp] theorem State.encApply_keep (s : State) (j : Nat) (d : EncDesc) (core : Option Nat) :
    (State.encApply s j d core).pending = s.pending ∧ (State.encApply s j d core).mem.dram = s.mem.dram ∧ (State.encApply s j d core).sec.lifecycle = s.sec.lifecycle ∧ (State.encApply s j d core).sec.otp = s.sec.otp := by
  unfold State.encApply; (repeat' split) <;> simp

@[simp] theorem State.reportCarried_keep (s : State) (j : Nat) (carried : List Nat) :
    (State.reportCarried s j carried).pending = s.pending ∧ (State.reportCarried s j carried).mem.dram = s.mem.dram ∧ (State.reportCarried s j carried).sec.lifecycle = s.sec.lifecycle ∧ (State.reportCarried s j carried).sec.otp = s.sec.otp := by
  simp [State.reportCarried]

@[simp] theorem State.codePicture_keep (s : State) (j : Nat) (c : Capture) (costs : RowCosts) :
    (State.codePicture s j c costs).pending = s.pending ∧ (State.codePicture s j c costs).mem.dram = s.mem.dram ∧ (State.codePicture s j c costs).sec.lifecycle = s.sec.lifecycle ∧ (State.codePicture s j c costs).sec.otp = s.sec.otp := by
  simp [State.codePicture]

@[simp] theorem State.sendPacket_keep (s : State) (j : Nat) (k : EncPacket) :
    (State.sendPacket s j k).pending = s.pending ∧ (State.sendPacket s j k).mem.dram = s.mem.dram ∧ (State.sendPacket s j k).sec.lifecycle = s.sec.lifecycle ∧ (State.sendPacket s j k).sec.otp = s.sec.otp := by
  unfold State.sendPacket; (repeat' split) <;> simp

@[simp] theorem State.encRestart_keep (s : State) :
    (State.encRestart s).pending = s.pending ∧ (State.encRestart s).mem.dram = s.mem.dram ∧ (State.encRestart s).sec.lifecycle = s.sec.lifecycle ∧ (State.encRestart s).sec.otp = s.sec.otp := by
  simp [State.encRestart]

@[simp] theorem State.laneLink_keep (s : State) (l : Nat) (old new : LaneState) :
    (State.laneLink s l old new).pending = s.pending ∧ (State.laneLink s l old new).mem.dram = s.mem.dram ∧ (State.laneLink s l old new).sec.lifecycle = s.sec.lifecycle ∧ (State.laneLink s l old new).sec.otp = s.sec.otp := by
  simp [State.laneLink]

@[simp] theorem State.receiverLink_keep (s : State) (l : Nat) :
    (State.receiverLink s l).pending = s.pending ∧ (State.receiverLink s l).mem.dram = s.mem.dram ∧ (State.receiverLink s l).sec.lifecycle = s.sec.lifecycle ∧ (State.receiverLink s l).sec.otp = s.sec.otp := by
  unfold State.receiverLink; (repeat' split) <;> simp

@[simp] theorem State.discardKinik_keep (s : State) (l : Nat) :
    (State.discardKinik s l).pending = s.pending ∧ (State.discardKinik s l).mem.dram = s.mem.dram ∧ (State.discardKinik s l).sec.lifecycle = s.sec.lifecycle ∧ (State.discardKinik s l).sec.otp = s.sec.otp := by
  unfold State.discardKinik; (repeat' split) <;> simp

@[simp] theorem State.peerRestart_keep (s : State) (pp : Nat) :
    (State.peerRestart s pp).pending = s.pending ∧ (State.peerRestart s pp).mem.dram = s.mem.dram ∧ (State.peerRestart s pp).sec.lifecycle = s.sec.lifecycle ∧ (State.peerRestart s pp).sec.otp = s.sec.otp := by
  simp [State.peerRestart]

@[simp] theorem State.linkGone_keep (s : State) (l : Nat) :
    (State.linkGone s l).pending = s.pending ∧ (State.linkGone s l).mem.dram = s.mem.dram ∧ (State.linkGone s l).sec.lifecycle = s.sec.lifecycle ∧ (State.linkGone s l).sec.otp = s.sec.otp := by
  unfold State.linkGone; (repeat' split) <;> simp

@[simp] theorem State.linkHere_keep (s : State) (l : Nat) :
    (State.linkHere s l).pending = s.pending ∧ (State.linkHere s l).mem.dram = s.mem.dram ∧ (State.linkHere s l).sec.lifecycle = s.sec.lifecycle ∧ (State.linkHere s l).sec.otp = s.sec.otp := by
  unfold State.linkHere; (repeat' split) <;> simp

@[simp] theorem State.laneTo_keep (s : State) (l : Nat) (new : LaneState) :
    (State.laneTo s l new).pending = s.pending ∧ (State.laneTo s l new).mem.dram = s.mem.dram ∧ (State.laneTo s l new).sec.lifecycle = s.sec.lifecycle ∧ (State.laneTo s l new).sec.otp = s.sec.otp := by
  simp [State.laneTo]

@[simp] theorem State.laneHunt_keep (s : State) (l : Nat) :
    (State.laneHunt s l).pending = s.pending ∧ (State.laneHunt s l).mem.dram = s.mem.dram ∧ (State.laneHunt s l).sec.lifecycle = s.sec.lifecycle ∧ (State.laneHunt s l).sec.otp = s.sec.otp := by
  simp [State.laneHunt]

@[simp] theorem State.sendCap_keep (s : State) (l : Nat) :
    (State.sendCap s l).pending = s.pending ∧ (State.sendCap s l).mem.dram = s.mem.dram ∧ (State.sendCap s l).sec.lifecycle = s.sec.lifecycle ∧ (State.sendCap s l).sec.otp = s.sec.otp := by
  simp [State.sendCap]

@[simp] theorem State.checkUp_keep (s : State) (l : Nat) :
    (State.checkUp s l).pending = s.pending ∧ (State.checkUp s l).mem.dram = s.mem.dram ∧ (State.checkUp s l).sec.lifecycle = s.sec.lifecycle ∧ (State.checkUp s l).sec.otp = s.sec.otp := by
  simp [State.checkUp]

@[simp] theorem State.incompatible_keep (s : State) (l : Nat) (r : Bytes) :
    (State.incompatible s l r).pending = s.pending ∧ (State.incompatible s l r).mem.dram = s.mem.dram ∧ (State.incompatible s l r).sec.lifecycle = s.sec.lifecycle ∧ (State.incompatible s l r).sec.otp = s.sec.otp := by
  simp [State.incompatible]

@[simp] theorem State.takeRecord_keep (s : State) (l : Nat) (r : Bytes) :
    (State.takeRecord s l r).pending = s.pending ∧ (State.takeRecord s l r).mem.dram = s.mem.dram ∧ (State.takeRecord s l r).sec.lifecycle = s.sec.lifecycle ∧ (State.takeRecord s l r).sec.otp = s.sec.otp := by
  simp [State.takeRecord]

@[simp] theorem State.elasticOverflow_keep (s : State) (l : Nat) :
    (State.elasticOverflow s l).pending = s.pending ∧ (State.elasticOverflow s l).mem.dram = s.mem.dram ∧ (State.elasticOverflow s l).sec.lifecycle = s.sec.lifecycle ∧ (State.elasticOverflow s l).sec.otp = s.sec.otp := by
  simp [State.elasticOverflow]

@[simp] theorem State.lanesUp_keep (s : State) (d : Nat) :
    (State.lanesUp s d).pending = s.pending ∧ (State.lanesUp s d).mem.dram = s.mem.dram ∧ (State.lanesUp s d).sec.lifecycle = s.sec.lifecycle ∧ (State.lanesUp s d).sec.otp = s.sec.otp := by
  simp [State.lanesUp]

@[simp] theorem State.lanesDown_keep (s : State) (d : Nat) :
    (State.lanesDown s d).pending = s.pending ∧ (State.lanesDown s d).mem.dram = s.mem.dram ∧ (State.lanesDown s d).sec.lifecycle = s.sec.lifecycle ∧ (State.lanesDown s d).sec.otp = s.sec.otp := by
  simp [State.lanesDown]

@[simp] theorem State.laneTested_keep (s : State) (l bitErrors : Nat) :
    (State.laneTested s l bitErrors).pending = s.pending ∧ (State.laneTested s l bitErrors).mem.dram = s.mem.dram ∧ (State.laneTested s l bitErrors).sec.lifecycle = s.sec.lifecycle ∧ (State.laneTested s l bitErrors).sec.otp = s.sec.otp := by
  simp [State.laneTested]

@[simp] theorem State.storeTable_keep (s : State) (t : LaneTable) :
    (State.storeTable s t).pending = s.pending ∧ (State.storeTable s t).mem.dram = s.mem.dram ∧ (State.storeTable s t).sec.lifecycle = s.sec.lifecycle ∧ (State.storeTable s t).sec.otp = s.sec.otp := by
  simp [State.storeTable]

@[simp] theorem State.applyTable_keep (s : State) :
    (State.applyTable s).pending = s.pending ∧ (State.applyTable s).mem.dram = s.mem.dram ∧ (State.applyTable s).sec.lifecycle = s.sec.lifecycle ∧ (State.applyTable s).sec.otp = s.sec.otp := by
  unfold State.applyTable; (repeat' split) <;> simp

@[simp] theorem State.readFec_keep (s : State) (l : Nat) :
    (State.readFec s l).pending = s.pending ∧ (State.readFec s l).mem.dram = s.mem.dram ∧ (State.readFec s l).sec.lifecycle = s.sec.lifecycle ∧ (State.readFec s l).sec.otp = s.sec.otp := by
  simp [State.readFec]

@[simp] theorem State.reportAgain_keep (s : State) (port : Nat) :
    (State.reportAgain s port).pending = s.pending ∧ (State.reportAgain s port).mem.dram = s.mem.dram ∧ (State.reportAgain s port).sec.lifecycle = s.sec.lifecycle ∧ (State.reportAgain s port).sec.otp = s.sec.otp := by
  simp [State.reportAgain]

@[simp] theorem State.setKinik_keep (s : State) (l : Nat) (f : KinikFrame) :
    (State.setKinik s l f).pending = s.pending ∧ (State.setKinik s l f).mem.dram = s.mem.dram ∧ (State.setKinik s l f).sec.lifecycle = s.sec.lifecycle ∧ (State.setKinik s l f).sec.otp = s.sec.otp := by
  simp [State.setKinik]

theorem State.onFrame_keep (s : State) (l : Nat) (f : KinikFrame → Bytes → State)
    (h : ∀ k r, (f k r).pending = s.pending ∧ (f k r).mem.dram = s.mem.dram ∧ (f k r).sec.lifecycle = s.sec.lifecycle ∧ (f k r).sec.otp = s.sec.otp) :
    (s.onFrame l f).pending = s.pending ∧ (s.onFrame l f).mem.dram = s.mem.dram ∧ (s.onFrame l f).sec.lifecycle = s.sec.lifecycle ∧ (s.onFrame l f).sec.otp = s.sec.otp := by
  unfold State.onFrame; (repeat' split) <;> simp [h]

@[simp] theorem State.mintKinik_keep (s : State) (l i : Nat) (k : KinikFrame) (r : Bytes) :
    (State.mintKinik s l i k r).pending = s.pending ∧ (State.mintKinik s l i k r).mem.dram = s.mem.dram ∧ (State.mintKinik s l i k r).sec.lifecycle = s.sec.lifecycle ∧ (State.mintKinik s l i k r).sec.otp = s.sec.otp := by
  simp [State.mintKinik]

@[simp] theorem State.roomSettle_keep (s : State) (id defers : Nat) :
    (State.roomSettle s id defers).pending = s.pending ∧ (State.roomSettle s id defers).mem.dram = s.mem.dram ∧ (State.roomSettle s id defers).sec.lifecycle = s.sec.lifecycle ∧ (State.roomSettle s id defers).sec.otp = s.sec.otp := by
  unfold State.roomSettle; (repeat' split) <;> simp

@[simp] theorem State.roomDefer_keep (s : State) (id defers : Nat) (counted : Bool) :
    (State.roomDefer s id defers counted).pending = s.pending ∧ (State.roomDefer s id defers counted).mem.dram = s.mem.dram ∧ (State.roomDefer s id defers counted).sec.lifecycle = s.sec.lifecycle ∧ (State.roomDefer s id defers counted).sec.otp = s.sec.otp := by
  unfold State.roomDefer; (repeat' split) <;> simp

@[simp] theorem State.setCo_keep (s : State) (x : RoomCo) :
    (State.setCo s x).pending = s.pending ∧ (State.setCo s x).mem.dram = s.mem.dram ∧ (State.setCo s x).sec.lifecycle = s.sec.lifecycle ∧ (State.setCo s x).sec.otp = s.sec.otp := by
  simp [State.setCo]

@[simp] theorem State.setPart_keep (s : State) (x : RoomPart) :
    (State.setPart s x).pending = s.pending ∧ (State.setPart s x).mem.dram = s.mem.dram ∧ (State.setPart s x).sec.lifecycle = s.sec.lifecycle ∧ (State.setPart s x).sec.otp = s.sec.otp := by
  simp [State.setPart]

@[simp] theorem State.roomAbort_keep (s : State) (x : RoomCo) (fault : Nat) :
    (State.roomAbort s x fault).pending = s.pending ∧ (State.roomAbort s x fault).mem.dram = s.mem.dram ∧ (State.roomAbort s x fault).sec.lifecycle = s.sec.lifecycle ∧ (State.roomAbort s x fault).sec.otp = s.sec.otp := by
  simp [State.roomAbort]

@[simp] theorem State.roomComplete_keep (s : State) (x : RoomCo) :
    (State.roomComplete s x).pending = s.pending ∧ (State.roomComplete s x).mem.dram = s.mem.dram ∧ (State.roomComplete s x).sec.lifecycle = s.sec.lifecycle ∧ (State.roomComplete s x).sec.otp = s.sec.otp := by
  simp [State.roomComplete]

@[simp] theorem State.chooseTarget_keep (s : State) (x : RoomCo) :
    (State.chooseTarget s x).pending = s.pending ∧ (State.chooseTarget s x).mem.dram = s.mem.dram ∧ (State.chooseTarget s x).sec.lifecycle = s.sec.lifecycle ∧ (State.chooseTarget s x).sec.otp = s.sec.otp := by
  simp [State.chooseTarget]

@[simp] theorem State.roomDecide_keep (s : State) (x : RoomCo) (tf : Nat) :
    (State.roomDecide s x tf).pending = s.pending ∧ (State.roomDecide s x tf).mem.dram = s.mem.dram ∧ (State.roomDecide s x tf).sec.lifecycle = s.sec.lifecycle ∧ (State.roomDecide s x tf).sec.otp = s.sec.otp := by
  simp [State.roomDecide]

@[simp] theorem State.voteOwn_keep (s : State) :
    (State.voteOwn s).pending = s.pending ∧ (State.voteOwn s).mem.dram = s.mem.dram ∧ (State.voteOwn s).sec.lifecycle = s.sec.lifecycle ∧ (State.voteOwn s).sec.otp = s.sec.otp := by
  unfold State.voteOwn; (repeat' split) <;> simp

@[simp] theorem State.votePart_keep (s : State) :
    (State.votePart s).pending = s.pending ∧ (State.votePart s).mem.dram = s.mem.dram ∧ (State.votePart s).sec.lifecycle = s.sec.lifecycle ∧ (State.votePart s).sec.otp = s.sec.otp := by
  unfold State.votePart; (repeat' split) <;> simp

@[simp] theorem State.ackPeer_keep (s : State) (lane seq result : Nat) :
    (State.ackPeer s lane seq result).pending = s.pending ∧ (State.ackPeer s lane seq result).mem.dram = s.mem.dram ∧ (State.ackPeer s lane seq result).sec.lifecycle = s.sec.lifecycle ∧ (State.ackPeer s lane seq result).sec.otp = s.sec.otp := by
  simp [State.ackPeer]

@[simp] theorem State.peerAcked_keep (s : State) (pp : Nat) (m : PeerTx) (result : Nat) :
    (State.peerAcked s pp m result).pending = s.pending ∧ (State.peerAcked s pp m result).mem.dram = s.mem.dram ∧ (State.peerAcked s pp m result).sec.lifecycle = s.sec.lifecycle ∧ (State.peerAcked s pp m result).sec.otp = s.sec.otp := by
  unfold State.peerAcked; (repeat' split) <;> simp

@[simp] theorem State.peerLost_keep (s : State) (pp : Nat) (m : PeerTx) :
    (State.peerLost s pp m).pending = s.pending ∧ (State.peerLost s pp m).mem.dram = s.mem.dram ∧ (State.peerLost s pp m).sec.lifecycle = s.sec.lifecycle ∧ (State.peerLost s pp m).sec.otp = s.sec.otp := by
  simp [State.peerLost]

@[simp] theorem State.sendLedger_keep (s : State) :
    (State.sendLedger s).pending = s.pending ∧ (State.sendLedger s).mem.dram = s.mem.dram ∧ (State.sendLedger s).sec.lifecycle = s.sec.lifecycle ∧ (State.sendLedger s).sec.otp = s.sec.otp := by
  simp [State.sendLedger]

@[simp] theorem State.requestSync_keep (s : State) :
    (State.requestSync s).pending = s.pending ∧ (State.requestSync s).mem.dram = s.mem.dram ∧ (State.requestSync s).sec.lifecycle = s.sec.lifecycle ∧ (State.requestSync s).sec.otp = s.sec.otp := by
  simp [State.requestSync]

@[simp] theorem State.catchUp_keep (s : State) :
    (State.catchUp s).pending = s.pending ∧ (State.catchUp s).mem.dram = s.mem.dram ∧ (State.catchUp s).sec.lifecycle = s.sec.lifecycle ∧ (State.catchUp s).sec.otp = s.sec.otp := by
  simp [State.catchUp]

@[simp] theorem State.heartbeatBack_keep (s : State) (failed : Bool) :
    (State.heartbeatBack s failed).pending = s.pending ∧ (State.heartbeatBack s failed).mem.dram = s.mem.dram ∧ (State.heartbeatBack s failed).sec.lifecycle = s.sec.lifecycle ∧ (State.heartbeatBack s failed).sec.otp = s.sec.otp := by
  simp [State.heartbeatBack]

@[simp] theorem State.dualActive_keep (s : State) (role : Nat) :
    (State.dualActive s role).pending = s.pending ∧ (State.dualActive s role).mem.dram = s.mem.dram ∧ (State.dualActive s role).sec.lifecycle = s.sec.lifecycle ∧ (State.dualActive s role).sec.otp = s.sec.otp := by
  simp [State.dualActive]

@[simp] theorem State.arbCheck_keep (s : State) (role : Nat) (low : Bool) :
    (State.arbCheck s role low).pending = s.pending ∧ (State.arbCheck s role low).mem.dram = s.mem.dram ∧ (State.arbCheck s role low).sec.lifecycle = s.sec.lifecycle ∧ (State.arbCheck s role low).sec.otp = s.sec.otp := by
  simp [State.arbCheck]

@[simp] theorem State.switchConfirmed_keep (s : State) (role : Nat) :
    (State.switchConfirmed s role).pending = s.pending ∧ (State.switchConfirmed s role).mem.dram = s.mem.dram ∧ (State.switchConfirmed s role).sec.lifecycle = s.sec.lifecycle ∧ (State.switchConfirmed s role).sec.otp = s.sec.otp := by
  unfold State.switchConfirmed; (repeat' split) <;> simp

@[simp] theorem State.storePair_keep (s : State) (r : Request) :
    (State.storePair s r).pending = s.pending ∧ (State.storePair s r).mem.dram = s.mem.dram ∧ (State.storePair s r).sec.lifecycle = s.sec.lifecycle ∧ (State.storePair s r).sec.otp = s.sec.otp := by
  simp [State.storePair]

@[simp] theorem State.becomeActive_keep (s : State) (cause : Nat) :
    (State.becomeActive s cause).pending = s.pending ∧ (State.becomeActive s cause).mem.dram = s.mem.dram ∧ (State.becomeActive s cause).sec.lifecycle = s.sec.lifecycle ∧ (State.becomeActive s cause).sec.otp = s.sec.otp := by
  unfold State.becomeActive; simp (disch := (intros; (try dsimp only); (repeat' split) <;> (try simp)))

@[simp] theorem State.promoteAfterSafe_keep (s : State) :
    (State.promoteAfterSafe s).pending = s.pending ∧ (State.promoteAfterSafe s).mem.dram = s.mem.dram ∧ (State.promoteAfterSafe s).sec.lifecycle = s.sec.lifecycle ∧ (State.promoteAfterSafe s).sec.otp = s.sec.otp := by
  simp [State.promoteAfterSafe]

@[simp] theorem State.failSwitch_keep (s : State) (w : Switch) (cause : Nat) :
    (State.failSwitch s w cause).pending = s.pending ∧ (State.failSwitch s w cause).mem.dram = s.mem.dram ∧ (State.failSwitch s w cause).sec.lifecycle = s.sec.lifecycle ∧ (State.failSwitch s w cause).sec.otp = s.sec.otp := by
  simp [State.failSwitch]

theorem State.mirrorNext_keep (s : State) (n : Nat) (f : State → State)
    (h : ∀ t, (f t).pending = t.pending ∧ (f t).mem.dram = t.mem.dram ∧ (f t).sec.lifecycle = t.sec.lifecycle ∧ (f t).sec.otp = t.sec.otp) :
    (s.mirrorNext n f).pending = s.pending ∧ (s.mirrorNext n f).mem.dram = s.mem.dram ∧ (s.mirrorNext n f).sec.lifecycle = s.sec.lifecycle ∧ (s.mirrorNext n f).sec.otp = s.sec.otp := by
  unfold State.mirrorNext; (repeat' split) <;> simp [h]

@[simp] theorem State.mirrorKeyGroup_keep (s : State) (g : Nat) (b : Bytes) :
    (State.mirrorKeyGroup s g b).pending = s.pending ∧ (State.mirrorKeyGroup s g b).mem.dram = s.mem.dram ∧ (State.mirrorKeyGroup s g b).sec.lifecycle = s.sec.lifecycle ∧ (State.mirrorKeyGroup s g b).sec.otp = s.sec.otp := by
  unfold State.mirrorKeyGroup; (repeat' split) <;> simp

@[simp] theorem State.logMirrored_keep (s : State) (b : BitVec 256) :
    (State.logMirrored s b).pending = s.pending ∧ (State.logMirrored s b).mem.dram = s.mem.dram ∧ (State.logMirrored s b).sec.lifecycle = s.sec.lifecycle ∧ (State.logMirrored s b).sec.otp = s.sec.otp := by
  simp [State.logMirrored]

@[simp] theorem State.sendItems_keep (s : State) (set n : Nat) (c : ConfigSet) (k : SetKind) :
    (State.sendItems s set n c k).pending = s.pending ∧ (State.sendItems s set n c k).mem.dram = s.mem.dram ∧ (State.sendItems s set n c k).sec.lifecycle = s.sec.lifecycle ∧ (State.sendItems s set n c k).sec.otp = s.sec.otp := by
  simp [State.sendItems]

@[simp] theorem State.sendSnapshot_keep (s : State) :
    (State.sendSnapshot s).pending = s.pending ∧ (State.sendSnapshot s).mem.dram = s.mem.dram ∧ (State.sendSnapshot s).sec.lifecycle = s.sec.lifecycle ∧ (State.sendSnapshot s).sec.otp = s.sec.otp := by
  simp [State.sendSnapshot]

@[simp] theorem State.adopt_keep (s : State) (x : Snapshot) :
    (State.adopt s x).pending = s.pending ∧ (State.adopt s x).mem.dram = s.mem.dram ∧ (State.adopt s x).sec.lifecycle = s.sec.lifecycle ∧ (State.adopt s x).sec.otp = s.sec.otp := by
  unfold State.adopt; (repeat' split) <;> simp


@[simp] theorem State.refreshActs_keep (s : State) (c rank : Nat) (temp : Int) :
    (State.refreshActs s c rank temp).pending = s.pending ∧ (State.refreshActs s c rank temp).mem.dram = s.mem.dram ∧ (State.refreshActs s c rank temp).sec.lifecycle = s.sec.lifecycle ∧ (State.refreshActs s c rank temp).sec.otp = s.sec.otp := by
  simp [State.refreshActs]

@[simp] theorem State.retrainHeld_keep (s : State) (c : Nat) :
    (State.retrainHeld s c).pending = s.pending ∧ (State.retrainHeld s c).mem.dram = s.mem.dram ∧ (State.retrainHeld s c).sec.lifecycle = s.sec.lifecycle ∧ (State.retrainHeld s c).sec.otp = s.sec.otp := by
  simp [State.retrainHeld]

@[simp] theorem State.policyActs_keep (s : State) :
    (State.policyActs s).pending = s.pending ∧ (State.policyActs s).mem.dram = s.mem.dram ∧ (State.policyActs s).sec.lifecycle = s.sec.lifecycle ∧ (State.policyActs s).sec.otp = s.sec.otp := by
  simp [State.policyActs]

@[simp] theorem State.storeDelays_keep (s : State) (r : Request) :
    (State.storeDelays s r).pending = s.pending ∧ (State.storeDelays s r).mem.dram = s.mem.dram ∧ (State.storeDelays s r).sec.lifecycle = s.sec.lifecycle ∧ (State.storeDelays s r).sec.otp = s.sec.otp := by
  simp [State.storeDelays]

@[simp] theorem State.freeze_keep (s : State) (c cause addr : Nat) :
    (State.freeze s c cause addr).pending = s.pending ∧ (State.freeze s c cause addr).mem.dram = s.mem.dram ∧ (State.freeze s c cause addr).sec.lifecycle = s.sec.lifecycle ∧ (State.freeze s c cause addr).sec.otp = s.sec.otp := by
  simp [State.freeze]

@[simp] theorem State.memOutcome_keep (s : State) (c : Nat) (r : Requester) :
    (s.memOutcome c r).pending = s.pending ∧ (s.memOutcome c r).mem.dram = s.mem.dram ∧ (s.memOutcome c r).sec.lifecycle = s.sec.lifecycle ∧ (s.memOutcome c r).sec.otp = s.sec.otp := by
  unfold State.memOutcome; split <;> (try dsimp only) <;> (repeat' split) <;> simp

@[simp] theorem State.memUe_keep (s : State) (c addr : Nat) (asker : Requester) :
    (State.memUe s c addr asker).pending = s.pending ∧ (State.memUe s c addr asker).mem.dram = s.mem.dram ∧ (State.memUe s c addr asker).sec.lifecycle = s.sec.lifecycle ∧ (State.memUe s c addr asker).sec.otp = s.sec.otp := by
  unfold State.memUe; (repeat' split) <;> simp (disch := (intros; (try dsimp only); (repeat' split) <;> (try simp)))

@[simp] theorem State.freezeBy_keep (s : State) (c addr : Nat) (asker : Requester) :
    (State.freezeBy s c addr asker).pending = s.pending ∧ (State.freezeBy s c addr asker).mem.dram = s.mem.dram ∧ (State.freezeBy s c addr asker).sec.lifecycle = s.sec.lifecycle ∧ (State.freezeBy s c addr asker).sec.otp = s.sec.otp := by
  unfold State.freezeBy; (repeat' split) <;> simp (disch := (intros; (try dsimp only); (repeat' split) <;> (try simp)))

@[simp] theorem State.memReplay_keep (s : State) (c alerts : Nat) :
    (State.memReplay s c alerts).pending = s.pending ∧ (State.memReplay s c alerts).mem.dram = s.mem.dram ∧ (State.memReplay s c alerts).sec.lifecycle = s.sec.lifecycle ∧ (State.memReplay s c alerts).sec.otp = s.sec.otp := by
  simp [State.memReplay]

@[simp] theorem State.retireChannel_keep (s : State) (c : Nat) :
    (State.retireChannel s c).pending = s.pending ∧ (State.retireChannel s c).mem.dram = s.mem.dram ∧ (State.retireChannel s c).sec.lifecycle = s.sec.lifecycle ∧ (State.retireChannel s c).sec.otp = s.sec.otp := by
  simp [State.retireChannel]

@[simp] theorem State.vaultsMoved_keep (s : State) (old : Nat) :
    (State.vaultsMoved s old).pending = s.pending ∧ (State.vaultsMoved s old).mem.dram = s.mem.dram ∧ (State.vaultsMoved s old).sec.lifecycle = s.sec.lifecycle ∧ (State.vaultsMoved s old).sec.otp = s.sec.otp := by
  simp [State.vaultsMoved]

@[simp] theorem State.voidAllTiles_keep (s : State) :
    (State.voidAllTiles s).pending = s.pending ∧ (State.voidAllTiles s).mem.dram = s.mem.dram ∧ (State.voidAllTiles s).sec.lifecycle = s.sec.lifecycle ∧ (State.voidAllTiles s).sec.otp = s.sec.otp := by
  simp [State.voidAllTiles]

@[simp] theorem State.remapMpu_keep (s : State) :
    (State.remapMpu s).pending = s.pending ∧ (State.remapMpu s).mem.dram = s.mem.dram ∧ (State.remapMpu s).sec.lifecycle = s.sec.lifecycle ∧ (State.remapMpu s).sec.otp = s.sec.otp := by
  simp [State.remapMpu]

@[simp] theorem State.corrected_keep (s : State) (c rank bg bank row : Nat) :
    (State.corrected s c rank bg bank row).pending = s.pending ∧ (State.corrected s c rank bg bank row).mem.dram = s.mem.dram ∧ (State.corrected s c rank bg bank row).sec.lifecycle = s.sec.lifecycle ∧ (State.corrected s c rank bg bank row).sec.otp = s.sec.otp := by
  simp [State.corrected]

@[simp] theorem State.uncorrectableAt_keep (s : State) (c addr : Nat) :
    (State.uncorrectableAt s c addr).pending = s.pending ∧ (State.uncorrectableAt s c addr).mem.dram = s.mem.dram ∧ (State.uncorrectableAt s c addr).sec.lifecycle = s.sec.lifecycle ∧ (State.uncorrectableAt s c addr).sec.otp = s.sec.otp := by
  simp [State.uncorrectableAt]

@[simp] theorem State.startMpu_keep (s : State) :
    (State.startMpu s).pending = s.pending ∧ (State.startMpu s).mem.dram = s.mem.dram ∧ (State.startMpu s).sec.lifecycle = s.sec.lifecycle ∧ (State.startMpu s).sec.otp = s.sec.otp := by
  simp [State.startMpu]

@[simp] theorem State.queueError_keep (s : State) (h : Nat) :
    (State.queueError s h).pending = s.pending ∧ (State.queueError s h).mem.dram = s.mem.dram ∧ (State.queueError s h).sec.lifecycle = s.sec.lifecycle ∧ (State.queueError s h).sec.otp = s.sec.otp := by
  simp only [State.queueError]; (repeat' split) <;> simp

@[simp] theorem State.sramUse_keep (s : State) (block : SramBlock) (unit : Nat) :
    (State.sramUse s block unit).pending = s.pending ∧ (State.sramUse s block unit).mem.dram = s.mem.dram ∧ (State.sramUse s block unit).sec.lifecycle = s.sec.lifecycle ∧ (State.sramUse s block unit).sec.otp = s.sec.otp := by
  unfold State.sramUse; (repeat' split) <;> simp

@[simp] theorem State.setEnvelope_keep (s : State) (d v : Nat) :
    (State.setEnvelope s d v).pending = s.pending ∧ (State.setEnvelope s d v).mem.dram = s.mem.dram ∧ (State.setEnvelope s d v).sec.lifecycle = s.sec.lifecycle ∧ (State.setEnvelope s d v).sec.otp = s.sec.otp := by
  simp [State.setEnvelope]

@[simp] theorem State.throttle_keep (s : State) (d : Nat) (reading : Int) (clock : Nat) :
    (State.throttle s d reading clock).pending = s.pending ∧ (State.throttle s d reading clock).mem.dram = s.mem.dram ∧ (State.throttle s d reading clock).sec.lifecycle = s.sec.lifecycle ∧ (State.throttle s d reading clock).sec.otp = s.sec.otp := by
  simp [State.throttle]

@[simp] theorem State.thermalHeld_keep (s : State) (d : Nat) :
    (State.thermalHeld s d).pending = s.pending ∧ (State.thermalHeld s d).mem.dram = s.mem.dram ∧ (State.thermalHeld s d).sec.lifecycle = s.sec.lifecycle ∧ (State.thermalHeld s d).sec.otp = s.sec.otp := by
  simp [State.thermalHeld]

@[simp] theorem State.selfTests_keep (s : State) (d : Nat) (t : SelfTest) :
    (s.selfTests d t).pending = s.pending ∧ (s.selfTests d t).mem.dram = s.mem.dram ∧ (s.selfTests d t).sec.lifecycle = s.sec.lifecycle ∧ (s.selfTests d t).sec.otp = s.sec.otp := by
  unfold State.selfTests
  dsimp only
  refine each_from _ _ _ _ (fun s j => ?_) ?_ <;> (repeat' split) <;> simp

@[simp] theorem State.domainStarts_keep (s : State) (d : Nat) :
    (s.domainStarts d).pending = s.pending ∧ (s.domainStarts d).mem.dram = s.mem.dram ∧ (s.domainStarts d).sec.lifecycle = s.sec.lifecycle ∧ (s.domainStarts d).sec.otp = s.sec.otp := by
  unfold State.domainStarts
  split
  · simp
  split
  · refine each_keep _ _ _ ?_
    intros
    (try dsimp only)
    (repeat' split) <;> simp
  · simp

@[simp] theorem State.domainStops_keep (s : State) (d : Nat) :
    (State.domainStops s d).pending = s.pending ∧ (State.domainStops s d).mem.dram = s.mem.dram ∧ (State.domainStops s d).sec.lifecycle = s.sec.lifecycle ∧ (State.domainStops s d).sec.otp = s.sec.otp := by
  simp [State.domainStops]

@[simp] theorem State.stopScanout_keep (s : State) :
    (s.stopScanout).pending = s.pending ∧ (s.stopScanout).mem.dram = s.mem.dram ∧ (s.stopScanout).sec.lifecycle = s.sec.lifecycle ∧ (s.stopScanout).sec.otp = s.sec.otp := by
  unfold State.stopScanout
  refine each_keep _ _ _ ?_
  intros
  (try dsimp only)
  (repeat' split) <;> simp

@[simp] theorem State.stopConsole_keep (s : State) :
    (s.stopConsole).pending = s.pending ∧ (s.stopConsole).mem.dram = s.mem.dram ∧ (s.stopConsole).sec.lifecycle = s.sec.lifecycle ∧ (s.stopConsole).sec.otp = s.sec.otp := by
  unfold State.stopConsole
  refine each_keep _ _ _ ?_
  intros
  (try dsimp only)
  (repeat' split) <;> simp

@[simp] theorem State.stopCore_keep (s : State) (c : Nat) :
    (s.stopCore c).pending = s.pending ∧ (s.stopCore c).mem.dram = s.mem.dram ∧ (s.stopCore c).sec.lifecycle = s.sec.lifecycle ∧ (s.stopCore c).sec.otp = s.sec.otp := by
  unfold State.stopCore
  refine each_keep _ _ _ ?_
  intros
  (try dsimp only)
  (repeat' split) <;> simp

@[simp] theorem State.stopEncoder_keep (s : State) :
    (s.stopEncoder).pending = s.pending ∧ (s.stopEncoder).mem.dram = s.mem.dram ∧ (s.stopEncoder).sec.lifecycle = s.sec.lifecycle ∧ (s.stopEncoder).sec.otp = s.sec.otp := by
  unfold State.stopEncoder
  refine each_keep _ _ _ ?_
  intros
  (try dsimp only)
  (repeat' split) <;> simp

@[simp] theorem State.maskStops_keep (s : State) (d : Nat) :
    (State.maskStops s d).pending = s.pending ∧ (State.maskStops s d).mem.dram = s.mem.dram ∧ (State.maskStops s d).sec.lifecycle = s.sec.lifecycle ∧ (State.maskStops s d).sec.otp = s.sec.otp := by
  simp [State.maskStops]

@[simp] theorem State.unitsStart_keep (s : State) (d : Nat) :
    (State.unitsStart s d).pending = s.pending ∧ (State.unitsStart s d).mem.dram = s.mem.dram ∧ (State.unitsStart s d).sec.lifecycle = s.sec.lifecycle ∧ (State.unitsStart s d).sec.otp = s.sec.otp := by
  simp [State.unitsStart]

@[simp] theorem State.maskStarts_keep (s : State) (d : Nat) :
    (State.maskStarts s d).pending = s.pending ∧ (State.maskStarts s d).mem.dram = s.mem.dram ∧ (State.maskStarts s d).sec.lifecycle = s.sec.lifecycle ∧ (State.maskStarts s d).sec.otp = s.sec.otp := by
  simp [State.maskStarts]

@[simp] theorem State.startConsole_keep (s : State) :
    (s.startConsole).pending = s.pending ∧ (s.startConsole).mem.dram = s.mem.dram ∧ (s.startConsole).sec.lifecycle = s.sec.lifecycle ∧ (s.startConsole).sec.otp = s.sec.otp := by
  unfold State.startConsole
  refine each_keep _ _ _ ?_
  intros
  (try dsimp only)
  (repeat' split) <;> simp

@[simp] theorem State.dropTiles_keep (s : State) :
    (State.dropTiles s).pending = s.pending ∧ (State.dropTiles s).mem.dram = s.mem.dram ∧ (State.dropTiles s).sec.lifecycle = s.sec.lifecycle ∧ (State.dropTiles s).sec.otp = s.sec.otp := by
  simp [State.dropTiles]

@[simp] theorem State.dropFrames_keep (s : State) :
    (State.dropFrames s).pending = s.pending ∧ (State.dropFrames s).mem.dram = s.mem.dram ∧ (State.dropFrames s).sec.lifecycle = s.sec.lifecycle ∧ (State.dropFrames s).sec.otp = s.sec.otp := by
  simp [State.dropFrames]

@[simp] theorem State.enterNight_keep (s : State) :
    (State.enterNight s).pending = s.pending ∧ (State.enterNight s).mem.dram = s.mem.dram ∧ (State.enterNight s).sec.lifecycle = s.sec.lifecycle ∧ (State.enterNight s).sec.otp = s.sec.otp := by
  simp [State.enterNight]

@[simp] theorem State.leaveNight_keep (s : State) :
    (State.leaveNight s).pending = s.pending ∧ (State.leaveNight s).mem.dram = s.mem.dram ∧ (State.leaveNight s).sec.lifecycle = s.sec.lifecycle ∧ (State.leaveNight s).sec.otp = s.sec.otp := by
  simp [State.leaveNight]

@[simp] theorem State.enterOff_keep (s : State) :
    (State.enterOff s).pending = s.pending ∧ (State.enterOff s).mem.dram = s.mem.dram ∧ (State.enterOff s).sec.lifecycle = s.sec.lifecycle ∧ (State.enterOff s).sec.otp = s.sec.otp := by
  simp [State.enterOff]

@[simp] theorem State.changePower_keep (s : State) (t : Transition) :
    (State.changePower s t).pending = s.pending ∧ (State.changePower s t).mem.dram = s.mem.dram ∧ (State.changePower s t).sec.lifecycle = s.sec.lifecycle ∧ (State.changePower s t).sec.otp = s.sec.otp := by
  simp [State.changePower]

@[simp] theorem State.later_keep (s : State) (code : Nat) (ps : List Nat) :
    (State.later s code ps).pending = s.pending ∧ (State.later s code ps).mem.dram = s.mem.dram ∧ (State.later s code ps).sec.lifecycle = s.sec.lifecycle ∧ (State.later s code ps).sec.otp = s.sec.otp := by
  simp [State.later]

@[simp] theorem State.laterFault_keep (s : State) (msg : Nat) :
    (State.laterFault s msg).pending = s.pending ∧ (State.laterFault s msg).mem.dram = s.mem.dram ∧ (State.laterFault s msg).sec.lifecycle = s.sec.lifecycle ∧ (State.laterFault s msg).sec.otp = s.sec.otp := by
  simp [State.laterFault]

@[simp] theorem State.endSessions_keep (s : State) :
    (State.endSessions s).pending = s.pending ∧ (State.endSessions s).mem.dram = s.mem.dram ∧ (State.endSessions s).sec.lifecycle = s.sec.lifecycle ∧ (State.endSessions s).sec.otp = s.sec.otp := by
  simp [State.endSessions]

@[simp] theorem State.endSubscriptions_keep (s : State) :
    (State.endSubscriptions s).pending = s.pending ∧ (State.endSubscriptions s).mem.dram = s.mem.dram ∧ (State.endSubscriptions s).sec.lifecycle = s.sec.lifecycle ∧ (State.endSubscriptions s).sec.otp = s.sec.otp := by
  simp [State.endSubscriptions]

@[simp] theorem State.endDebug_keep (s : State) :
    (State.endDebug s).pending = s.pending ∧ (State.endDebug s).mem.dram = s.mem.dram ∧ (State.endDebug s).sec.lifecycle = s.sec.lifecycle ∧ (State.endDebug s).sec.otp = s.sec.otp := by
  simp only [State.endDebug]; (repeat' split) <;> simp

@[simp] theorem State.endAll_keep (s : State) (kind : Nat) :
    (State.endAll s kind).pending = s.pending ∧ (State.endAll s kind).mem.dram = s.mem.dram ∧ (State.endAll s kind).sec.lifecycle = s.sec.lifecycle ∧ (State.endAll s kind).sec.otp = s.sec.otp := by
  simp [State.endAll]

@[simp] theorem State.resetSets_keep (s : State) :
    (State.resetSets s).pending = s.pending ∧ (State.resetSets s).mem.dram = s.mem.dram ∧ (State.resetSets s).sec.lifecycle = s.sec.lifecycle ∧ (State.resetSets s).sec.otp = s.sec.otp := by
  simp [State.resetSets]

@[simp] theorem State.resetTime_keep (s : State) (k : ResetKind) :
    (State.resetTime s k).pending = s.pending ∧ (State.resetTime s k).mem.dram = s.mem.dram ∧ (State.resetTime s k).sec.lifecycle = s.sec.lifecycle ∧ (State.resetTime s k).sec.otp = s.sec.otp := by
  unfold State.resetTime; (repeat' split) <;> simp

@[simp] theorem State.resetOutputs_keep (s : State) (k : ResetKind) :
    (State.resetOutputs s k).pending = s.pending ∧ (State.resetOutputs s k).mem.dram = s.mem.dram ∧ (State.resetOutputs s k).sec.lifecycle = s.sec.lifecycle ∧ (State.resetOutputs s k).sec.otp = s.sec.otp := by
  simp [State.resetOutputs]

@[simp] theorem State.resetCompose_keep (s : State) :
    (State.resetCompose s).pending = s.pending ∧ (State.resetCompose s).mem.dram = s.mem.dram ∧ (State.resetCompose s).sec.lifecycle = s.sec.lifecycle ∧ (State.resetCompose s).sec.otp = s.sec.otp := by
  simp [State.resetCompose]

@[simp] theorem State.resetLinks_keep (s : State) (k : ResetKind) :
    (State.resetLinks s k).pending = s.pending ∧ (State.resetLinks s k).mem.dram = s.mem.dram ∧ (State.resetLinks s k).sec.lifecycle = s.sec.lifecycle ∧ (State.resetLinks s k).sec.otp = s.sec.otp := by
  simp [State.resetLinks]

@[simp] theorem State.resetPair_keep (s : State) (k : ResetKind) :
    (State.resetPair s k).pending = s.pending ∧ (State.resetPair s k).mem.dram = s.mem.dram ∧ (State.resetPair s k).sec.lifecycle = s.sec.lifecycle ∧ (State.resetPair s k).sec.otp = s.sec.otp := by
  simp [State.resetPair]

@[simp] theorem State.resetFaults_keep (s : State) (k : ResetKind) :
    (State.resetFaults s k).pending = s.pending ∧ (State.resetFaults s k).mem.dram = s.mem.dram ∧ (State.resetFaults s k).sec.lifecycle = s.sec.lifecycle ∧ (State.resetFaults s k).sec.otp = s.sec.otp := by
  simp [State.resetFaults]

@[simp] theorem State.resetSec_keep (s : State) (k : ResetKind) :
    (State.resetSec s k).pending = s.pending ∧ (State.resetSec s k).mem.dram = s.mem.dram ∧ (State.resetSec s k).sec.lifecycle = s.sec.lifecycle ∧ (State.resetSec s k).sec.otp = s.sec.otp := by
  simp [State.resetSec]

@[simp] theorem State.resetLedger_keep (s : State) (k : ResetKind) :
    (State.resetLedger s k).pending = s.pending ∧ (State.resetLedger s k).mem.dram = s.mem.dram ∧ (State.resetLedger s k).sec.lifecycle = s.sec.lifecycle ∧ (State.resetLedger s k).sec.otp = s.sec.otp := by
  simp [State.resetLedger]

@[simp] theorem State.resetCounter_keep (s : State) (k : ResetKind) :
    (State.resetCounter s k).pending = s.pending ∧ (State.resetCounter s k).mem.dram = s.mem.dram ∧ (State.resetCounter s k).sec.lifecycle = s.sec.lifecycle ∧ (State.resetCounter s k).sec.otp = s.sec.otp := by
  simp [State.resetCounter]

@[simp] theorem State.resetPower_keep (s : State) (k : ResetKind) (detail : Nat) :
    (State.resetPower s k detail).pending = s.pending ∧ (State.resetPower s k detail).mem.dram = s.mem.dram ∧ (State.resetPower s k detail).sec.lifecycle = s.sec.lifecycle ∧ (State.resetPower s k detail).sec.otp = s.sec.otp := by
  simp [State.resetPower]

@[simp] theorem State.tampered_keep (s : State) (m : Nat) :
    (State.tampered s m).pending = s.pending ∧ (State.tampered s m).mem.dram = s.mem.dram ∧ (State.tampered s m).sec.lifecycle = s.sec.lifecycle ∧ (State.tampered s m).sec.otp = s.sec.otp := by
  simp [State.tampered]

@[simp] theorem State.released_keep (s : State) :
    (State.released s).pending = s.pending ∧ (State.released s).mem.dram = s.mem.dram ∧ (State.released s).sec.lifecycle = s.sec.lifecycle ∧ (State.released s).sec.otp = s.sec.otp := by
  simp [State.released]

@[simp] theorem State.freshUnits_keep (s : State) (d : Nat) :
    (s.freshUnits d).pending = s.pending ∧ (s.freshUnits d).mem.dram = s.mem.dram ∧ (s.freshUnits d).sec.lifecycle = s.sec.lifecycle ∧ (s.freshUnits d).sec.otp = s.sec.otp := by
  unfold State.freshUnits
  dsimp only
  repeat' split
  case _ => simp
  case _ => simp
  case _ => simp
  case _ => simp
  case _ =>
    refine each_keep _ _ _ ?_
    intros
    (try dsimp only)
    (repeat' split) <;> simp
  case _ => simp
  case _ => simp
  case _ => simp

@[simp] theorem State.testCore_keep (s : State) (c : Nat) :
    (State.testCore s c).pending = s.pending ∧ (State.testCore s c).mem.dram = s.mem.dram ∧ (State.testCore s c).sec.lifecycle = s.sec.lifecycle ∧ (State.testCore s c).sec.otp = s.sec.otp := by
  unfold State.testCore; (repeat' split) <;> simp (disch := (intros; (try dsimp only); (repeat' split) <;> (try simp)))

@[simp] theorem State.reexamineCauses_keep (s : State) :
    (State.reexamineCauses s).pending = s.pending ∧ (State.reexamineCauses s).mem.dram = s.mem.dram ∧ (State.reexamineCauses s).sec.lifecycle = s.sec.lifecycle ∧ (State.reexamineCauses s).sec.otp = s.sec.otp := by
  simp [State.reexamineCauses]

@[simp] theorem State.stillRetired_keep (s : State) :
    (State.stillRetired s).pending = s.pending ∧ (State.stillRetired s).mem.dram = s.mem.dram ∧ (State.stillRetired s).sec.lifecycle = s.sec.lifecycle ∧ (State.stillRetired s).sec.otp = s.sec.otp := by
  simp [State.stillRetired]

@[simp] theorem State.powerNeeded_keep (s : State) :
    (State.powerNeeded s).pending = s.pending ∧ (State.powerNeeded s).mem.dram = s.mem.dram ∧ (State.powerNeeded s).sec.lifecycle = s.sec.lifecycle ∧ (State.powerNeeded s).sec.otp = s.sec.otp := by
  simp [State.powerNeeded]


@[simp] theorem State.performStepBack_keep (s : State) :
    (State.performStepBack s).pending = s.pending ∧ (State.performStepBack s).mem.dram = s.mem.dram ∧ (State.performStepBack s).sec.lifecycle = s.sec.lifecycle ∧ (State.performStepBack s).sec.otp = s.sec.otp := by
  unfold State.performStepBack; (repeat' split) <;> simp

@[simp] theorem State.changeClock_keep (s : State) :
    (State.changeClock s).pending = s.pending ∧ (State.changeClock s).mem.dram = s.mem.dram ∧ (State.changeClock s).sec.lifecycle = s.sec.lifecycle ∧ (State.changeClock s).sec.otp = s.sec.otp := by
  unfold State.changeClock; (repeat' split) <;> simp

@[simp] theorem State.holdHeads_keep (s : State) :
    (s.holdHeads).pending = s.pending ∧ (s.holdHeads).mem.dram = s.mem.dram ∧ (s.holdHeads).sec.lifecycle = s.sec.lifecycle ∧ (s.holdHeads).sec.otp = s.sec.otp := by
  unfold State.holdHeads
  refine each_keep _ _ _ ?_
  intros
  (try dsimp only)
  (repeat' split) <;> simp

@[simp] theorem State.lockHeads_keep (s : State) :
    (s.lockHeads).pending = s.pending ∧ (s.lockHeads).mem.dram = s.mem.dram ∧ (s.lockHeads).sec.lifecycle = s.sec.lifecycle ∧ (s.lockHeads).sec.otp = s.sec.otp := by
  unfold State.lockHeads
  refine each_keep _ _ _ ?_
  intros
  (try dsimp only)
  (repeat' split) <;> simp

@[simp] theorem State.restoreOutputs_keep (s : State) :
    (State.restoreOutputs s).pending = s.pending ∧ (State.restoreOutputs s).mem.dram = s.mem.dram ∧ (State.restoreOutputs s).sec.lifecycle = s.sec.lifecycle ∧ (State.restoreOutputs s).sec.otp = s.sec.otp := by
  simp [State.restoreOutputs]

@[simp] theorem State.restartJobs_keep (s : State) :
    (State.restartJobs s).pending = s.pending ∧ (State.restartJobs s).mem.dram = s.mem.dram ∧ (State.restartJobs s).sec.lifecycle = s.sec.lifecycle ∧ (State.restartJobs s).sec.otp = s.sec.otp := by
  simp [State.restartJobs]

@[simp] theorem State.restoreSet_keep (s : State) :
    (State.restoreSet s).pending = s.pending ∧ (State.restoreSet s).mem.dram = s.mem.dram ∧ (State.restoreSet s).sec.lifecycle = s.sec.lifecycle ∧ (State.restoreSet s).sec.otp = s.sec.otp := by
  simp [State.restoreSet]

@[simp] theorem State.effectAtRoom_keep (s : State) :
    (State.effectAtRoom s).pending = s.pending ∧ (State.effectAtRoom s).mem.dram = s.mem.dram ∧ (State.effectAtRoom s).sec.lifecycle = s.sec.lifecycle ∧ (State.effectAtRoom s).sec.otp = s.sec.otp := by
  unfold State.effectAtRoom; (repeat' split) <;> simp

@[simp] theorem State.leaveSafe_keep (s : State) :
    s.leaveSafe.pending = s.pending ∧ s.leaveSafe.mem.dram = s.mem.dram ∧ s.leaveSafe.sec.lifecycle = s.sec.lifecycle ∧ s.leaveSafe.sec.otp = s.sec.otp := by
  unfold State.leaveSafe
  split
  · simp
    apply each_from
    · intros; (repeat' split) <;> simp
    · apply each_from
      · intros; (repeat' split) <;> simp
      · simp
  · simp

@[simp] theorem State.roomFrame_keep (s : State) (t : Nat) :
    (State.roomFrame s t).pending = s.pending ∧ (State.roomFrame s t).mem.dram = s.mem.dram ∧ (State.roomFrame s t).sec.lifecycle = s.sec.lifecycle ∧ (State.roomFrame s t).sec.otp = s.sec.otp := by
  simp only [State.roomFrame]; (repeat' split) <;> simp

@[simp] theorem State.rejoin_keep (s : State) :
    (State.rejoin s).pending = s.pending ∧ (State.rejoin s).mem.dram = s.mem.dram ∧ (State.rejoin s).sec.lifecycle = s.sec.lifecycle ∧ (State.rejoin s).sec.otp = s.sec.otp := by
  simp [State.rejoin]


end Sys2Proof.Machine
end

