-- ==== Sys2Proof/Laws/KeepExec.lean ====
section
/-!
SUPPORT. What every command leaves unchanged: the queue, device memory, the lifecycle and the OTP fields. One lemma per
command; the commands that change one of them stand in Laws/Advance.lean.
-/
namespace Sys2Proof.Machine

/-- The state a command ends in; the state before it if it does not end in one. -/
def after (s : State) (o : Host.Outcome State Fault Refusal) : State :=
  match o with
  | .next t => t
  | _ => s

@[simp] theorem after_next (s t : State) : after s (.next t) = t := rfl

theorem execLatchingRead_keep (dt : Nat) (p : Fin 4) (off : BitVec 16) (s : State) :
    (after s (execLatchingRead dt p off s)).pending = s.pending ∧ (after s (execLatchingRead dt p off s)).mem.dram = s.mem.dram ∧ (after s (execLatchingRead dt p off s)).sec.lifecycle = s.sec.lifecycle ∧ (after s (execLatchingRead dt p off s)).sec.otp = s.sec.otp := by
  unfold execLatchingRead; (try dsimp only); (repeat' split) <;> simp

theorem execReqBell_keep (dt : Nat) (p : Fin 4) (bits : BitVec 8) (s : State) :
    (after s (execReqBell dt p bits s)).pending = s.pending ∧ (after s (execReqBell dt p bits s)).mem.dram = s.mem.dram ∧ (after s (execReqBell dt p bits s)).sec.lifecycle = s.sec.lifecycle ∧ (after s (execReqBell dt p bits s)).sec.otp = s.sec.otp := by
  unfold execReqBell; (try dsimp only); (repeat' split) <;> simp

theorem execRespBell_keep (dt : Nat) (p : Fin 4) (bits : BitVec 8) (s : State) :
    (after s (execRespBell dt p bits s)).pending = s.pending ∧ (after s (execRespBell dt p bits s)).mem.dram = s.mem.dram ∧ (after s (execRespBell dt p bits s)).sec.lifecycle = s.sec.lifecycle ∧ (after s (execRespBell dt p bits s)).sec.otp = s.sec.otp := by
  unfold execRespBell; (try dsimp only); (repeat' split) <;> simp

theorem execEvqRd_keep (dt : Nat) (p : Fin 4) (idx : BitVec 10) (s : State) :
    (after s (execEvqRd dt p idx s)).pending = s.pending ∧ (after s (execEvqRd dt p idx s)).mem.dram = s.mem.dram ∧ (after s (execEvqRd dt p idx s)).sec.lifecycle = s.sec.lifecycle ∧ (after s (execEvqRd dt p idx s)).sec.otp = s.sec.otp := by
  unfold execEvqRd; (try dsimp only); (repeat' split) <;> simp

theorem execRegisterWrite_keep (dt : Nat) (p : Fin 4) (off : BitVec 16) (data : Bytes) (s : State) :
    (after s (execRegisterWrite dt p off data s)).pending = s.pending ∧ (after s (execRegisterWrite dt p off data s)).mem.dram = s.mem.dram ∧ (after s (execRegisterWrite dt p off data s)).sec.lifecycle = s.sec.lifecycle ∧ (after s (execRegisterWrite dt p off data s)).sec.otp = s.sec.otp := by
  unfold execRegisterWrite; (try dsimp only); (repeat' split) <;> simp

theorem execSpiInvalidTransaction_keep (dt : Nat) (cmd : Byte) (off : BitVec 16) (s : State) :
    (after s (execSpiInvalidTransaction dt cmd off s)).pending = s.pending ∧ (after s (execSpiInvalidTransaction dt cmd off s)).mem.dram = s.mem.dram ∧ (after s (execSpiInvalidTransaction dt cmd off s)).sec.lifecycle = s.sec.lifecycle ∧ (after s (execSpiInvalidTransaction dt cmd off s)).sec.otp = s.sec.otp := by
  unfold execSpiInvalidTransaction; (try dsimp only); (repeat' split) <;> simp

theorem execTellerHaltRequest_keep (dt : Nat) (s : State) :
    (after s (execTellerHaltRequest dt s)).pending = s.pending ∧ (after s (execTellerHaltRequest dt s)).mem.dram = s.mem.dram ∧ (after s (execTellerHaltRequest dt s)).sec.lifecycle = s.sec.lifecycle ∧ (after s (execTellerHaltRequest dt s)).sec.otp = s.sec.otp := by
  unfold execTellerHaltRequest; (try dsimp only); (repeat' split) <;> simp

theorem execMpuSetWrite_keep (dt : Nat) (p : Fin 4) (s : State) :
    (after s (execMpuSetWrite dt p s)).pending = s.pending ∧ (after s (execMpuSetWrite dt p s)).mem.dram = s.mem.dram ∧ (after s (execMpuSetWrite dt p s)).sec.lifecycle = s.sec.lifecycle ∧ (after s (execMpuSetWrite dt p s)).sec.otp = s.sec.otp := by
  unfold execMpuSetWrite
  simp only [after_next]
  refine State.serve_keep _ _ _ _ _ ?_
  intro t r
  (try dsimp only)
  (repeat' split) <;> simp

theorem execMpuSwap_keep (dt : Nat) (p : Fin 4) (s : State) :
    (after s (execMpuSwap dt p s)).pending = s.pending ∧ (after s (execMpuSwap dt p s)).mem.dram = s.mem.dram ∧ (after s (execMpuSwap dt p s)).sec.lifecycle = s.sec.lifecycle ∧ (after s (execMpuSwap dt p s)).sec.otp = s.sec.otp := by
  unfold execMpuSwap
  simp only [after_next]
  refine State.serve_keep _ _ _ _ _ ?_
  intro t r
  (try dsimp only)
  (repeat' split) <;> simp

theorem execMpuStatusGet_keep (dt : Nat) (p : Fin 4) (s : State) :
    (after s (execMpuStatusGet dt p s)).pending = s.pending ∧ (after s (execMpuStatusGet dt p s)).mem.dram = s.mem.dram ∧ (after s (execMpuStatusGet dt p s)).sec.lifecycle = s.sec.lifecycle ∧ (after s (execMpuStatusGet dt p s)).sec.otp = s.sec.otp := by
  unfold execMpuStatusGet
  simp only [after_next]
  refine State.serve_keep _ _ _ _ _ ?_
  intro t r
  (try dsimp only)
  (repeat' split) <;> simp

theorem execMpuNoticeClose_keep (dt : Nat) (g : Fin 9) (s : State) :
    (after s (execMpuNoticeClose dt g s)).pending = s.pending ∧ (after s (execMpuNoticeClose dt g s)).mem.dram = s.mem.dram ∧ (after s (execMpuNoticeClose dt g s)).sec.lifecycle = s.sec.lifecycle ∧ (after s (execMpuNoticeClose dt g s)).sec.otp = s.sec.otp := by
  unfold execMpuNoticeClose; (try dsimp only); (repeat' split) <;> simp

theorem execEpochDrained_keep (dt : Nat) (g : Fin 9) (s : State) :
    (after s (execEpochDrained dt g s)).pending = s.pending ∧ (after s (execEpochDrained dt g s)).mem.dram = s.mem.dram ∧ (after s (execEpochDrained dt g s)).sec.lifecycle = s.sec.lifecycle ∧ (after s (execEpochDrained dt g s)).sec.otp = s.sec.otp := by
  unfold execEpochDrained; (try dsimp only); (repeat' split) <;> simp

theorem execRequestTaken_keep (dt : Nat) (desc : Option DescRead) (s : State) :
    (after s (execRequestTaken dt desc s)).pending = s.pending ∧ (after s (execRequestTaken dt desc s)).mem.dram = s.mem.dram ∧ (after s (execRequestTaken dt desc s)).sec.lifecycle = s.sec.lifecycle ∧ (after s (execRequestTaken dt desc s)).sec.otp = s.sec.otp := by
  unfold execRequestTaken; (try dsimp only); (repeat' split) <;> simp

theorem execUnknownOpcode_keep (dt : Nat) (p : Fin 4) (s : State) :
    (after s (execUnknownOpcode dt p s)).pending = s.pending ∧ (after s (execUnknownOpcode dt p s)).mem.dram = s.mem.dram ∧ (after s (execUnknownOpcode dt p s)).sec.lifecycle = s.sec.lifecycle ∧ (after s (execUnknownOpcode dt p s)).sec.otp = s.sec.otp := by
  unfold execUnknownOpcode; (try dsimp only); (repeat' split) <;> simp

theorem execSessionOpen_keep (dt : Nat) (p : Fin 4) (s : State) :
    (after s (execSessionOpen dt p s)).pending = s.pending ∧ (after s (execSessionOpen dt p s)).mem.dram = s.mem.dram ∧ (after s (execSessionOpen dt p s)).sec.lifecycle = s.sec.lifecycle ∧ (after s (execSessionOpen dt p s)).sec.otp = s.sec.otp := by
  unfold execSessionOpen
  simp only [after_next]
  refine State.serve_keep _ _ _ _ _ ?_
  intro t r
  (try dsimp only)
  (repeat' split) <;> simp

theorem execSessionClose_keep (dt : Nat) (p : Fin 4) (s : State) :
    (after s (execSessionClose dt p s)).pending = s.pending ∧ (after s (execSessionClose dt p s)).mem.dram = s.mem.dram ∧ (after s (execSessionClose dt p s)).sec.lifecycle = s.sec.lifecycle ∧ (after s (execSessionClose dt p s)).sec.otp = s.sec.otp := by
  unfold execSessionClose
  simp only [after_next]
  refine State.serve_keep _ _ _ _ _ ?_
  intro t r
  (try dsimp only)
  (repeat' split) <;> simp

theorem execLedgerInfoGet_keep (dt : Nat) (p : Fin 4) (s : State) :
    (after s (execLedgerInfoGet dt p s)).pending = s.pending ∧ (after s (execLedgerInfoGet dt p s)).mem.dram = s.mem.dram ∧ (after s (execLedgerInfoGet dt p s)).sec.lifecycle = s.sec.lifecycle ∧ (after s (execLedgerInfoGet dt p s)).sec.otp = s.sec.otp := by
  unfold execLedgerInfoGet
  simp only [after_next]
  refine State.serve_keep _ _ _ _ _ ?_
  intro t r
  (try dsimp only)
  (repeat' split) <;> simp

theorem execLedgerRead_keep (dt : Nat) (p : Fin 4) (s : State) :
    (after s (execLedgerRead dt p s)).pending = s.pending ∧ (after s (execLedgerRead dt p s)).mem.dram = s.mem.dram ∧ (after s (execLedgerRead dt p s)).sec.lifecycle = s.sec.lifecycle ∧ (after s (execLedgerRead dt p s)).sec.otp = s.sec.otp := by
  unfold execLedgerRead
  simp only [after_next]
  refine State.serve_keep _ _ _ _ _ ?_
  intro t r
  (try dsimp only)
  (repeat' split) <;> simp

theorem execLedgerNote_keep (dt : Nat) (p : Fin 4) (s : State) :
    (after s (execLedgerNote dt p s)).pending = s.pending ∧ (after s (execLedgerNote dt p s)).mem.dram = s.mem.dram ∧ (after s (execLedgerNote dt p s)).sec.lifecycle = s.sec.lifecycle ∧ (after s (execLedgerNote dt p s)).sec.otp = s.sec.otp := by
  unfold execLedgerNote
  simp only [after_next]
  refine State.serve_keep _ _ _ _ _ ?_
  intro t r
  (try dsimp only)
  (repeat' split) <;> simp

theorem execLedgerSpill_keep (dt : Nat) (ok : Bool) (s : State) :
    (after s (execLedgerSpill dt ok s)).pending = s.pending ∧ (after s (execLedgerSpill dt ok s)).mem.dram = s.mem.dram ∧ (after s (execLedgerSpill dt ok s)).sec.lifecycle = s.sec.lifecycle ∧ (after s (execLedgerSpill dt ok s)).sec.otp = s.sec.otp := by
  unfold execLedgerSpill; (try dsimp only); (repeat' split) <;> simp

theorem execOptimeMark_keep (dt : Nat) (s : State) :
    (after s (execOptimeMark dt s)).pending = s.pending ∧ (after s (execOptimeMark dt s)).mem.dram = s.mem.dram ∧ (after s (execOptimeMark dt s)).sec.lifecycle = s.sec.lifecycle ∧ (after s (execOptimeMark dt s)).sec.otp = s.sec.otp := by
  unfold execOptimeMark; (try dsimp only); (repeat' split) <;> simp

theorem execTallyRun_keep (dt : Nat) (p : Fin 4) (s : State) :
    (after s (execTallyRun dt p s)).pending = s.pending ∧ (after s (execTallyRun dt p s)).mem.dram = s.mem.dram ∧ (after s (execTallyRun dt p s)).sec.lifecycle = s.sec.lifecycle ∧ (after s (execTallyRun dt p s)).sec.otp = s.sec.otp := by
  unfold execTallyRun
  simp only [after_next]
  refine State.serve_keep _ _ _ _ _ ?_
  intro t r
  (try dsimp only)
  (repeat' split) <;> simp

theorem execTallyJobDone_keep (dt : Nat) (e : Fin 2) (readOk : Bool) (s : State) :
    (after s (execTallyJobDone dt e readOk s)).pending = s.pending ∧ (after s (execTallyJobDone dt e readOk s)).mem.dram = s.mem.dram ∧ (after s (execTallyJobDone dt e readOk s)).sec.lifecycle = s.sec.lifecycle ∧ (after s (execTallyJobDone dt e readOk s)).sec.otp = s.sec.otp := by
  unfold execTallyJobDone; (try dsimp only); (repeat' split) <;> simp

theorem execTallyStatusGet_keep (dt : Nat) (p : Fin 4) (s : State) :
    (after s (execTallyStatusGet dt p s)).pending = s.pending ∧ (after s (execTallyStatusGet dt p s)).mem.dram = s.mem.dram ∧ (after s (execTallyStatusGet dt p s)).sec.lifecycle = s.sec.lifecycle ∧ (after s (execTallyStatusGet dt p s)).sec.otp = s.sec.otp := by
  unfold execTallyStatusGet
  simp only [after_next]
  refine State.serve_keep _ _ _ _ _ ?_
  intro t r
  (try dsimp only)
  (repeat' split) <;> simp

theorem execTallyContextSave_keep (dt : Nat) (p : Fin 4) (s : State) :
    (after s (execTallyContextSave dt p s)).pending = s.pending ∧ (after s (execTallyContextSave dt p s)).mem.dram = s.mem.dram ∧ (after s (execTallyContextSave dt p s)).sec.lifecycle = s.sec.lifecycle ∧ (after s (execTallyContextSave dt p s)).sec.otp = s.sec.otp := by
  unfold execTallyContextSave
  simp only [after_next]
  refine State.serve_keep _ _ _ _ _ ?_
  intro t r
  (try dsimp only)
  (repeat' split) <;> simp

theorem execTallyContextRestore_keep (dt : Nat) (p : Fin 4) (s : State) :
    (after s (execTallyContextRestore dt p s)).pending = s.pending ∧ (after s (execTallyContextRestore dt p s)).mem.dram = s.mem.dram ∧ (after s (execTallyContextRestore dt p s)).sec.lifecycle = s.sec.lifecycle ∧ (after s (execTallyContextRestore dt p s)).sec.otp = s.sec.otp := by
  unfold execTallyContextRestore
  simp only [after_next]
  refine State.serve_keep _ _ _ _ _ ?_
  intro t r
  (try dsimp only)
  (repeat' split) <;> simp

theorem execConfigScrub_keep (dt : Nat) (intact : Bool) (s : State) :
    (after s (execConfigScrub dt intact s)).pending = s.pending ∧ (after s (execConfigScrub dt intact s)).mem.dram = s.mem.dram ∧ (after s (execConfigScrub dt intact s)).sec.lifecycle = s.sec.lifecycle ∧ (after s (execConfigScrub dt intact s)).sec.otp = s.sec.otp := by
  unfold execConfigScrub; (try dsimp only); (repeat' split) <;> simp

theorem execOtpRead_keep (dt : Nat) (s : State) :
    (after s (execOtpRead dt s)).pending = s.pending ∧ (after s (execOtpRead dt s)).mem.dram = s.mem.dram ∧ (after s (execOtpRead dt s)).sec.lifecycle = s.sec.lifecycle ∧ (after s (execOtpRead dt s)).sec.otp = s.sec.otp := by
  unfold execOtpRead; (try dsimp only); (repeat' split) <;> simp

theorem execExtest_keep (dt : Nat) (s : State) :
    (after s (execExtest dt s)).pending = s.pending ∧ (after s (execExtest dt s)).mem.dram = s.mem.dram ∧ (after s (execExtest dt s)).sec.lifecycle = s.sec.lifecycle ∧ (after s (execExtest dt s)).sec.otp = s.sec.otp := by
  unfold execExtest; (try dsimp only); (repeat' split) <;> simp

theorem execIntest_keep (dt : Nat) (s : State) :
    (after s (execIntest dt s)).pending = s.pending ∧ (after s (execIntest dt s)).mem.dram = s.mem.dram ∧ (after s (execIntest dt s)).sec.lifecycle = s.sec.lifecycle ∧ (after s (execIntest dt s)).sec.otp = s.sec.otp := by
  unfold execIntest; (try dsimp only); (repeat' split) <;> simp

theorem execBypass_keep (dt : Nat) (s : State) :
    (after s (execBypass dt s)).pending = s.pending ∧ (after s (execBypass dt s)).mem.dram = s.mem.dram ∧ (after s (execBypass dt s)).sec.lifecycle = s.sec.lifecycle ∧ (after s (execBypass dt s)).sec.otp = s.sec.otp := by
  unfold execBypass; (try dsimp only); (repeat' split) <;> simp

theorem execIdcode_keep (dt : Nat) (s : State) :
    (after s (execIdcode dt s)).pending = s.pending ∧ (after s (execIdcode dt s)).mem.dram = s.mem.dram ∧ (after s (execIdcode dt s)).sec.lifecycle = s.sec.lifecycle ∧ (after s (execIdcode dt s)).sec.otp = s.sec.otp := by
  unfold execIdcode; (try dsimp only); (repeat' split) <;> simp

theorem execSample_keep (dt : Nat) (s : State) :
    (after s (execSample dt s)).pending = s.pending ∧ (after s (execSample dt s)).mem.dram = s.mem.dram ∧ (after s (execSample dt s)).sec.lifecycle = s.sec.lifecycle ∧ (after s (execSample dt s)).sec.otp = s.sec.otp := by
  unfold execSample; (try dsimp only); (repeat' split) <;> simp

theorem execFirmwareStage_keep (dt : Nat) (p : Fin 4) (s : State) :
    (after s (execFirmwareStage dt p s)).pending = s.pending ∧ (after s (execFirmwareStage dt p s)).mem.dram = s.mem.dram ∧ (after s (execFirmwareStage dt p s)).sec.lifecycle = s.sec.lifecycle ∧ (after s (execFirmwareStage dt p s)).sec.otp = s.sec.otp := by
  unfold execFirmwareStage
  simp only [after_next]
  refine State.serveFlash_keep _ _ _ _ _ ?_
  intro t r
  (try dsimp only)
  (repeat' split) <;> simp

theorem execFirmwareStatusGet_keep (dt : Nat) (p : Fin 4) (s : State) :
    (after s (execFirmwareStatusGet dt p s)).pending = s.pending ∧ (after s (execFirmwareStatusGet dt p s)).mem.dram = s.mem.dram ∧ (after s (execFirmwareStatusGet dt p s)).sec.lifecycle = s.sec.lifecycle ∧ (after s (execFirmwareStatusGet dt p s)).sec.otp = s.sec.otp := by
  unfold execFirmwareStatusGet
  simp only [after_next]
  refine State.serve_keep _ _ _ _ _ ?_
  intro t r
  (try dsimp only)
  (repeat' split) <;> simp

theorem execLifecycleGet_keep (dt : Nat) (p : Fin 4) (s : State) :
    (after s (execLifecycleGet dt p s)).pending = s.pending ∧ (after s (execLifecycleGet dt p s)).mem.dram = s.mem.dram ∧ (after s (execLifecycleGet dt p s)).sec.lifecycle = s.sec.lifecycle ∧ (after s (execLifecycleGet dt p s)).sec.otp = s.sec.otp := by
  unfold execLifecycleGet
  simp only [after_next]
  refine State.serve_keep _ _ _ _ _ ?_
  intro t r
  (try dsimp only)
  (repeat' split) <;> simp

theorem execLifecycleSet_keep (dt : Nat) (p : Fin 4) (s : State) :
    (after s (execLifecycleSet dt p s)).pending = s.pending ∧ (after s (execLifecycleSet dt p s)).mem.dram = s.mem.dram ∧ (after s (execLifecycleSet dt p s)).sec.lifecycle = s.sec.lifecycle ∧ (after s (execLifecycleSet dt p s)).sec.otp = s.sec.otp := by
  unfold execLifecycleSet
  simp only [after_next]
  refine State.serveFlash_keep _ _ _ _ _ ?_
  intro t r
  (try dsimp only)
  (repeat' split) <;> simp

theorem execVaultKeyLoad_keep (dt : Nat) (p : Fin 4) (s : State) :
    (after s (execVaultKeyLoad dt p s)).pending = s.pending ∧ (after s (execVaultKeyLoad dt p s)).mem.dram = s.mem.dram ∧ (after s (execVaultKeyLoad dt p s)).sec.lifecycle = s.sec.lifecycle ∧ (after s (execVaultKeyLoad dt p s)).sec.otp = s.sec.otp := by
  unfold execVaultKeyLoad
  simp only [after_next]
  refine State.serve_keep _ _ _ _ _ ?_
  intro t r
  (try dsimp only)
  (repeat' split) <;> simp

theorem execVaultRegionSet_keep (dt : Nat) (p : Fin 4) (s : State) :
    (after s (execVaultRegionSet dt p s)).pending = s.pending ∧ (after s (execVaultRegionSet dt p s)).mem.dram = s.mem.dram ∧ (after s (execVaultRegionSet dt p s)).sec.lifecycle = s.sec.lifecycle ∧ (after s (execVaultRegionSet dt p s)).sec.otp = s.sec.otp := by
  unfold execVaultRegionSet
  simp only [after_next]
  refine State.serve_keep _ _ _ _ _ ?_
  intro t r
  (try dsimp only)
  (repeat' split) <;> simp

theorem execVaultRegionRewriteDone_keep (dt : Nat) (s : State) :
    (after s (execVaultRegionRewriteDone dt s)).pending = s.pending ∧ (after s (execVaultRegionRewriteDone dt s)).mem.dram = s.mem.dram ∧ (after s (execVaultRegionRewriteDone dt s)).sec.lifecycle = s.sec.lifecycle ∧ (after s (execVaultRegionRewriteDone dt s)).sec.otp = s.sec.otp := by
  unfold execVaultRegionRewriteDone; (try dsimp only); (repeat' split) <;> simp

theorem execDebugUnlock_keep (dt : Nat) (p : Fin 4) (s : State) :
    (after s (execDebugUnlock dt p s)).pending = s.pending ∧ (after s (execDebugUnlock dt p s)).mem.dram = s.mem.dram ∧ (after s (execDebugUnlock dt p s)).sec.lifecycle = s.sec.lifecycle ∧ (after s (execDebugUnlock dt p s)).sec.otp = s.sec.otp := by
  unfold execDebugUnlock
  simp only [after_next]
  refine State.serve_keep _ _ _ _ _ ?_
  intro t r
  (try dsimp only)
  (repeat' split) <;> simp

theorem execDualRailChange_keep (dt : Nat) (src : RailSource) (p n : Bool) (s : State) :
    (after s (execDualRailChange dt src p n s)).pending = s.pending ∧ (after s (execDualRailChange dt src p n s)).mem.dram = s.mem.dram ∧ (after s (execDualRailChange dt src p n s)).sec.lifecycle = s.sec.lifecycle ∧ (after s (execDualRailChange dt src p n s)).sec.otp = s.sec.otp := by
  unfold execDualRailChange; (try dsimp only); (repeat' split) <;> simp

theorem execDualRailHealthyExpiry_keep (dt : Nat) (id : Fin 16) (s : State) :
    (after s (execDualRailHealthyExpiry dt id s)).pending = s.pending ∧ (after s (execDualRailHealthyExpiry dt id s)).mem.dram = s.mem.dram ∧ (after s (execDualRailHealthyExpiry dt id s)).sec.lifecycle = s.sec.lifecycle ∧ (after s (execDualRailHealthyExpiry dt id s)).sec.otp = s.sec.otp := by
  unfold execDualRailHealthyExpiry; (try dsimp only); (repeat' split) <;> simp

theorem execFaultMessageReceived_keep (dt : Nat) (msg : Word) (s : State) :
    (after s (execFaultMessageReceived dt msg s)).pending = s.pending ∧ (after s (execFaultMessageReceived dt msg s)).mem.dram = s.mem.dram ∧ (after s (execFaultMessageReceived dt msg s)).sec.lifecycle = s.sec.lifecycle ∧ (after s (execFaultMessageReceived dt msg s)).sec.otp = s.sec.otp := by
  unfold execFaultMessageReceived; (try dsimp only); (repeat' split) <;> simp

theorem execFaultSummaryTimer_keep (dt : Nat) (src : Fin 256) (s : State) :
    (after s (execFaultSummaryTimer dt src s)).pending = s.pending ∧ (after s (execFaultSummaryTimer dt src s)).mem.dram = s.mem.dram ∧ (after s (execFaultSummaryTimer dt src s)).sec.lifecycle = s.sec.lifecycle ∧ (after s (execFaultSummaryTimer dt src s)).sec.otp = s.sec.otp := by
  unfold execFaultSummaryTimer; (try dsimp only); (repeat' split) <;> simp

theorem execHealthGet_keep (dt : Nat) (p : Fin 4) (s : State) :
    (after s (execHealthGet dt p s)).pending = s.pending ∧ (after s (execHealthGet dt p s)).mem.dram = s.mem.dram ∧ (after s (execHealthGet dt p s)).sec.lifecycle = s.sec.lifecycle ∧ (after s (execHealthGet dt p s)).sec.otp = s.sec.otp := by
  unfold execHealthGet
  simp only [after_next]
  refine State.serve_keep _ _ _ _ _ ?_
  intro t r
  (try dsimp only)
  (repeat' split) <;> simp

theorem execFaultSeveritySet_keep (dt : Nat) (p : Fin 4) (s : State) :
    (after s (execFaultSeveritySet dt p s)).pending = s.pending ∧ (after s (execFaultSeveritySet dt p s)).mem.dram = s.mem.dram ∧ (after s (execFaultSeveritySet dt p s)).sec.lifecycle = s.sec.lifecycle ∧ (after s (execFaultSeveritySet dt p s)).sec.otp = s.sec.otp := by
  unfold execFaultSeveritySet
  simp only [after_next]
  refine State.serve_keep _ _ _ _ _ ?_
  intro t r
  (try dsimp only)
  (repeat' split) <;> simp

theorem execFaultLogGet_keep (dt : Nat) (p : Fin 4) (s : State) :
    (after s (execFaultLogGet dt p s)).pending = s.pending ∧ (after s (execFaultLogGet dt p s)).mem.dram = s.mem.dram ∧ (after s (execFaultLogGet dt p s)).sec.lifecycle = s.sec.lifecycle ∧ (after s (execFaultLogGet dt p s)).sec.otp = s.sec.otp := by
  unfold execFaultLogGet
  simp only [after_next]
  refine State.serve_keep _ _ _ _ _ ?_
  intro t r
  (try dsimp only)
  (repeat' split) <;> simp

theorem execSafeExit_keep (dt : Nat) (p : Fin 4) (s : State) :
    (after s (execSafeExit dt p s)).pending = s.pending ∧ (after s (execSafeExit dt p s)).mem.dram = s.mem.dram ∧ (after s (execSafeExit dt p s)).sec.lifecycle = s.sec.lifecycle ∧ (after s (execSafeExit dt p s)).sec.otp = s.sec.otp := by
  unfold execSafeExit
  simp only [after_next]
  refine State.serve_keep _ _ _ _ _ ?_
  intro t r
  (try dsimp only)
  (repeat' split) <;> simp

theorem execSourceSet_keep (dt : Nat) (p : Fin 4) (s : State) :
    (after s (execSourceSet dt p s)).pending = s.pending ∧ (after s (execSourceSet dt p s)).mem.dram = s.mem.dram ∧ (after s (execSourceSet dt p s)).sec.lifecycle = s.sec.lifecycle ∧ (after s (execSourceSet dt p s)).sec.otp = s.sec.otp := by
  unfold execSourceSet; (try dsimp only); (repeat' split) <;> simp

theorem execLayerSet_keep (dt : Nat) (p : Fin 4) (s : State) :
    (after s (execLayerSet dt p s)).pending = s.pending ∧ (after s (execLayerSet dt p s)).mem.dram = s.mem.dram ∧ (after s (execLayerSet dt p s)).sec.lifecycle = s.sec.lifecycle ∧ (after s (execLayerSet dt p s)).sec.otp = s.sec.otp := by
  unfold execLayerSet; (try dsimp only); (repeat' split) <;> simp

theorem execToneProfileSet_keep (dt : Nat) (p : Fin 4) (s : State) :
    (after s (execToneProfileSet dt p s)).pending = s.pending ∧ (after s (execToneProfileSet dt p s)).mem.dram = s.mem.dram ∧ (after s (execToneProfileSet dt p s)).sec.lifecycle = s.sec.lifecycle ∧ (after s (execToneProfileSet dt p s)).sec.otp = s.sec.otp := by
  unfold execToneProfileSet; (try dsimp only); (repeat' split) <;> simp

theorem execOutputSet_keep (dt : Nat) (p : Fin 4) (s : State) :
    (after s (execOutputSet dt p s)).pending = s.pending ∧ (after s (execOutputSet dt p s)).mem.dram = s.mem.dram ∧ (after s (execOutputSet dt p s)).sec.lifecycle = s.sec.lifecycle ∧ (after s (execOutputSet dt p s)).sec.otp = s.sec.otp := by
  unfold execOutputSet; (try dsimp only); (repeat' split) <;> simp

theorem execFreshPolicySet_keep (dt : Nat) (p : Fin 4) (s : State) :
    (after s (execFreshPolicySet dt p s)).pending = s.pending ∧ (after s (execFreshPolicySet dt p s)).mem.dram = s.mem.dram ∧ (after s (execFreshPolicySet dt p s)).sec.lifecycle = s.sec.lifecycle ∧ (after s (execFreshPolicySet dt p s)).sec.otp = s.sec.otp := by
  unfold execFreshPolicySet; (try dsimp only); (repeat' split) <;> simp

theorem execSetCopy_keep (dt : Nat) (p : Fin 4) (s : State) :
    (after s (execSetCopy dt p s)).pending = s.pending ∧ (after s (execSetCopy dt p s)).mem.dram = s.mem.dram ∧ (after s (execSetCopy dt p s)).sec.lifecycle = s.sec.lifecycle ∧ (after s (execSetCopy dt p s)).sec.otp = s.sec.otp := by
  unfold execSetCopy
  simp only [after_next]
  refine State.serve_keep _ _ _ _ _ ?_
  intro t r
  (try dsimp only)
  (repeat' split) <;> simp

theorem execSetRead_keep (dt : Nat) (p : Fin 4) (s : State) :
    (after s (execSetRead dt p s)).pending = s.pending ∧ (after s (execSetRead dt p s)).mem.dram = s.mem.dram ∧ (after s (execSetRead dt p s)).sec.lifecycle = s.sec.lifecycle ∧ (after s (execSetRead dt p s)).sec.otp = s.sec.otp := by
  unfold execSetRead
  simp only [after_next]
  refine State.serve_keep _ _ _ _ _ ?_
  intro t r
  (try dsimp only)
  (repeat' split) <;> simp

theorem execLayerStripe_keep (dt : Nat) (p : Fin 4) (s : State) :
    (after s (execLayerStripe dt p s)).pending = s.pending ∧ (after s (execLayerStripe dt p s)).mem.dram = s.mem.dram ∧ (after s (execLayerStripe dt p s)).sec.lifecycle = s.sec.lifecycle ∧ (after s (execLayerStripe dt p s)).sec.otp = s.sec.otp := by
  unfold execLayerStripe
  simp only [after_next]
  refine State.serve_keep _ _ _ _ _ ?_
  intro t r
  (try dsimp only)
  (repeat' split) <;> simp

theorem execCommitGroupSet_keep (dt : Nat) (p : Fin 4) (s : State) :
    (after s (execCommitGroupSet dt p s)).pending = s.pending ∧ (after s (execCommitGroupSet dt p s)).mem.dram = s.mem.dram ∧ (after s (execCommitGroupSet dt p s)).sec.lifecycle = s.sec.lifecycle ∧ (after s (execCommitGroupSet dt p s)).sec.otp = s.sec.otp := by
  unfold execCommitGroupSet
  simp only [after_next]
  refine State.serve_keep _ _ _ _ _ ?_
  intro t r
  (try dsimp only)
  (repeat' split) <;> simp

theorem execCommit_keep (dt : Nat) (p : Fin 4) (s : State) :
    (after s (execCommit dt p s)).pending = s.pending ∧ (after s (execCommit dt p s)).mem.dram = s.mem.dram ∧ (after s (execCommit dt p s)).sec.lifecycle = s.sec.lifecycle ∧ (after s (execCommit dt p s)).sec.otp = s.sec.otp := by
  unfold execCommit
  simp only [after_next]
  refine State.serve_keep _ _ _ _ _ ?_
  intro t r
  (try dsimp only)
  (repeat' split) <;> simp

theorem execClearingComplete_keep (dt : Nat) (s : State) :
    (after s (execClearingComplete dt s)).pending = s.pending ∧ (after s (execClearingComplete dt s)).mem.dram = s.mem.dram ∧ (after s (execClearingComplete dt s)).sec.lifecycle = s.sec.lifecycle ∧ (after s (execClearingComplete dt s)).sec.otp = s.sec.otp := by
  unfold execClearingComplete; (try dsimp only); (repeat' split) <;> simp

theorem execSettlementLine_keep (dt : Nat) (g : Fin 16) (s : State) :
    (after s (execSettlementLine dt g s)).pending = s.pending ∧ (after s (execSettlementLine dt g s)).mem.dram = s.mem.dram ∧ (after s (execSettlementLine dt g s)).sec.lifecycle = s.sec.lifecycle ∧ (after s (execSettlementLine dt g s)).sec.otp = s.sec.otp := by
  unfold execSettlementLine; (try dsimp only); (repeat' split) <;> simp

theorem execCommitStatusGet_keep (dt : Nat) (p : Fin 4) (s : State) :
    (after s (execCommitStatusGet dt p s)).pending = s.pending ∧ (after s (execCommitStatusGet dt p s)).mem.dram = s.mem.dram ∧ (after s (execCommitStatusGet dt p s)).sec.lifecycle = s.sec.lifecycle ∧ (after s (execCommitStatusGet dt p s)).sec.otp = s.sec.otp := by
  unfold execCommitStatusGet
  simp only [after_next]
  refine State.serve_keep _ _ _ _ _ ?_
  intro t r
  (try dsimp only)
  (repeat' split) <;> simp

theorem execCommitCancel_keep (dt : Nat) (p : Fin 4) (s : State) :
    (after s (execCommitCancel dt p s)).pending = s.pending ∧ (after s (execCommitCancel dt p s)).mem.dram = s.mem.dram ∧ (after s (execCommitCancel dt p s)).sec.lifecycle = s.sec.lifecycle ∧ (after s (execCommitCancel dt p s)).sec.otp = s.sec.otp := by
  unfold execCommitCancel
  simp only [after_next]
  refine State.serve_keep _ _ _ _ _ ?_
  intro t r
  (try dsimp only)
  (repeat' split) <;> simp

theorem execPtpMessageReceived_keep (dt : Nat) (port : Fin 8) (msg : PtpMessage) (s : State) :
    (after s (execPtpMessageReceived dt port msg s)).pending = s.pending ∧ (after s (execPtpMessageReceived dt port msg s)).mem.dram = s.mem.dram ∧ (after s (execPtpMessageReceived dt port msg s)).sec.lifecycle = s.sec.lifecycle ∧ (after s (execPtpMessageReceived dt port msg s)).sec.otp = s.sec.otp := by
  unfold execPtpMessageReceived; (try dsimp only); (repeat' split) <;> simp

theorem execPtpSyncTimeout_keep (dt : Nat) (s : State) :
    (after s (execPtpSyncTimeout dt s)).pending = s.pending ∧ (after s (execPtpSyncTimeout dt s)).mem.dram = s.mem.dram ∧ (after s (execPtpSyncTimeout dt s)).sec.lifecycle = s.sec.lifecycle ∧ (after s (execPtpSyncTimeout dt s)).sec.otp = s.sec.otp := by
  unfold execPtpSyncTimeout; (try dsimp only); (repeat' split) <;> simp

theorem execTimeSyncSend_keep (dt : Nat) (s : State) :
    (after s (execTimeSyncSend dt s)).pending = s.pending ∧ (after s (execTimeSyncSend dt s)).mem.dram = s.mem.dram ∧ (after s (execTimeSyncSend dt s)).sec.lifecycle = s.sec.lifecycle ∧ (after s (execTimeSyncSend dt s)).sec.otp = s.sec.otp := by
  unfold execTimeSyncSend; (try dsimp only); (repeat' split) <;> simp

theorem execTimeSync_keep (dt : Nat) (pp : Fin 4) (msg : TimeSyncMsg) (s : State) :
    (after s (execTimeSync dt pp msg s)).pending = s.pending ∧ (after s (execTimeSync dt pp msg s)).mem.dram = s.mem.dram ∧ (after s (execTimeSync dt pp msg s)).sec.lifecycle = s.sec.lifecycle ∧ (after s (execTimeSync dt pp msg s)).sec.otp = s.sec.otp := by
  unfold execTimeSync; (try dsimp only); (repeat' split) <;> simp

theorem execGenlockLoss_keep (dt : Nat) (s : State) :
    (after s (execGenlockLoss dt s)).pending = s.pending ∧ (after s (execGenlockLoss dt s)).mem.dram = s.mem.dram ∧ (after s (execGenlockLoss dt s)).sec.lifecycle = s.sec.lifecycle ∧ (after s (execGenlockLoss dt s)).sec.otp = s.sec.otp := by
  unfold execGenlockLoss; (try dsimp only); (repeat' split) <;> simp

theorem execRoomTimeStatus_keep (dt : Nat) (p : Fin 4) (s : State) :
    (after s (execRoomTimeStatus dt p s)).pending = s.pending ∧ (after s (execRoomTimeStatus dt p s)).mem.dram = s.mem.dram ∧ (after s (execRoomTimeStatus dt p s)).sec.lifecycle = s.sec.lifecycle ∧ (after s (execRoomTimeStatus dt p s)).sec.otp = s.sec.otp := by
  unfold execRoomTimeStatus
  simp only [after_next]
  refine State.serve_keep _ _ _ _ _ ?_
  intro t r
  (try dsimp only)
  (repeat' split) <;> simp

theorem execRoomTimeStepBack_keep (dt : Nat) (p : Fin 4) (s : State) :
    (after s (execRoomTimeStepBack dt p s)).pending = s.pending ∧ (after s (execRoomTimeStepBack dt p s)).mem.dram = s.mem.dram ∧ (after s (execRoomTimeStepBack dt p s)).sec.lifecycle = s.sec.lifecycle ∧ (after s (execRoomTimeStepBack dt p s)).sec.otp = s.sec.otp := by
  unfold execRoomTimeStepBack
  simp only [after_next]
  refine State.serve_keep _ _ _ _ _ ?_
  intro t r
  (try dsimp only)
  (repeat' split) <;> simp

theorem execRoomTimeConfig_keep (dt : Nat) (p : Fin 4) (s : State) :
    (after s (execRoomTimeConfig dt p s)).pending = s.pending ∧ (after s (execRoomTimeConfig dt p s)).mem.dram = s.mem.dram ∧ (after s (execRoomTimeConfig dt p s)).sec.lifecycle = s.sec.lifecycle ∧ (after s (execRoomTimeConfig dt p s)).sec.otp = s.sec.otp := by
  unfold execRoomTimeConfig
  simp only [after_next]
  refine State.serve_keep _ _ _ _ _ ?_
  intro t r
  (try dsimp only)
  (repeat' split) <;> simp

theorem execDeviceInfoGet_keep (dt : Nat) (p : Fin 4) (s : State) :
    (after s (execDeviceInfoGet dt p s)).pending = s.pending ∧ (after s (execDeviceInfoGet dt p s)).mem.dram = s.mem.dram ∧ (after s (execDeviceInfoGet dt p s)).sec.lifecycle = s.sec.lifecycle ∧ (after s (execDeviceInfoGet dt p s)).sec.otp = s.sec.otp := by
  unfold execDeviceInfoGet
  simp only [after_next]
  refine State.serve_keep _ _ _ _ _ ?_
  intro t r
  (try dsimp only)
  (repeat' split) <;> simp

theorem execDeviceReset_keep (dt : Nat) (p : Fin 4) (s : State) :
    (after s (execDeviceReset dt p s)).pending = s.pending ∧ (after s (execDeviceReset dt p s)).mem.dram = s.mem.dram ∧ (after s (execDeviceReset dt p s)).sec.lifecycle = s.sec.lifecycle ∧ (after s (execDeviceReset dt p s)).sec.otp = s.sec.otp := by
  unfold execDeviceReset
  simp only [after_next]
  refine State.serve_keep _ _ _ _ _ ?_
  intro t r
  (try dsimp only)
  (repeat' split) <;> simp

theorem execSourceStatusGet_keep (dt : Nat) (p : Fin 4) (s : State) :
    (after s (execSourceStatusGet dt p s)).pending = s.pending ∧ (after s (execSourceStatusGet dt p s)).mem.dram = s.mem.dram ∧ (after s (execSourceStatusGet dt p s)).sec.lifecycle = s.sec.lifecycle ∧ (after s (execSourceStatusGet dt p s)).sec.otp = s.sec.otp := by
  unfold execSourceStatusGet
  simp only [after_next]
  refine State.serve_keep _ _ _ _ _ ?_
  intro t r
  (try dsimp only)
  (repeat' split) <;> simp

theorem execSurfaceSet_keep (dt : Nat) (p : Fin 4) (s : State) :
    (after s (execSurfaceSet dt p s)).pending = s.pending ∧ (after s (execSurfaceSet dt p s)).mem.dram = s.mem.dram ∧ (after s (execSurfaceSet dt p s)).sec.lifecycle = s.sec.lifecycle ∧ (after s (execSurfaceSet dt p s)).sec.otp = s.sec.otp := by
  unfold execSurfaceSet
  simp only [after_next]
  refine State.serve_keep _ _ _ _ _ ?_
  intro t r
  (try dsimp only)
  (repeat' split) <;> simp

theorem execSurfaceReleased_keep (dt : Nat) (surf : Fin 128) (buf : Fin 3) (s : State) :
    (after s (execSurfaceReleased dt surf buf s)).pending = s.pending ∧ (after s (execSurfaceReleased dt surf buf s)).mem.dram = s.mem.dram ∧ (after s (execSurfaceReleased dt surf buf s)).sec.lifecycle = s.sec.lifecycle ∧ (after s (execSurfaceReleased dt surf buf s)).sec.otp = s.sec.otp := by
  unfold execSurfaceReleased; (try dsimp only); (repeat' split) <;> simp

theorem execSourceParamsSet_keep (dt : Nat) (p : Fin 4) (s : State) :
    (after s (execSourceParamsSet dt p s)).pending = s.pending ∧ (after s (execSourceParamsSet dt p s)).mem.dram = s.mem.dram ∧ (after s (execSourceParamsSet dt p s)).sec.lifecycle = s.sec.lifecycle ∧ (after s (execSourceParamsSet dt p s)).sec.otp = s.sec.otp := by
  unfold execSourceParamsSet
  simp only [after_next]
  refine State.serve_keep _ _ _ _ _ ?_
  intro t r
  (try dsimp only)
  (repeat' split) <;> simp

theorem execDecodeRestart_keep (dt : Nat) (p : Fin 4) (s : State) :
    (after s (execDecodeRestart dt p s)).pending = s.pending ∧ (after s (execDecodeRestart dt p s)).mem.dram = s.mem.dram ∧ (after s (execDecodeRestart dt p s)).sec.lifecycle = s.sec.lifecycle ∧ (after s (execDecodeRestart dt p s)).sec.otp = s.sec.otp := by
  unfold execDecodeRestart
  simp only [after_next]
  refine State.serve_keep _ _ _ _ _ ?_
  intro t r
  (try dsimp only)
  (repeat' split) <;> simp

theorem execDecodeRateWindow_keep (dt : Nat) (src : Fin 256) (s : State) :
    (after s (execDecodeRateWindow dt src s)).pending = s.pending ∧ (after s (execDecodeRateWindow dt src s)).mem.dram = s.mem.dram ∧ (after s (execDecodeRateWindow dt src s)).sec.lifecycle = s.sec.lifecycle ∧ (after s (execDecodeRateWindow dt src s)).sec.otp = s.sec.otp := by
  unfold execDecodeRateWindow; (try dsimp only); (repeat' split) <;> simp

theorem execDamageSummaryPeriod_keep (dt : Nat) (src : Fin 256) (s : State) :
    (after s (execDamageSummaryPeriod dt src s)).pending = s.pending ∧ (after s (execDamageSummaryPeriod dt src s)).mem.dram = s.mem.dram ∧ (after s (execDamageSummaryPeriod dt src s)).sec.lifecycle = s.sec.lifecycle ∧ (after s (execDamageSummaryPeriod dt src s)).sec.otp = s.sec.otp := by
  unfold execDamageSummaryPeriod; (try dsimp only); (repeat' split) <;> simp

theorem execSummaryEnd_keep (dt : Nat) (src : Fin 256) (s : State) :
    (after s (execSummaryEnd dt src s)).pending = s.pending ∧ (after s (execSummaryEnd dt src s)).mem.dram = s.mem.dram ∧ (after s (execSummaryEnd dt src s)).sec.lifecycle = s.sec.lifecycle ∧ (after s (execSummaryEnd dt src s)).sec.otp = s.sec.otp := by
  unfold execSummaryEnd; (try dsimp only); (repeat' split) <;> simp

theorem execDecoderCoreFault_keep (dt : Nat) (core : Fin 4) (s : State) :
    (after s (execDecoderCoreFault dt core s)).pending = s.pending ∧ (after s (execDecoderCoreFault dt core s)).mem.dram = s.mem.dram ∧ (after s (execDecoderCoreFault dt core s)).sec.lifecycle = s.sec.lifecycle ∧ (after s (execDecoderCoreFault dt core s)).sec.otp = s.sec.otp := by
  unfold execDecoderCoreFault; (try dsimp only); (repeat' split) <;> simp

theorem execDecodeStatusGet_keep (dt : Nat) (p : Fin 4) (s : State) :
    (after s (execDecodeStatusGet dt p s)).pending = s.pending ∧ (after s (execDecodeStatusGet dt p s)).mem.dram = s.mem.dram ∧ (after s (execDecodeStatusGet dt p s)).sec.lifecycle = s.sec.lifecycle ∧ (after s (execDecodeStatusGet dt p s)).sec.otp = s.sec.otp := by
  unfold execDecodeStatusGet
  simp only [after_next]
  refine State.serve_keep _ _ _ _ _ ?_
  intro t r
  (try dsimp only)
  (repeat' split) <;> simp

theorem execEthPacketReceived_keep (dt : Nat) (port : Fin 8) (pkt : EthPacket) (s : State) :
    (after s (execEthPacketReceived dt port pkt s)).pending = s.pending ∧ (after s (execEthPacketReceived dt port pkt s)).mem.dram = s.mem.dram ∧ (after s (execEthPacketReceived dt port pkt s)).sec.lifecycle = s.sec.lifecycle ∧ (after s (execEthPacketReceived dt port pkt s)).sec.otp = s.sec.otp := by
  unfold execEthPacketReceived; (try dsimp only); (repeat' split) <;> simp

theorem execMembershipReportRepeat_keep (dt : Nat) (src : Fin 256) (s : State) :
    (after s (execMembershipReportRepeat dt src s)).pending = s.pending ∧ (after s (execMembershipReportRepeat dt src s)).mem.dram = s.mem.dram ∧ (after s (execMembershipReportRepeat dt src s)).sec.lifecycle = s.sec.lifecycle ∧ (after s (execMembershipReportRepeat dt src s)).sec.otp = s.sec.otp := by
  unfold execMembershipReportRepeat; (try dsimp only); (repeat' split) <;> simp

theorem execRtcpRrSend_keep (dt : Nat) (src : Fin 256) (s : State) :
    (after s (execRtcpRrSend dt src s)).pending = s.pending ∧ (after s (execRtcpRrSend dt src s)).mem.dram = s.mem.dram ∧ (after s (execRtcpRrSend dt src s)).sec.lifecycle = s.sec.lifecycle ∧ (after s (execRtcpRrSend dt src s)).sec.otp = s.sec.otp := by
  unfold execRtcpRrSend; (try dsimp only); (repeat' split) <;> simp

theorem execJitterDeadline_keep (dt : Nat) (src : Fin 256) (s : State) :
    (after s (execJitterDeadline dt src s)).pending = s.pending ∧ (after s (execJitterDeadline dt src s)).mem.dram = s.mem.dram ∧ (after s (execJitterDeadline dt src s)).sec.lifecycle = s.sec.lifecycle ∧ (after s (execJitterDeadline dt src s)).sec.otp = s.sec.otp := by
  unfold execJitterDeadline; (try dsimp only); (repeat' split) <;> simp

theorem execSsrcChanged_keep (dt : Nat) (src : Fin 256) (s : State) :
    (after s (execSsrcChanged dt src s)).pending = s.pending ∧ (after s (execSsrcChanged dt src s)).mem.dram = s.mem.dram ∧ (after s (execSsrcChanged dt src s)).sec.lifecycle = s.sec.lifecycle ∧ (after s (execSsrcChanged dt src s)).sec.otp = s.sec.otp := by
  unfold execSsrcChanged; (try dsimp only); (repeat' split) <;> simp

theorem execSourceLossTimeout_keep (dt : Nat) (src : Fin 256) (s : State) :
    (after s (execSourceLossTimeout dt src s)).pending = s.pending ∧ (after s (execSourceLossTimeout dt src s)).mem.dram = s.mem.dram ∧ (after s (execSourceLossTimeout dt src s)).sec.lifecycle = s.sec.lifecycle ∧ (after s (execSourceLossTimeout dt src s)).sec.otp = s.sec.otp := by
  unfold execSourceLossTimeout; (try dsimp only); (repeat' split) <;> simp

theorem execComposeStatusGet_keep (dt : Nat) (p : Fin 4) (s : State) :
    (after s (execComposeStatusGet dt p s)).pending = s.pending ∧ (after s (execComposeStatusGet dt p s)).mem.dram = s.mem.dram ∧ (after s (execComposeStatusGet dt p s)).sec.lifecycle = s.sec.lifecycle ∧ (after s (execComposeStatusGet dt p s)).sec.otp = s.sec.otp := by
  unfold execComposeStatusGet
  simp only [after_next]
  refine State.serve_keep _ _ _ _ _ ?_
  intro t r
  (try dsimp only)
  (repeat' split) <;> simp

theorem execTileRecordGet_keep (dt : Nat) (p : Fin 4) (s : State) :
    (after s (execTileRecordGet dt p s)).pending = s.pending ∧ (after s (execTileRecordGet dt p s)).mem.dram = s.mem.dram ∧ (after s (execTileRecordGet dt p s)).sec.lifecycle = s.sec.lifecycle ∧ (after s (execTileRecordGet dt p s)).sec.otp = s.sec.otp := by
  unfold execTileRecordGet
  simp only [after_next]
  refine State.serve_keep _ _ _ _ _ ?_
  intro t r
  (try dsimp only)
  (repeat' split) <;> simp

theorem execVoidEpisodeEnd_keep (dt : Nat) (out : Fin 32) (layer : Fin 1024) (s : State) :
    (after s (execVoidEpisodeEnd dt out layer s)).pending = s.pending ∧ (after s (execVoidEpisodeEnd dt out layer s)).mem.dram = s.mem.dram ∧ (after s (execVoidEpisodeEnd dt out layer s)).sec.lifecycle = s.sec.lifecycle ∧ (after s (execVoidEpisodeEnd dt out layer s)).sec.otp = s.sec.otp := by
  unfold execVoidEpisodeEnd; (try dsimp only); (repeat' split) <;> simp

theorem execFreshStatusGet_keep (dt : Nat) (p : Fin 4) (s : State) :
    (after s (execFreshStatusGet dt p s)).pending = s.pending ∧ (after s (execFreshStatusGet dt p s)).mem.dram = s.mem.dram ∧ (after s (execFreshStatusGet dt p s)).sec.lifecycle = s.sec.lifecycle ∧ (after s (execFreshStatusGet dt p s)).sec.otp = s.sec.otp := by
  unfold execFreshStatusGet
  simp only [after_next]
  refine State.serve_keep _ _ _ _ _ ?_
  intro t r
  (try dsimp only)
  (repeat' split) <;> simp

theorem execFreshProofRun_keep (dt : Nat) (p : Fin 4) (s : State) :
    (after s (execFreshProofRun dt p s)).pending = s.pending ∧ (after s (execFreshProofRun dt p s)).mem.dram = s.mem.dram ∧ (after s (execFreshProofRun dt p s)).sec.lifecycle = s.sec.lifecycle ∧ (after s (execFreshProofRun dt p s)).sec.otp = s.sec.otp := by
  unfold execFreshProofRun
  simp only [after_next]
  refine State.serve_keep _ _ _ _ _ ?_
  intro t r
  (try dsimp only)
  (repeat' split) <;> simp

theorem execEchoDeadline_keep (dt : Nat) (h : Fin 24) (s : State) :
    (after s (execEchoDeadline dt h s)).pending = s.pending ∧ (after s (execEchoDeadline dt h s)).mem.dram = s.mem.dram ∧ (after s (execEchoDeadline dt h s)).sec.lifecycle = s.sec.lifecycle ∧ (after s (execEchoDeadline dt h s)).sec.otp = s.sec.otp := by
  unfold execEchoDeadline; (try dsimp only); (repeat' split) <;> simp

theorem execEcho_keep (dt : Nat) (lane : Fin 48) (blk : EchoBlock) (s : State) :
    (after s (execEcho dt lane blk s)).pending = s.pending ∧ (after s (execEcho dt lane blk s)).mem.dram = s.mem.dram ∧ (after s (execEcho dt lane blk s)).sec.lifecycle = s.sec.lifecycle ∧ (after s (execEcho dt lane blk s)).sec.otp = s.sec.otp := by
  unfold execEcho; (try dsimp only); (repeat' split) <;> simp

theorem execHeadFrameStart_keep (dt : Nat) (h : Fin 24) (s : State) :
    (after s (execHeadFrameStart dt h s)).pending = s.pending ∧ (after s (execHeadFrameStart dt h s)).mem.dram = s.mem.dram ∧ (after s (execHeadFrameStart dt h s)).sec.lifecycle = s.sec.lifecycle ∧ (after s (execHeadFrameStart dt h s)).sec.otp = s.sec.otp := by
  unfold execHeadFrameStart; (try dsimp only); (repeat' split) <;> simp

theorem execHeadLineStart_keep (dt : Nat) (h : Fin 24) (fill : LineFill) (s : State) :
    (after s (execHeadLineStart dt h fill s)).pending = s.pending ∧ (after s (execHeadLineStart dt h fill s)).mem.dram = s.mem.dram ∧ (after s (execHeadLineStart dt h fill s)).sec.lifecycle = s.sec.lifecycle ∧ (after s (execHeadLineStart dt h fill s)).sec.otp = s.sec.otp := by
  unfold execHeadLineStart; (try dsimp only); (repeat' split) <;> simp

theorem execScanoutUnderrun_keep (dt : Nat) (h : Fin 24) (upper : Bool) (pixel : Nat) (s : State) :
    (after s (execScanoutUnderrun dt h upper pixel s)).pending = s.pending ∧ (after s (execScanoutUnderrun dt h upper pixel s)).mem.dram = s.mem.dram ∧ (after s (execScanoutUnderrun dt h upper pixel s)).sec.lifecycle = s.sec.lifecycle ∧ (after s (execScanoutUnderrun dt h upper pixel s)).sec.otp = s.sec.otp := by
  unfold execScanoutUnderrun; (try dsimp only); (repeat' split) <;> simp

theorem execTileCrcVerdict_keep (dt : Nat) (o : Fin 32) (tile : Nat) (crc : Word) (s : State) :
    (after s (execTileCrcVerdict dt o tile crc s)).pending = s.pending ∧ (after s (execTileCrcVerdict dt o tile crc s)).mem.dram = s.mem.dram ∧ (after s (execTileCrcVerdict dt o tile crc s)).sec.lifecycle = s.sec.lifecycle ∧ (after s (execTileCrcVerdict dt o tile crc s)).sec.otp = s.sec.otp := by
  unfold execTileCrcVerdict; (try dsimp only); (repeat' split) <;> simp

theorem execHeadUnlocked_keep (dt : Nat) (h : Fin 24) (skew : Int) (s : State) :
    (after s (execHeadUnlocked dt h skew s)).pending = s.pending ∧ (after s (execHeadUnlocked dt h skew s)).mem.dram = s.mem.dram ∧ (after s (execHeadUnlocked dt h skew s)).sec.lifecycle = s.sec.lifecycle ∧ (after s (execHeadUnlocked dt h skew s)).sec.otp = s.sec.otp := by
  unfold execHeadUnlocked; (try dsimp only); (repeat' split) <;> simp

theorem execOutputStatusGet_keep (dt : Nat) (p : Fin 4) (s : State) :
    (after s (execOutputStatusGet dt p s)).pending = s.pending ∧ (after s (execOutputStatusGet dt p s)).mem.dram = s.mem.dram ∧ (after s (execOutputStatusGet dt p s)).sec.lifecycle = s.sec.lifecycle ∧ (after s (execOutputStatusGet dt p s)).sec.otp = s.sec.otp := by
  unfold execOutputStatusGet
  simp only [after_next]
  refine State.serve_keep _ _ _ _ _ ?_
  intro t r
  (try dsimp only)
  (repeat' split) <;> simp

theorem execOutputEventsSet_keep (dt : Nat) (p : Fin 4) (s : State) :
    (after s (execOutputEventsSet dt p s)).pending = s.pending ∧ (after s (execOutputEventsSet dt p s)).mem.dram = s.mem.dram ∧ (after s (execOutputEventsSet dt p s)).sec.lifecycle = s.sec.lifecycle ∧ (after s (execOutputEventsSet dt p s)).sec.otp = s.sec.otp := by
  unfold execOutputEventsSet
  simp only [after_next]
  refine State.serve_keep _ _ _ _ _ ?_
  intro t r
  (try dsimp only)
  (repeat' split) <;> simp

theorem execPushComplete_keep (dt : Nat) (pn : Fin 8) (s : State) :
    (after s (execPushComplete dt pn s)).pending = s.pending ∧ (after s (execPushComplete dt pn s)).mem.dram = s.mem.dram ∧ (after s (execPushComplete dt pn s)).sec.lifecycle = s.sec.lifecycle ∧ (after s (execPushComplete dt pn s)).sec.otp = s.sec.otp := by
  unfold execPushComplete; (try dsimp only); (repeat' split) <;> simp

theorem execPushWindowExpiry_keep (dt : Nat) (pn : Fin 8) (s : State) :
    (after s (execPushWindowExpiry dt pn s)).pending = s.pending ∧ (after s (execPushWindowExpiry dt pn s)).mem.dram = s.mem.dram ∧ (after s (execPushWindowExpiry dt pn s)).sec.lifecycle = s.sec.lifecycle ∧ (after s (execPushWindowExpiry dt pn s)).sec.otp = s.sec.otp := by
  unfold execPushWindowExpiry; (try dsimp only); (repeat' split) <;> simp

theorem execPanelAckReceived_keep (dt : Nat) (pn : Fin 8) (report : BitVec 16) (s : State) :
    (after s (execPanelAckReceived dt pn report s)).pending = s.pending ∧ (after s (execPanelAckReceived dt pn report s)).mem.dram = s.mem.dram ∧ (after s (execPanelAckReceived dt pn report s)).sec.lifecycle = s.sec.lifecycle ∧ (after s (execPanelAckReceived dt pn report s)).sec.otp = s.sec.otp := by
  unfold execPanelAckReceived; (try dsimp only); (repeat' split) <;> simp

theorem execBtaTimeout_keep (dt : Nat) (pn : Fin 8) (s : State) :
    (after s (execBtaTimeout dt pn s)).pending = s.pending ∧ (after s (execBtaTimeout dt pn s)).mem.dram = s.mem.dram ∧ (after s (execBtaTimeout dt pn s)).sec.lifecycle = s.sec.lifecycle ∧ (after s (execBtaTimeout dt pn s)).sec.otp = s.sec.otp := by
  unfold execBtaTimeout; (try dsimp only); (repeat' split) <;> simp

theorem execLpContention_keep (dt : Nat) (pn : Fin 8) (s : State) :
    (after s (execLpContention dt pn s)).pending = s.pending ∧ (after s (execLpContention dt pn s)).mem.dram = s.mem.dram ∧ (after s (execLpContention dt pn s)).sec.lifecycle = s.sec.lifecycle ∧ (after s (execLpContention dt pn s)).sec.otp = s.sec.otp := by
  unfold execLpContention; (try dsimp only); (repeat' split) <;> simp

theorem execTeTaken_keep (dt : Nat) (pn : Fin 8) (s : State) :
    (after s (execTeTaken dt pn s)).pending = s.pending ∧ (after s (execTeTaken dt pn s)).mem.dram = s.mem.dram ∧ (after s (execTeTaken dt pn s)).sec.lifecycle = s.sec.lifecycle ∧ (after s (execTeTaken dt pn s)).sec.otp = s.sec.otp := by
  unfold execTeTaken; (try dsimp only); (repeat' split) <;> simp

theorem execTeLost_keep (dt : Nat) (pn : Fin 8) (s : State) :
    (after s (execTeLost dt pn s)).pending = s.pending ∧ (after s (execTeLost dt pn s)).mem.dram = s.mem.dram ∧ (after s (execTeLost dt pn s)).sec.lifecycle = s.sec.lifecycle ∧ (after s (execTeLost dt pn s)).sec.otp = s.sec.otp := by
  unfold execTeLost; (try dsimp only); (repeat' split) <;> simp

theorem execPanelSequenceWait_keep (dt : Nat) (pn : Fin 8) (s : State) :
    (after s (execPanelSequenceWait dt pn s)).pending = s.pending ∧ (after s (execPanelSequenceWait dt pn s)).mem.dram = s.mem.dram ∧ (after s (execPanelSequenceWait dt pn s)).sec.lifecycle = s.sec.lifecycle ∧ (after s (execPanelSequenceWait dt pn s)).sec.otp = s.sec.otp := by
  unfold execPanelSequenceWait; (try dsimp only); (repeat' split) <;> simp

theorem execPanelStartRetry_keep (dt : Nat) (pn : Fin 8) (s : State) :
    (after s (execPanelStartRetry dt pn s)).pending = s.pending ∧ (after s (execPanelStartRetry dt pn s)).mem.dram = s.mem.dram ∧ (after s (execPanelStartRetry dt pn s)).sec.lifecycle = s.sec.lifecycle ∧ (after s (execPanelStartRetry dt pn s)).sec.otp = s.sec.otp := by
  unfold execPanelStartRetry; (try dsimp only); (repeat' split) <;> simp

theorem execPanelInitSet_keep (dt : Nat) (p : Fin 4) (s : State) :
    (after s (execPanelInitSet dt p s)).pending = s.pending ∧ (after s (execPanelInitSet dt p s)).mem.dram = s.mem.dram ∧ (after s (execPanelInitSet dt p s)).sec.lifecycle = s.sec.lifecycle ∧ (after s (execPanelInitSet dt p s)).sec.otp = s.sec.otp := by
  unfold execPanelInitSet
  simp only [after_next]
  refine State.serve_keep _ _ _ _ _ ?_
  intro t r
  (try dsimp only)
  (repeat' split) <;> simp

theorem execKeyGroupSet_keep (dt : Nat) (p : Fin 4) (s : State) :
    (after s (execKeyGroupSet dt p s)).pending = s.pending ∧ (after s (execKeyGroupSet dt p s)).mem.dram = s.mem.dram ∧ (after s (execKeyGroupSet dt p s)).sec.lifecycle = s.sec.lifecycle ∧ (after s (execKeyGroupSet dt p s)).sec.otp = s.sec.otp := by
  unfold execKeyGroupSet
  simp only [after_next]
  refine State.serve_keep _ _ _ _ _ ?_
  intro t r
  (try dsimp only)
  (repeat' split) <;> simp

theorem execKeyScan_keep (dt : Nat) (g : Fin 8) (raws : List KeySample) (s : State) :
    (after s (execKeyScan dt g raws s)).pending = s.pending ∧ (after s (execKeyScan dt g raws s)).mem.dram = s.mem.dram ∧ (after s (execKeyScan dt g raws s)).sec.lifecycle = s.sec.lifecycle ∧ (after s (execKeyScan dt g raws s)).sec.otp = s.sec.otp := by
  unfold execKeyScan; (try dsimp only); (repeat' split) <;> simp

theorem execKeyHeld_keep (dt : Nat) (g : Fin 8) (k : Fin 24) (s : State) :
    (after s (execKeyHeld dt g k s)).pending = s.pending ∧ (after s (execKeyHeld dt g k s)).mem.dram = s.mem.dram ∧ (after s (execKeyHeld dt g k s)).sec.lifecycle = s.sec.lifecycle ∧ (after s (execKeyHeld dt g k s)).sec.otp = s.sec.otp := by
  unfold execKeyHeld; (try dsimp only); (repeat' split) <;> simp

theorem execKeyStuck_keep (dt : Nat) (g : Fin 8) (k : Fin 24) (s : State) :
    (after s (execKeyStuck dt g k s)).pending = s.pending ∧ (after s (execKeyStuck dt g k s)).mem.dram = s.mem.dram ∧ (after s (execKeyStuck dt g k s)).sec.lifecycle = s.sec.lifecycle ∧ (after s (execKeyStuck dt g k s)).sec.otp = s.sec.otp := by
  unfold execKeyStuck; (try dsimp only); (repeat' split) <;> simp

theorem execKeyRateStep_keep (dt : Nat) (g : Fin 8) (s : State) :
    (after s (execKeyRateStep dt g s)).pending = s.pending ∧ (after s (execKeyRateStep dt g s)).mem.dram = s.mem.dram ∧ (after s (execKeyRateStep dt g s)).sec.lifecycle = s.sec.lifecycle ∧ (after s (execKeyRateStep dt g s)).sec.otp = s.sec.otp := by
  unfold execKeyRateStep; (try dsimp only); (repeat' split) <;> simp

theorem execKeyStateGet_keep (dt : Nat) (p : Fin 4) (s : State) :
    (after s (execKeyStateGet dt p s)).pending = s.pending ∧ (after s (execKeyStateGet dt p s)).mem.dram = s.mem.dram ∧ (after s (execKeyStateGet dt p s)).sec.lifecycle = s.sec.lifecycle ∧ (after s (execKeyStateGet dt p s)).sec.otp = s.sec.otp := by
  unfold execKeyStateGet
  simp only [after_next]
  refine State.serve_keep _ _ _ _ _ ?_
  intro t r
  (try dsimp only)
  (repeat' split) <;> simp

theorem execKeyRawGet_keep (dt : Nat) (p : Fin 4) (s : State) :
    (after s (execKeyRawGet dt p s)).pending = s.pending ∧ (after s (execKeyRawGet dt p s)).mem.dram = s.mem.dram ∧ (after s (execKeyRawGet dt p s)).sec.lifecycle = s.sec.lifecycle ∧ (after s (execKeyRawGet dt p s)).sec.otp = s.sec.otp := by
  unfold execKeyRawGet
  simp only [after_next]
  refine State.serve_keep _ _ _ _ _ ?_
  intro t r
  (try dsimp only)
  (repeat' split) <;> simp

theorem execKeyReferenceStore_keep (dt : Nat) (p : Fin 4) (s : State) :
    (after s (execKeyReferenceStore dt p s)).pending = s.pending ∧ (after s (execKeyReferenceStore dt p s)).mem.dram = s.mem.dram ∧ (after s (execKeyReferenceStore dt p s)).sec.lifecycle = s.sec.lifecycle ∧ (after s (execKeyReferenceStore dt p s)).sec.otp = s.sec.otp := by
  unfold execKeyReferenceStore
  simp only [after_next]
  refine State.serveFlash_keep _ _ _ _ _ ?_
  intro t r
  (try dsimp only)
  (repeat' split) <;> simp

theorem execEncodeSet_keep (dt : Nat) (p : Fin 4) (s : State) :
    (after s (execEncodeSet dt p s)).pending = s.pending ∧ (after s (execEncodeSet dt p s)).mem.dram = s.mem.dram ∧ (after s (execEncodeSet dt p s)).sec.lifecycle = s.sec.lifecycle ∧ (after s (execEncodeSet dt p s)).sec.otp = s.sec.otp := by
  unfold execEncodeSet
  simp only [after_next]
  refine State.serve_keep _ _ _ _ _ ?_
  intro t r
  (try dsimp only)
  (repeat' split) <;> simp

theorem execEncodeRefresh_keep (dt : Nat) (p : Fin 4) (s : State) :
    (after s (execEncodeRefresh dt p s)).pending = s.pending ∧ (after s (execEncodeRefresh dt p s)).mem.dram = s.mem.dram ∧ (after s (execEncodeRefresh dt p s)).sec.lifecycle = s.sec.lifecycle ∧ (after s (execEncodeRefresh dt p s)).sec.otp = s.sec.otp := by
  unfold execEncodeRefresh
  simp only [after_next]
  refine State.serve_keep _ _ _ _ _ ?_
  intro t r
  (try dsimp only)
  (repeat' split) <;> simp

theorem execEncodeStatusGet_keep (dt : Nat) (p : Fin 4) (s : State) :
    (after s (execEncodeStatusGet dt p s)).pending = s.pending ∧ (after s (execEncodeStatusGet dt p s)).mem.dram = s.mem.dram ∧ (after s (execEncodeStatusGet dt p s)).sec.lifecycle = s.sec.lifecycle ∧ (after s (execEncodeStatusGet dt p s)).sec.otp = s.sec.otp := by
  unfold execEncodeStatusGet
  simp only [after_next]
  refine State.serve_keep _ _ _ _ _ ?_
  intro t r
  (try dsimp only)
  (repeat' split) <;> simp

theorem execEncodeCaptureComplete_keep (dt : Nat) (j : CaptureEnd) (s : State) :
    (after s (execEncodeCaptureComplete dt j s)).pending = s.pending ∧ (after s (execEncodeCaptureComplete dt j s)).mem.dram = s.mem.dram ∧ (after s (execEncodeCaptureComplete dt j s)).sec.lifecycle = s.sec.lifecycle ∧ (after s (execEncodeCaptureComplete dt j s)).sec.otp = s.sec.otp := by
  unfold execEncodeCaptureComplete; (try dsimp only); (repeat' split) <;> simp

theorem execEncodePictureCoded_keep (dt : Nat) (j : Fin 16) (costs : RowCosts) (s : State) :
    (after s (execEncodePictureCoded dt j costs s)).pending = s.pending ∧ (after s (execEncodePictureCoded dt j costs s)).mem.dram = s.mem.dram ∧ (after s (execEncodePictureCoded dt j costs s)).sec.lifecycle = s.sec.lifecycle ∧ (after s (execEncodePictureCoded dt j costs s)).sec.otp = s.sec.otp := by
  unfold execEncodePictureCoded; (try dsimp only); (repeat' split) <;> simp

theorem execEncodePacketSend_keep (dt : Nat) (j : Fin 16) (s : State) :
    (after s (execEncodePacketSend dt j s)).pending = s.pending ∧ (after s (execEncodePacketSend dt j s)).mem.dram = s.mem.dram ∧ (after s (execEncodePacketSend dt j s)).sec.lifecycle = s.sec.lifecycle ∧ (after s (execEncodePacketSend dt j s)).sec.otp = s.sec.otp := by
  unfold execEncodePacketSend; (try dsimp only); (repeat' split) <;> simp

theorem execEncodeSrSend_keep (dt : Nat) (j : Fin 16) (s : State) :
    (after s (execEncodeSrSend dt j s)).pending = s.pending ∧ (after s (execEncodeSrSend dt j s)).mem.dram = s.mem.dram ∧ (after s (execEncodeSrSend dt j s)).sec.lifecycle = s.sec.lifecycle ∧ (after s (execEncodeSrSend dt j s)).sec.otp = s.sec.otp := by
  unfold execEncodeSrSend; (try dsimp only); (repeat' split) <;> simp

theorem execCap_keep (dt : Nat) (l : Fin 48) (rec : Bytes) (s : State) :
    (after s (execCap dt l rec s)).pending = s.pending ∧ (after s (execCap dt l rec s)).mem.dram = s.mem.dram ∧ (after s (execCap dt l rec s)).sec.lifecycle = s.sec.lifecycle ∧ (after s (execCap dt l rec s)).sec.otp = s.sec.otp := by
  unfold execCap; (try dsimp only); (repeat' split) <;> simp

theorem execCapAck_keep (dt : Nat) (l : Fin 48) (version result : Byte) (crc : Word) (s : State) :
    (after s (execCapAck dt l version result crc s)).pending = s.pending ∧ (after s (execCapAck dt l version result crc s)).mem.dram = s.mem.dram ∧ (after s (execCapAck dt l version result crc s)).sec.lifecycle = s.sec.lifecycle ∧ (after s (execCapAck dt l version result crc s)).sec.otp = s.sec.otp := by
  unfold execCapAck; (try dsimp only); (repeat' split) <;> simp

theorem execCapResend_keep (dt : Nat) (l : Fin 48) (s : State) :
    (after s (execCapResend dt l s)).pending = s.pending ∧ (after s (execCapResend dt l s)).mem.dram = s.mem.dram ∧ (after s (execCapResend dt l s)).sec.lifecycle = s.sec.lifecycle ∧ (after s (execCapResend dt l s)).sec.otp = s.sec.otp := by
  unfold execCapResend; (try dsimp only); (repeat' split) <;> simp

theorem execBlockLockGained_keep (dt : Nat) (l : Fin 48) (s : State) :
    (after s (execBlockLockGained dt l s)).pending = s.pending ∧ (after s (execBlockLockGained dt l s)).mem.dram = s.mem.dram ∧ (after s (execBlockLockGained dt l s)).sec.lifecycle = s.sec.lifecycle ∧ (after s (execBlockLockGained dt l s)).sec.otp = s.sec.otp := by
  unfold execBlockLockGained; (try dsimp only); (repeat' split) <;> simp

theorem execBlockLockLost_keep (dt : Nat) (l : Fin 48) (s : State) :
    (after s (execBlockLockLost dt l s)).pending = s.pending ∧ (after s (execBlockLockLost dt l s)).mem.dram = s.mem.dram ∧ (after s (execBlockLockLost dt l s)).sec.lifecycle = s.sec.lifecycle ∧ (after s (execBlockLockLost dt l s)).sec.otp = s.sec.otp := by
  unfold execBlockLockLost; (try dsimp only); (repeat' split) <;> simp

theorem execHuntTimeout_keep (dt : Nat) (l : Fin 48) (s : State) :
    (after s (execHuntTimeout dt l s)).pending = s.pending ∧ (after s (execHuntTimeout dt l s)).mem.dram = s.mem.dram ∧ (after s (execHuntTimeout dt l s)).sec.lifecycle = s.sec.lifecycle ∧ (after s (execHuntTimeout dt l s)).sec.otp = s.sec.otp := by
  unfold execHuntTimeout; (try dsimp only); (repeat' split) <;> simp

theorem execKinikUnknownBlock_keep (dt : Nat) (l : Fin 48) (why : BadBlock) (type : Byte) (s : State) :
    (after s (execKinikUnknownBlock dt l why type s)).pending = s.pending ∧ (after s (execKinikUnknownBlock dt l why type s)).mem.dram = s.mem.dram ∧ (after s (execKinikUnknownBlock dt l why type s)).sec.lifecycle = s.sec.lifecycle ∧ (after s (execKinikUnknownBlock dt l why type s)).sec.otp = s.sec.otp := by
  unfold execKinikUnknownBlock; (try dsimp only); (repeat' split) <;> simp

theorem execQuadRefFault_keep (dt : Nat) (q : Fin 12) (ok : Bool) (s : State) :
    (after s (execQuadRefFault dt q ok s)).pending = s.pending ∧ (after s (execQuadRefFault dt q ok s)).mem.dram = s.mem.dram ∧ (after s (execQuadRefFault dt q ok s)).sec.lifecycle = s.sec.lifecycle ∧ (after s (execQuadRefFault dt q ok s)).sec.otp = s.sec.otp := by
  unfold execQuadRefFault; (try dsimp only); (repeat' split) <;> simp

theorem execLaneSelftestDone_keep (dt : Nat) (l : Fin 48) (bitErrors : Nat) (s : State) :
    (after s (execLaneSelftestDone dt l bitErrors s)).pending = s.pending ∧ (after s (execLaneSelftestDone dt l bitErrors s)).mem.dram = s.mem.dram ∧ (after s (execLaneSelftestDone dt l bitErrors s)).sec.lifecycle = s.sec.lifecycle ∧ (after s (execLaneSelftestDone dt l bitErrors s)).sec.otp = s.sec.otp := by
  unfold execLaneSelftestDone; (try dsimp only); (repeat' split) <;> simp

theorem execLaneTableLoad_keep (dt : Nat) (p : Fin 4) (s : State) :
    (after s (execLaneTableLoad dt p s)).pending = s.pending ∧ (after s (execLaneTableLoad dt p s)).mem.dram = s.mem.dram ∧ (after s (execLaneTableLoad dt p s)).sec.lifecycle = s.sec.lifecycle ∧ (after s (execLaneTableLoad dt p s)).sec.otp = s.sec.otp := by
  unfold execLaneTableLoad
  simp only [after_next]
  refine State.serveFlash_keep _ _ _ _ _ ?_
  intro t r
  (try dsimp only)
  (repeat' split) <;> simp

theorem execLaneTableGet_keep (dt : Nat) (p : Fin 4) (s : State) :
    (after s (execLaneTableGet dt p s)).pending = s.pending ∧ (after s (execLaneTableGet dt p s)).mem.dram = s.mem.dram ∧ (after s (execLaneTableGet dt p s)).sec.lifecycle = s.sec.lifecycle ∧ (after s (execLaneTableGet dt p s)).sec.otp = s.sec.otp := by
  unfold execLaneTableGet
  simp only [after_next]
  refine State.serve_keep _ _ _ _ _ ?_
  intro t r
  (try dsimp only)
  (repeat' split) <;> simp

theorem execLaneTune_keep (dt : Nat) (p : Fin 4) (s : State) :
    (after s (execLaneTune dt p s)).pending = s.pending ∧ (after s (execLaneTune dt p s)).mem.dram = s.mem.dram ∧ (after s (execLaneTune dt p s)).sec.lifecycle = s.sec.lifecycle ∧ (after s (execLaneTune dt p s)).sec.otp = s.sec.otp := by
  unfold execLaneTune
  simp only [after_next]
  refine State.serve_keep _ _ _ _ _ ?_
  intro t r
  (try dsimp only)
  (repeat' split) <;> simp

theorem execLaneStatusGet_keep (dt : Nat) (p : Fin 4) (s : State) :
    (after s (execLaneStatusGet dt p s)).pending = s.pending ∧ (after s (execLaneStatusGet dt p s)).mem.dram = s.mem.dram ∧ (after s (execLaneStatusGet dt p s)).sec.lifecycle = s.sec.lifecycle ∧ (after s (execLaneStatusGet dt p s)).sec.otp = s.sec.otp := by
  unfold execLaneStatusGet
  simp only [after_next]
  refine State.serve_keep _ _ _ _ _ ?_
  intro t r
  (try dsimp only)
  (repeat' split) <;> simp

theorem execLanePrbs_keep (dt : Nat) (p : Fin 4) (s : State) :
    (after s (execLanePrbs dt p s)).pending = s.pending ∧ (after s (execLanePrbs dt p s)).mem.dram = s.mem.dram ∧ (after s (execLanePrbs dt p s)).sec.lifecycle = s.sec.lifecycle ∧ (after s (execLanePrbs dt p s)).sec.otp = s.sec.otp := by
  unfold execLanePrbs
  simp only [after_next]
  refine State.serve_keep _ _ _ _ _ ?_
  intro t r
  (try dsimp only)
  (repeat' split) <;> simp

theorem execLanePrbsDone_keep (dt : Nat) (l : Fin 48) (errors checked : Nat) (s : State) :
    (after s (execLanePrbsDone dt l errors checked s)).pending = s.pending ∧ (after s (execLanePrbsDone dt l errors checked s)).mem.dram = s.mem.dram ∧ (after s (execLanePrbsDone dt l errors checked s)).sec.lifecycle = s.sec.lifecycle ∧ (after s (execLanePrbsDone dt l errors checked s)).sec.otp = s.sec.otp := by
  unfold execLanePrbsDone; (try dsimp only); (repeat' split) <;> simp

theorem execEthPortLink_keep (dt : Nat) (port : Fin 8) (up : Bool) (s : State) :
    (after s (execEthPortLink dt port up s)).pending = s.pending ∧ (after s (execEthPortLink dt port up s)).mem.dram = s.mem.dram ∧ (after s (execEthPortLink dt port up s)).sec.lifecycle = s.sec.lifecycle ∧ (after s (execEthPortLink dt port up s)).sec.otp = s.sec.otp := by
  unfold execEthPortLink; (try dsimp only); (repeat' split) <;> simp

theorem execEthPortSet_keep (dt : Nat) (p : Fin 4) (s : State) :
    (after s (execEthPortSet dt p s)).pending = s.pending ∧ (after s (execEthPortSet dt p s)).mem.dram = s.mem.dram ∧ (after s (execEthPortSet dt p s)).sec.lifecycle = s.sec.lifecycle ∧ (after s (execEthPortSet dt p s)).sec.otp = s.sec.otp := by
  unfold execEthPortSet
  simp only [after_next]
  refine State.serve_keep _ _ _ _ _ ?_
  intro t r
  (try dsimp only)
  (repeat' split) <;> simp

theorem execTimePairSend_keep (dt : Nat) (l : Fin 48) (s : State) :
    (after s (execTimePairSend dt l s)).pending = s.pending ∧ (after s (execTimePairSend dt l s)).mem.dram = s.mem.dram ∧ (after s (execTimePairSend dt l s)).sec.lifecycle = s.sec.lifecycle ∧ (after s (execTimePairSend dt l s)).sec.otp = s.sec.otp := by
  unfold execTimePairSend; (try dsimp only); (repeat' split) <;> simp

theorem execSrcFrameStart_keep (dt : Nat) (l : Fin 48) (num : Word) (locked follows : Bool) (s : State) :
    (after s (execSrcFrameStart dt l num locked follows s)).pending = s.pending ∧ (after s (execSrcFrameStart dt l num locked follows s)).mem.dram = s.mem.dram ∧ (after s (execSrcFrameStart dt l num locked follows s)).sec.lifecycle = s.sec.lifecycle ∧ (after s (execSrcFrameStart dt l num locked follows s)).sec.otp = s.sec.otp := by
  unfold execSrcFrameStart; (try dsimp only); (repeat' split) <;> simp

theorem execSrcFrameTime_keep (dt : Nat) (l : Fin 48) (tag : Byte) (offset : Int) (s : State) :
    (after s (execSrcFrameTime dt l tag offset s)).pending = s.pending ∧ (after s (execSrcFrameTime dt l tag offset s)).mem.dram = s.mem.dram ∧ (after s (execSrcFrameTime dt l tag offset s)).sec.lifecycle = s.sec.lifecycle ∧ (after s (execSrcFrameTime dt l tag offset s)).sec.otp = s.sec.otp := by
  unfold execSrcFrameTime; dsimp only
  rw [after_next]
  have h (f : KinikFrame → Bytes → State) (hf : ∀ k r, (f k r).pending = (s.elapse dt).pending ∧ (f k r).mem.dram = (s.elapse dt).mem.dram ∧
      (f k r).sec.lifecycle = (s.elapse dt).sec.lifecycle ∧ (f k r).sec.otp = (s.elapse dt).sec.otp) :=
    State.onFrame_keep (s.elapse dt) l f hf
  simp only [State.elapse_keep] at h
  apply h
  intros
  (try dsimp only)
  (repeat' split) <;> simp

theorem execSrcTile_keep (dt : Nat) (l : Fin 48) (tile : SrcTileMsg) (s : State) :
    (after s (execSrcTile dt l tile s)).pending = s.pending ∧ (after s (execSrcTile dt l tile s)).mem.dram = s.mem.dram ∧ (after s (execSrcTile dt l tile s)).sec.lifecycle = s.sec.lifecycle ∧ (after s (execSrcTile dt l tile s)).sec.otp = s.sec.otp := by
  unfold execSrcTile; dsimp only
  rw [after_next]
  refine keep_trans (State.onFrame_keep _ l _ (fun k r => ?_)) ?_
  · split <;> simp
  · split <;> simp

theorem execSrcTileCrc_keep (dt : Nat) (l : Fin 48) (crc : Word) (frameLow : Byte) (s : State) :
    (after s (execSrcTileCrc dt l crc frameLow s)).pending = s.pending ∧ (after s (execSrcTileCrc dt l crc frameLow s)).mem.dram = s.mem.dram ∧ (after s (execSrcTileCrc dt l crc frameLow s)).sec.lifecycle = s.sec.lifecycle ∧ (after s (execSrcTileCrc dt l crc frameLow s)).sec.otp = s.sec.otp := by
  unfold execSrcTileCrc; dsimp only; split
  · simp
  rw [after_next]
  refine keep_trans (State.onFrame_keep _ l _ (fun k r => ?_)) (State.elapse_keep _ _)
  (repeat' split) <;> simp

theorem execSrcFrameEnd_keep (dt : Nat) (l : Fin 48) (num : Word) (tiles : Nat) (s : State) :
    (after s (execSrcFrameEnd dt l num tiles s)).pending = s.pending ∧ (after s (execSrcFrameEnd dt l num tiles s)).mem.dram = s.mem.dram ∧ (after s (execSrcFrameEnd dt l num tiles s)).sec.lifecycle = s.sec.lifecycle ∧ (after s (execSrcFrameEnd dt l num tiles s)).sec.otp = s.sec.otp := by
  unfold execSrcFrameEnd; dsimp only
  rw [after_next]
  have h (f : KinikFrame → Bytes → State) (hf : ∀ k r, (f k r).pending = (s.elapse dt).pending ∧ (f k r).mem.dram = (s.elapse dt).mem.dram ∧
      (f k r).sec.lifecycle = (s.elapse dt).sec.lifecycle ∧ (f k r).sec.otp = (s.elapse dt).sec.otp) :=
    State.onFrame_keep (s.elapse dt) l f hf
  simp only [State.elapse_keep] at h
  apply h
  intros
  (try dsimp only)
  (repeat' split) <;> simp

theorem execRoomCommit_keep (dt : Nat) (p : Fin 4) (s : State) :
    (after s (execRoomCommit dt p s)).pending = s.pending ∧ (after s (execRoomCommit dt p s)).mem.dram = s.mem.dram ∧ (after s (execRoomCommit dt p s)).sec.lifecycle = s.sec.lifecycle ∧ (after s (execRoomCommit dt p s)).sec.otp = s.sec.otp := by
  unfold execRoomCommit
  simp only [after_next]
  refine State.serve_keep _ _ _ _ _ ?_
  intro t r
  (try dsimp only)
  (repeat' split) <;> simp

theorem execRoomPrepared_keep (dt : Nat) (pp : Fin 4) (roomId result commitSeq : Nat) (s : State) :
    (after s (execRoomPrepared dt pp roomId result commitSeq s)).pending = s.pending ∧ (after s (execRoomPrepared dt pp roomId result commitSeq s)).mem.dram = s.mem.dram ∧ (after s (execRoomPrepared dt pp roomId result commitSeq s)).sec.lifecycle = s.sec.lifecycle ∧ (after s (execRoomPrepared dt pp roomId result commitSeq s)).sec.otp = s.sec.otp := by
  unfold execRoomPrepared; (try dsimp only); (repeat' split) <;> simp

theorem execRoomPrepareTimeout_keep (dt : Nat) (s : State) :
    (after s (execRoomPrepareTimeout dt s)).pending = s.pending ∧ (after s (execRoomPrepareTimeout dt s)).mem.dram = s.mem.dram ∧ (after s (execRoomPrepareTimeout dt s)).sec.lifecycle = s.sec.lifecycle ∧ (after s (execRoomPrepareTimeout dt s)).sec.otp = s.sec.otp := by
  unfold execRoomPrepareTimeout; (try dsimp only); (repeat' split) <;> simp

theorem execRoomVote_keep (dt : Nat) (pp : Fin 4) (roomId : Nat) (vote : Vote) (tf : Nat) (s : State) :
    (after s (execRoomVote dt pp roomId vote tf s)).pending = s.pending ∧ (after s (execRoomVote dt pp roomId vote tf s)).mem.dram = s.mem.dram ∧ (after s (execRoomVote dt pp roomId vote tf s)).sec.lifecycle = s.sec.lifecycle ∧ (after s (execRoomVote dt pp roomId vote tf s)).sec.otp = s.sec.otp := by
  unfold execRoomVote; (try dsimp only); (repeat' split) <;> simp

theorem execRoomDecisionPoint_keep (dt : Nat) (s : State) :
    (after s (execRoomDecisionPoint dt s)).pending = s.pending ∧ (after s (execRoomDecisionPoint dt s)).mem.dram = s.mem.dram ∧ (after s (execRoomDecisionPoint dt s)).sec.lifecycle = s.sec.lifecycle ∧ (after s (execRoomDecisionPoint dt s)).sec.otp = s.sec.otp := by
  unfold execRoomDecisionPoint; (try dsimp only); (repeat' split) <;> simp

theorem execRoomDone_keep (dt : Nat) (pp : Fin 4) (roomId frameTime commitSeq : Nat) (s : State) :
    (after s (execRoomDone dt pp roomId frameTime commitSeq s)).pending = s.pending ∧ (after s (execRoomDone dt pp roomId frameTime commitSeq s)).mem.dram = s.mem.dram ∧ (after s (execRoomDone dt pp roomId frameTime commitSeq s)).sec.lifecycle = s.sec.lifecycle ∧ (after s (execRoomDone dt pp roomId frameTime commitSeq s)).sec.otp = s.sec.otp := by
  unfold execRoomDone; (try dsimp only); (repeat' split) <;> simp

theorem execRoomDoneWaitExpiry_keep (dt : Nat) (s : State) :
    (after s (execRoomDoneWaitExpiry dt s)).pending = s.pending ∧ (after s (execRoomDoneWaitExpiry dt s)).mem.dram = s.mem.dram ∧ (after s (execRoomDoneWaitExpiry dt s)).sec.lifecycle = s.sec.lifecycle ∧ (after s (execRoomDoneWaitExpiry dt s)).sec.otp = s.sec.otp := by
  unfold execRoomDoneWaitExpiry; (try dsimp only); (repeat' split) <;> simp

theorem execRoomPrepare_keep (dt : Nat) (pp : Fin 4) (roomId : Nat) (_group : Fin 16) (num den phase : Nat) (s : State) :
    (after s (execRoomPrepare dt pp roomId _group num den phase s)).pending = s.pending ∧ (after s (execRoomPrepare dt pp roomId _group num den phase s)).mem.dram = s.mem.dram ∧ (after s (execRoomPrepare dt pp roomId _group num den phase s)).sec.lifecycle = s.sec.lifecycle ∧ (after s (execRoomPrepare dt pp roomId _group num den phase s)).sec.otp = s.sec.otp := by
  unfold execRoomPrepare; (try dsimp only); (repeat' split) <;> simp

theorem execRoomVoteReq_keep (dt : Nat) (pp : Fin 4) (roomId tf : Nat) (s : State) :
    (after s (execRoomVoteReq dt pp roomId tf s)).pending = s.pending ∧ (after s (execRoomVoteReq dt pp roomId tf s)).mem.dram = s.mem.dram ∧ (after s (execRoomVoteReq dt pp roomId tf s)).sec.lifecycle = s.sec.lifecycle ∧ (after s (execRoomVoteReq dt pp roomId tf s)).sec.otp = s.sec.otp := by
  unfold execRoomVoteReq; (try dsimp only); (repeat' split) <;> simp

theorem execRoomVotePoint_keep (dt : Nat) (s : State) :
    (after s (execRoomVotePoint dt s)).pending = s.pending ∧ (after s (execRoomVotePoint dt s)).mem.dram = s.mem.dram ∧ (after s (execRoomVotePoint dt s)).sec.lifecycle = s.sec.lifecycle ∧ (after s (execRoomVotePoint dt s)).sec.otp = s.sec.otp := by
  unfold execRoomVotePoint; (try dsimp only); (repeat' split) <;> simp

theorem execRoomDecide_keep (dt : Nat) (pp : Fin 4) (roomId : Nat) (dec : Decision) (defers tf : Nat) (s : State) :
    (after s (execRoomDecide dt pp roomId dec defers tf s)).pending = s.pending ∧ (after s (execRoomDecide dt pp roomId dec defers tf s)).mem.dram = s.mem.dram ∧ (after s (execRoomDecide dt pp roomId dec defers tf s)).sec.lifecycle = s.sec.lifecycle ∧ (after s (execRoomDecide dt pp roomId dec defers tf s)).sec.otp = s.sec.otp := by
  unfold execRoomDecide; (try dsimp only); (repeat' split) <;> simp

theorem execRoomQuery_keep (dt : Nat) (received : Option (Fin 4)) (roomId tf : Nat) (s : State) :
    (after s (execRoomQuery dt received roomId tf s)).pending = s.pending ∧ (after s (execRoomQuery dt received roomId tf s)).mem.dram = s.mem.dram ∧ (after s (execRoomQuery dt received roomId tf s)).sec.lifecycle = s.sec.lifecycle ∧ (after s (execRoomQuery dt received roomId tf s)).sec.otp = s.sec.otp := by
  unfold execRoomQuery; (try dsimp only); (repeat' split) <;> simp

theorem execRoomInDoubtTimeout_keep (dt : Nat) (s : State) :
    (after s (execRoomInDoubtTimeout dt s)).pending = s.pending ∧ (after s (execRoomInDoubtTimeout dt s)).mem.dram = s.mem.dram ∧ (after s (execRoomInDoubtTimeout dt s)).sec.lifecycle = s.sec.lifecycle ∧ (after s (execRoomInDoubtTimeout dt s)).sec.otp = s.sec.otp := by
  unfold execRoomInDoubtTimeout; (try dsimp only); (repeat' split) <;> simp

theorem execPeerStatusGet_keep (dt : Nat) (p : Fin 4) (s : State) :
    (after s (execPeerStatusGet dt p s)).pending = s.pending ∧ (after s (execPeerStatusGet dt p s)).mem.dram = s.mem.dram ∧ (after s (execPeerStatusGet dt p s)).sec.lifecycle = s.sec.lifecycle ∧ (after s (execPeerStatusGet dt p s)).sec.otp = s.sec.otp := by
  unfold execPeerStatusGet
  simp only [after_next]
  refine State.serve_keep _ _ _ _ _ ?_
  intro t r
  (try dsimp only)
  (repeat' split) <;> simp

theorem execPeerMsgEnd_keep (dt : Nat) (pp : Fin 4) (msg : PeerMsgIn) (s : State) :
    (after s (execPeerMsgEnd dt pp msg s)).pending = s.pending ∧ (after s (execPeerMsgEnd dt pp msg s)).mem.dram = s.mem.dram ∧ (after s (execPeerMsgEnd dt pp msg s)).sec.lifecycle = s.sec.lifecycle ∧ (after s (execPeerMsgEnd dt pp msg s)).sec.otp = s.sec.otp := by
  unfold execPeerMsgEnd; (try dsimp only); (repeat' split) <;> simp

theorem execPeerAck_keep (dt : Nat) (pp : Fin 4) (seq : BitVec 16) (result : Byte) (s : State) :
    (after s (execPeerAck dt pp seq result s)).pending = s.pending ∧ (after s (execPeerAck dt pp seq result s)).mem.dram = s.mem.dram ∧ (after s (execPeerAck dt pp seq result s)).sec.lifecycle = s.sec.lifecycle ∧ (after s (execPeerAck dt pp seq result s)).sec.otp = s.sec.otp := by
  unfold execPeerAck; (try dsimp only); (repeat' split) <;> simp

theorem execPeerMsgResend_keep (dt : Nat) (pp : Fin 4) (s : State) :
    (after s (execPeerMsgResend dt pp s)).pending = s.pending ∧ (after s (execPeerMsgResend dt pp s)).mem.dram = s.mem.dram ∧ (after s (execPeerMsgResend dt pp s)).sec.lifecycle = s.sec.lifecycle ∧ (after s (execPeerMsgResend dt pp s)).sec.otp = s.sec.otp := by
  unfold execPeerMsgResend; (try dsimp only); (repeat' split) <;> simp

theorem execHeartbeatSend_keep (dt : Nat) (pp : Fin 4) (s : State) :
    (after s (execHeartbeatSend dt pp s)).pending = s.pending ∧ (after s (execHeartbeatSend dt pp s)).mem.dram = s.mem.dram ∧ (after s (execHeartbeatSend dt pp s)).sec.lifecycle = s.sec.lifecycle ∧ (after s (execHeartbeatSend dt pp s)).sec.otp = s.sec.otp := by
  unfold execHeartbeatSend; (try dsimp only); (repeat' split) <;> simp

theorem execHeartbeat_keep (dt : Nat) (pp : Fin 4) (hb : HeartbeatBlock) (s : State) :
    (after s (execHeartbeat dt pp hb s)).pending = s.pending ∧ (after s (execHeartbeat dt pp hb s)).mem.dram = s.mem.dram ∧ (after s (execHeartbeat dt pp hb s)).sec.lifecycle = s.sec.lifecycle ∧ (after s (execHeartbeat dt pp hb s)).sec.otp = s.sec.otp := by
  unfold execHeartbeat; (try dsimp only); (repeat' split) <;> simp

theorem execHeartbeatFail_keep (dt : Nat) (s : State) :
    (after s (execHeartbeatFail dt s)).pending = s.pending ∧ (after s (execHeartbeatFail dt s)).mem.dram = s.mem.dram ∧ (after s (execHeartbeatFail dt s)).sec.lifecycle = s.sec.lifecycle ∧ (after s (execHeartbeatFail dt s)).sec.otp = s.sec.otp := by
  unfold execHeartbeatFail; (try dsimp only); (repeat' split) <;> simp

theorem execPairConfigSet_keep (dt : Nat) (p : Fin 4) (s : State) :
    (after s (execPairConfigSet dt p s)).pending = s.pending ∧ (after s (execPairConfigSet dt p s)).mem.dram = s.mem.dram ∧ (after s (execPairConfigSet dt p s)).sec.lifecycle = s.sec.lifecycle ∧ (after s (execPairConfigSet dt p s)).sec.otp = s.sec.otp := by
  unfold execPairConfigSet
  simp only [after_next]
  refine State.serveFlash_keep _ _ _ _ _ ?_
  intro t r
  (try dsimp only)
  (repeat' split) <;> simp

theorem execPairStatusGet_keep (dt : Nat) (p : Fin 4) (s : State) :
    (after s (execPairStatusGet dt p s)).pending = s.pending ∧ (after s (execPairStatusGet dt p s)).mem.dram = s.mem.dram ∧ (after s (execPairStatusGet dt p s)).sec.lifecycle = s.sec.lifecycle ∧ (after s (execPairStatusGet dt p s)).sec.otp = s.sec.otp := by
  unfold execPairStatusGet
  simp only [after_next]
  refine State.serve_keep _ _ _ _ _ ?_
  intro t r
  (try dsimp only)
  (repeat' split) <;> simp

theorem execPairSwitch_keep (dt : Nat) (p : Fin 4) (s : State) :
    (after s (execPairSwitch dt p s)).pending = s.pending ∧ (after s (execPairSwitch dt p s)).mem.dram = s.mem.dram ∧ (after s (execPairSwitch dt p s)).sec.lifecycle = s.sec.lifecycle ∧ (after s (execPairSwitch dt p s)).sec.otp = s.sec.otp := by
  unfold execPairSwitch
  simp only [after_next]
  refine State.serve_keep _ _ _ _ _ ?_
  intro t r
  (try dsimp only)
  (repeat' split) <;> simp

theorem execPairPromote_keep (dt : Nat) (s : State) :
    (after s (execPairPromote dt s)).pending = s.pending ∧ (after s (execPairPromote dt s)).mem.dram = s.mem.dram ∧ (after s (execPairPromote dt s)).sec.lifecycle = s.sec.lifecycle ∧ (after s (execPairPromote dt s)).sec.otp = s.sec.otp := by
  unfold execPairPromote; (try dsimp only); (repeat' split) <;> simp

theorem execArbLevelChange_keep (dt : Nat) (high : Bool) (s : State) :
    (after s (execArbLevelChange dt high s)).pending = s.pending ∧ (after s (execArbLevelChange dt high s)).mem.dram = s.mem.dram ∧ (after s (execArbLevelChange dt high s)).sec.lifecycle = s.sec.lifecycle ∧ (after s (execArbLevelChange dt high s)).sec.otp = s.sec.otp := by
  unfold execArbLevelChange; (try dsimp only); (repeat' split) <;> simp

theorem execPairHandover_keep (dt tf mirrorSeq : Nat) (s : State) :
    (after s (execPairHandover dt tf mirrorSeq s)).pending = s.pending ∧ (after s (execPairHandover dt tf mirrorSeq s)).mem.dram = s.mem.dram ∧ (after s (execPairHandover dt tf mirrorSeq s)).sec.lifecycle = s.sec.lifecycle ∧ (after s (execPairHandover dt tf mirrorSeq s)).sec.otp = s.sec.otp := by
  unfold execPairHandover; (try dsimp only); (repeat' split) <;> simp

theorem execPairHandoverAck_keep (dt tf result : Nat) (s : State) :
    (after s (execPairHandoverAck dt tf result s)).pending = s.pending ∧ (after s (execPairHandoverAck dt tf result s)).mem.dram = s.mem.dram ∧ (after s (execPairHandoverAck dt tf result s)).sec.lifecycle = s.sec.lifecycle ∧ (after s (execPairHandoverAck dt tf result s)).sec.otp = s.sec.otp := by
  unfold execPairHandoverAck; (try dsimp only); (repeat' split) <;> simp

theorem execPairHandoverTimeout_keep (dt : Nat) (s : State) :
    (after s (execPairHandoverTimeout dt s)).pending = s.pending ∧ (after s (execPairHandoverTimeout dt s)).mem.dram = s.mem.dram ∧ (after s (execPairHandoverTimeout dt s)).sec.lifecycle = s.sec.lifecycle ∧ (after s (execPairHandoverTimeout dt s)).sec.otp = s.sec.otp := by
  unfold execPairHandoverTimeout; (try dsimp only); (repeat' split) <;> simp

theorem execPairHandoverRelease_keep (dt : Nat) (s : State) :
    (after s (execPairHandoverRelease dt s)).pending = s.pending ∧ (after s (execPairHandoverRelease dt s)).mem.dram = s.mem.dram ∧ (after s (execPairHandoverRelease dt s)).sec.lifecycle = s.sec.lifecycle ∧ (after s (execPairHandoverRelease dt s)).sec.otp = s.sec.otp := by
  unfold execPairHandoverRelease; (try dsimp only); (repeat' split) <;> simp

theorem execPairHandoverTake_keep (dt : Nat) (s : State) :
    (after s (execPairHandoverTake dt s)).pending = s.pending ∧ (after s (execPairHandoverTake dt s)).mem.dram = s.mem.dram ∧ (after s (execPairHandoverTake dt s)).sec.lifecycle = s.sec.lifecycle ∧ (after s (execPairHandoverTake dt s)).sec.otp = s.sec.otp := by
  unfold execPairHandoverTake; (try dsimp only); (repeat' split) <;> simp

theorem execPairSwitchConfirmExpiry_keep (dt : Nat) (s : State) :
    (after s (execPairSwitchConfirmExpiry dt s)).pending = s.pending ∧ (after s (execPairSwitchConfirmExpiry dt s)).mem.dram = s.mem.dram ∧ (after s (execPairSwitchConfirmExpiry dt s)).sec.lifecycle = s.sec.lifecycle ∧ (after s (execPairSwitchConfirmExpiry dt s)).sec.otp = s.sec.otp := by
  unfold execPairSwitchConfirmExpiry; (try dsimp only); (repeat' split) <;> simp

theorem execPairResetSend_keep (dt : Nat) (s : State) :
    (after s (execPairResetSend dt s)).pending = s.pending ∧ (after s (execPairResetSend dt s)).mem.dram = s.mem.dram ∧ (after s (execPairResetSend dt s)).sec.lifecycle = s.sec.lifecycle ∧ (after s (execPairResetSend dt s)).sec.otp = s.sec.otp := by
  unfold execPairResetSend; (try dsimp only); (repeat' split) <;> simp

theorem execMirrorWrite_keep (dt : Nat) (kind : SetKind) (first count mseq : Nat) (more : Bool) (items : Bytes) (s : State) :
    (after s (execMirrorWrite dt kind first count mseq more items s)).pending = s.pending ∧ (after s (execMirrorWrite dt kind first count mseq more items s)).mem.dram = s.mem.dram ∧ (after s (execMirrorWrite dt kind first count mseq more items s)).sec.lifecycle = s.sec.lifecycle ∧ (after s (execMirrorWrite dt kind first count mseq more items s)).sec.otp = s.sec.otp := by
  unfold execMirrorWrite; dsimp only
  have h (n : Nat) (f : State → State) (hf) := State.mirrorNext_keep (s.elapse dt) n f hf
  simp only [State.elapse_keep] at h
  repeat' split
  all_goals first
    | (simp; done)
    | (rw [after_next]; apply h; intros; (try dsimp only); (repeat' split) <;> simp)

theorem execMirrorSettle_keep (dt commitSeq : Nat) (group : Fin 16) (swap : Bool) (mseq _frameTime : Nat) (s : State) :
    (after s (execMirrorSettle dt commitSeq group swap mseq _frameTime s)).pending = s.pending ∧ (after s (execMirrorSettle dt commitSeq group swap mseq _frameTime s)).mem.dram = s.mem.dram ∧ (after s (execMirrorSettle dt commitSeq group swap mseq _frameTime s)).sec.lifecycle = s.sec.lifecycle ∧ (after s (execMirrorSettle dt commitSeq group swap mseq _frameTime s)).sec.otp = s.sec.otp := by
  unfold execMirrorSettle
  have h (n : Nat) (f : State → State) (hf) := State.mirrorNext_keep (s.elapse dt) n f hf
  simp only [State.elapse_keep] at h
  all_goals first
    | (simp; done)
    | (rw [after_next]; apply h; intros; (try dsimp only); (repeat' split) <;> simp)

theorem execMirrorSetting_keep (dt item index mseq : Nat) (payload : Bytes) (s : State) :
    (after s (execMirrorSetting dt item index mseq payload s)).pending = s.pending ∧ (after s (execMirrorSetting dt item index mseq payload s)).mem.dram = s.mem.dram ∧ (after s (execMirrorSetting dt item index mseq payload s)).sec.lifecycle = s.sec.lifecycle ∧ (after s (execMirrorSetting dt item index mseq payload s)).sec.otp = s.sec.otp := by
  unfold execMirrorSetting; dsimp only
  have h (n : Nat) (f : State → State) (hf) := State.mirrorNext_keep (s.elapse dt) n f hf
  simp only [State.elapse_keep] at h
  repeat' split
  all_goals first
    | (simp; done)
    | (rw [after_next]; apply h; intros; (try dsimp only); (repeat' split) <;> simp)

theorem execMirrorKeys_keep (dt : Nat) (g : Fin 8) (multi : Bool) (mseq : Nat) (field : BitVec 128) (s : State) :
    (after s (execMirrorKeys dt g multi mseq field s)).pending = s.pending ∧ (after s (execMirrorKeys dt g multi mseq field s)).mem.dram = s.mem.dram ∧ (after s (execMirrorKeys dt g multi mseq field s)).sec.lifecycle = s.sec.lifecycle ∧ (after s (execMirrorKeys dt g multi mseq field s)).sec.otp = s.sec.otp := by
  unfold execMirrorKeys; dsimp only
  have h (n : Nat) (f : State → State) (hf) := State.mirrorNext_keep (s.elapse dt) n f hf
  simp only [State.elapse_keep] at h
  repeat' split
  all_goals first
    | (simp; done)
    | (rw [after_next]; apply h; intros; (try dsimp only); (repeat' split) <;> simp)

theorem execMirrorLedger_keep (dt : Nat) (recs : List (BitVec 256)) (s : State) :
    (after s (execMirrorLedger dt recs s)).pending = s.pending ∧ (after s (execMirrorLedger dt recs s)).mem.dram = s.mem.dram ∧ (after s (execMirrorLedger dt recs s)).sec.lifecycle = s.sec.lifecycle ∧ (after s (execMirrorLedger dt recs s)).sec.otp = s.sec.otp := by
  unfold execMirrorLedger; (try dsimp only); (repeat' split) <;> simp

theorem execMirrorSyncReq_keep (dt _last : Nat) (s : State) :
    (after s (execMirrorSyncReq dt _last s)).pending = s.pending ∧ (after s (execMirrorSyncReq dt _last s)).mem.dram = s.mem.dram ∧ (after s (execMirrorSyncReq dt _last s)).sec.lifecycle = s.sec.lifecycle ∧ (after s (execMirrorSyncReq dt _last s)).sec.otp = s.sec.otp := by
  unfold execMirrorSyncReq; (try dsimp only); (repeat' split) <;> simp

theorem execMirrorSnapshot_keep (dt : Nat) (shadow : Bool) (kind : SetKind) (first count mseq : Nat) (items : Bytes) (s : State) :
    (after s (execMirrorSnapshot dt shadow kind first count mseq items s)).pending = s.pending ∧ (after s (execMirrorSnapshot dt shadow kind first count mseq items s)).mem.dram = s.mem.dram ∧ (after s (execMirrorSnapshot dt shadow kind first count mseq items s)).sec.lifecycle = s.sec.lifecycle ∧ (after s (execMirrorSnapshot dt shadow kind first count mseq items s)).sec.otp = s.sec.otp := by
  unfold execMirrorSnapshot; (try dsimp only); (repeat' split) <;> simp

theorem execMirrorSnapshotEnd_keep (dt mseq : Nat) (crc : Word) (s : State) :
    (after s (execMirrorSnapshotEnd dt mseq crc s)).pending = s.pending ∧ (after s (execMirrorSnapshotEnd dt mseq crc s)).mem.dram = s.mem.dram ∧ (after s (execMirrorSnapshotEnd dt mseq crc s)).sec.lifecycle = s.sec.lifecycle ∧ (after s (execMirrorSnapshotEnd dt mseq crc s)).sec.otp = s.sec.otp := by
  unfold execMirrorSnapshotEnd; (try dsimp only); (repeat' split) <;> simp

theorem execMemStatusGet_keep (dt : Nat) (p : Fin 4) (s : State) :
    (after s (execMemStatusGet dt p s)).pending = s.pending ∧ (after s (execMemStatusGet dt p s)).mem.dram = s.mem.dram ∧ (after s (execMemStatusGet dt p s)).sec.lifecycle = s.sec.lifecycle ∧ (after s (execMemStatusGet dt p s)).sec.otp = s.sec.otp := by
  unfold execMemStatusGet
  simp only [after_next]
  refine State.serve_keep _ _ _ _ _ ?_
  intro t r
  (try dsimp only)
  (repeat' split) <;> simp

theorem execMemPolicySet_keep (dt : Nat) (p : Fin 4) (s : State) :
    (after s (execMemPolicySet dt p s)).pending = s.pending ∧ (after s (execMemPolicySet dt p s)).mem.dram = s.mem.dram ∧ (after s (execMemPolicySet dt p s)).sec.lifecycle = s.sec.lifecycle ∧ (after s (execMemPolicySet dt p s)).sec.otp = s.sec.otp := by
  unfold execMemPolicySet
  simp only [after_next]
  refine State.serve_keep _ _ _ _ _ ?_
  intro t r
  (try dsimp only)
  (repeat' split) <;> simp

theorem execMemFixedDelaysSet_keep (dt : Nat) (p : Fin 4) (s : State) :
    (after s (execMemFixedDelaysSet dt p s)).pending = s.pending ∧ (after s (execMemFixedDelaysSet dt p s)).mem.dram = s.mem.dram ∧ (after s (execMemFixedDelaysSet dt p s)).sec.lifecycle = s.sec.lifecycle ∧ (after s (execMemFixedDelaysSet dt p s)).sec.otp = s.sec.otp := by
  unfold execMemFixedDelaysSet
  simp only [after_next]
  refine State.serveFlash_keep _ _ _ _ _ ?_
  intro t r
  (try dsimp only)
  (repeat' split) <;> simp

theorem execMemFreezeDumpGet_keep (dt : Nat) (p : Fin 4) (s : State) :
    (after s (execMemFreezeDumpGet dt p s)).pending = s.pending ∧ (after s (execMemFreezeDumpGet dt p s)).mem.dram = s.mem.dram ∧ (after s (execMemFreezeDumpGet dt p s)).sec.lifecycle = s.sec.lifecycle ∧ (after s (execMemFreezeDumpGet dt p s)).sec.otp = s.sec.otp := by
  unfold execMemFreezeDumpGet
  simp only [after_next]
  refine State.serve_keep _ _ _ _ _ ?_
  intro t r
  (try dsimp only)
  (repeat' split) <;> simp

theorem execRefreshDue_keep (dt : Nat) (c : Fin 8) (rank : Fin 2) (s : State) :
    (after s (execRefreshDue dt c rank s)).pending = s.pending ∧ (after s (execRefreshDue dt c rank s)).mem.dram = s.mem.dram ∧ (after s (execRefreshDue dt c rank s)).sec.lifecycle = s.sec.lifecycle ∧ (after s (execRefreshDue dt c rank s)).sec.otp = s.sec.otp := by
  unfold execRefreshDue; (try dsimp only); (repeat' split) <;> simp

theorem execMr4Readout_keep (dt : Nat) (c : Fin 8) (rank : Fin 2) (temp : Int) (s : State) :
    (after s (execMr4Readout dt c rank temp s)).pending = s.pending ∧ (after s (execMr4Readout dt c rank temp s)).mem.dram = s.mem.dram ∧ (after s (execMr4Readout dt c rank temp s)).sec.lifecycle = s.sec.lifecycle ∧ (after s (execMr4Readout dt c rank temp s)).sec.otp = s.sec.otp := by
  unfold execMr4Readout; (try dsimp only); (repeat' split) <;> simp

theorem execRetrainPause_keep (dt : Nat) (c : Fin 8) (s : State) :
    (after s (execRetrainPause dt c s)).pending = s.pending ∧ (after s (execRetrainPause dt c s)).mem.dram = s.mem.dram ∧ (after s (execRetrainPause dt c s)).sec.lifecycle = s.sec.lifecycle ∧ (after s (execRetrainPause dt c s)).sec.otp = s.sec.otp := by
  unfold execRetrainPause; (try dsimp only); (repeat' split) <;> simp

theorem execRequestPromotion_keep (dt : Nat) (c : Fin 8) (reqs : List MemReq) (s : State) :
    (after s (execRequestPromotion dt c reqs s)).pending = s.pending ∧ (after s (execRequestPromotion dt c reqs s)).mem.dram = s.mem.dram ∧ (after s (execRequestPromotion dt c reqs s)).sec.lifecycle = s.sec.lifecycle ∧ (after s (execRequestPromotion dt c reqs s)).sec.otp = s.sec.otp := by
  unfold execRequestPromotion; (try dsimp only); (repeat' split) <;> simp

theorem execMemFreeze_keep (dt : Nat) (c : Fin 8) (cause : FreezeCause) (req : FailedReq) (s : State) :
    (after s (execMemFreeze dt c cause req s)).pending = s.pending ∧ (after s (execMemFreeze dt c cause req s)).mem.dram = s.mem.dram ∧ (after s (execMemFreeze dt c cause req s)).sec.lifecycle = s.sec.lifecycle ∧ (after s (execMemFreeze dt c cause req s)).sec.otp = s.sec.otp := by
  unfold execMemFreeze; (try dsimp only); (repeat' split) <;> simp

theorem execMemParityReplay_keep (dt : Nat) (c : Fin 8) (alerts : Nat) (s : State) :
    (after s (execMemParityReplay dt c alerts s)).pending = s.pending ∧ (after s (execMemParityReplay dt c alerts s)).mem.dram = s.mem.dram ∧ (after s (execMemParityReplay dt c alerts s)).sec.lifecycle = s.sec.lifecycle ∧ (after s (execMemParityReplay dt c alerts s)).sec.otp = s.sec.otp := by
  unfold execMemParityReplay; (try dsimp only); (repeat' split) <;> simp

theorem execPatrolScrub_keep (dt : Nat) (c : Fin 8) (found : List ScrubFinding) (s : State) :
    (after s (execPatrolScrub dt c found s)).pending = s.pending ∧ (after s (execPatrolScrub dt c found s)).mem.dram = s.mem.dram ∧ (after s (execPatrolScrub dt c found s)).sec.lifecycle = s.sec.lifecycle ∧ (after s (execPatrolScrub dt c found s)).sec.otp = s.sec.otp := by
  unfold execPatrolScrub; (try dsimp only); (repeat' split) <;> simp (disch := (intros; (try dsimp only); (repeat' split) <;> simp))

theorem execCeHourCheck_keep (dt : Nat) (c : Fin 8) (s : State) :
    (after s (execCeHourCheck dt c s)).pending = s.pending ∧ (after s (execCeHourCheck dt c s)).mem.dram = s.mem.dram ∧ (after s (execCeHourCheck dt c s)).sec.lifecycle = s.sec.lifecycle ∧ (after s (execCeHourCheck dt c s)).sec.otp = s.sec.otp := by
  unfold execCeHourCheck; (try dsimp only); (repeat' split) <;> simp

theorem execSelfRefreshEntry_keep (dt : Nat) (s : State) :
    (after s (execSelfRefreshEntry dt s)).pending = s.pending ∧ (after s (execSelfRefreshEntry dt s)).mem.dram = s.mem.dram ∧ (after s (execSelfRefreshEntry dt s)).sec.lifecycle = s.sec.lifecycle ∧ (after s (execSelfRefreshEntry dt s)).sec.otp = s.sec.otp := by
  unfold execSelfRefreshEntry; (try dsimp only); (repeat' split) <;> simp

theorem execSelfRefreshExit_keep (dt : Nat) (s : State) :
    (after s (execSelfRefreshExit dt s)).pending = s.pending ∧ (after s (execSelfRefreshExit dt s)).mem.dram = s.mem.dram ∧ (after s (execSelfRefreshExit dt s)).sec.lifecycle = s.sec.lifecycle ∧ (after s (execSelfRefreshExit dt s)).sec.otp = s.sec.otp := by
  unfold execSelfRefreshExit; (try dsimp only); (repeat' split) <;> simp

theorem execSramScrub_keep (dt : Nat) (block : SramBlock) (uncorrectable : Option Nat) (s : State) :
    (after s (execSramScrub dt block uncorrectable s)).pending = s.pending ∧ (after s (execSramScrub dt block uncorrectable s)).mem.dram = s.mem.dram ∧ (after s (execSramScrub dt block uncorrectable s)).sec.lifecycle = s.sec.lifecycle ∧ (after s (execSramScrub dt block uncorrectable s)).sec.otp = s.sec.otp := by
  unfold execSramScrub; (try dsimp only); (repeat' split) <;> simp

theorem execPowerStatusGet_keep (dt : Nat) (p : Fin 4) (s : State) :
    (after s (execPowerStatusGet dt p s)).pending = s.pending ∧ (after s (execPowerStatusGet dt p s)).mem.dram = s.mem.dram ∧ (after s (execPowerStatusGet dt p s)).sec.lifecycle = s.sec.lifecycle ∧ (after s (execPowerStatusGet dt p s)).sec.otp = s.sec.otp := by
  unfold execPowerStatusGet
  simp only [after_next]
  refine State.serve_keep _ _ _ _ _ ?_
  intro t r
  (try dsimp only)
  (repeat' split) <;> simp

theorem execLoopEnvelopeSet_keep (dt : Nat) (p : Fin 4) (s : State) :
    (after s (execLoopEnvelopeSet dt p s)).pending = s.pending ∧ (after s (execLoopEnvelopeSet dt p s)).mem.dram = s.mem.dram ∧ (after s (execLoopEnvelopeSet dt p s)).sec.lifecycle = s.sec.lifecycle ∧ (after s (execLoopEnvelopeSet dt p s)).sec.otp = s.sec.otp := by
  unfold execLoopEnvelopeSet
  simp only [after_next]
  refine State.serve_keep _ _ _ _ _ ?_
  intro t r
  (try dsimp only)
  (repeat' split) <;> simp

theorem execWakeSourcesSet_keep (dt : Nat) (p : Fin 4) (s : State) :
    (after s (execWakeSourcesSet dt p s)).pending = s.pending ∧ (after s (execWakeSourcesSet dt p s)).mem.dram = s.mem.dram ∧ (after s (execWakeSourcesSet dt p s)).sec.lifecycle = s.sec.lifecycle ∧ (after s (execWakeSourcesSet dt p s)).sec.otp = s.sec.otp := by
  unfold execWakeSourcesSet
  simp only [after_next]
  refine State.serve_keep _ _ _ _ _ ?_
  intro t r
  (try dsimp only)
  (repeat' split) <;> simp

theorem execPowerStateSet_keep (dt : Nat) (p : Fin 4) (s : State) :
    (after s (execPowerStateSet dt p s)).pending = s.pending ∧ (after s (execPowerStateSet dt p s)).mem.dram = s.mem.dram ∧ (after s (execPowerStateSet dt p s)).sec.lifecycle = s.sec.lifecycle ∧ (after s (execPowerStateSet dt p s)).sec.otp = s.sec.otp := by
  unfold execPowerStateSet
  simp only [after_next]
  refine State.serve_keep _ _ _ _ _ ?_
  intro t r
  (try dsimp only)
  (repeat' split) <;> simp

theorem execVoltageLoopStep_keep (dt : Nat) (d : Fin 26) (slack : ReplicaReading) (s : State) :
    (after s (execVoltageLoopStep dt d slack s)).pending = s.pending ∧ (after s (execVoltageLoopStep dt d slack s)).mem.dram = s.mem.dram ∧ (after s (execVoltageLoopStep dt d slack s)).sec.lifecycle = s.sec.lifecycle ∧ (after s (execVoltageLoopStep dt d slack s)).sec.otp = s.sec.otp := by
  unfold execVoltageLoopStep; (try dsimp only); (repeat' split) <;> simp

theorem execThermalLoopStep_keep (dt : Nat) (d : Fin 26) (reading : Int) (s : State) :
    (after s (execThermalLoopStep dt d reading s)).pending = s.pending ∧ (after s (execThermalLoopStep dt d reading s)).mem.dram = s.mem.dram ∧ (after s (execThermalLoopStep dt d reading s)).sec.lifecycle = s.sec.lifecycle ∧ (after s (execThermalLoopStep dt d reading s)).sec.otp = s.sec.otp := by
  unfold execThermalLoopStep; (try dsimp only); (repeat' split) <;> simp

theorem execDomainPowerUp_keep (dt : Nat) (d : Fin 26) (test : SelfTest) (s : State) :
    (after s (execDomainPowerUp dt d test s)).pending = s.pending ∧ (after s (execDomainPowerUp dt d test s)).mem.dram = s.mem.dram ∧ (after s (execDomainPowerUp dt d test s)).sec.lifecycle = s.sec.lifecycle ∧ (after s (execDomainPowerUp dt d test s)).sec.otp = s.sec.otp := by
  unfold execDomainPowerUp; (try dsimp only); (repeat' split) <;> simp

theorem execDomainPowerDown_keep (dt : Nat) (d : Fin 26) (s : State) :
    (after s (execDomainPowerDown dt d s)).pending = s.pending ∧ (after s (execDomainPowerDown dt d s)).mem.dram = s.mem.dram ∧ (after s (execDomainPowerDown dt d s)).sec.lifecycle = s.sec.lifecycle ∧ (after s (execDomainPowerDown dt d s)).sec.otp = s.sec.otp := by
  unfold execDomainPowerDown; (try dsimp only); (repeat' split) <;> simp

theorem execPowerTransitionDone_keep (dt : Nat) (s : State) :
    (after s (execPowerTransitionDone dt s)).pending = s.pending ∧ (after s (execPowerTransitionDone dt s)).mem.dram = s.mem.dram ∧ (after s (execPowerTransitionDone dt s)).sec.lifecycle = s.sec.lifecycle ∧ (after s (execPowerTransitionDone dt s)).sec.otp = s.sec.otp := by
  unfold execPowerTransitionDone; (try dsimp only); (repeat' split) <;> simp

theorem execWakeEvent_keep (dt : Nat) (w : Fin 7) (s : State) :
    (after s (execWakeEvent dt w s)).pending = s.pending ∧ (after s (execWakeEvent dt w s)).mem.dram = s.mem.dram ∧ (after s (execWakeEvent dt w s)).sec.lifecycle = s.sec.lifecycle ∧ (after s (execWakeEvent dt w s)).sec.otp = s.sec.otp := by
  unfold execWakeEvent; (try dsimp only); (repeat' split) <;> simp

theorem execTamperHoldRelease_keep (dt : Nat) (s : State) :
    (after s (execTamperHoldRelease dt s)).pending = s.pending ∧ (after s (execTamperHoldRelease dt s)).mem.dram = s.mem.dram ∧ (after s (execTamperHoldRelease dt s)).sec.lifecycle = s.sec.lifecycle ∧ (after s (execTamperHoldRelease dt s)).sec.otp = s.sec.otp := by
  unfold execTamperHoldRelease; (try dsimp only); (repeat' split) <;> simp

theorem execThermalTripHoldRelease_keep (dt : Nat) (s : State) :
    (after s (execThermalTripHoldRelease dt s)).pending = s.pending ∧ (after s (execThermalTripHoldRelease dt s)).mem.dram = s.mem.dram ∧ (after s (execThermalTripHoldRelease dt s)).sec.lifecycle = s.sec.lifecycle ∧ (after s (execThermalTripHoldRelease dt s)).sec.otp = s.sec.otp := by
  unfold execThermalTripHoldRelease; (try dsimp only); (repeat' split) <;> simp

theorem execDomainReset_keep (dt : Nat) (d : Fin 26) (s : State) :
    (after s (execDomainReset dt d s)).pending = s.pending ∧ (after s (execDomainReset dt d s)).mem.dram = s.mem.dram ∧ (after s (execDomainReset dt d s)).sec.lifecycle = s.sec.lifecycle ∧ (after s (execDomainReset dt d s)).sec.otp = s.sec.otp := by
  unfold execDomainReset; (try dsimp only); (repeat' split) <;> simp

theorem execStartComplete_keep (dt : Nat) (s : State) :
    (after s (execStartComplete dt s)).pending = s.pending ∧ (after s (execStartComplete dt s)).mem.dram = s.mem.dram ∧ (after s (execStartComplete dt s)).sec.lifecycle = s.sec.lifecycle ∧ (after s (execStartComplete dt s)).sec.otp = s.sec.otp := by
  unfold execStartComplete; (try dsimp only); (repeat' split) <;> simp

theorem execPerstRise_keep (dt : Nat) (h : Fin 2) (s : State) :
    (after s (execPerstRise dt h s)).pending = s.pending ∧ (after s (execPerstRise dt h s)).mem.dram = s.mem.dram ∧ (after s (execPerstRise dt h s)).sec.lifecycle = s.sec.lifecycle ∧ (after s (execPerstRise dt h s)).sec.otp = s.sec.otp := by
  unfold execPerstRise; (try dsimp only); (repeat' split) <;> simp

theorem execRoomFrameStart_keep (dt : Nat) (s : State) :
    (after s (execRoomFrameStart dt s)).pending = s.pending ∧ (after s (execRoomFrameStart dt s)).mem.dram = s.mem.dram ∧ (after s (execRoomFrameStart dt s)).sec.lifecycle = s.sec.lifecycle ∧ (after s (execRoomFrameStart dt s)).sec.otp = s.sec.otp := by
  unfold execRoomFrameStart; (try dsimp only); (repeat' split) <;> simp

theorem execGenlockInEdge_keep (dt : Nat) (s : State) :
    (after s (execGenlockInEdge dt s)).pending = s.pending ∧ (after s (execGenlockInEdge dt s)).mem.dram = s.mem.dram ∧ (after s (execGenlockInEdge dt s)).sec.lifecycle = s.sec.lifecycle ∧ (after s (execGenlockInEdge dt s)).sec.otp = s.sec.otp := by
  unfold execGenlockInEdge; (try dsimp only); (repeat' split) <;> simp

end Sys2Proof.Machine
end

