-- ==== Sys2Proof/Laws/Memory.lean ====
section
/-!
SUPPORT. Laws of device memory: a read after a write gives the value written, a write leaves every other address alone,
and every memory operation keeps the canonical form.
-/
namespace Sys2Proof.Machine

/-! ## Read after write -/

theorem Memory.read_insert_same (m : List Host.Cell) (a : Nat) (v : BitVec 8) :
    Memory.read (Memory.insert m a v) a = v := by
  induction m with
  | nil => simp [Memory.insert, Memory.read]
  | cons c r ih =>
    obtain ⟨b, w⟩ := c
    simp only [Memory.insert]
    split
    · simp [Memory.read]
    · split
      · simp [Memory.read]
      · rename_i h1 h2
        have : ¬ b = a := fun h => h2 h.symm
        simp [Memory.read, this, ih]

theorem Memory.read_insert_other (m : List Host.Cell) (a k : Nat) (v : BitVec 8) (h : k ≠ a) :
    Memory.read (Memory.insert m a v) k = Memory.read m k := by
  induction m with
  | nil => simp [Memory.insert, Memory.read, Ne.symm h]
  | cons c r ih =>
    obtain ⟨b, w⟩ := c
    simp only [Memory.insert]
    split
    · simp [Memory.read, Ne.symm h]
    · split
      · rename_i h2
        subst h2
        simp [Memory.read, Ne.symm h]
      · simp only [Memory.read]
        split
        · rfl
        · exact ih

theorem Memory.read_erase_other (m : List Host.Cell) (a k : Nat) (h : k ≠ a) :
    Memory.read (Memory.erase m a) k = Memory.read m k := by
  induction m with
  | nil => rfl
  | cons c r ih =>
    obtain ⟨b, w⟩ := c
    simp only [Memory.erase]
    split
    · rename_i h2
      subst h2
      simp [Memory.read, Ne.symm h, ih]
    · simp only [Memory.read]
      split
      · rfl
      · exact ih

theorem Memory.read_erase_same (m : List Host.Cell) (a : Nat) : Memory.read (Memory.erase m a) a = 0 := by
  induction m with
  | nil => rfl
  | cons c r ih =>
    obtain ⟨b, w⟩ := c
    simp only [Memory.erase]
    split
    · exact ih
    · rename_i hab
      simp [Memory.read, Ne.symm hab, ih]

/-- A byte written is the byte read. -/
theorem Memory.read_write_same (m : List Host.Cell) (a : Nat) (v : BitVec 8) :
    Memory.read (Memory.write m a v) a = v := by
  unfold Memory.write
  split
  · rename_i hv
    subst hv
    exact Memory.read_erase_same m a
  · exact Memory.read_insert_same m a v

/-- Writing a byte leaves every other address as it was. -/
theorem Memory.read_write_other (m : List Host.Cell) (a k : Nat) (v : BitVec 8) (h : k ≠ a) :
    Memory.read (Memory.write m a v) k = Memory.read m k := by
  unfold Memory.write
  split
  · exact Memory.read_erase_other m a k h
  · exact Memory.read_insert_other m a k v h

/-! ## Canonical form -/

/-- Addresses of a list all lie above a bound. -/
def Memory.above (a : Nat) (m : List Host.Cell) : Prop := ∀ c ∈ m, a < c.1

theorem Memory.wf_cons (a : Nat) (v : BitVec 8) (m : List Host.Cell) :
    Memory.wf ((a, v) :: m) = true ↔ v ≠ 0 ∧ Memory.above a m ∧ Memory.wf m = true := by
  induction m generalizing a v with
  | nil => simp [Memory.wf, Memory.above]
  | cons c r ih =>
    obtain ⟨b, w⟩ := c
    constructor
    · intro h
      simp only [Memory.wf, Bool.and_eq_true, decide_eq_true_eq, bne_iff_ne, ne_eq] at h
      obtain ⟨⟨hab, hv⟩, hr⟩ := h
      refine ⟨hv, ?_, hr⟩
      have hb := ((ih b w).1 hr).2.1
      intro c hc
      rcases List.mem_cons.1 hc with rfl | hc
      · exact hab
      · exact Nat.lt_trans hab (hb c hc)
    · rintro ⟨hv, ha, hr⟩
      have hab : a < b := ha (b, w) (by simp)
      simpa [Memory.wf, hab, hr] using hv

theorem Memory.wf_tail {c : Host.Cell} {m : List Host.Cell} (h : Memory.wf (c :: m) = true) : Memory.wf m = true :=
  ((Memory.wf_cons c.1 c.2 m).1 h).2.2

theorem Memory.above_insert {b a : Nat} {v : BitVec 8} {m : List Host.Cell} (h : Memory.above b m) (hb : b < a) :
    Memory.above b (Memory.insert m a v) := by
  induction m with
  | nil => intro c hc; simp [Memory.insert] at hc; subst hc; exact hb
  | cons d r ih =>
    obtain ⟨e, w⟩ := d
    simp only [Memory.insert]
    intro c hc
    split at hc
    · rcases List.mem_cons.1 hc with rfl | hc
      · exact hb
      · exact h c hc
    · split at hc
      · rcases List.mem_cons.1 hc with rfl | hc
        · exact hb
        · exact h c (List.mem_cons_of_mem _ hc)
      · rcases List.mem_cons.1 hc with rfl | hc
        · exact h (e, w) (by simp)
        · exact ih (fun c hc => h c (List.mem_cons_of_mem _ hc)) c hc

theorem Memory.above_erase {b a : Nat} {m : List Host.Cell} (h : Memory.above b m) :
    Memory.above b (Memory.erase m a) := by
  induction m with
  | nil => exact h
  | cons d r ih =>
    obtain ⟨e, w⟩ := d
    simp only [Memory.erase]
    intro c hc
    split at hc
    · exact ih (fun c hc => h c (List.mem_cons_of_mem _ hc)) c hc
    · rcases List.mem_cons.1 hc with rfl | hc
      · exact h (e, w) (by simp)
      · exact ih (fun c hc => h c (List.mem_cons_of_mem _ hc)) c hc

theorem Memory.wf_insert (m : List Host.Cell) (a : Nat) (v : BitVec 8) (hv : v ≠ 0) (h : Memory.wf m = true) :
    Memory.wf (Memory.insert m a v) = true := by
  induction m with
  | nil => simpa [Memory.insert, Memory.wf] using hv
  | cons d r ih =>
    obtain ⟨b, w⟩ := d
    have hc := (Memory.wf_cons b w r).1 h
    simp only [Memory.insert]
    split
    · rename_i hab
      refine (Memory.wf_cons _ _ _).2 ⟨hv, ?_, h⟩
      intro c hm
      rcases List.mem_cons.1 hm with rfl | hm
      · exact hab
      · exact Nat.lt_trans hab (hc.2.1 c hm)
    · split
      · rename_i hab
        subst hab
        exact (Memory.wf_cons _ _ _).2 ⟨hv, hc.2.1, hc.2.2⟩
      · rename_i h1 h2
        refine (Memory.wf_cons _ _ _).2 ⟨hc.1, Memory.above_insert hc.2.1 (by omega), ih hc.2.2⟩

theorem Memory.wf_erase (m : List Host.Cell) (a : Nat) (h : Memory.wf m = true) :
    Memory.wf (Memory.erase m a) = true := by
  induction m with
  | nil => exact h
  | cons d r ih =>
    obtain ⟨b, w⟩ := d
    have hc := (Memory.wf_cons b w r).1 h
    simp only [Memory.erase]
    split
    · exact ih hc.2.2
    · exact (Memory.wf_cons _ _ _).2 ⟨hc.1, Memory.above_erase hc.2.1, ih hc.2.2⟩

/-- Writing a byte keeps the form. -/
theorem Memory.wf_write (m : List Host.Cell) (a : Nat) (v : BitVec 8) (h : Memory.wf m = true) :
    Memory.wf (Memory.write m a v) = true := by
  unfold Memory.write
  split
  · exact Memory.wf_erase m a h
  · rename_i hv
    exact Memory.wf_insert m a v hv h

/-- Writing bytes keeps the form. -/
theorem Memory.wf_writeAll (m : List Host.Cell) (l : List Nat) (d : Nat) (h : Memory.wf m = true) :
    Memory.wf (Memory.writeAll m l d) = true := by
  induction l generalizing m d with
  | nil => exact h
  | cons a r ih => exact ih _ _ (Memory.wf_write m a _ h)

/-- Writing bytes at given offsets keeps the form. -/
theorem Memory.wf_writeAt (m : List Host.Cell) (a : Nat) (l : List (Nat × Nat)) (h : Memory.wf m = true) :
    Memory.wf (Memory.writeAt m a l) = true := by
  unfold Memory.writeAt
  induction l generalizing m with
  | nil => exact h
  | cons e r ih => exact ih _ (Memory.wf_write m _ _ h)

/-- Zeroing lines keeps the form. -/
theorem Memory.wf_zeroLines (l : List Nat) (m : List Host.Cell) (h : Memory.wf m = true) :
    Memory.wf (l.foldl Memory.zeroLine m) = true := by
  induction l generalizing m with
  | nil => exact h
  | cons a r ih =>
    rw [List.foldl_cons]
    apply ih
    unfold Memory.zeroLine
    exact Memory.wf_writeAll m _ 0 h

end Sys2Proof.Machine
end

