-- ==== Sys2Proof/Laws/Table.lean ====
section
/-!
SUPPORT. Laws of sparse tables: reading back what was written, every other key left alone, and the canonical form kept
by every write.
-/
namespace Sys2Proof

theorem Tbl.find_put_same {α : Type} (t : Tbl α) (k : Nat) (v : α) : Tbl.find (Tbl.put t k v) k = some v := by
  induction t with
  | nil => simp [Tbl.put, Tbl.find]
  | cons e r ih =>
    obtain ⟨k', v'⟩ := e
    simp only [Tbl.put]
    split
    · simp [Tbl.find]
    · split
      · simp [Tbl.find]
      · rename_i h1 h2
        simp [Tbl.find, Ne.symm h2, ih]

/-- Listing a key leaves what another key reads as. -/
theorem Tbl.find_put_other {α : Type} (t : Tbl α) (k j : Nat) (v : α) (h : j ≠ k) :
    Tbl.find (Tbl.put t k v) j = Tbl.find t j := by
  induction t with
  | nil => simp [Tbl.put, Tbl.find, Ne.symm h]
  | cons e r ih =>
    obtain ⟨k', v'⟩ := e
    simp only [Tbl.put]
    split
    · simp [Tbl.find, Ne.symm h]
    · split
      · rename_i h2
        subst h2
        simp [Tbl.find, Ne.symm h]
      · simp only [Tbl.find]
        split
        · rfl
        · exact ih

theorem Tbl.find_del_same {α : Type} (t : Tbl α) (k : Nat) : Tbl.find (Tbl.del t k) k = none := by
  induction t with
  | nil => rfl
  | cons e r ih =>
    obtain ⟨k', v'⟩ := e
    simp only [Tbl.del]
    split
    · exact ih
    · rename_i h
      simp [Tbl.find, h, ih]

theorem Tbl.find_del_other {α : Type} (t : Tbl α) (k j : Nat) (h : j ≠ k) :
    Tbl.find (Tbl.del t k) j = Tbl.find t j := by
  induction t with
  | nil => rfl
  | cons e r ih =>
    obtain ⟨k', v'⟩ := e
    simp only [Tbl.del]
    split
    · rename_i h2
      subst h2
      simp [Tbl.find, Ne.symm h, ih]
    · simp only [Tbl.find]
      split
      · rfl
      · exact ih

/-- A key reads as the value written to it. -/
@[simp] theorem Tbl.get_set_same {α : Type} [DecidableEq α] (t : Tbl α) (d : α) (k : Nat) (v : α) :
    Tbl.get (Tbl.set t d k v) d k = v := by
  unfold Tbl.get Tbl.set
  split
  · rename_i h
    simp [Tbl.find_del_same, h]
  · simp [Tbl.find_put_same]

/-- A write leaves what every other key reads as. -/
theorem Tbl.get_set_other {α : Type} [DecidableEq α] (t : Tbl α) (d e : α) (k j : Nat) (v : α) (h : j ≠ k) :
    Tbl.get (Tbl.set t d k v) e j = Tbl.get t e j := by
  unfold Tbl.get Tbl.set
  split
  · rw [Tbl.find_del_other t k j h]
  · rw [Tbl.find_put_other t k j v h]

/-! ## Canonical form -/

theorem Tbl.canon_cons {α : Type} [DecidableEq α] (d : α) (k : Nat) (v : α) (t : Tbl α) :
    Tbl.canon d ((k, v) :: t) = true ↔ v ≠ d ∧ (∀ e ∈ t, k < e.1) ∧ Tbl.canon d t = true := by
  induction t generalizing k v with
  | nil => simp [Tbl.canon]
  | cons e r ih =>
    obtain ⟨k', v'⟩ := e
    constructor
    · intro h
      simp only [Tbl.canon, Bool.and_eq_true, decide_eq_true_eq] at h
      obtain ⟨⟨hk, hv⟩, hr⟩ := h
      refine ⟨hv, ?_, hr⟩
      have hb := ((ih k' v').1 hr).2.1
      intro x hx
      rcases List.mem_cons.1 hx with rfl | hx
      · exact hk
      · exact Nat.lt_trans hk (hb x hx)
    · rintro ⟨hv, ha, hr⟩
      have hk : k < k' := ha (k', v') (by simp)
      simp [Tbl.canon, hk, hv, hr]

theorem Tbl.mem_put {α : Type} {t : Tbl α} {k : Nat} {v : α} {e : Nat × α} (h : e ∈ Tbl.put t k v) :
    e = (k, v) ∨ e ∈ t := by
  induction t with
  | nil => exact Or.inl (by simpa [Tbl.put] using h)
  | cons x r ih =>
    obtain ⟨k', v'⟩ := x
    simp only [Tbl.put] at h
    split at h
    · rcases List.mem_cons.1 h with h | h
      · exact Or.inl h
      · exact Or.inr h
    · split at h
      · rcases List.mem_cons.1 h with h | h
        · exact Or.inl h
        · exact Or.inr (List.mem_cons_of_mem _ h)
      · rcases List.mem_cons.1 h with h | h
        · exact Or.inr (h ▸ by simp)
        · rcases ih h with h | h
          · exact Or.inl h
          · exact Or.inr (List.mem_cons_of_mem _ h)

theorem Tbl.mem_del {α : Type} {t : Tbl α} {k : Nat} {e : Nat × α} (h : e ∈ Tbl.del t k) : e ∈ t := by
  induction t with
  | nil => exact h
  | cons x r ih =>
    obtain ⟨k', v'⟩ := x
    simp only [Tbl.del] at h
    split at h
    · exact List.mem_cons_of_mem _ (ih h)
    · rcases List.mem_cons.1 h with h | h
      · exact h ▸ by simp
      · exact List.mem_cons_of_mem _ (ih h)

theorem Tbl.canon_put {α : Type} [DecidableEq α] (d : α) (t : Tbl α) (k : Nat) (v : α) (hv : v ≠ d)
    (h : Tbl.canon d t = true) : Tbl.canon d (Tbl.put t k v) = true := by
  induction t with
  | nil => simp [Tbl.put, Tbl.canon, hv]
  | cons x r ih =>
    obtain ⟨k', v'⟩ := x
    have hc := (Tbl.canon_cons d k' v' r).1 h
    simp only [Tbl.put]
    split
    · rename_i hk
      refine (Tbl.canon_cons _ _ _ _).2 ⟨hv, ?_, h⟩
      intro e he
      rcases List.mem_cons.1 he with rfl | he
      · exact hk
      · exact Nat.lt_trans hk (hc.2.1 e he)
    · split
      · rename_i hk
        subst hk
        exact (Tbl.canon_cons _ _ _ _).2 ⟨hv, hc.2.1, hc.2.2⟩
      · rename_i h1 h2
        refine (Tbl.canon_cons _ _ _ _).2 ⟨hc.1, ?_, ih hc.2.2⟩
        intro e he
        rcases Tbl.mem_put he with rfl | he
        · dsimp only
          omega
        · exact hc.2.1 e he

theorem Tbl.canon_del {α : Type} [DecidableEq α] (d : α) (t : Tbl α) (k : Nat) (h : Tbl.canon d t = true) :
    Tbl.canon d (Tbl.del t k) = true := by
  induction t with
  | nil => exact h
  | cons x r ih =>
    obtain ⟨k', v'⟩ := x
    have hc := (Tbl.canon_cons d k' v' r).1 h
    simp only [Tbl.del]
    split
    · exact ih hc.2.2
    · exact (Tbl.canon_cons _ _ _ _).2 ⟨hc.1, fun e he => hc.2.1 e (Tbl.mem_del he), ih hc.2.2⟩

/-- A write keeps the canonical form. -/
theorem Tbl.canon_set {α : Type} [DecidableEq α] (d : α) (t : Tbl α) (k : Nat) (v : α) (h : Tbl.canon d t = true) :
    Tbl.canon d (Tbl.set t d k v) = true := by
  unfold Tbl.set
  split
  · exact Tbl.canon_del d t k h
  · rename_i hv
    exact Tbl.canon_put d t k v hv h

end Sys2Proof
end

