-- ==== Sys2Proof/Laws/Advance.lean ====
section
/-!
SUPPORT. The relation that every command keeps between the state before and the state after: the queue is left alone,
device memory keeps its form, the lifecycle never goes back, and an image-key hash in OTP never changes. The commands
that leave all four alone are in Laws/KeepExec.lean; here stand the others.
-/
namespace Sys2Proof.Machine

/-- What a command may do to the queue, the memory's form, the lifecycle and the image-key hashes. -/
structure Advances (s t : State) : Prop where
  pending : t.pending = s.pending
  memory : Memory.wf s.mem.dram = true → Memory.wf t.mem.dram = true
  life : lifeCode s.sec.lifecycle ≤ lifeCode t.sec.lifecycle
  otp : ∀ k < 2, ∀ v, Tbl.find s.sec.otp k = some v → Tbl.find t.sec.otp k = some v

theorem Advances.refl (s : State) : Advances s s := ⟨rfl, id, Nat.le_refl _, fun _ _ _ h => h⟩

theorem Advances.trans {s t u : State} (h1 : Advances s t) (h2 : Advances t u) : Advances s u :=
  ⟨h2.pending.trans h1.pending, h2.memory ∘ h1.memory, Nat.le_trans h1.life h2.life,
    fun k hk v h => h2.otp k hk v (h1.otp k hk v h)⟩

/-- An operation that changes none of the four. -/
theorem Advances.of_keep {s t : State}
    (h : t.pending = s.pending ∧ t.mem.dram = s.mem.dram ∧ t.sec.lifecycle = s.sec.lifecycle ∧
      t.sec.otp = s.sec.otp) : Advances s t := by
  obtain ⟨h1, h2, h3, h4⟩ := h
  exact ⟨h1, by rw [h2]; exact id, Nat.le_of_eq (by rw [h3]), by rw [h4]; exact fun _ _ _ h => h⟩

theorem Advances.each {α : Type} (l : List α) (s : State) (f : State → α → State) (h : ∀ s a, Advances s (f s a)) :
    Advances s (each l s f) := by
  induction l generalizing s with
  | nil => exact Advances.refl s
  | cons a l ih => exact (h s a).trans (ih (f s a))

/-- A last step that may be left out. -/
theorem Advances.perhaps {s t u : State} {c : Prop} {_ : Decidable c} (h : Advances t u) (g : Advances s t) :
    Advances s (if c then u else t) := by
  split
  · exact g.trans h
  · exact g

/-! ## Device memory -/

theorem State.zeroLines_advances (s : State) (l : List Nat) : Advances s (s.zeroLines l) :=
  ⟨rfl, Memory.wf_zeroLines l _, Nat.le_refl _, fun _ _ _ h => h⟩

theorem State.dramKept_advances (s : State) (kept : Bool) : Advances s (s.dramKept kept) := by
  refine ⟨rfl, ?_, Nat.le_refl _, fun _ _ _ h => h⟩
  cases kept
  · exact fun _ => rfl
  · exact id

theorem State.writeLine_advances (s : State) (acc : MemAccess) (line : Nat) : Advances s (s.writeLine acc line) :=
  ⟨rfl, fun h => Memory.wf_writeAll _ _ _ h, Nat.le_refl _, fun _ _ _ h => h⟩

theorem State.hostWriteLine_advances (s : State) (g : Nat) (acc : MemAccess) (line : Nat) :
    Advances s (s.hostWriteLine g acc line) := by
  unfold State.hostWriteLine
  repeat' split
  all_goals first
    | exact (Advances.of_keep (State.dramRequest_keep _)).trans (State.writeLine_advances _ acc line)
    | exact Advances.refl s
    | (refine Advances.of_keep ?_; simp; done)

theorem State.hostReadLine_advances (g : Nat) (acc : MemAccess) (x : State × Nat × Bool) (line : Nat) :
    Advances x.1 (State.hostReadLine g acc x line).1 := by
  unfold State.hostReadLine
  dsimp only
  (repeat' split) <;> exact Advances.of_keep (by simp)

theorem State.hostReadLines_advances (g : Nat) (acc : MemAccess) (l : List Nat) (x : State × Nat × Bool) :
    Advances x.1 (l.foldl (State.hostReadLine g acc) x).1 := by
  induction l generalizing x with
  | nil => exact Advances.refl _
  | cons a l ih => exact (State.hostReadLine_advances g acc x a).trans (ih _)

theorem execHostMemoryAccess_advances (dt : Nat) (h : Fin 2) (acc : MemAccess) (s : State) :
    Advances s (after s (execHostMemoryAccess dt h acc s)) := by
  have e : Advances s (s.elapse dt) := Advances.of_keep (by simp)
  unfold execHostMemoryAccess
  dsimp only
  split
  · exact e
  split
  · exact e.trans (Advances.each _ _ _ (fun s l => State.hostWriteLine_advances s h acc l))
  · exact e.trans ((State.hostReadLines_advances h acc (linesOf acc.addr acc.len) (s.elapse dt, 0, false)).trans (Advances.of_keep (by simp)))

theorem execDebugMemoryAccess_advances (dt : Nat) (target : DebugTarget) (acc : MemAccess) (s : State) :
    Advances s (after s (execDebugMemoryAccess dt target acc s)) := by
  have e : Advances s (s.elapse dt) := Advances.of_keep (by simp)
  unfold execDebugMemoryAccess
  dsimp only
  split
  · exact e
  split
  · exact e.trans (Advances.of_keep (by simp))
  split
  · split
    · exact e.trans (Advances.of_keep (by simp))
    split
    · exact e.trans ((Advances.of_keep (State.dramRequest_keep _)).trans
        ((Advances.each (linesOf acc.addr acc.len) _ (fun s l => s.writeLine acc l)
          (fun s l => State.writeLine_advances s acc l)).trans (Advances.of_keep (State.send_keep _ _))))
    · exact e.trans (Advances.of_keep (by simp))
  · split <;> exact e.trans (Advances.of_keep (by simp))

theorem execMemResume_advances (dt : Nat) (c : Fin 8) (testOk : Bool) (lines : List Nat) (s : State) :
    Advances s (after s (execMemResume dt c testOk lines s)) := by
  have e : Advances s (s.elapse dt) := Advances.of_keep (by simp)
  unfold execMemResume
  dsimp only
  split
  · exact e
  split
  · exact e.trans (Advances.of_keep (by simp))
  · rw [after_next]
    refine e.trans (Advances.trans ?_ (Advances.of_keep (State.log_keep _ _ _)))
    refine Advances.trans ?_ (Advances.of_keep (State.cleared_keep _ _ _))
    refine Advances.trans ?_ (State.zeroLines_advances _ _)
    exact Advances.of_keep (State.setChan_keep _ _ _)

theorem State.dramLost_advances (s : State) (c : Nat) : Advances s (s.dramLost c) := by
  unfold State.dramLost
  refine ⟨?_, fun _ => rfl, ?_, ?_⟩
  · simp
  · simp
  · simp

theorem execMemRemap_advances (dt : Nat) (c : Fin 8) (s : State) : Advances s (after s (execMemRemap dt c s)) := by
  have e : Advances s (s.elapse dt) := Advances.of_keep (by simp)
  unfold execMemRemap
  dsimp only
  split
  · exact e
  · rw [after_next]
    refine e.trans (Advances.trans ?_ (Advances.of_keep (State.log_keep _ _ _)))
    refine Advances.trans ?_ (Advances.of_keep (State.postAll_keep _ _ _))
    refine Advances.trans ?_ (Advances.of_keep (State.remapMpu_keep _))
    refine Advances.trans ?_ (Advances.of_keep (State.vaultsMoved_keep _ _))
    refine Advances.trans ?_ (State.dramLost_advances _ _)
    exact Advances.of_keep (by simp)

theorem State.trainChannel_keep (s : State) (res : TrainingResult) (size c : Nat) :
    (s.trainChannel res size c).pending = s.pending ∧ (s.trainChannel res size c).mem.dram = s.mem.dram ∧
      (s.trainChannel res size c).sec.lifecycle = s.sec.lifecycle ∧
      (s.trainChannel res size c).sec.otp = s.sec.otp := by
  unfold State.trainChannel
  dsimp only
  (repeat' split) <;> simp

theorem execMemTrainingDone_advances (dt : Nat) (res : TrainingResult) (s : State) :
    Advances s (after s (execMemTrainingDone dt res s)) := by
  have e : Advances s (s.elapse dt) := Advances.of_keep (by simp)
  unfold execMemTrainingDone
  dsimp only
  split
  · exact e
  · rw [after_next]
    refine e.trans ?_
    have trained (t : State) (l : List Nat) (size : Nat) :
        Advances t (each l t (fun s c => s.trainChannel res size c)) :=
      Advances.each _ _ _ (fun s c => Advances.of_keep (State.trainChannel_keep s _ _ c))
    have mapped (t : State) {c : Prop} {_ : Decidable c} (kept : Bool) (k old : Nat) :
        Advances t (if c then t.dramKept kept else (((t.dramKept false).dramLost k).vaultsMoved old).remapMpu) := by
      split
      · exact State.dramKept_advances _ _
      · exact (State.dramKept_advances _ _).trans ((State.dramLost_advances _ _).trans
          ((Advances.of_keep (State.vaultsMoved_keep _ _)).trans (Advances.of_keep (State.remapMpu_keep _))))
    refine Advances.perhaps (Advances.of_keep (State.startMpu_keep _)) ?_
    refine Advances.trans ?_ (Advances.of_keep (State.log_keep _ _ _))
    refine Advances.trans ?_ (mapped _ _ _ _)
    exact (Advances.of_keep (State.reach_keep _ _)).trans (trained _ _ _)

/-! ## Tiles and pictures stored in device memory -/

theorem State.storeTile_advances (s : State) (o t : Nat) (r : TileRec) : Advances s (s.storeTile o t r) := by
  unfold State.storeTile
  dsimp only
  split
  · exact Advances.refl s
  · exact ⟨by simp, fun h => Memory.wf_writeAt _ _ _ h, by simp, by simp⟩

theorem State.stage_advances (s : State) (c : Commit) (frames : List Frame) (o : Nat) (tiles : List Nat) :
    Advances s (s.stage c frames o tiles) := by
  unfold State.stage
  refine Advances.each _ _ _ (fun s t => ?_)
  refine Advances.trans ?_ (State.storeTile_advances _ _ _ _)
  exact Advances.of_keep (by simp)

theorem State.stageRest_advances (s : State) : Advances s s.stageRest := by
  unfold State.stageRest
  split
  · exact Advances.each _ _ _ (fun s o => State.stage_advances _ _ _ _ _)
  · exact Advances.refl s

theorem State.restageLayers_advances (s : State) (ls : List Nat) : Advances s (s.restageLayers ls) := by
  unfold State.restageLayers
  dsimp only
  split
  · split
    · exact Advances.refl s
    · exact s.stageRest_advances.trans ((Advances.each ls _ _ (fun s l => Advances.of_keep (State.setOutComp_keep _ _ _))).trans
        (Advances.of_keep ⟨rfl, rfl, rfl, rfl⟩))
  · exact Advances.refl s

theorem State.fenceSignalled_advances (s : State) (waited : List Nat) : Advances s (s.fenceSignalled waited) := by
  unfold State.fenceSignalled
  refine Advances.trans ?_ (Advances.of_keep (State.markLayers_keep _ _))
  exact (State.restageLayers_advances s _).trans (Advances.of_keep ⟨rfl, rfl, rfl, rfl⟩)

theorem State.restageRound_advances (s : State) (o : Nat) (r : Round) : Advances s (s.restageRound o r) := by
  unfold State.restageRound
  dsimp only
  split
  · split
    · exact Advances.refl s
    split
    · exact Advances.of_keep (State.setOutComp_keep _ _ _)
    · exact State.stage_advances _ _ _ _ _
  · exact Advances.refl s

theorem State.composeRound_advances (s : State) (o : Nat) (r : Round) : Advances s (s.composeRound o r) := by
  unfold State.composeRound
  refine Advances.trans ?_ (State.restageRound_advances _ _ _)
  refine Advances.trans ?_ (Advances.of_keep (State.mark_keep _ _ _))
  refine Advances.trans ?_ (Advances.of_keep (State.setOutComp_keep _ _ _))
  exact Advances.each _ _ _ (fun s e => (Advances.of_keep (State.noteSeq_keep _ _ _ _ _)).trans (State.storeTile_advances _ _ _ _))

theorem State.storePicture_advances (s : State) (i picture : Nat) (p : Sps) :
    Advances s (s.storePicture i picture p) := by
  refine ⟨by simp [State.storePicture], ?_, by simp [State.storePicture], by simp [State.storePicture]⟩
  intro h
  unfold State.storePicture
  dsimp only
  repeat' split
  all_goals first | exact h | exact Memory.wf_writeAt _ _ _ h

theorem State.keepPicture_advances (s : State) (i : Nat) (u : AuInfo) (a : AuUnit) (p : Sps) (h265 : Bool) :
    Advances s (s.keepPicture i u a p h265) := by
  unfold State.keepPicture
  refine Advances.trans ?_ (Advances.of_keep (State.bumpOutput_keep _ _))
  refine Advances.trans ?_ (State.storePicture_advances _ _ _ _)
  refine Advances.trans ?_ (Advances.of_keep (State.setDec_keep _ _ _))
  split
  · exact Advances.of_keep (State.flushOutput_keep _ _)
  · exact Advances.refl s

theorem State.decodePicture_advances (s : State) (i : Nat) (u : AuInfo) (a : AuUnit) :
    Advances s (s.decodePicture i u a) := by
  unfold State.decodePicture
  dsimp only
  repeat' split
  all_goals first
    | (refine Advances.of_keep ?_; simp; done)
    | (refine Advances.trans ?_ (State.keepPicture_advances _ _ _ _ _ _); exact Advances.of_keep (by simp))

/-! ## Messages that write device memory -/

theorem State.serve_advances (s : State) (dt : Nat) (p : Fin 4) (op : Nat) (f : State → Request → State)
    (h : ∀ t r, Advances t (f t r)) : Advances s (s.serve dt p op f) := by
  have e : Advances s (s.elapse dt) := Advances.of_keep (by simp)
  unfold State.serve
  dsimp only
  repeat' split
  · exact e.trans ((Advances.of_keep (by simp)).trans (h _ _))
  · exact e
  · exact e

theorem State.writePayload_advances (s : State) (p : Nat) (r : Response) : Advances s (s.writePayload p r).1 := by
  unfold State.writePayload
  split
  · exact Advances.each _ _ _ (fun s l => State.hostWriteLine_advances _ _ _ _)
  · exact Advances.refl s

theorem execResponsePosted_advances (dt : Nat) (p : Fin 4) (s : State) :
    Advances s (after s (execResponsePosted dt p s)) := by
  have e : Advances s (s.elapse dt) := Advances.of_keep (by simp)
  unfold execResponsePosted
  dsimp only
  split
  · split
    · exact e
    · rw [after_next]
      refine e.trans (Advances.trans ?_ (Advances.of_keep (State.fillSlot_keep _ _ _)))
      exact (Advances.of_keep (State.setPort_keep _ _ _)).trans (State.writePayload_advances _ _ _)
  · exact e

theorem execStagingComplete_advances (dt : Nat) (s : State) :
    Advances s (after s (execStagingComplete dt s)) := by
  have e : Advances s (s.elapse dt) := Advances.of_keep (by simp)
  unfold execStagingComplete
  dsimp only
  split
  · split
    · exact e.trans ((State.stageRest_advances _).trans (Advances.of_keep ⟨rfl, rfl, rfl, rfl⟩))
    · exact e
  · exact e

theorem execSurfacePublish_advances (dt : Nat) (p : Fin 4) (s : State) :
    Advances s (after s (execSurfacePublish dt p s)) := by
  unfold execSurfacePublish
  rw [after_next]
  refine State.serve_advances _ _ _ _ _ (fun t r => ?_)
  dsimp only
  repeat' split
  all_goals first
    | (refine Advances.of_keep ?_; simp; done)
    | (refine Advances.trans ?_ (Advances.of_keep (State.status_keep _ _ _ _))
       refine Advances.trans ?_ (State.fenceSignalled_advances _ _)
       exact Advances.of_keep (by simp))

theorem execDecodePictureDone_advances (dt : Nat) (src : Fin 256) (s : State) :
    Advances s (after s (execDecodePictureDone dt src s)) := by
  have e : Advances s ((s.elapse dt).rateWindow src) := Advances.of_keep (by simp)
  unfold execDecodePictureDone
  dsimp only
  repeat' split
  all_goals rw [after_next]
  · refine e.trans (Advances.trans ?_ (Advances.of_keep (State.runAhead_keep _ _)))
    exact (Advances.of_keep (State.setDec_keep _ _ _)).trans (State.decodePicture_advances _ _ _ _)
  · exact e.trans (Advances.of_keep (by simp))
  · exact e.trans (Advances.of_keep (by simp))
  · exact e

theorem execRoundComplete_advances (dt : Nat) (out : Fin 32) (s : State) :
    Advances s (after s (execRoundComplete dt out s)) := by
  have e : Advances s (s.elapse dt) := Advances.of_keep (by simp)
  unfold execRoundComplete
  dsimp only
  repeat' split
  all_goals rw [after_next]
  · exact e
  · exact e.trans (State.composeRound_advances _ _ _)
  · exact e

/-! ## OTP and the lifecycle -/

theorem execOtpProgram_advances (dt : Nat) (field : OtpField) (value : Nat) (s : State) :
    Advances s (after s (execOtpProgram dt field value s)) := by
  have e : Advances s (s.elapse dt) := Advances.of_keep (by simp)
  unfold execOtpProgram
  dsimp only
  split
  · split
    · exact e.trans (Advances.of_keep (by simp))
    · rename_i h
      refine e.trans ⟨rfl, id, Nat.le_refl _, ?_⟩
      intro k _ v hv
      rw [after_next]
      dsimp only
      rw [Tbl.find_put_other]
      · exact hv
      · intro hk
        rw [← hk] at h
        unfold Tbl.has at h
        rw [hv] at h
        exact h rfl
  · exact e

theorem State.destroyKeys_advances (s : State) (p : Nat) : Advances s (s.destroyKeys p) := by
  unfold State.destroyKeys
  refine ⟨by simp, by simp, by simp, ?_⟩
  intro k hk v hv
  simp only [State.log_keep]
  rw [Tbl.find_put_other _ _ _ _ (by omega), Tbl.find_put_other _ _ _ _ (by omega)]
  exact hv

theorem State.destroyKeys_life (s : State) (p : Nat) : (s.destroyKeys p).sec.lifecycle = s.sec.lifecycle := by
  simp [State.destroyKeys]

/-- Entering a later lifecycle state. -/
theorem State.setLife_advances (s : State) (t : Lifecycle) (h : lifeCode s.sec.lifecycle ≤ lifeCode t) :
    Advances s (s.setLife t) :=
  ⟨rfl, id, h, fun _ _ _ h => h⟩

theorem lifeCode_le_three (l : Lifecycle) : lifeCode l ≤ 3 := by cases l <;> decide

theorem State.advanceLifecycle_advances (s : State) (p : Nat) (t : Lifecycle) :
    Advances s (s.advanceLifecycle p t) := by
  unfold State.advanceLifecycle
  split
  · exact Advances.refl s
  split
  · refine Advances.trans ?_ (Advances.of_keep (State.log_keep _ _ _))
    refine Advances.trans ?_ (Advances.of_keep (State.askWarm_keep _ _))
    refine Advances.trans ?_ (State.setLife_advances _ _ (lifeCode_le_three _))
    refine Advances.trans ?_ (Advances.of_keep (State.closeDebug_keep _ _))
    exact State.destroyKeys_advances s p
  · exact Advances.of_keep (by simp)

theorem State.flashDone_advances (s : State) (j : FlashJob) : Advances s (s.flashDone j) := by
  unfold State.flashDone
  dsimp only
  repeat' split
  all_goals first
    | (refine Advances.of_keep ?_; simp; done)
    | exact (State.advanceLifecycle_advances s _ _).trans (Advances.of_keep (State.status_keep _ _ _ _))

theorem execFlashWriteComplete_advances (dt : Nat) (ok : Bool) (s : State) :
    Advances s (after s (execFlashWriteComplete dt ok s)) := by
  have e : Advances s (s.elapse dt) := Advances.of_keep (by simp)
  unfold execFlashWriteComplete
  dsimp only
  repeat' split
  · exact e
  · rw [after_next]
    refine e.trans (Advances.trans ?_ (State.flashDone_advances _ _))
    exact Advances.of_keep ⟨rfl, rfl, rfl, rfl⟩
  · exact e.trans (Advances.of_keep (by simp))
  · exact e.trans (Advances.of_keep (by simp))
  · exact e

/-! ## Resets -/

theorem State.applyLifecycle_advances (s : State) : Advances s s.applyLifecycle := by
  unfold State.applyLifecycle
  split
  · dsimp only
    split
    · exact Advances.of_keep (by simp)
    · rename_i h
      exact (State.setLife_advances s _ (by omega)).trans (Advances.of_keep (State.later_keep _ _ _))
  · exact Advances.refl s

theorem State.boot_advances (s : State) : Advances s s.boot := by
  unfold State.boot
  dsimp only
  have h1 : ∀ (s1 : State), Advances s s1 →
      Advances s (if (s1.imageFault s1.sec.running).isSome then { s1 with fault := { s1.fault with dead := true } }
        else s1) := by
    intro s1 h
    split
    · exact h.trans (Advances.of_keep (by simp))
    · exact h
  apply h1
  split
  · exact Advances.refl s
  · split
    · refine ⟨rfl, id, Nat.le_refl _, ?_⟩
      intro k hk v hv
      dsimp only
      split
      · exact hv
      · rw [Tbl.find_put_other _ _ _ _ (by simp [otpIndex]; omega)]
        exact hv
    · exact Advances.of_keep (by simp)

theorem State.resetMem_advances (s : State) (k : ResetKind) : Advances s (s.resetMem k) := by
  refine ⟨rfl, ?_, Nat.le_refl _, fun _ _ _ h => h⟩
  intro h
  unfold State.resetMem
  dsimp only
  split
  · exact h
  · rfl

theorem State.reset'_advances (s : State) (k : ResetKind) (detail : Nat) : Advances s (s.reset' k detail) := by
  unfold State.reset'
  dsimp only
  have h (t : State) (ht : Advances s t) : Advances s (if k.applies then t.applyLifecycle.boot else t) := by
    split
    · exact ht.trans ((State.applyLifecycle_advances t).trans (State.boot_advances _))
    · exact ht
  apply h
  refine Advances.trans ?_ (Advances.of_keep (State.resetPower_keep _ _ _))
  refine Advances.trans ?_ (Advances.of_keep (State.resetLedger_keep _ _))
  refine Advances.trans ?_ (Advances.of_keep (State.resetCounter_keep _ _))
  refine Advances.trans ?_ (Advances.of_keep (State.resetSec_keep _ _))
  refine Advances.trans ?_ (Advances.of_keep (State.resetFaults_keep _ _))
  refine Advances.trans ?_ (State.resetMem_advances _ _)
  exact Advances.of_keep (by simp)

theorem State.auditorReset_advances (s : State) (detail msg : Nat) : Advances s (s.auditorReset detail msg) := by
  unfold State.auditorReset
  exact (State.reset'_advances s .auditor detail).trans (Advances.of_keep (by simp))

theorem execPowerOnReset_advances (dt : Nat) (s : State) : Advances s (after s (execPowerOnReset dt s)) := by
  have e : Advances s (s.elapse dt) := Advances.of_keep (by simp)
  unfold execPowerOnReset
  dsimp only
  repeat' split
  all_goals rw [after_next]
  all_goals first
    | with_reducible exact e
    | with_reducible exact e.trans (State.reset'_advances _ _ _)

theorem execPinReset_advances (dt : Nat) (s : State) : Advances s (after s (execPinReset dt s)) := by
  have e : Advances s (s.elapse dt) := Advances.of_keep (by simp)
  unfold execPinReset
  dsimp only
  repeat' split
  all_goals rw [after_next]
  all_goals first
    | with_reducible exact e
    | with_reducible exact e.trans (State.reset'_advances _ _ _)

theorem execWatchdogReset_advances (dt : Nat) (s : State) : Advances s (after s (execWatchdogReset dt s)) := by
  have e : Advances s (s.elapse dt) := Advances.of_keep (by simp)
  unfold execWatchdogReset
  dsimp only
  repeat' split
  all_goals rw [after_next]
  all_goals first
    | with_reducible exact e
    | (refine e.trans (Advances.trans ?_ (Advances.of_keep (State.laterFault_keep _ _)))
       with_reducible exact State.reset'_advances _ _ _)

theorem execPairReset_advances (dt : Nat) (s : State) : Advances s (after s (execPairReset dt s)) := by
  have e : Advances s (s.elapse dt) := Advances.of_keep (by simp)
  unfold execPairReset
  dsimp only
  repeat' split
  all_goals rw [after_next]
  all_goals first
    | with_reducible exact e
    | with_reducible exact e.trans (State.reset'_advances _ _ _)

theorem execWarmReset_advances (dt : Nat) (s : State) : Advances s (after s (execWarmReset dt s)) := by
  have e : Advances s (s.elapse dt) := Advances.of_keep (by simp)
  unfold execWarmReset
  dsimp only
  repeat' split
  all_goals rw [after_next]
  all_goals first
    | with_reducible exact e
    | with_reducible exact e.trans (State.reset'_advances _ _ _)

/-- Changing the fault state only. -/
theorem Advances.hold (s : State) (x : FaultSt) : Advances s { s with fault := x } :=
  Advances.of_keep ⟨rfl, rfl, rfl, rfl⟩

theorem execAuditorReset_advances (dt : Nat) (s : State) : Advances s (after s (execAuditorReset dt s)) := by
  have e : Advances s (s.elapse dt) := Advances.of_keep (by simp)
  unfold execAuditorReset
  dsimp only
  repeat' split
  all_goals rw [after_next]
  all_goals first
    | with_reducible exact e
    | (refine e.trans (Advances.trans (State.auditorReset_advances _ _ _) (Advances.hold _ _)))

theorem execTamperTrip_advances (dt : Nat) (m : Fin 4) (s : State) : Advances s (after s (execTamperTrip dt m s)) := by
  have e : Advances s (s.elapse dt) := Advances.of_keep (by simp)
  unfold execTamperTrip
  dsimp only
  repeat' split
  all_goals rw [after_next]
  all_goals first
    | with_reducible exact e
    | (refine e.trans (Advances.trans ?_ (Advances.of_keep (State.laterFault_keep _ _)))
       refine Advances.trans ?_ (Advances.of_keep (State.tampered_keep _ _))
       with_reducible exact State.auditorReset_advances _ _ _)

end Sys2Proof.Machine
end

