-- ==== Sys2Proof/Laws/State.lean ====
section
/-!
SUPPORT. One lemma per field and update of the state, true by rfl, so that no proof unfolds a record update; and what a
unit reads as after it, or another unit, has been written.
-/
namespace Sys2Proof.Machine

variable (s : State)

@[simp] theorem State.setPort_pending (p : Nat) (q : PortSt) : (s.setPort p q).pending = s.pending := (rfl)
@[simp] theorem State.setPort_time (p : Nat) (q : PortSt) : (s.setPort p q).time = s.time := (rfl)
@[simp] theorem State.setPort_ledger (p : Nat) (q : PortSt) : (s.setPort p q).ledger = s.ledger := (rfl)
@[simp] theorem State.setPort_sets (p : Nat) (q : PortSt) : (s.setPort p q).sets = s.sets := (rfl)
@[simp] theorem State.setPort_src (p : Nat) (q : PortSt) : (s.setPort p q).src = s.src := (rfl)
@[simp] theorem State.setPort_comp (p : Nat) (q : PortSt) : (s.setPort p q).comp = s.comp := (rfl)
@[simp] theorem State.setPort_heads (p : Nat) (q : PortSt) : (s.setPort p q).heads = s.heads := (rfl)
@[simp] theorem State.setPort_panels (p : Nat) (q : PortSt) : (s.setPort p q).panels = s.panels := (rfl)
@[simp] theorem State.setPort_panelInit (p : Nat) (q : PortSt) : (s.setPort p q).panelInit = s.panelInit := (rfl)
@[simp] theorem State.setPort_keys (p : Nat) (q : PortSt) : (s.setPort p q).keys = s.keys := (rfl)
@[simp] theorem State.setPort_keyRef (p : Nat) (q : PortSt) : (s.setPort p q).keyRef = s.keyRef := (rfl)
@[simp] theorem State.setPort_encJobs (p : Nat) (q : PortSt) : (s.setPort p q).encJobs = s.encJobs := (rfl)
@[simp] theorem State.setPort_enc (p : Nat) (q : PortSt) : (s.setPort p q).enc = s.enc := (rfl)
@[simp] theorem State.setPort_links (p : Nat) (q : PortSt) : (s.setPort p q).links = s.links := (rfl)
@[simp] theorem State.setPort_pair (p : Nat) (q : PortSt) : (s.setPort p q).pair = s.pair := (rfl)
@[simp] theorem State.setPort_mem (p : Nat) (q : PortSt) : (s.setPort p q).mem = s.mem := (rfl)
@[simp] theorem State.setPort_fault (p : Nat) (q : PortSt) : (s.setPort p q).fault = s.fault := (rfl)
@[simp] theorem State.setPort_sec (p : Nat) (q : PortSt) : (s.setPort p q).sec = s.sec := (rfl)
@[simp] theorem State.setPort_power (p : Nat) (q : PortSt) : (s.setPort p q).power = s.power := (rfl)
@[simp] theorem State.setPort_out (p : Nat) (q : PortSt) : (s.setPort p q).out = s.out := (rfl)
@[simp] theorem State.setPort_draw (p : Nat) (q : PortSt) : (s.setPort p q).draw = s.draw := (rfl)
@[simp] theorem State.port_setPort (p : Nat) (q : PortSt) : (s.setPort p q).port p = q := by
  simp [State.port, State.setPort]
theorem State.port_setPort_other (p : Nat) (q : PortSt) (other : Nat) (ne : other ≠ p) :
    (s.setPort p q).port other = s.port other := by
  simp [State.port, State.setPort, Tbl.get_set_other, ne]

@[simp] theorem State.setHead_pending (h : Nat) (x : HeadRun) : (s.setHead h x).pending = s.pending := (rfl)
@[simp] theorem State.setHead_time (h : Nat) (x : HeadRun) : (s.setHead h x).time = s.time := (rfl)
@[simp] theorem State.setHead_ledger (h : Nat) (x : HeadRun) : (s.setHead h x).ledger = s.ledger := (rfl)
@[simp] theorem State.setHead_mail (h : Nat) (x : HeadRun) : (s.setHead h x).mail = s.mail := (rfl)
@[simp] theorem State.setHead_sets (h : Nat) (x : HeadRun) : (s.setHead h x).sets = s.sets := (rfl)
@[simp] theorem State.setHead_src (h : Nat) (x : HeadRun) : (s.setHead h x).src = s.src := (rfl)
@[simp] theorem State.setHead_comp (h : Nat) (x : HeadRun) : (s.setHead h x).comp = s.comp := (rfl)
@[simp] theorem State.setHead_panels (h : Nat) (x : HeadRun) : (s.setHead h x).panels = s.panels := (rfl)
@[simp] theorem State.setHead_panelInit (h : Nat) (x : HeadRun) : (s.setHead h x).panelInit = s.panelInit := (rfl)
@[simp] theorem State.setHead_keys (h : Nat) (x : HeadRun) : (s.setHead h x).keys = s.keys := (rfl)
@[simp] theorem State.setHead_keyRef (h : Nat) (x : HeadRun) : (s.setHead h x).keyRef = s.keyRef := (rfl)
@[simp] theorem State.setHead_encJobs (h : Nat) (x : HeadRun) : (s.setHead h x).encJobs = s.encJobs := (rfl)
@[simp] theorem State.setHead_enc (h : Nat) (x : HeadRun) : (s.setHead h x).enc = s.enc := (rfl)
@[simp] theorem State.setHead_links (h : Nat) (x : HeadRun) : (s.setHead h x).links = s.links := (rfl)
@[simp] theorem State.setHead_pair (h : Nat) (x : HeadRun) : (s.setHead h x).pair = s.pair := (rfl)
@[simp] theorem State.setHead_mem (h : Nat) (x : HeadRun) : (s.setHead h x).mem = s.mem := (rfl)
@[simp] theorem State.setHead_fault (h : Nat) (x : HeadRun) : (s.setHead h x).fault = s.fault := (rfl)
@[simp] theorem State.setHead_sec (h : Nat) (x : HeadRun) : (s.setHead h x).sec = s.sec := (rfl)
@[simp] theorem State.setHead_power (h : Nat) (x : HeadRun) : (s.setHead h x).power = s.power := (rfl)
@[simp] theorem State.setHead_out (h : Nat) (x : HeadRun) : (s.setHead h x).out = s.out := (rfl)
@[simp] theorem State.setHead_draw (h : Nat) (x : HeadRun) : (s.setHead h x).draw = s.draw := (rfl)
@[simp] theorem State.head_setHead (h : Nat) (x : HeadRun) : (s.setHead h x).head h = x := by
  simp [State.head, State.setHead]
theorem State.head_setHead_other (h : Nat) (x : HeadRun) (other : Nat) (ne : other ≠ h) :
    (s.setHead h x).head other = s.head other := by
  simp [State.head, State.setHead, Tbl.get_set_other, ne]

@[simp] theorem State.setPanel_pending (p : Nat) (x : PanelRun) : (s.setPanel p x).pending = s.pending := (rfl)
@[simp] theorem State.setPanel_time (p : Nat) (x : PanelRun) : (s.setPanel p x).time = s.time := (rfl)
@[simp] theorem State.setPanel_ledger (p : Nat) (x : PanelRun) : (s.setPanel p x).ledger = s.ledger := (rfl)
@[simp] theorem State.setPanel_mail (p : Nat) (x : PanelRun) : (s.setPanel p x).mail = s.mail := (rfl)
@[simp] theorem State.setPanel_sets (p : Nat) (x : PanelRun) : (s.setPanel p x).sets = s.sets := (rfl)
@[simp] theorem State.setPanel_src (p : Nat) (x : PanelRun) : (s.setPanel p x).src = s.src := (rfl)
@[simp] theorem State.setPanel_comp (p : Nat) (x : PanelRun) : (s.setPanel p x).comp = s.comp := (rfl)
@[simp] theorem State.setPanel_heads (p : Nat) (x : PanelRun) : (s.setPanel p x).heads = s.heads := (rfl)
@[simp] theorem State.setPanel_panelInit (p : Nat) (x : PanelRun) : (s.setPanel p x).panelInit = s.panelInit := (rfl)
@[simp] theorem State.setPanel_keys (p : Nat) (x : PanelRun) : (s.setPanel p x).keys = s.keys := (rfl)
@[simp] theorem State.setPanel_keyRef (p : Nat) (x : PanelRun) : (s.setPanel p x).keyRef = s.keyRef := (rfl)
@[simp] theorem State.setPanel_encJobs (p : Nat) (x : PanelRun) : (s.setPanel p x).encJobs = s.encJobs := (rfl)
@[simp] theorem State.setPanel_enc (p : Nat) (x : PanelRun) : (s.setPanel p x).enc = s.enc := (rfl)
@[simp] theorem State.setPanel_links (p : Nat) (x : PanelRun) : (s.setPanel p x).links = s.links := (rfl)
@[simp] theorem State.setPanel_pair (p : Nat) (x : PanelRun) : (s.setPanel p x).pair = s.pair := (rfl)
@[simp] theorem State.setPanel_mem (p : Nat) (x : PanelRun) : (s.setPanel p x).mem = s.mem := (rfl)
@[simp] theorem State.setPanel_fault (p : Nat) (x : PanelRun) : (s.setPanel p x).fault = s.fault := (rfl)
@[simp] theorem State.setPanel_sec (p : Nat) (x : PanelRun) : (s.setPanel p x).sec = s.sec := (rfl)
@[simp] theorem State.setPanel_power (p : Nat) (x : PanelRun) : (s.setPanel p x).power = s.power := (rfl)
@[simp] theorem State.setPanel_out (p : Nat) (x : PanelRun) : (s.setPanel p x).out = s.out := (rfl)
@[simp] theorem State.setPanel_draw (p : Nat) (x : PanelRun) : (s.setPanel p x).draw = s.draw := (rfl)
@[simp] theorem State.panel_setPanel (p : Nat) (x : PanelRun) : (s.setPanel p x).panel p = x := by
  simp [State.panel, State.setPanel]
theorem State.panel_setPanel_other (p : Nat) (x : PanelRun) (other : Nat) (ne : other ≠ p) :
    (s.setPanel p x).panel other = s.panel other := by
  simp [State.panel, State.setPanel, Tbl.get_set_other, ne]

@[simp] theorem State.setSrc_pending (i : Nat) (x : SrcRun) : (s.setSrc i x).pending = s.pending := (rfl)
@[simp] theorem State.setSrc_time (i : Nat) (x : SrcRun) : (s.setSrc i x).time = s.time := (rfl)
@[simp] theorem State.setSrc_ledger (i : Nat) (x : SrcRun) : (s.setSrc i x).ledger = s.ledger := (rfl)
@[simp] theorem State.setSrc_mail (i : Nat) (x : SrcRun) : (s.setSrc i x).mail = s.mail := (rfl)
@[simp] theorem State.setSrc_sets (i : Nat) (x : SrcRun) : (s.setSrc i x).sets = s.sets := (rfl)
@[simp] theorem State.setSrc_comp (i : Nat) (x : SrcRun) : (s.setSrc i x).comp = s.comp := (rfl)
@[simp] theorem State.setSrc_heads (i : Nat) (x : SrcRun) : (s.setSrc i x).heads = s.heads := (rfl)
@[simp] theorem State.setSrc_panels (i : Nat) (x : SrcRun) : (s.setSrc i x).panels = s.panels := (rfl)
@[simp] theorem State.setSrc_panelInit (i : Nat) (x : SrcRun) : (s.setSrc i x).panelInit = s.panelInit := (rfl)
@[simp] theorem State.setSrc_keys (i : Nat) (x : SrcRun) : (s.setSrc i x).keys = s.keys := (rfl)
@[simp] theorem State.setSrc_keyRef (i : Nat) (x : SrcRun) : (s.setSrc i x).keyRef = s.keyRef := (rfl)
@[simp] theorem State.setSrc_encJobs (i : Nat) (x : SrcRun) : (s.setSrc i x).encJobs = s.encJobs := (rfl)
@[simp] theorem State.setSrc_enc (i : Nat) (x : SrcRun) : (s.setSrc i x).enc = s.enc := (rfl)
@[simp] theorem State.setSrc_links (i : Nat) (x : SrcRun) : (s.setSrc i x).links = s.links := (rfl)
@[simp] theorem State.setSrc_pair (i : Nat) (x : SrcRun) : (s.setSrc i x).pair = s.pair := (rfl)
@[simp] theorem State.setSrc_mem (i : Nat) (x : SrcRun) : (s.setSrc i x).mem = s.mem := (rfl)
@[simp] theorem State.setSrc_fault (i : Nat) (x : SrcRun) : (s.setSrc i x).fault = s.fault := (rfl)
@[simp] theorem State.setSrc_sec (i : Nat) (x : SrcRun) : (s.setSrc i x).sec = s.sec := (rfl)
@[simp] theorem State.setSrc_power (i : Nat) (x : SrcRun) : (s.setSrc i x).power = s.power := (rfl)
@[simp] theorem State.setSrc_out (i : Nat) (x : SrcRun) : (s.setSrc i x).out = s.out := (rfl)
@[simp] theorem State.setSrc_draw (i : Nat) (x : SrcRun) : (s.setSrc i x).draw = s.draw := (rfl)
@[simp] theorem State.srcRun_setSrc (i : Nat) (x : SrcRun) : (s.setSrc i x).srcRun i = x := by
  simp [State.srcRun, State.setSrc]
theorem State.srcRun_setSrc_other (i : Nat) (x : SrcRun) (other : Nat) (ne : other ≠ i) :
    (s.setSrc i x).srcRun other = s.srcRun other := by
  simp [State.srcRun, State.setSrc, Tbl.get_set_other, ne]

@[simp] theorem State.setDec_pending (i : Nat) (x : DecRun) : (s.setDec i x).pending = s.pending := (rfl)
@[simp] theorem State.setDec_time (i : Nat) (x : DecRun) : (s.setDec i x).time = s.time := (rfl)
@[simp] theorem State.setDec_ledger (i : Nat) (x : DecRun) : (s.setDec i x).ledger = s.ledger := (rfl)
@[simp] theorem State.setDec_mail (i : Nat) (x : DecRun) : (s.setDec i x).mail = s.mail := (rfl)
@[simp] theorem State.setDec_sets (i : Nat) (x : DecRun) : (s.setDec i x).sets = s.sets := (rfl)
@[simp] theorem State.setDec_comp (i : Nat) (x : DecRun) : (s.setDec i x).comp = s.comp := (rfl)
@[simp] theorem State.setDec_heads (i : Nat) (x : DecRun) : (s.setDec i x).heads = s.heads := (rfl)
@[simp] theorem State.setDec_panels (i : Nat) (x : DecRun) : (s.setDec i x).panels = s.panels := (rfl)
@[simp] theorem State.setDec_panelInit (i : Nat) (x : DecRun) : (s.setDec i x).panelInit = s.panelInit := (rfl)
@[simp] theorem State.setDec_keys (i : Nat) (x : DecRun) : (s.setDec i x).keys = s.keys := (rfl)
@[simp] theorem State.setDec_keyRef (i : Nat) (x : DecRun) : (s.setDec i x).keyRef = s.keyRef := (rfl)
@[simp] theorem State.setDec_encJobs (i : Nat) (x : DecRun) : (s.setDec i x).encJobs = s.encJobs := (rfl)
@[simp] theorem State.setDec_enc (i : Nat) (x : DecRun) : (s.setDec i x).enc = s.enc := (rfl)
@[simp] theorem State.setDec_links (i : Nat) (x : DecRun) : (s.setDec i x).links = s.links := (rfl)
@[simp] theorem State.setDec_pair (i : Nat) (x : DecRun) : (s.setDec i x).pair = s.pair := (rfl)
@[simp] theorem State.setDec_mem (i : Nat) (x : DecRun) : (s.setDec i x).mem = s.mem := (rfl)
@[simp] theorem State.setDec_fault (i : Nat) (x : DecRun) : (s.setDec i x).fault = s.fault := (rfl)
@[simp] theorem State.setDec_sec (i : Nat) (x : DecRun) : (s.setDec i x).sec = s.sec := (rfl)
@[simp] theorem State.setDec_power (i : Nat) (x : DecRun) : (s.setDec i x).power = s.power := (rfl)
@[simp] theorem State.setDec_out (i : Nat) (x : DecRun) : (s.setDec i x).out = s.out := (rfl)
@[simp] theorem State.setDec_draw (i : Nat) (x : DecRun) : (s.setDec i x).draw = s.draw := (rfl)
@[simp] theorem State.decRun_setDec (i : Nat) (x : DecRun) : (s.setDec i x).decRun i = x := by
  simp [State.decRun, State.setDec]
theorem State.decRun_setDec_other (i : Nat) (x : DecRun) (other : Nat) (ne : other ≠ i) :
    (s.setDec i x).decRun other = s.decRun other := by
  simp [State.decRun, State.setDec, Tbl.get_set_other, ne]

@[simp] theorem State.setSurface_pending (i : Nat) (x : SurfSt) : (s.setSurface i x).pending = s.pending := (rfl)
@[simp] theorem State.setSurface_time (i : Nat) (x : SurfSt) : (s.setSurface i x).time = s.time := (rfl)
@[simp] theorem State.setSurface_ledger (i : Nat) (x : SurfSt) : (s.setSurface i x).ledger = s.ledger := (rfl)
@[simp] theorem State.setSurface_mail (i : Nat) (x : SurfSt) : (s.setSurface i x).mail = s.mail := (rfl)
@[simp] theorem State.setSurface_sets (i : Nat) (x : SurfSt) : (s.setSurface i x).sets = s.sets := (rfl)
@[simp] theorem State.setSurface_comp (i : Nat) (x : SurfSt) : (s.setSurface i x).comp = s.comp := (rfl)
@[simp] theorem State.setSurface_heads (i : Nat) (x : SurfSt) : (s.setSurface i x).heads = s.heads := (rfl)
@[simp] theorem State.setSurface_panels (i : Nat) (x : SurfSt) : (s.setSurface i x).panels = s.panels := (rfl)
@[simp] theorem State.setSurface_panelInit (i : Nat) (x : SurfSt) : (s.setSurface i x).panelInit = s.panelInit := (rfl)
@[simp] theorem State.setSurface_keys (i : Nat) (x : SurfSt) : (s.setSurface i x).keys = s.keys := (rfl)
@[simp] theorem State.setSurface_keyRef (i : Nat) (x : SurfSt) : (s.setSurface i x).keyRef = s.keyRef := (rfl)
@[simp] theorem State.setSurface_encJobs (i : Nat) (x : SurfSt) : (s.setSurface i x).encJobs = s.encJobs := (rfl)
@[simp] theorem State.setSurface_enc (i : Nat) (x : SurfSt) : (s.setSurface i x).enc = s.enc := (rfl)
@[simp] theorem State.setSurface_links (i : Nat) (x : SurfSt) : (s.setSurface i x).links = s.links := (rfl)
@[simp] theorem State.setSurface_pair (i : Nat) (x : SurfSt) : (s.setSurface i x).pair = s.pair := (rfl)
@[simp] theorem State.setSurface_mem (i : Nat) (x : SurfSt) : (s.setSurface i x).mem = s.mem := (rfl)
@[simp] theorem State.setSurface_fault (i : Nat) (x : SurfSt) : (s.setSurface i x).fault = s.fault := (rfl)
@[simp] theorem State.setSurface_sec (i : Nat) (x : SurfSt) : (s.setSurface i x).sec = s.sec := (rfl)
@[simp] theorem State.setSurface_power (i : Nat) (x : SurfSt) : (s.setSurface i x).power = s.power := (rfl)
@[simp] theorem State.setSurface_out (i : Nat) (x : SurfSt) : (s.setSurface i x).out = s.out := (rfl)
@[simp] theorem State.setSurface_draw (i : Nat) (x : SurfSt) : (s.setSurface i x).draw = s.draw := (rfl)
@[simp] theorem State.surface_setSurface (i : Nat) (x : SurfSt) : (s.setSurface i x).surface i = x := by
  simp [State.surface, State.setSurface]
theorem State.surface_setSurface_other (i : Nat) (x : SurfSt) (other : Nat) (ne : other ≠ i) :
    (s.setSurface i x).surface other = s.surface other := by
  simp [State.surface, State.setSurface, Tbl.get_set_other, ne]

@[simp] theorem State.setOutComp_pending (o : Nat) (x : OutComp) : (s.setOutComp o x).pending = s.pending := (rfl)
@[simp] theorem State.setOutComp_time (o : Nat) (x : OutComp) : (s.setOutComp o x).time = s.time := (rfl)
@[simp] theorem State.setOutComp_ledger (o : Nat) (x : OutComp) : (s.setOutComp o x).ledger = s.ledger := (rfl)
@[simp] theorem State.setOutComp_mail (o : Nat) (x : OutComp) : (s.setOutComp o x).mail = s.mail := (rfl)
@[simp] theorem State.setOutComp_sets (o : Nat) (x : OutComp) : (s.setOutComp o x).sets = s.sets := (rfl)
@[simp] theorem State.setOutComp_src (o : Nat) (x : OutComp) : (s.setOutComp o x).src = s.src := (rfl)
@[simp] theorem State.setOutComp_heads (o : Nat) (x : OutComp) : (s.setOutComp o x).heads = s.heads := (rfl)
@[simp] theorem State.setOutComp_panels (o : Nat) (x : OutComp) : (s.setOutComp o x).panels = s.panels := (rfl)
@[simp] theorem State.setOutComp_panelInit (o : Nat) (x : OutComp) : (s.setOutComp o x).panelInit = s.panelInit := (rfl)
@[simp] theorem State.setOutComp_keys (o : Nat) (x : OutComp) : (s.setOutComp o x).keys = s.keys := (rfl)
@[simp] theorem State.setOutComp_keyRef (o : Nat) (x : OutComp) : (s.setOutComp o x).keyRef = s.keyRef := (rfl)
@[simp] theorem State.setOutComp_encJobs (o : Nat) (x : OutComp) : (s.setOutComp o x).encJobs = s.encJobs := (rfl)
@[simp] theorem State.setOutComp_enc (o : Nat) (x : OutComp) : (s.setOutComp o x).enc = s.enc := (rfl)
@[simp] theorem State.setOutComp_links (o : Nat) (x : OutComp) : (s.setOutComp o x).links = s.links := (rfl)
@[simp] theorem State.setOutComp_pair (o : Nat) (x : OutComp) : (s.setOutComp o x).pair = s.pair := (rfl)
@[simp] theorem State.setOutComp_mem (o : Nat) (x : OutComp) : (s.setOutComp o x).mem = s.mem := (rfl)
@[simp] theorem State.setOutComp_fault (o : Nat) (x : OutComp) : (s.setOutComp o x).fault = s.fault := (rfl)
@[simp] theorem State.setOutComp_sec (o : Nat) (x : OutComp) : (s.setOutComp o x).sec = s.sec := (rfl)
@[simp] theorem State.setOutComp_power (o : Nat) (x : OutComp) : (s.setOutComp o x).power = s.power := (rfl)
@[simp] theorem State.setOutComp_out (o : Nat) (x : OutComp) : (s.setOutComp o x).out = s.out := (rfl)
@[simp] theorem State.setOutComp_draw (o : Nat) (x : OutComp) : (s.setOutComp o x).draw = s.draw := (rfl)
@[simp] theorem State.outComp_setOutComp (o : Nat) (x : OutComp) : (s.setOutComp o x).outComp o = x := by
  simp [State.outComp, State.setOutComp]
theorem State.outComp_setOutComp_other (o : Nat) (x : OutComp) (other : Nat) (ne : other ≠ o) :
    (s.setOutComp o x).outComp other = s.outComp other := by
  simp [State.outComp, State.setOutComp, Tbl.get_set_other, ne]

@[simp] theorem State.setEncRun_pending (j : Nat) (x : EncRun) : (s.setEncRun j x).pending = s.pending := (rfl)
@[simp] theorem State.setEncRun_time (j : Nat) (x : EncRun) : (s.setEncRun j x).time = s.time := (rfl)
@[simp] theorem State.setEncRun_ledger (j : Nat) (x : EncRun) : (s.setEncRun j x).ledger = s.ledger := (rfl)
@[simp] theorem State.setEncRun_mail (j : Nat) (x : EncRun) : (s.setEncRun j x).mail = s.mail := (rfl)
@[simp] theorem State.setEncRun_sets (j : Nat) (x : EncRun) : (s.setEncRun j x).sets = s.sets := (rfl)
@[simp] theorem State.setEncRun_src (j : Nat) (x : EncRun) : (s.setEncRun j x).src = s.src := (rfl)
@[simp] theorem State.setEncRun_comp (j : Nat) (x : EncRun) : (s.setEncRun j x).comp = s.comp := (rfl)
@[simp] theorem State.setEncRun_heads (j : Nat) (x : EncRun) : (s.setEncRun j x).heads = s.heads := (rfl)
@[simp] theorem State.setEncRun_panels (j : Nat) (x : EncRun) : (s.setEncRun j x).panels = s.panels := (rfl)
@[simp] theorem State.setEncRun_panelInit (j : Nat) (x : EncRun) : (s.setEncRun j x).panelInit = s.panelInit := (rfl)
@[simp] theorem State.setEncRun_keys (j : Nat) (x : EncRun) : (s.setEncRun j x).keys = s.keys := (rfl)
@[simp] theorem State.setEncRun_keyRef (j : Nat) (x : EncRun) : (s.setEncRun j x).keyRef = s.keyRef := (rfl)
@[simp] theorem State.setEncRun_encJobs (j : Nat) (x : EncRun) : (s.setEncRun j x).encJobs = s.encJobs := (rfl)
@[simp] theorem State.setEncRun_links (j : Nat) (x : EncRun) : (s.setEncRun j x).links = s.links := (rfl)
@[simp] theorem State.setEncRun_pair (j : Nat) (x : EncRun) : (s.setEncRun j x).pair = s.pair := (rfl)
@[simp] theorem State.setEncRun_mem (j : Nat) (x : EncRun) : (s.setEncRun j x).mem = s.mem := (rfl)
@[simp] theorem State.setEncRun_fault (j : Nat) (x : EncRun) : (s.setEncRun j x).fault = s.fault := (rfl)
@[simp] theorem State.setEncRun_sec (j : Nat) (x : EncRun) : (s.setEncRun j x).sec = s.sec := (rfl)
@[simp] theorem State.setEncRun_power (j : Nat) (x : EncRun) : (s.setEncRun j x).power = s.power := (rfl)
@[simp] theorem State.setEncRun_out (j : Nat) (x : EncRun) : (s.setEncRun j x).out = s.out := (rfl)
@[simp] theorem State.setEncRun_draw (j : Nat) (x : EncRun) : (s.setEncRun j x).draw = s.draw := (rfl)
@[simp] theorem State.encRun_setEncRun (j : Nat) (x : EncRun) : (s.setEncRun j x).encRun j = x := by
  simp [State.encRun, State.setEncRun]
theorem State.encRun_setEncRun_other (j : Nat) (x : EncRun) (other : Nat) (ne : other ≠ j) :
    (s.setEncRun j x).encRun other = s.encRun other := by
  simp [State.encRun, State.setEncRun, Tbl.get_set_other, ne]

@[simp] theorem State.setKeyGroup_pending (g : Nat) (x : KeyGroup) : (s.setKeyGroup g x).pending = s.pending := (rfl)
@[simp] theorem State.setKeyGroup_time (g : Nat) (x : KeyGroup) : (s.setKeyGroup g x).time = s.time := (rfl)
@[simp] theorem State.setKeyGroup_ledger (g : Nat) (x : KeyGroup) : (s.setKeyGroup g x).ledger = s.ledger := (rfl)
@[simp] theorem State.setKeyGroup_mail (g : Nat) (x : KeyGroup) : (s.setKeyGroup g x).mail = s.mail := (rfl)
@[simp] theorem State.setKeyGroup_sets (g : Nat) (x : KeyGroup) : (s.setKeyGroup g x).sets = s.sets := (rfl)
@[simp] theorem State.setKeyGroup_src (g : Nat) (x : KeyGroup) : (s.setKeyGroup g x).src = s.src := (rfl)
@[simp] theorem State.setKeyGroup_comp (g : Nat) (x : KeyGroup) : (s.setKeyGroup g x).comp = s.comp := (rfl)
@[simp] theorem State.setKeyGroup_heads (g : Nat) (x : KeyGroup) : (s.setKeyGroup g x).heads = s.heads := (rfl)
@[simp] theorem State.setKeyGroup_panels (g : Nat) (x : KeyGroup) : (s.setKeyGroup g x).panels = s.panels := (rfl)
@[simp] theorem State.setKeyGroup_panelInit (g : Nat) (x : KeyGroup) : (s.setKeyGroup g x).panelInit = s.panelInit := (rfl)
@[simp] theorem State.setKeyGroup_keyRef (g : Nat) (x : KeyGroup) : (s.setKeyGroup g x).keyRef = s.keyRef := (rfl)
@[simp] theorem State.setKeyGroup_encJobs (g : Nat) (x : KeyGroup) : (s.setKeyGroup g x).encJobs = s.encJobs := (rfl)
@[simp] theorem State.setKeyGroup_enc (g : Nat) (x : KeyGroup) : (s.setKeyGroup g x).enc = s.enc := (rfl)
@[simp] theorem State.setKeyGroup_links (g : Nat) (x : KeyGroup) : (s.setKeyGroup g x).links = s.links := (rfl)
@[simp] theorem State.setKeyGroup_pair (g : Nat) (x : KeyGroup) : (s.setKeyGroup g x).pair = s.pair := (rfl)
@[simp] theorem State.setKeyGroup_mem (g : Nat) (x : KeyGroup) : (s.setKeyGroup g x).mem = s.mem := (rfl)
@[simp] theorem State.setKeyGroup_fault (g : Nat) (x : KeyGroup) : (s.setKeyGroup g x).fault = s.fault := (rfl)
@[simp] theorem State.setKeyGroup_sec (g : Nat) (x : KeyGroup) : (s.setKeyGroup g x).sec = s.sec := (rfl)
@[simp] theorem State.setKeyGroup_power (g : Nat) (x : KeyGroup) : (s.setKeyGroup g x).power = s.power := (rfl)
@[simp] theorem State.setKeyGroup_out (g : Nat) (x : KeyGroup) : (s.setKeyGroup g x).out = s.out := (rfl)
@[simp] theorem State.setKeyGroup_draw (g : Nat) (x : KeyGroup) : (s.setKeyGroup g x).draw = s.draw := (rfl)
@[simp] theorem State.keyGroup_setKeyGroup (g : Nat) (x : KeyGroup) : (s.setKeyGroup g x).keyGroup g = x := by
  simp [State.keyGroup, State.setKeyGroup]
theorem State.keyGroup_setKeyGroup_other (g : Nat) (x : KeyGroup) (other : Nat) (ne : other ≠ g) :
    (s.setKeyGroup g x).keyGroup other = s.keyGroup other := by
  simp [State.keyGroup, State.setKeyGroup, Tbl.get_set_other, ne]

@[simp] theorem State.setChan_pending (c : Nat) (x : ChanRun) : (s.setChan c x).pending = s.pending := (rfl)
@[simp] theorem State.setChan_time (c : Nat) (x : ChanRun) : (s.setChan c x).time = s.time := (rfl)
@[simp] theorem State.setChan_ledger (c : Nat) (x : ChanRun) : (s.setChan c x).ledger = s.ledger := (rfl)
@[simp] theorem State.setChan_mail (c : Nat) (x : ChanRun) : (s.setChan c x).mail = s.mail := (rfl)
@[simp] theorem State.setChan_sets (c : Nat) (x : ChanRun) : (s.setChan c x).sets = s.sets := (rfl)
@[simp] theorem State.setChan_src (c : Nat) (x : ChanRun) : (s.setChan c x).src = s.src := (rfl)
@[simp] theorem State.setChan_comp (c : Nat) (x : ChanRun) : (s.setChan c x).comp = s.comp := (rfl)
@[simp] theorem State.setChan_heads (c : Nat) (x : ChanRun) : (s.setChan c x).heads = s.heads := (rfl)
@[simp] theorem State.setChan_panels (c : Nat) (x : ChanRun) : (s.setChan c x).panels = s.panels := (rfl)
@[simp] theorem State.setChan_panelInit (c : Nat) (x : ChanRun) : (s.setChan c x).panelInit = s.panelInit := (rfl)
@[simp] theorem State.setChan_keys (c : Nat) (x : ChanRun) : (s.setChan c x).keys = s.keys := (rfl)
@[simp] theorem State.setChan_keyRef (c : Nat) (x : ChanRun) : (s.setChan c x).keyRef = s.keyRef := (rfl)
@[simp] theorem State.setChan_encJobs (c : Nat) (x : ChanRun) : (s.setChan c x).encJobs = s.encJobs := (rfl)
@[simp] theorem State.setChan_enc (c : Nat) (x : ChanRun) : (s.setChan c x).enc = s.enc := (rfl)
@[simp] theorem State.setChan_links (c : Nat) (x : ChanRun) : (s.setChan c x).links = s.links := (rfl)
@[simp] theorem State.setChan_pair (c : Nat) (x : ChanRun) : (s.setChan c x).pair = s.pair := (rfl)
@[simp] theorem State.setChan_fault (c : Nat) (x : ChanRun) : (s.setChan c x).fault = s.fault := (rfl)
@[simp] theorem State.setChan_sec (c : Nat) (x : ChanRun) : (s.setChan c x).sec = s.sec := (rfl)
@[simp] theorem State.setChan_power (c : Nat) (x : ChanRun) : (s.setChan c x).power = s.power := (rfl)
@[simp] theorem State.setChan_out (c : Nat) (x : ChanRun) : (s.setChan c x).out = s.out := (rfl)
@[simp] theorem State.setChan_draw (c : Nat) (x : ChanRun) : (s.setChan c x).draw = s.draw := (rfl)
@[simp] theorem State.chan_setChan (c : Nat) (x : ChanRun) : (s.setChan c x).chan c = x := by
  simp [State.chan, State.setChan]
theorem State.chan_setChan_other (c : Nat) (x : ChanRun) (other : Nat) (ne : other ≠ c) :
    (s.setChan c x).chan other = s.chan other := by
  simp [State.chan, State.setChan, Tbl.get_set_other, ne]

@[simp] theorem State.setDomain_pending (d : Nat) (x : DomainSt) : (s.setDomain d x).pending = s.pending := (rfl)
@[simp] theorem State.setDomain_time (d : Nat) (x : DomainSt) : (s.setDomain d x).time = s.time := (rfl)
@[simp] theorem State.setDomain_ledger (d : Nat) (x : DomainSt) : (s.setDomain d x).ledger = s.ledger := (rfl)
@[simp] theorem State.setDomain_mail (d : Nat) (x : DomainSt) : (s.setDomain d x).mail = s.mail := (rfl)
@[simp] theorem State.setDomain_sets (d : Nat) (x : DomainSt) : (s.setDomain d x).sets = s.sets := (rfl)
@[simp] theorem State.setDomain_src (d : Nat) (x : DomainSt) : (s.setDomain d x).src = s.src := (rfl)
@[simp] theorem State.setDomain_comp (d : Nat) (x : DomainSt) : (s.setDomain d x).comp = s.comp := (rfl)
@[simp] theorem State.setDomain_heads (d : Nat) (x : DomainSt) : (s.setDomain d x).heads = s.heads := (rfl)
@[simp] theorem State.setDomain_panels (d : Nat) (x : DomainSt) : (s.setDomain d x).panels = s.panels := (rfl)
@[simp] theorem State.setDomain_panelInit (d : Nat) (x : DomainSt) : (s.setDomain d x).panelInit = s.panelInit := (rfl)
@[simp] theorem State.setDomain_keys (d : Nat) (x : DomainSt) : (s.setDomain d x).keys = s.keys := (rfl)
@[simp] theorem State.setDomain_keyRef (d : Nat) (x : DomainSt) : (s.setDomain d x).keyRef = s.keyRef := (rfl)
@[simp] theorem State.setDomain_encJobs (d : Nat) (x : DomainSt) : (s.setDomain d x).encJobs = s.encJobs := (rfl)
@[simp] theorem State.setDomain_enc (d : Nat) (x : DomainSt) : (s.setDomain d x).enc = s.enc := (rfl)
@[simp] theorem State.setDomain_links (d : Nat) (x : DomainSt) : (s.setDomain d x).links = s.links := (rfl)
@[simp] theorem State.setDomain_pair (d : Nat) (x : DomainSt) : (s.setDomain d x).pair = s.pair := (rfl)
@[simp] theorem State.setDomain_mem (d : Nat) (x : DomainSt) : (s.setDomain d x).mem = s.mem := (rfl)
@[simp] theorem State.setDomain_fault (d : Nat) (x : DomainSt) : (s.setDomain d x).fault = s.fault := (rfl)
@[simp] theorem State.setDomain_sec (d : Nat) (x : DomainSt) : (s.setDomain d x).sec = s.sec := (rfl)
@[simp] theorem State.setDomain_out (d : Nat) (x : DomainSt) : (s.setDomain d x).out = s.out := (rfl)
@[simp] theorem State.setDomain_draw (d : Nat) (x : DomainSt) : (s.setDomain d x).draw = s.draw := (rfl)
@[simp] theorem State.domain_setDomain (d : Nat) (x : DomainSt) : (s.setDomain d x).domain d = x := by
  simp [State.domain, State.setDomain]
theorem State.domain_setDomain_other (d : Nat) (x : DomainSt) (other : Nat) (ne : other ≠ d) :
    (s.setDomain d x).domain other = s.domain other := by
  simp [State.domain, State.setDomain, Tbl.get_set_other, ne]

@[simp] theorem State.setMpu_pending (g : Nat) (x : MpuGroup) : (s.setMpu g x).pending = s.pending := (rfl)
@[simp] theorem State.setMpu_time (g : Nat) (x : MpuGroup) : (s.setMpu g x).time = s.time := (rfl)
@[simp] theorem State.setMpu_ledger (g : Nat) (x : MpuGroup) : (s.setMpu g x).ledger = s.ledger := (rfl)
@[simp] theorem State.setMpu_mail (g : Nat) (x : MpuGroup) : (s.setMpu g x).mail = s.mail := (rfl)
@[simp] theorem State.setMpu_sets (g : Nat) (x : MpuGroup) : (s.setMpu g x).sets = s.sets := (rfl)
@[simp] theorem State.setMpu_src (g : Nat) (x : MpuGroup) : (s.setMpu g x).src = s.src := (rfl)
@[simp] theorem State.setMpu_comp (g : Nat) (x : MpuGroup) : (s.setMpu g x).comp = s.comp := (rfl)
@[simp] theorem State.setMpu_heads (g : Nat) (x : MpuGroup) : (s.setMpu g x).heads = s.heads := (rfl)
@[simp] theorem State.setMpu_panels (g : Nat) (x : MpuGroup) : (s.setMpu g x).panels = s.panels := (rfl)
@[simp] theorem State.setMpu_panelInit (g : Nat) (x : MpuGroup) : (s.setMpu g x).panelInit = s.panelInit := (rfl)
@[simp] theorem State.setMpu_keys (g : Nat) (x : MpuGroup) : (s.setMpu g x).keys = s.keys := (rfl)
@[simp] theorem State.setMpu_keyRef (g : Nat) (x : MpuGroup) : (s.setMpu g x).keyRef = s.keyRef := (rfl)
@[simp] theorem State.setMpu_encJobs (g : Nat) (x : MpuGroup) : (s.setMpu g x).encJobs = s.encJobs := (rfl)
@[simp] theorem State.setMpu_enc (g : Nat) (x : MpuGroup) : (s.setMpu g x).enc = s.enc := (rfl)
@[simp] theorem State.setMpu_links (g : Nat) (x : MpuGroup) : (s.setMpu g x).links = s.links := (rfl)
@[simp] theorem State.setMpu_pair (g : Nat) (x : MpuGroup) : (s.setMpu g x).pair = s.pair := (rfl)
@[simp] theorem State.setMpu_mem (g : Nat) (x : MpuGroup) : (s.setMpu g x).mem = s.mem := (rfl)
@[simp] theorem State.setMpu_fault (g : Nat) (x : MpuGroup) : (s.setMpu g x).fault = s.fault := (rfl)
@[simp] theorem State.setMpu_power (g : Nat) (x : MpuGroup) : (s.setMpu g x).power = s.power := (rfl)
@[simp] theorem State.setMpu_out (g : Nat) (x : MpuGroup) : (s.setMpu g x).out = s.out := (rfl)
@[simp] theorem State.setMpu_draw (g : Nat) (x : MpuGroup) : (s.setMpu g x).draw = s.draw := (rfl)
@[simp] theorem State.mpu_setMpu (g : Nat) (x : MpuGroup) : (s.setMpu g x).mpu g = x := by
  simp [State.mpu, State.setMpu]
theorem State.mpu_setMpu_other (g : Nat) (x : MpuGroup) (other : Nat) (ne : other ≠ g) :
    (s.setMpu g x).mpu other = s.mpu other := by
  simp [State.mpu, State.setMpu, Tbl.get_set_other, ne]

@[simp] theorem State.setPeer_pending (p : Nat) (x : PeerRun) : (s.setPeer p x).pending = s.pending := (rfl)
@[simp] theorem State.setPeer_time (p : Nat) (x : PeerRun) : (s.setPeer p x).time = s.time := (rfl)
@[simp] theorem State.setPeer_ledger (p : Nat) (x : PeerRun) : (s.setPeer p x).ledger = s.ledger := (rfl)
@[simp] theorem State.setPeer_mail (p : Nat) (x : PeerRun) : (s.setPeer p x).mail = s.mail := (rfl)
@[simp] theorem State.setPeer_sets (p : Nat) (x : PeerRun) : (s.setPeer p x).sets = s.sets := (rfl)
@[simp] theorem State.setPeer_src (p : Nat) (x : PeerRun) : (s.setPeer p x).src = s.src := (rfl)
@[simp] theorem State.setPeer_comp (p : Nat) (x : PeerRun) : (s.setPeer p x).comp = s.comp := (rfl)
@[simp] theorem State.setPeer_heads (p : Nat) (x : PeerRun) : (s.setPeer p x).heads = s.heads := (rfl)
@[simp] theorem State.setPeer_panels (p : Nat) (x : PeerRun) : (s.setPeer p x).panels = s.panels := (rfl)
@[simp] theorem State.setPeer_panelInit (p : Nat) (x : PeerRun) : (s.setPeer p x).panelInit = s.panelInit := (rfl)
@[simp] theorem State.setPeer_keys (p : Nat) (x : PeerRun) : (s.setPeer p x).keys = s.keys := (rfl)
@[simp] theorem State.setPeer_keyRef (p : Nat) (x : PeerRun) : (s.setPeer p x).keyRef = s.keyRef := (rfl)
@[simp] theorem State.setPeer_encJobs (p : Nat) (x : PeerRun) : (s.setPeer p x).encJobs = s.encJobs := (rfl)
@[simp] theorem State.setPeer_enc (p : Nat) (x : PeerRun) : (s.setPeer p x).enc = s.enc := (rfl)
@[simp] theorem State.setPeer_pair (p : Nat) (x : PeerRun) : (s.setPeer p x).pair = s.pair := (rfl)
@[simp] theorem State.setPeer_mem (p : Nat) (x : PeerRun) : (s.setPeer p x).mem = s.mem := (rfl)
@[simp] theorem State.setPeer_fault (p : Nat) (x : PeerRun) : (s.setPeer p x).fault = s.fault := (rfl)
@[simp] theorem State.setPeer_sec (p : Nat) (x : PeerRun) : (s.setPeer p x).sec = s.sec := (rfl)
@[simp] theorem State.setPeer_power (p : Nat) (x : PeerRun) : (s.setPeer p x).power = s.power := (rfl)
@[simp] theorem State.setPeer_out (p : Nat) (x : PeerRun) : (s.setPeer p x).out = s.out := (rfl)
@[simp] theorem State.setPeer_draw (p : Nat) (x : PeerRun) : (s.setPeer p x).draw = s.draw := (rfl)
@[simp] theorem State.peer_setPeer (p : Nat) (x : PeerRun) : (s.setPeer p x).peer p = x := by
  simp [State.peer, State.setPeer]
theorem State.peer_setPeer_other (p : Nat) (x : PeerRun) (other : Nat) (ne : other ≠ p) :
    (s.setPeer p x).peer other = s.peer other := by
  simp [State.peer, State.setPeer, Tbl.get_set_other, ne]

@[simp] theorem State.setLane_pending (l : Nat) (x : LaneRun) : (s.setLane l x).pending = s.pending := (rfl)
@[simp] theorem State.setLane_time (l : Nat) (x : LaneRun) : (s.setLane l x).time = s.time := (rfl)
@[simp] theorem State.setLane_ledger (l : Nat) (x : LaneRun) : (s.setLane l x).ledger = s.ledger := (rfl)
@[simp] theorem State.setLane_mail (l : Nat) (x : LaneRun) : (s.setLane l x).mail = s.mail := (rfl)
@[simp] theorem State.setLane_sets (l : Nat) (x : LaneRun) : (s.setLane l x).sets = s.sets := (rfl)
@[simp] theorem State.setLane_src (l : Nat) (x : LaneRun) : (s.setLane l x).src = s.src := (rfl)
@[simp] theorem State.setLane_comp (l : Nat) (x : LaneRun) : (s.setLane l x).comp = s.comp := (rfl)
@[simp] theorem State.setLane_heads (l : Nat) (x : LaneRun) : (s.setLane l x).heads = s.heads := (rfl)
@[simp] theorem State.setLane_panels (l : Nat) (x : LaneRun) : (s.setLane l x).panels = s.panels := (rfl)
@[simp] theorem State.setLane_panelInit (l : Nat) (x : LaneRun) : (s.setLane l x).panelInit = s.panelInit := (rfl)
@[simp] theorem State.setLane_keys (l : Nat) (x : LaneRun) : (s.setLane l x).keys = s.keys := (rfl)
@[simp] theorem State.setLane_keyRef (l : Nat) (x : LaneRun) : (s.setLane l x).keyRef = s.keyRef := (rfl)
@[simp] theorem State.setLane_encJobs (l : Nat) (x : LaneRun) : (s.setLane l x).encJobs = s.encJobs := (rfl)
@[simp] theorem State.setLane_enc (l : Nat) (x : LaneRun) : (s.setLane l x).enc = s.enc := (rfl)
@[simp] theorem State.setLane_pair (l : Nat) (x : LaneRun) : (s.setLane l x).pair = s.pair := (rfl)
@[simp] theorem State.setLane_mem (l : Nat) (x : LaneRun) : (s.setLane l x).mem = s.mem := (rfl)
@[simp] theorem State.setLane_fault (l : Nat) (x : LaneRun) : (s.setLane l x).fault = s.fault := (rfl)
@[simp] theorem State.setLane_sec (l : Nat) (x : LaneRun) : (s.setLane l x).sec = s.sec := (rfl)
@[simp] theorem State.setLane_power (l : Nat) (x : LaneRun) : (s.setLane l x).power = s.power := (rfl)
@[simp] theorem State.setLane_out (l : Nat) (x : LaneRun) : (s.setLane l x).out = s.out := (rfl)
@[simp] theorem State.setLane_draw (l : Nat) (x : LaneRun) : (s.setLane l x).draw = s.draw := (rfl)

@[simp] theorem State.setTile_pending (o t : Nat) (x : TileSt) : (s.setTile o t x).pending = s.pending := (rfl)
@[simp] theorem State.setTile_time (o t : Nat) (x : TileSt) : (s.setTile o t x).time = s.time := (rfl)
@[simp] theorem State.setTile_ledger (o t : Nat) (x : TileSt) : (s.setTile o t x).ledger = s.ledger := (rfl)
@[simp] theorem State.setTile_mail (o t : Nat) (x : TileSt) : (s.setTile o t x).mail = s.mail := (rfl)
@[simp] theorem State.setTile_sets (o t : Nat) (x : TileSt) : (s.setTile o t x).sets = s.sets := (rfl)
@[simp] theorem State.setTile_src (o t : Nat) (x : TileSt) : (s.setTile o t x).src = s.src := (rfl)
@[simp] theorem State.setTile_heads (o t : Nat) (x : TileSt) : (s.setTile o t x).heads = s.heads := (rfl)
@[simp] theorem State.setTile_panels (o t : Nat) (x : TileSt) : (s.setTile o t x).panels = s.panels := (rfl)
@[simp] theorem State.setTile_panelInit (o t : Nat) (x : TileSt) : (s.setTile o t x).panelInit = s.panelInit := (rfl)
@[simp] theorem State.setTile_keys (o t : Nat) (x : TileSt) : (s.setTile o t x).keys = s.keys := (rfl)
@[simp] theorem State.setTile_keyRef (o t : Nat) (x : TileSt) : (s.setTile o t x).keyRef = s.keyRef := (rfl)
@[simp] theorem State.setTile_encJobs (o t : Nat) (x : TileSt) : (s.setTile o t x).encJobs = s.encJobs := (rfl)
@[simp] theorem State.setTile_enc (o t : Nat) (x : TileSt) : (s.setTile o t x).enc = s.enc := (rfl)
@[simp] theorem State.setTile_links (o t : Nat) (x : TileSt) : (s.setTile o t x).links = s.links := (rfl)
@[simp] theorem State.setTile_pair (o t : Nat) (x : TileSt) : (s.setTile o t x).pair = s.pair := (rfl)
@[simp] theorem State.setTile_mem (o t : Nat) (x : TileSt) : (s.setTile o t x).mem = s.mem := (rfl)
@[simp] theorem State.setTile_fault (o t : Nat) (x : TileSt) : (s.setTile o t x).fault = s.fault := (rfl)
@[simp] theorem State.setTile_sec (o t : Nat) (x : TileSt) : (s.setTile o t x).sec = s.sec := (rfl)
@[simp] theorem State.setTile_power (o t : Nat) (x : TileSt) : (s.setTile o t x).power = s.power := (rfl)
@[simp] theorem State.setTile_out (o t : Nat) (x : TileSt) : (s.setTile o t x).out = s.out := (rfl)
@[simp] theorem State.setTile_draw (o t : Nat) (x : TileSt) : (s.setTile o t x).draw = s.draw := (rfl)

@[simp] theorem State.send_pending (x : Tx) : (s.send x).pending = s.pending := (rfl)
@[simp] theorem State.send_time (x : Tx) : (s.send x).time = s.time := (rfl)
@[simp] theorem State.send_ledger (x : Tx) : (s.send x).ledger = s.ledger := (rfl)
@[simp] theorem State.send_mail (x : Tx) : (s.send x).mail = s.mail := (rfl)
@[simp] theorem State.send_sets (x : Tx) : (s.send x).sets = s.sets := (rfl)
@[simp] theorem State.send_src (x : Tx) : (s.send x).src = s.src := (rfl)
@[simp] theorem State.send_comp (x : Tx) : (s.send x).comp = s.comp := (rfl)
@[simp] theorem State.send_heads (x : Tx) : (s.send x).heads = s.heads := (rfl)
@[simp] theorem State.send_panels (x : Tx) : (s.send x).panels = s.panels := (rfl)
@[simp] theorem State.send_panelInit (x : Tx) : (s.send x).panelInit = s.panelInit := (rfl)
@[simp] theorem State.send_keys (x : Tx) : (s.send x).keys = s.keys := (rfl)
@[simp] theorem State.send_keyRef (x : Tx) : (s.send x).keyRef = s.keyRef := (rfl)
@[simp] theorem State.send_encJobs (x : Tx) : (s.send x).encJobs = s.encJobs := (rfl)
@[simp] theorem State.send_enc (x : Tx) : (s.send x).enc = s.enc := (rfl)
@[simp] theorem State.send_links (x : Tx) : (s.send x).links = s.links := (rfl)
@[simp] theorem State.send_pair (x : Tx) : (s.send x).pair = s.pair := (rfl)
@[simp] theorem State.send_mem (x : Tx) : (s.send x).mem = s.mem := (rfl)
@[simp] theorem State.send_fault (x : Tx) : (s.send x).fault = s.fault := (rfl)
@[simp] theorem State.send_sec (x : Tx) : (s.send x).sec = s.sec := (rfl)
@[simp] theorem State.send_power (x : Tx) : (s.send x).power = s.power := (rfl)
@[simp] theorem State.send_draw (x : Tx) : (s.send x).draw = s.draw := (rfl)

@[simp] theorem State.elapse_pending (dt : Nat) : (s.elapse dt).pending = s.pending := (rfl)
@[simp] theorem State.elapse_ledger (dt : Nat) : (s.elapse dt).ledger = s.ledger := (rfl)
@[simp] theorem State.elapse_mail (dt : Nat) : (s.elapse dt).mail = s.mail := (rfl)
@[simp] theorem State.elapse_sets (dt : Nat) : (s.elapse dt).sets = s.sets := (rfl)
@[simp] theorem State.elapse_src (dt : Nat) : (s.elapse dt).src = s.src := (rfl)
@[simp] theorem State.elapse_comp (dt : Nat) : (s.elapse dt).comp = s.comp := (rfl)
@[simp] theorem State.elapse_heads (dt : Nat) : (s.elapse dt).heads = s.heads := (rfl)
@[simp] theorem State.elapse_panels (dt : Nat) : (s.elapse dt).panels = s.panels := (rfl)
@[simp] theorem State.elapse_panelInit (dt : Nat) : (s.elapse dt).panelInit = s.panelInit := (rfl)
@[simp] theorem State.elapse_keys (dt : Nat) : (s.elapse dt).keys = s.keys := (rfl)
@[simp] theorem State.elapse_keyRef (dt : Nat) : (s.elapse dt).keyRef = s.keyRef := (rfl)
@[simp] theorem State.elapse_encJobs (dt : Nat) : (s.elapse dt).encJobs = s.encJobs := (rfl)
@[simp] theorem State.elapse_enc (dt : Nat) : (s.elapse dt).enc = s.enc := (rfl)
@[simp] theorem State.elapse_links (dt : Nat) : (s.elapse dt).links = s.links := (rfl)
@[simp] theorem State.elapse_pair (dt : Nat) : (s.elapse dt).pair = s.pair := (rfl)
@[simp] theorem State.elapse_mem (dt : Nat) : (s.elapse dt).mem = s.mem := (rfl)
@[simp] theorem State.elapse_fault (dt : Nat) : (s.elapse dt).fault = s.fault := (rfl)
@[simp] theorem State.elapse_sec (dt : Nat) : (s.elapse dt).sec = s.sec := (rfl)
@[simp] theorem State.elapse_power (dt : Nat) : (s.elapse dt).power = s.power := (rfl)

@[simp] theorem State.setLane_lane (l : Nat) (x : LaneRun) : (s.setLane l x).links.lane l = x := by
  simp [LinksSt.lane, State.setLane]
@[simp] theorem State.tile_setTile (o t : Nat) (x : TileSt) : (s.setTile o t x).tile o t = x := by
  simp [State.tile, State.setTile]
@[simp] theorem State.send_out (x : Tx) : (s.send x).out = s.out ++ [x] := (rfl)
@[simp] theorem State.elapse_out (dt : Nat) : (s.elapse dt).out = [] := (rfl)
@[simp] theorem State.elapse_draw (dt : Nat) : (s.elapse dt).draw = s.draw + 65536 := (rfl)
@[simp] theorem State.elapse_now (dt : Nat) : (s.elapse dt).time.now = s.time.now + dt := (rfl)

end Sys2Proof.Machine
end

