-- ==== Sys2Proof/Laws/Frame.lean ====
section
/-!
SUPPORT. What each shared operation leaves unchanged: one lemma per operation, naming every field of the state it does
not touch.
-/
namespace Sys2Proof.Machine

theorem each_same {α β : Type} (g : State → β) (l : List α) (s : State) (f : State → α → State)
    (h : ∀ s a, g (f s a) = g s) : g (each l s f) = g s := by
  induction l generalizing s with
  | nil => rfl
  | cons a l ih => exact (ih (f s a)).trans (h s a)

@[simp] theorem each_pending {α : Type} (l : List α) (s : State) (f : State → α → State)
    (h : ∀ s a, (f s a).pending = s.pending) : (each l s f).pending = s.pending := each_same (·.pending) l s f h
@[simp] theorem ite_pending (c : Prop) [Decidable c] (a b : State) :
    (if c then a else b).pending = (if c then a.pending else b.pending) := by split <;> rfl
@[simp] theorem each_time {α : Type} (l : List α) (s : State) (f : State → α → State)
    (h : ∀ s a, (f s a).time = s.time) : (each l s f).time = s.time := each_same (·.time) l s f h
@[simp] theorem ite_time (c : Prop) [Decidable c] (a b : State) :
    (if c then a else b).time = (if c then a.time else b.time) := by split <;> rfl
@[simp] theorem each_ledger {α : Type} (l : List α) (s : State) (f : State → α → State)
    (h : ∀ s a, (f s a).ledger = s.ledger) : (each l s f).ledger = s.ledger := each_same (·.ledger) l s f h
@[simp] theorem ite_ledger (c : Prop) [Decidable c] (a b : State) :
    (if c then a else b).ledger = (if c then a.ledger else b.ledger) := by split <;> rfl
@[simp] theorem each_mail {α : Type} (l : List α) (s : State) (f : State → α → State)
    (h : ∀ s a, (f s a).mail = s.mail) : (each l s f).mail = s.mail := each_same (·.mail) l s f h
@[simp] theorem ite_mail (c : Prop) [Decidable c] (a b : State) :
    (if c then a else b).mail = (if c then a.mail else b.mail) := by split <;> rfl
@[simp] theorem each_sets {α : Type} (l : List α) (s : State) (f : State → α → State)
    (h : ∀ s a, (f s a).sets = s.sets) : (each l s f).sets = s.sets := each_same (·.sets) l s f h
@[simp] theorem ite_sets (c : Prop) [Decidable c] (a b : State) :
    (if c then a else b).sets = (if c then a.sets else b.sets) := by split <;> rfl
@[simp] theorem each_src {α : Type} (l : List α) (s : State) (f : State → α → State)
    (h : ∀ s a, (f s a).src = s.src) : (each l s f).src = s.src := each_same (·.src) l s f h
@[simp] theorem ite_src (c : Prop) [Decidable c] (a b : State) :
    (if c then a else b).src = (if c then a.src else b.src) := by split <;> rfl
@[simp] theorem each_comp {α : Type} (l : List α) (s : State) (f : State → α → State)
    (h : ∀ s a, (f s a).comp = s.comp) : (each l s f).comp = s.comp := each_same (·.comp) l s f h
@[simp] theorem ite_comp (c : Prop) [Decidable c] (a b : State) :
    (if c then a else b).comp = (if c then a.comp else b.comp) := by split <;> rfl
@[simp] theorem each_heads {α : Type} (l : List α) (s : State) (f : State → α → State)
    (h : ∀ s a, (f s a).heads = s.heads) : (each l s f).heads = s.heads := each_same (·.heads) l s f h
@[simp] theorem ite_heads (c : Prop) [Decidable c] (a b : State) :
    (if c then a else b).heads = (if c then a.heads else b.heads) := by split <;> rfl
@[simp] theorem each_panels {α : Type} (l : List α) (s : State) (f : State → α → State)
    (h : ∀ s a, (f s a).panels = s.panels) : (each l s f).panels = s.panels := each_same (·.panels) l s f h
@[simp] theorem ite_panels (c : Prop) [Decidable c] (a b : State) :
    (if c then a else b).panels = (if c then a.panels else b.panels) := by split <;> rfl
@[simp] theorem each_panelInit {α : Type} (l : List α) (s : State) (f : State → α → State)
    (h : ∀ s a, (f s a).panelInit = s.panelInit) : (each l s f).panelInit = s.panelInit := each_same (·.panelInit) l s f h
@[simp] theorem ite_panelInit (c : Prop) [Decidable c] (a b : State) :
    (if c then a else b).panelInit = (if c then a.panelInit else b.panelInit) := by split <;> rfl
@[simp] theorem each_keys {α : Type} (l : List α) (s : State) (f : State → α → State)
    (h : ∀ s a, (f s a).keys = s.keys) : (each l s f).keys = s.keys := each_same (·.keys) l s f h
@[simp] theorem ite_keys (c : Prop) [Decidable c] (a b : State) :
    (if c then a else b).keys = (if c then a.keys else b.keys) := by split <;> rfl
@[simp] theorem each_keyRef {α : Type} (l : List α) (s : State) (f : State → α → State)
    (h : ∀ s a, (f s a).keyRef = s.keyRef) : (each l s f).keyRef = s.keyRef := each_same (·.keyRef) l s f h
@[simp] theorem ite_keyRef (c : Prop) [Decidable c] (a b : State) :
    (if c then a else b).keyRef = (if c then a.keyRef else b.keyRef) := by split <;> rfl
@[simp] theorem each_encJobs {α : Type} (l : List α) (s : State) (f : State → α → State)
    (h : ∀ s a, (f s a).encJobs = s.encJobs) : (each l s f).encJobs = s.encJobs := each_same (·.encJobs) l s f h
@[simp] theorem ite_encJobs (c : Prop) [Decidable c] (a b : State) :
    (if c then a else b).encJobs = (if c then a.encJobs else b.encJobs) := by split <;> rfl
@[simp] theorem each_enc {α : Type} (l : List α) (s : State) (f : State → α → State)
    (h : ∀ s a, (f s a).enc = s.enc) : (each l s f).enc = s.enc := each_same (·.enc) l s f h
@[simp] theorem ite_enc (c : Prop) [Decidable c] (a b : State) :
    (if c then a else b).enc = (if c then a.enc else b.enc) := by split <;> rfl
@[simp] theorem each_links {α : Type} (l : List α) (s : State) (f : State → α → State)
    (h : ∀ s a, (f s a).links = s.links) : (each l s f).links = s.links := each_same (·.links) l s f h
@[simp] theorem ite_links (c : Prop) [Decidable c] (a b : State) :
    (if c then a else b).links = (if c then a.links else b.links) := by split <;> rfl
@[simp] theorem each_pair {α : Type} (l : List α) (s : State) (f : State → α → State)
    (h : ∀ s a, (f s a).pair = s.pair) : (each l s f).pair = s.pair := each_same (·.pair) l s f h
@[simp] theorem ite_pair (c : Prop) [Decidable c] (a b : State) :
    (if c then a else b).pair = (if c then a.pair else b.pair) := by split <;> rfl
@[simp] theorem each_mem {α : Type} (l : List α) (s : State) (f : State → α → State)
    (h : ∀ s a, (f s a).mem = s.mem) : (each l s f).mem = s.mem := each_same (·.mem) l s f h
@[simp] theorem ite_mem (c : Prop) [Decidable c] (a b : State) :
    (if c then a else b).mem = (if c then a.mem else b.mem) := by split <;> rfl
@[simp] theorem each_fault {α : Type} (l : List α) (s : State) (f : State → α → State)
    (h : ∀ s a, (f s a).fault = s.fault) : (each l s f).fault = s.fault := each_same (·.fault) l s f h
@[simp] theorem ite_fault (c : Prop) [Decidable c] (a b : State) :
    (if c then a else b).fault = (if c then a.fault else b.fault) := by split <;> rfl
@[simp] theorem each_sec {α : Type} (l : List α) (s : State) (f : State → α → State)
    (h : ∀ s a, (f s a).sec = s.sec) : (each l s f).sec = s.sec := each_same (·.sec) l s f h
@[simp] theorem ite_sec (c : Prop) [Decidable c] (a b : State) :
    (if c then a else b).sec = (if c then a.sec else b.sec) := by split <;> rfl
@[simp] theorem each_power {α : Type} (l : List α) (s : State) (f : State → α → State)
    (h : ∀ s a, (f s a).power = s.power) : (each l s f).power = s.power := each_same (·.power) l s f h
@[simp] theorem ite_power (c : Prop) [Decidable c] (a b : State) :
    (if c then a else b).power = (if c then a.power else b.power) := by split <;> rfl
@[simp] theorem each_out {α : Type} (l : List α) (s : State) (f : State → α → State)
    (h : ∀ s a, (f s a).out = s.out) : (each l s f).out = s.out := each_same (·.out) l s f h
@[simp] theorem ite_out (c : Prop) [Decidable c] (a b : State) :
    (if c then a else b).out = (if c then a.out else b.out) := by split <;> rfl
@[simp] theorem each_draw {α : Type} (l : List α) (s : State) (f : State → α → State)
    (h : ∀ s a, (f s a).draw = s.draw) : (each l s f).draw = s.draw := each_same (·.draw) l s f h
@[simp] theorem ite_draw (c : Prop) [Decidable c] (a b : State) :
    (if c then a else b).draw = (if c then a.draw else b.draw) := by split <;> rfl

@[simp] theorem State.setEth_frame (s : State) (port : Nat) (x : EthRun) :
    (State.setEth s port x).pending = s.pending ∧ (State.setEth s port x).time = s.time ∧ (State.setEth s port x).ledger = s.ledger ∧ (State.setEth s port x).mail = s.mail ∧ (State.setEth s port x).sets = s.sets ∧ (State.setEth s port x).src = s.src ∧ (State.setEth s port x).comp = s.comp ∧ (State.setEth s port x).heads = s.heads ∧ (State.setEth s port x).panels = s.panels ∧ (State.setEth s port x).panelInit = s.panelInit ∧ (State.setEth s port x).keys = s.keys ∧ (State.setEth s port x).keyRef = s.keyRef ∧ (State.setEth s port x).encJobs = s.encJobs ∧ (State.setEth s port x).enc = s.enc ∧ (State.setEth s port x).pair = s.pair ∧ (State.setEth s port x).mem = s.mem ∧ (State.setEth s port x).fault = s.fault ∧ (State.setEth s port x).sec = s.sec ∧ (State.setEth s port x).power = s.power ∧ (State.setEth s port x).out = s.out ∧ (State.setEth s port x).draw = s.draw := by
  simp [State.setEth]

@[simp] theorem State.ethSend_frame (s : State) (port : Nat) (f : EthFrame) :
    (State.ethSend s port f).pending = s.pending ∧ (State.ethSend s port f).time = s.time ∧ (State.ethSend s port f).ledger = s.ledger ∧ (State.ethSend s port f).mail = s.mail ∧ (State.ethSend s port f).sets = s.sets ∧ (State.ethSend s port f).src = s.src ∧ (State.ethSend s port f).comp = s.comp ∧ (State.ethSend s port f).heads = s.heads ∧ (State.ethSend s port f).panels = s.panels ∧ (State.ethSend s port f).panelInit = s.panelInit ∧ (State.ethSend s port f).keys = s.keys ∧ (State.ethSend s port f).keyRef = s.keyRef ∧ (State.ethSend s port f).encJobs = s.encJobs ∧ (State.ethSend s port f).enc = s.enc ∧ (State.ethSend s port f).links = s.links ∧ (State.ethSend s port f).pair = s.pair ∧ (State.ethSend s port f).mem = s.mem ∧ (State.ethSend s port f).fault = s.fault ∧ (State.ethSend s port f).sec = s.sec ∧ (State.ethSend s port f).power = s.power ∧ (State.ethSend s port f).draw = s.draw := by
  unfold State.ethSend; (try dsimp only); (repeat' split) <;> simp

@[simp] theorem State.ethSendTo_frame (s : State) (port dst : Nat) (f : EthFrame) :
    (State.ethSendTo s port dst f).pending = s.pending ∧ (State.ethSendTo s port dst f).time = s.time ∧ (State.ethSendTo s port dst f).ledger = s.ledger ∧ (State.ethSendTo s port dst f).mail = s.mail ∧ (State.ethSendTo s port dst f).sets = s.sets ∧ (State.ethSendTo s port dst f).src = s.src ∧ (State.ethSendTo s port dst f).comp = s.comp ∧ (State.ethSendTo s port dst f).heads = s.heads ∧ (State.ethSendTo s port dst f).panels = s.panels ∧ (State.ethSendTo s port dst f).panelInit = s.panelInit ∧ (State.ethSendTo s port dst f).keys = s.keys ∧ (State.ethSendTo s port dst f).keyRef = s.keyRef ∧ (State.ethSendTo s port dst f).encJobs = s.encJobs ∧ (State.ethSendTo s port dst f).enc = s.enc ∧ (State.ethSendTo s port dst f).links = s.links ∧ (State.ethSendTo s port dst f).pair = s.pair ∧ (State.ethSendTo s port dst f).mem = s.mem ∧ (State.ethSendTo s port dst f).fault = s.fault ∧ (State.ethSendTo s port dst f).sec = s.sec ∧ (State.ethSendTo s port dst f).power = s.power ∧ (State.ethSendTo s port dst f).draw = s.draw := by
  simp [State.ethSendTo]

@[simp] theorem State.encReprice_frame (s : State) :
    (State.encReprice s).pending = s.pending ∧ (State.encReprice s).time = s.time ∧ (State.encReprice s).ledger = s.ledger ∧ (State.encReprice s).mail = s.mail ∧ (State.encReprice s).sets = s.sets ∧ (State.encReprice s).src = s.src ∧ (State.encReprice s).comp = s.comp ∧ (State.encReprice s).heads = s.heads ∧ (State.encReprice s).panels = s.panels ∧ (State.encReprice s).panelInit = s.panelInit ∧ (State.encReprice s).keys = s.keys ∧ (State.encReprice s).keyRef = s.keyRef ∧ (State.encReprice s).encJobs = s.encJobs ∧ (State.encReprice s).links = s.links ∧ (State.encReprice s).pair = s.pair ∧ (State.encReprice s).mem = s.mem ∧ (State.encReprice s).fault = s.fault ∧ (State.encReprice s).sec = s.sec ∧ (State.encReprice s).power = s.power ∧ (State.encReprice s).out = s.out ∧ (State.encReprice s).draw = s.draw := by
  simp [State.encReprice]

@[simp] theorem State.notePanic_frame (s : State) :
    (State.notePanic s).pending = s.pending ∧ (State.notePanic s).time = s.time ∧ (State.notePanic s).ledger = s.ledger ∧ (State.notePanic s).mail = s.mail ∧ (State.notePanic s).sets = s.sets ∧ (State.notePanic s).src = s.src ∧ (State.notePanic s).comp = s.comp ∧ (State.notePanic s).heads = s.heads ∧ (State.notePanic s).panels = s.panels ∧ (State.notePanic s).panelInit = s.panelInit ∧ (State.notePanic s).keys = s.keys ∧ (State.notePanic s).keyRef = s.keyRef ∧ (State.notePanic s).encJobs = s.encJobs ∧ (State.notePanic s).enc = s.enc ∧ (State.notePanic s).links = s.links ∧ (State.notePanic s).pair = s.pair ∧ (State.notePanic s).fault = s.fault ∧ (State.notePanic s).sec = s.sec ∧ (State.notePanic s).power = s.power ∧ (State.notePanic s).out = s.out ∧ (State.notePanic s).draw = s.draw := by
  unfold State.notePanic; (try dsimp only); (repeat' split) <;> simp

@[simp] theorem State.lookPush_frame (s : State) (p : Nat) :
    (State.lookPush s p).pending = s.pending ∧ (State.lookPush s p).time = s.time ∧ (State.lookPush s p).ledger = s.ledger ∧ (State.lookPush s p).mail = s.mail ∧ (State.lookPush s p).sets = s.sets ∧ (State.lookPush s p).src = s.src ∧ (State.lookPush s p).comp = s.comp ∧ (State.lookPush s p).heads = s.heads ∧ (State.lookPush s p).panelInit = s.panelInit ∧ (State.lookPush s p).keys = s.keys ∧ (State.lookPush s p).keyRef = s.keyRef ∧ (State.lookPush s p).encJobs = s.encJobs ∧ (State.lookPush s p).enc = s.enc ∧ (State.lookPush s p).links = s.links ∧ (State.lookPush s p).pair = s.pair ∧ (State.lookPush s p).mem = s.mem ∧ (State.lookPush s p).fault = s.fault ∧ (State.lookPush s p).sec = s.sec ∧ (State.lookPush s p).power = s.power ∧ (State.lookPush s p).out = s.out ∧ (State.lookPush s p).draw = s.draw := by
  simp [State.lookPush]

@[simp] theorem State.lookPushes_frame (s : State) :
    (State.lookPushes s).pending = s.pending ∧ (State.lookPushes s).time = s.time ∧ (State.lookPushes s).ledger = s.ledger ∧ (State.lookPushes s).mail = s.mail ∧ (State.lookPushes s).sets = s.sets ∧ (State.lookPushes s).src = s.src ∧ (State.lookPushes s).comp = s.comp ∧ (State.lookPushes s).heads = s.heads ∧ (State.lookPushes s).panelInit = s.panelInit ∧ (State.lookPushes s).keys = s.keys ∧ (State.lookPushes s).keyRef = s.keyRef ∧ (State.lookPushes s).encJobs = s.encJobs ∧ (State.lookPushes s).enc = s.enc ∧ (State.lookPushes s).links = s.links ∧ (State.lookPushes s).pair = s.pair ∧ (State.lookPushes s).fault = s.fault ∧ (State.lookPushes s).sec = s.sec ∧ (State.lookPushes s).power = s.power ∧ (State.lookPushes s).out = s.out ∧ (State.lookPushes s).draw = s.draw := by
  simp [State.lookPushes]

@[simp] theorem State.putRecord_frame (s : State) (r : LedgerRec) :
    (State.putRecord s r).pending = s.pending ∧ (State.putRecord s r).time = s.time ∧ (State.putRecord s r).mail = s.mail ∧ (State.putRecord s r).sets = s.sets ∧ (State.putRecord s r).src = s.src ∧ (State.putRecord s r).comp = s.comp ∧ (State.putRecord s r).heads = s.heads ∧ (State.putRecord s r).panels = s.panels ∧ (State.putRecord s r).panelInit = s.panelInit ∧ (State.putRecord s r).keys = s.keys ∧ (State.putRecord s r).keyRef = s.keyRef ∧ (State.putRecord s r).encJobs = s.encJobs ∧ (State.putRecord s r).enc = s.enc ∧ (State.putRecord s r).links = s.links ∧ (State.putRecord s r).pair = s.pair ∧ (State.putRecord s r).mem = s.mem ∧ (State.putRecord s r).fault = s.fault ∧ (State.putRecord s r).sec = s.sec ∧ (State.putRecord s r).power = s.power ∧ (State.putRecord s r).out = s.out ∧ (State.putRecord s r).draw = s.draw := by
  simp [State.putRecord]

@[simp] theorem State.ledgerStart_frame (s : State) :
    (State.ledgerStart s).pending = s.pending ∧ (State.ledgerStart s).time = s.time ∧ (State.ledgerStart s).mail = s.mail ∧ (State.ledgerStart s).sets = s.sets ∧ (State.ledgerStart s).src = s.src ∧ (State.ledgerStart s).comp = s.comp ∧ (State.ledgerStart s).heads = s.heads ∧ (State.ledgerStart s).panels = s.panels ∧ (State.ledgerStart s).panelInit = s.panelInit ∧ (State.ledgerStart s).keys = s.keys ∧ (State.ledgerStart s).keyRef = s.keyRef ∧ (State.ledgerStart s).encJobs = s.encJobs ∧ (State.ledgerStart s).enc = s.enc ∧ (State.ledgerStart s).links = s.links ∧ (State.ledgerStart s).pair = s.pair ∧ (State.ledgerStart s).mem = s.mem ∧ (State.ledgerStart s).fault = s.fault ∧ (State.ledgerStart s).sec = s.sec ∧ (State.ledgerStart s).power = s.power ∧ (State.ledgerStart s).out = s.out ∧ (State.ledgerStart s).draw = s.draw := by
  unfold State.ledgerStart; (try dsimp only); (repeat' split) <;> simp

@[simp] theorem State.anchor_frame (s : State) :
    (State.anchor s).pending = s.pending ∧ (State.anchor s).time = s.time ∧ (State.anchor s).mail = s.mail ∧ (State.anchor s).sets = s.sets ∧ (State.anchor s).src = s.src ∧ (State.anchor s).comp = s.comp ∧ (State.anchor s).heads = s.heads ∧ (State.anchor s).panels = s.panels ∧ (State.anchor s).panelInit = s.panelInit ∧ (State.anchor s).keys = s.keys ∧ (State.anchor s).keyRef = s.keyRef ∧ (State.anchor s).encJobs = s.encJobs ∧ (State.anchor s).enc = s.enc ∧ (State.anchor s).links = s.links ∧ (State.anchor s).pair = s.pair ∧ (State.anchor s).mem = s.mem ∧ (State.anchor s).fault = s.fault ∧ (State.anchor s).sec = s.sec ∧ (State.anchor s).power = s.power ∧ (State.anchor s).out = s.out ∧ (State.anchor s).draw = s.draw := by
  unfold State.anchor; (try dsimp only); (repeat' split) <;> simp

@[simp] theorem State.logFrom_frame (s : State) (origin inst code : Nat) (ps : List Nat) :
    (State.logFrom s origin inst code ps).pending = s.pending ∧ (State.logFrom s origin inst code ps).time = s.time ∧ (State.logFrom s origin inst code ps).mail = s.mail ∧ (State.logFrom s origin inst code ps).sets = s.sets ∧ (State.logFrom s origin inst code ps).src = s.src ∧ (State.logFrom s origin inst code ps).comp = s.comp ∧ (State.logFrom s origin inst code ps).heads = s.heads ∧ (State.logFrom s origin inst code ps).panels = s.panels ∧ (State.logFrom s origin inst code ps).panelInit = s.panelInit ∧ (State.logFrom s origin inst code ps).keys = s.keys ∧ (State.logFrom s origin inst code ps).keyRef = s.keyRef ∧ (State.logFrom s origin inst code ps).encJobs = s.encJobs ∧ (State.logFrom s origin inst code ps).enc = s.enc ∧ (State.logFrom s origin inst code ps).links = s.links ∧ (State.logFrom s origin inst code ps).pair = s.pair ∧ (State.logFrom s origin inst code ps).mem = s.mem ∧ (State.logFrom s origin inst code ps).fault = s.fault ∧ (State.logFrom s origin inst code ps).sec = s.sec ∧ (State.logFrom s origin inst code ps).power = s.power ∧ (State.logFrom s origin inst code ps).out = s.out ∧ (State.logFrom s origin inst code ps).draw = s.draw := by
  simp [State.logFrom]

@[simp] theorem State.log_frame (s : State) (code : Nat) (ps : List Nat) :
    (State.log s code ps).pending = s.pending ∧ (State.log s code ps).time = s.time ∧ (State.log s code ps).mail = s.mail ∧ (State.log s code ps).sets = s.sets ∧ (State.log s code ps).src = s.src ∧ (State.log s code ps).comp = s.comp ∧ (State.log s code ps).heads = s.heads ∧ (State.log s code ps).panels = s.panels ∧ (State.log s code ps).panelInit = s.panelInit ∧ (State.log s code ps).keys = s.keys ∧ (State.log s code ps).keyRef = s.keyRef ∧ (State.log s code ps).encJobs = s.encJobs ∧ (State.log s code ps).enc = s.enc ∧ (State.log s code ps).links = s.links ∧ (State.log s code ps).pair = s.pair ∧ (State.log s code ps).mem = s.mem ∧ (State.log s code ps).fault = s.fault ∧ (State.log s code ps).sec = s.sec ∧ (State.log s code ps).power = s.power ∧ (State.log s code ps).out = s.out ∧ (State.log s code ps).draw = s.draw := by
  simp [State.log]

@[simp] theorem State.logLimited_frame (s : State) (code unit period n aux : Nat) (mk : Nat → Nat → List Nat) :
    (State.logLimited s code unit period n aux mk).pending = s.pending ∧ (State.logLimited s code unit period n aux mk).time = s.time ∧ (State.logLimited s code unit period n aux mk).mail = s.mail ∧ (State.logLimited s code unit period n aux mk).sets = s.sets ∧ (State.logLimited s code unit period n aux mk).src = s.src ∧ (State.logLimited s code unit period n aux mk).comp = s.comp ∧ (State.logLimited s code unit period n aux mk).heads = s.heads ∧ (State.logLimited s code unit period n aux mk).panels = s.panels ∧ (State.logLimited s code unit period n aux mk).panelInit = s.panelInit ∧ (State.logLimited s code unit period n aux mk).keys = s.keys ∧ (State.logLimited s code unit period n aux mk).keyRef = s.keyRef ∧ (State.logLimited s code unit period n aux mk).encJobs = s.encJobs ∧ (State.logLimited s code unit period n aux mk).enc = s.enc ∧ (State.logLimited s code unit period n aux mk).links = s.links ∧ (State.logLimited s code unit period n aux mk).pair = s.pair ∧ (State.logLimited s code unit period n aux mk).mem = s.mem ∧ (State.logLimited s code unit period n aux mk).fault = s.fault ∧ (State.logLimited s code unit period n aux mk).sec = s.sec ∧ (State.logLimited s code unit period n aux mk).power = s.power ∧ (State.logLimited s code unit period n aux mk).out = s.out ∧ (State.logLimited s code unit period n aux mk).draw = s.draw := by
  simp [State.logLimited]

@[simp] theorem State.notify_frame (s : State) (p v : Nat) :
    (State.notify s p v).pending = s.pending ∧ (State.notify s p v).time = s.time ∧ (State.notify s p v).ledger = s.ledger ∧ (State.notify s p v).sets = s.sets ∧ (State.notify s p v).src = s.src ∧ (State.notify s p v).comp = s.comp ∧ (State.notify s p v).heads = s.heads ∧ (State.notify s p v).panels = s.panels ∧ (State.notify s p v).panelInit = s.panelInit ∧ (State.notify s p v).keys = s.keys ∧ (State.notify s p v).keyRef = s.keyRef ∧ (State.notify s p v).encJobs = s.encJobs ∧ (State.notify s p v).enc = s.enc ∧ (State.notify s p v).links = s.links ∧ (State.notify s p v).pair = s.pair ∧ (State.notify s p v).mem = s.mem ∧ (State.notify s p v).fault = s.fault ∧ (State.notify s p v).sec = s.sec ∧ (State.notify s p v).power = s.power ∧ (State.notify s p v).draw = s.draw := by
  simp [State.notify]

@[simp] theorem State.pushEvent_frame (s : State) (p : Nat) (event flags time : Nat) (ps : List Nat) :
    (State.pushEvent s p event flags time ps).pending = s.pending ∧ (State.pushEvent s p event flags time ps).time = s.time ∧ (State.pushEvent s p event flags time ps).ledger = s.ledger ∧ (State.pushEvent s p event flags time ps).sets = s.sets ∧ (State.pushEvent s p event flags time ps).src = s.src ∧ (State.pushEvent s p event flags time ps).comp = s.comp ∧ (State.pushEvent s p event flags time ps).heads = s.heads ∧ (State.pushEvent s p event flags time ps).panels = s.panels ∧ (State.pushEvent s p event flags time ps).panelInit = s.panelInit ∧ (State.pushEvent s p event flags time ps).keys = s.keys ∧ (State.pushEvent s p event flags time ps).keyRef = s.keyRef ∧ (State.pushEvent s p event flags time ps).encJobs = s.encJobs ∧ (State.pushEvent s p event flags time ps).enc = s.enc ∧ (State.pushEvent s p event flags time ps).links = s.links ∧ (State.pushEvent s p event flags time ps).pair = s.pair ∧ (State.pushEvent s p event flags time ps).mem = s.mem ∧ (State.pushEvent s p event flags time ps).fault = s.fault ∧ (State.pushEvent s p event flags time ps).sec = s.sec ∧ (State.pushEvent s p event flags time ps).power = s.power ∧ (State.pushEvent s p event flags time ps).draw = s.draw := by
  simp [State.pushEvent]

@[simp] theorem State.dropEvent_frame (s : State) (p time : Nat) :
    (State.dropEvent s p time).pending = s.pending ∧ (State.dropEvent s p time).time = s.time ∧ (State.dropEvent s p time).ledger = s.ledger ∧ (State.dropEvent s p time).sets = s.sets ∧ (State.dropEvent s p time).src = s.src ∧ (State.dropEvent s p time).comp = s.comp ∧ (State.dropEvent s p time).heads = s.heads ∧ (State.dropEvent s p time).panels = s.panels ∧ (State.dropEvent s p time).panelInit = s.panelInit ∧ (State.dropEvent s p time).keys = s.keys ∧ (State.dropEvent s p time).keyRef = s.keyRef ∧ (State.dropEvent s p time).encJobs = s.encJobs ∧ (State.dropEvent s p time).enc = s.enc ∧ (State.dropEvent s p time).links = s.links ∧ (State.dropEvent s p time).pair = s.pair ∧ (State.dropEvent s p time).mem = s.mem ∧ (State.dropEvent s p time).fault = s.fault ∧ (State.dropEvent s p time).sec = s.sec ∧ (State.dropEvent s p time).power = s.power ∧ (State.dropEvent s p time).out = s.out ∧ (State.dropEvent s p time).draw = s.draw := by
  simp [State.dropEvent]

@[simp] theorem State.postEventAt_frame (s : State) (p event flags time : Nat) (ps : List Nat) :
    (State.postEventAt s p event flags time ps).pending = s.pending ∧ (State.postEventAt s p event flags time ps).time = s.time ∧ (State.postEventAt s p event flags time ps).ledger = s.ledger ∧ (State.postEventAt s p event flags time ps).sets = s.sets ∧ (State.postEventAt s p event flags time ps).src = s.src ∧ (State.postEventAt s p event flags time ps).comp = s.comp ∧ (State.postEventAt s p event flags time ps).heads = s.heads ∧ (State.postEventAt s p event flags time ps).panels = s.panels ∧ (State.postEventAt s p event flags time ps).panelInit = s.panelInit ∧ (State.postEventAt s p event flags time ps).keys = s.keys ∧ (State.postEventAt s p event flags time ps).keyRef = s.keyRef ∧ (State.postEventAt s p event flags time ps).encJobs = s.encJobs ∧ (State.postEventAt s p event flags time ps).enc = s.enc ∧ (State.postEventAt s p event flags time ps).links = s.links ∧ (State.postEventAt s p event flags time ps).pair = s.pair ∧ (State.postEventAt s p event flags time ps).mem = s.mem ∧ (State.postEventAt s p event flags time ps).fault = s.fault ∧ (State.postEventAt s p event flags time ps).sec = s.sec ∧ (State.postEventAt s p event flags time ps).power = s.power ∧ (State.postEventAt s p event flags time ps).draw = s.draw := by
  simp [State.postEventAt]

@[simp] theorem State.postEvent_frame (s : State) (p event : Nat) (ps : List Nat) :
    (State.postEvent s p event ps).pending = s.pending ∧ (State.postEvent s p event ps).time = s.time ∧ (State.postEvent s p event ps).ledger = s.ledger ∧ (State.postEvent s p event ps).sets = s.sets ∧ (State.postEvent s p event ps).src = s.src ∧ (State.postEvent s p event ps).comp = s.comp ∧ (State.postEvent s p event ps).heads = s.heads ∧ (State.postEvent s p event ps).panels = s.panels ∧ (State.postEvent s p event ps).panelInit = s.panelInit ∧ (State.postEvent s p event ps).keys = s.keys ∧ (State.postEvent s p event ps).keyRef = s.keyRef ∧ (State.postEvent s p event ps).encJobs = s.encJobs ∧ (State.postEvent s p event ps).enc = s.enc ∧ (State.postEvent s p event ps).links = s.links ∧ (State.postEvent s p event ps).pair = s.pair ∧ (State.postEvent s p event ps).mem = s.mem ∧ (State.postEvent s p event ps).fault = s.fault ∧ (State.postEvent s p event ps).sec = s.sec ∧ (State.postEvent s p event ps).power = s.power ∧ (State.postEvent s p event ps).draw = s.draw := by
  simp [State.postEvent]

@[simp] theorem State.postAll_frame (s : State) (event : Nat) (ps : List Nat) :
    (State.postAll s event ps).pending = s.pending ∧ (State.postAll s event ps).time = s.time ∧ (State.postAll s event ps).ledger = s.ledger ∧ (State.postAll s event ps).sets = s.sets ∧ (State.postAll s event ps).src = s.src ∧ (State.postAll s event ps).comp = s.comp ∧ (State.postAll s event ps).heads = s.heads ∧ (State.postAll s event ps).panels = s.panels ∧ (State.postAll s event ps).panelInit = s.panelInit ∧ (State.postAll s event ps).keys = s.keys ∧ (State.postAll s event ps).keyRef = s.keyRef ∧ (State.postAll s event ps).encJobs = s.encJobs ∧ (State.postAll s event ps).enc = s.enc ∧ (State.postAll s event ps).links = s.links ∧ (State.postAll s event ps).pair = s.pair ∧ (State.postAll s event ps).mem = s.mem ∧ (State.postAll s event ps).fault = s.fault ∧ (State.postAll s event ps).sec = s.sec ∧ (State.postAll s event ps).power = s.power ∧ (State.postAll s event ps).draw = s.draw := by
  simp [State.postAll]

@[simp] theorem State.postEnabled_frame (s : State) (event : Nat) (test : BitVec 544 → Bool) (ps : List Nat) :
    (State.postEnabled s event test ps).pending = s.pending ∧ (State.postEnabled s event test ps).time = s.time ∧ (State.postEnabled s event test ps).ledger = s.ledger ∧ (State.postEnabled s event test ps).sets = s.sets ∧ (State.postEnabled s event test ps).src = s.src ∧ (State.postEnabled s event test ps).comp = s.comp ∧ (State.postEnabled s event test ps).heads = s.heads ∧ (State.postEnabled s event test ps).panels = s.panels ∧ (State.postEnabled s event test ps).panelInit = s.panelInit ∧ (State.postEnabled s event test ps).keys = s.keys ∧ (State.postEnabled s event test ps).keyRef = s.keyRef ∧ (State.postEnabled s event test ps).encJobs = s.encJobs ∧ (State.postEnabled s event test ps).enc = s.enc ∧ (State.postEnabled s event test ps).links = s.links ∧ (State.postEnabled s event test ps).pair = s.pair ∧ (State.postEnabled s event test ps).mem = s.mem ∧ (State.postEnabled s event test ps).fault = s.fault ∧ (State.postEnabled s event test ps).sec = s.sec ∧ (State.postEnabled s event test ps).power = s.power ∧ (State.postEnabled s event test ps).draw = s.draw := by
  simp [State.postEnabled]

@[simp] theorem State.postLost_frame (s : State) (p : Nat) :
    (State.postLost s p).pending = s.pending ∧ (State.postLost s p).time = s.time ∧ (State.postLost s p).sets = s.sets ∧ (State.postLost s p).src = s.src ∧ (State.postLost s p).comp = s.comp ∧ (State.postLost s p).heads = s.heads ∧ (State.postLost s p).panels = s.panels ∧ (State.postLost s p).panelInit = s.panelInit ∧ (State.postLost s p).keys = s.keys ∧ (State.postLost s p).keyRef = s.keyRef ∧ (State.postLost s p).encJobs = s.encJobs ∧ (State.postLost s p).enc = s.enc ∧ (State.postLost s p).links = s.links ∧ (State.postLost s p).pair = s.pair ∧ (State.postLost s p).mem = s.mem ∧ (State.postLost s p).fault = s.fault ∧ (State.postLost s p).sec = s.sec ∧ (State.postLost s p).power = s.power ∧ (State.postLost s p).draw = s.draw := by
  unfold State.postLost; (try dsimp only); (repeat' split) <;> simp

@[simp] theorem State.fillSlot_frame (s : State) (p : Nat) (r : Response) :
    (State.fillSlot s p r).pending = s.pending ∧ (State.fillSlot s p r).time = s.time ∧ (State.fillSlot s p r).ledger = s.ledger ∧ (State.fillSlot s p r).sets = s.sets ∧ (State.fillSlot s p r).src = s.src ∧ (State.fillSlot s p r).comp = s.comp ∧ (State.fillSlot s p r).heads = s.heads ∧ (State.fillSlot s p r).panels = s.panels ∧ (State.fillSlot s p r).panelInit = s.panelInit ∧ (State.fillSlot s p r).keys = s.keys ∧ (State.fillSlot s p r).keyRef = s.keyRef ∧ (State.fillSlot s p r).encJobs = s.encJobs ∧ (State.fillSlot s p r).enc = s.enc ∧ (State.fillSlot s p r).links = s.links ∧ (State.fillSlot s p r).pair = s.pair ∧ (State.fillSlot s p r).mem = s.mem ∧ (State.fillSlot s p r).fault = s.fault ∧ (State.fillSlot s p r).sec = s.sec ∧ (State.fillSlot s p r).power = s.power ∧ (State.fillSlot s p r).draw = s.draw := by
  unfold State.fillSlot; (try dsimp only); (repeat' split) <;> simp

@[simp] theorem State.postResponse_frame (s : State) (p : Nat) (r : Response) :
    (State.postResponse s p r).pending = s.pending ∧ (State.postResponse s p r).time = s.time ∧ (State.postResponse s p r).ledger = s.ledger ∧ (State.postResponse s p r).sets = s.sets ∧ (State.postResponse s p r).src = s.src ∧ (State.postResponse s p r).comp = s.comp ∧ (State.postResponse s p r).heads = s.heads ∧ (State.postResponse s p r).panels = s.panels ∧ (State.postResponse s p r).panelInit = s.panelInit ∧ (State.postResponse s p r).keys = s.keys ∧ (State.postResponse s p r).keyRef = s.keyRef ∧ (State.postResponse s p r).encJobs = s.encJobs ∧ (State.postResponse s p r).enc = s.enc ∧ (State.postResponse s p r).links = s.links ∧ (State.postResponse s p r).pair = s.pair ∧ (State.postResponse s p r).mem = s.mem ∧ (State.postResponse s p r).fault = s.fault ∧ (State.postResponse s p r).sec = s.sec ∧ (State.postResponse s p r).power = s.power ∧ (State.postResponse s p r).draw = s.draw := by
  simp [State.postResponse]

@[simp] theorem State.answer_frame (s : State) (p : Nat) (r : Request) (status : Nat) (payload : Bytes) :
    (State.answer s p r status payload).pending = s.pending ∧ (State.answer s p r status payload).time = s.time ∧ (State.answer s p r status payload).ledger = s.ledger ∧ (State.answer s p r status payload).sets = s.sets ∧ (State.answer s p r status payload).src = s.src ∧ (State.answer s p r status payload).comp = s.comp ∧ (State.answer s p r status payload).heads = s.heads ∧ (State.answer s p r status payload).panels = s.panels ∧ (State.answer s p r status payload).panelInit = s.panelInit ∧ (State.answer s p r status payload).keys = s.keys ∧ (State.answer s p r status payload).keyRef = s.keyRef ∧ (State.answer s p r status payload).encJobs = s.encJobs ∧ (State.answer s p r status payload).enc = s.enc ∧ (State.answer s p r status payload).links = s.links ∧ (State.answer s p r status payload).pair = s.pair ∧ (State.answer s p r status payload).mem = s.mem ∧ (State.answer s p r status payload).fault = s.fault ∧ (State.answer s p r status payload).sec = s.sec ∧ (State.answer s p r status payload).power = s.power ∧ (State.answer s p r status payload).draw = s.draw := by
  simp [State.answer]

@[simp] theorem State.status_frame (s : State) (p : Nat) (r : Request) (st : Nat) :
    (State.status s p r st).pending = s.pending ∧ (State.status s p r st).time = s.time ∧ (State.status s p r st).ledger = s.ledger ∧ (State.status s p r st).sets = s.sets ∧ (State.status s p r st).src = s.src ∧ (State.status s p r st).comp = s.comp ∧ (State.status s p r st).heads = s.heads ∧ (State.status s p r st).panels = s.panels ∧ (State.status s p r st).panelInit = s.panelInit ∧ (State.status s p r st).keys = s.keys ∧ (State.status s p r st).keyRef = s.keyRef ∧ (State.status s p r st).encJobs = s.encJobs ∧ (State.status s p r st).enc = s.enc ∧ (State.status s p r st).links = s.links ∧ (State.status s p r st).pair = s.pair ∧ (State.status s p r st).mem = s.mem ∧ (State.status s p r st).fault = s.fault ∧ (State.status s p r st).sec = s.sec ∧ (State.status s p r st).power = s.power ∧ (State.status s p r st).draw = s.draw := by
  simp [State.status]

@[simp] theorem State.hold_frame (s : State) (p : Nat) (r : Request) (job : Nat) :
    (State.hold s p r job).pending = s.pending ∧ (State.hold s p r job).time = s.time ∧ (State.hold s p r job).ledger = s.ledger ∧ (State.hold s p r job).sets = s.sets ∧ (State.hold s p r job).src = s.src ∧ (State.hold s p r job).comp = s.comp ∧ (State.hold s p r job).heads = s.heads ∧ (State.hold s p r job).panels = s.panels ∧ (State.hold s p r job).panelInit = s.panelInit ∧ (State.hold s p r job).keys = s.keys ∧ (State.hold s p r job).keyRef = s.keyRef ∧ (State.hold s p r job).encJobs = s.encJobs ∧ (State.hold s p r job).enc = s.enc ∧ (State.hold s p r job).links = s.links ∧ (State.hold s p r job).pair = s.pair ∧ (State.hold s p r job).mem = s.mem ∧ (State.hold s p r job).fault = s.fault ∧ (State.hold s p r job).sec = s.sec ∧ (State.hold s p r job).power = s.power ∧ (State.hold s p r job).draw = s.draw := by
  simp [State.hold]

@[simp] theorem State.release_frame (s : State) (p opcode tag status : Nat) (payload : Bytes) :
    (State.release s p opcode tag status payload).pending = s.pending ∧ (State.release s p opcode tag status payload).time = s.time ∧ (State.release s p opcode tag status payload).ledger = s.ledger ∧ (State.release s p opcode tag status payload).sets = s.sets ∧ (State.release s p opcode tag status payload).src = s.src ∧ (State.release s p opcode tag status payload).comp = s.comp ∧ (State.release s p opcode tag status payload).heads = s.heads ∧ (State.release s p opcode tag status payload).panels = s.panels ∧ (State.release s p opcode tag status payload).panelInit = s.panelInit ∧ (State.release s p opcode tag status payload).keys = s.keys ∧ (State.release s p opcode tag status payload).keyRef = s.keyRef ∧ (State.release s p opcode tag status payload).encJobs = s.encJobs ∧ (State.release s p opcode tag status payload).enc = s.enc ∧ (State.release s p opcode tag status payload).links = s.links ∧ (State.release s p opcode tag status payload).pair = s.pair ∧ (State.release s p opcode tag status payload).mem = s.mem ∧ (State.release s p opcode tag status payload).fault = s.fault ∧ (State.release s p opcode tag status payload).sec = s.sec ∧ (State.release s p opcode tag status payload).power = s.power ∧ (State.release s p opcode tag status payload).draw = s.draw := by
  unfold State.release; (try dsimp only); (repeat' split) <;> simp

@[simp] theorem State.notifyHealth_frame (s : State) (force : Bool) :
    (State.notifyHealth s force).pending = s.pending ∧ (State.notifyHealth s force).time = s.time ∧ (State.notifyHealth s force).ledger = s.ledger ∧ (State.notifyHealth s force).sets = s.sets ∧ (State.notifyHealth s force).src = s.src ∧ (State.notifyHealth s force).comp = s.comp ∧ (State.notifyHealth s force).heads = s.heads ∧ (State.notifyHealth s force).panels = s.panels ∧ (State.notifyHealth s force).panelInit = s.panelInit ∧ (State.notifyHealth s force).keys = s.keys ∧ (State.notifyHealth s force).keyRef = s.keyRef ∧ (State.notifyHealth s force).encJobs = s.encJobs ∧ (State.notifyHealth s force).enc = s.enc ∧ (State.notifyHealth s force).links = s.links ∧ (State.notifyHealth s force).pair = s.pair ∧ (State.notifyHealth s force).mem = s.mem ∧ (State.notifyHealth s force).sec = s.sec ∧ (State.notifyHealth s force).power = s.power ∧ (State.notifyHealth s force).draw = s.draw := by
  unfold State.notifyHealth; (try dsimp only); (repeat' split) <;> simp

@[simp] theorem State.sendHead_frame (s : State) (h type : Nat) (payload : Bytes) :
    (State.sendHead s h type payload).pending = s.pending ∧ (State.sendHead s h type payload).time = s.time ∧ (State.sendHead s h type payload).ledger = s.ledger ∧ (State.sendHead s h type payload).mail = s.mail ∧ (State.sendHead s h type payload).sets = s.sets ∧ (State.sendHead s h type payload).src = s.src ∧ (State.sendHead s h type payload).comp = s.comp ∧ (State.sendHead s h type payload).heads = s.heads ∧ (State.sendHead s h type payload).panels = s.panels ∧ (State.sendHead s h type payload).panelInit = s.panelInit ∧ (State.sendHead s h type payload).keys = s.keys ∧ (State.sendHead s h type payload).keyRef = s.keyRef ∧ (State.sendHead s h type payload).encJobs = s.encJobs ∧ (State.sendHead s h type payload).enc = s.enc ∧ (State.sendHead s h type payload).links = s.links ∧ (State.sendHead s h type payload).pair = s.pair ∧ (State.sendHead s h type payload).mem = s.mem ∧ (State.sendHead s h type payload).fault = s.fault ∧ (State.sendHead s h type payload).sec = s.sec ∧ (State.sendHead s h type payload).power = s.power ∧ (State.sendHead s h type payload).draw = s.draw := by
  unfold State.sendHead
  refine ⟨?_, ?_, ?_, ?_, ?_, ?_, ?_, ?_, ?_, ?_, ?_, ?_, ?_, ?_, ?_, ?_, ?_, ?_, ?_, ?_, ?_⟩ <;> exact each_same _ _ _ _ (fun _ _ => rfl)

@[simp] theorem State.sendHeadStop_frame (s : State) (h reason : Nat) :
    (State.sendHeadStop s h reason).pending = s.pending ∧ (State.sendHeadStop s h reason).time = s.time ∧ (State.sendHeadStop s h reason).mail = s.mail ∧ (State.sendHeadStop s h reason).sets = s.sets ∧ (State.sendHeadStop s h reason).src = s.src ∧ (State.sendHeadStop s h reason).comp = s.comp ∧ (State.sendHeadStop s h reason).heads = s.heads ∧ (State.sendHeadStop s h reason).panels = s.panels ∧ (State.sendHeadStop s h reason).panelInit = s.panelInit ∧ (State.sendHeadStop s h reason).keys = s.keys ∧ (State.sendHeadStop s h reason).keyRef = s.keyRef ∧ (State.sendHeadStop s h reason).encJobs = s.encJobs ∧ (State.sendHeadStop s h reason).enc = s.enc ∧ (State.sendHeadStop s h reason).links = s.links ∧ (State.sendHeadStop s h reason).pair = s.pair ∧ (State.sendHeadStop s h reason).mem = s.mem ∧ (State.sendHeadStop s h reason).fault = s.fault ∧ (State.sendHeadStop s h reason).sec = s.sec ∧ (State.sendHeadStop s h reason).power = s.power ∧ (State.sendHeadStop s h reason).draw = s.draw := by
  simp [State.sendHeadStop]

@[simp] theorem State.endVoids_frame (s : State) (o : Nat) :
    (State.endVoids s o).pending = s.pending ∧ (State.endVoids s o).time = s.time ∧ (State.endVoids s o).ledger = s.ledger ∧ (State.endVoids s o).mail = s.mail ∧ (State.endVoids s o).sets = s.sets ∧ (State.endVoids s o).src = s.src ∧ (State.endVoids s o).heads = s.heads ∧ (State.endVoids s o).panels = s.panels ∧ (State.endVoids s o).panelInit = s.panelInit ∧ (State.endVoids s o).keys = s.keys ∧ (State.endVoids s o).keyRef = s.keyRef ∧ (State.endVoids s o).encJobs = s.encJobs ∧ (State.endVoids s o).enc = s.enc ∧ (State.endVoids s o).links = s.links ∧ (State.endVoids s o).pair = s.pair ∧ (State.endVoids s o).mem = s.mem ∧ (State.endVoids s o).fault = s.fault ∧ (State.endVoids s o).sec = s.sec ∧ (State.endVoids s o).power = s.power ∧ (State.endVoids s o).out = s.out ∧ (State.endVoids s o).draw = s.draw := by
  simp [State.endVoids]

@[simp] theorem State.calmUpper_frame (s : State) (h : Nat) :
    (State.calmUpper s h).pending = s.pending ∧ (State.calmUpper s h).time = s.time ∧ (State.calmUpper s h).ledger = s.ledger ∧ (State.calmUpper s h).mail = s.mail ∧ (State.calmUpper s h).sets = s.sets ∧ (State.calmUpper s h).src = s.src ∧ (State.calmUpper s h).comp = s.comp ∧ (State.calmUpper s h).panels = s.panels ∧ (State.calmUpper s h).panelInit = s.panelInit ∧ (State.calmUpper s h).keys = s.keys ∧ (State.calmUpper s h).keyRef = s.keyRef ∧ (State.calmUpper s h).encJobs = s.encJobs ∧ (State.calmUpper s h).enc = s.enc ∧ (State.calmUpper s h).links = s.links ∧ (State.calmUpper s h).pair = s.pair ∧ (State.calmUpper s h).mem = s.mem ∧ (State.calmUpper s h).fault = s.fault ∧ (State.calmUpper s h).sec = s.sec ∧ (State.calmUpper s h).power = s.power ∧ (State.calmUpper s h).out = s.out ∧ (State.calmUpper s h).draw = s.draw := by
  simp [State.calmUpper]

@[simp] theorem State.stopHead_frame (s : State) (h reason : Nat) (st : HeadState) :
    (State.stopHead s h reason st).pending = s.pending ∧ (State.stopHead s h reason st).time = s.time ∧ (State.stopHead s h reason st).mail = s.mail ∧ (State.stopHead s h reason st).sets = s.sets ∧ (State.stopHead s h reason st).src = s.src ∧ (State.stopHead s h reason st).panels = s.panels ∧ (State.stopHead s h reason st).panelInit = s.panelInit ∧ (State.stopHead s h reason st).keys = s.keys ∧ (State.stopHead s h reason st).keyRef = s.keyRef ∧ (State.stopHead s h reason st).encJobs = s.encJobs ∧ (State.stopHead s h reason st).enc = s.enc ∧ (State.stopHead s h reason st).links = s.links ∧ (State.stopHead s h reason st).pair = s.pair ∧ (State.stopHead s h reason st).fault = s.fault ∧ (State.stopHead s h reason st).sec = s.sec ∧ (State.stopHead s h reason st).power = s.power ∧ (State.stopHead s h reason st).draw = s.draw := by
  simp [State.stopHead]

@[simp] theorem State.proofFinish_frame (s : State) :
    (State.proofFinish s).pending = s.pending ∧ (State.proofFinish s).time = s.time ∧ (State.proofFinish s).ledger = s.ledger ∧ (State.proofFinish s).sets = s.sets ∧ (State.proofFinish s).src = s.src ∧ (State.proofFinish s).heads = s.heads ∧ (State.proofFinish s).panels = s.panels ∧ (State.proofFinish s).panelInit = s.panelInit ∧ (State.proofFinish s).keys = s.keys ∧ (State.proofFinish s).keyRef = s.keyRef ∧ (State.proofFinish s).encJobs = s.encJobs ∧ (State.proofFinish s).enc = s.enc ∧ (State.proofFinish s).links = s.links ∧ (State.proofFinish s).pair = s.pair ∧ (State.proofFinish s).mem = s.mem ∧ (State.proofFinish s).fault = s.fault ∧ (State.proofFinish s).sec = s.sec ∧ (State.proofFinish s).power = s.power ∧ (State.proofFinish s).draw = s.draw := by
  unfold State.proofFinish; (try dsimp only); (repeat' split) <;> simp

@[simp] theorem State.proofResult_frame (s : State) (o result : Nat) :
    (State.proofResult s o result).pending = s.pending ∧ (State.proofResult s o result).time = s.time ∧ (State.proofResult s o result).sets = s.sets ∧ (State.proofResult s o result).src = s.src ∧ (State.proofResult s o result).heads = s.heads ∧ (State.proofResult s o result).panels = s.panels ∧ (State.proofResult s o result).panelInit = s.panelInit ∧ (State.proofResult s o result).keys = s.keys ∧ (State.proofResult s o result).keyRef = s.keyRef ∧ (State.proofResult s o result).encJobs = s.encJobs ∧ (State.proofResult s o result).enc = s.enc ∧ (State.proofResult s o result).links = s.links ∧ (State.proofResult s o result).pair = s.pair ∧ (State.proofResult s o result).mem = s.mem ∧ (State.proofResult s o result).fault = s.fault ∧ (State.proofResult s o result).sec = s.sec ∧ (State.proofResult s o result).power = s.power ∧ (State.proofResult s o result).draw = s.draw := by
  unfold State.proofResult; (try dsimp only); (repeat' split) <;> simp

@[simp] theorem State.proofDrop_frame (s : State) (o : Nat) :
    (State.proofDrop s o).pending = s.pending ∧ (State.proofDrop s o).time = s.time ∧ (State.proofDrop s o).sets = s.sets ∧ (State.proofDrop s o).src = s.src ∧ (State.proofDrop s o).heads = s.heads ∧ (State.proofDrop s o).panels = s.panels ∧ (State.proofDrop s o).panelInit = s.panelInit ∧ (State.proofDrop s o).keys = s.keys ∧ (State.proofDrop s o).keyRef = s.keyRef ∧ (State.proofDrop s o).encJobs = s.encJobs ∧ (State.proofDrop s o).enc = s.enc ∧ (State.proofDrop s o).links = s.links ∧ (State.proofDrop s o).pair = s.pair ∧ (State.proofDrop s o).mem = s.mem ∧ (State.proofDrop s o).fault = s.fault ∧ (State.proofDrop s o).sec = s.sec ∧ (State.proofDrop s o).power = s.power ∧ (State.proofDrop s o).draw = s.draw := by
  unfold State.proofDrop; (try dsimp only); (repeat' split) <;> simp

@[simp] theorem State.proofAbort_frame (s : State) :
    (State.proofAbort s).pending = s.pending ∧ (State.proofAbort s).time = s.time ∧ (State.proofAbort s).sets = s.sets ∧ (State.proofAbort s).src = s.src ∧ (State.proofAbort s).heads = s.heads ∧ (State.proofAbort s).panels = s.panels ∧ (State.proofAbort s).panelInit = s.panelInit ∧ (State.proofAbort s).keys = s.keys ∧ (State.proofAbort s).keyRef = s.keyRef ∧ (State.proofAbort s).encJobs = s.encJobs ∧ (State.proofAbort s).enc = s.enc ∧ (State.proofAbort s).links = s.links ∧ (State.proofAbort s).pair = s.pair ∧ (State.proofAbort s).mem = s.mem ∧ (State.proofAbort s).fault = s.fault ∧ (State.proofAbort s).sec = s.sec ∧ (State.proofAbort s).power = s.power ∧ (State.proofAbort s).draw = s.draw := by
  unfold State.proofAbort; (try dsimp only); (repeat' split) <;> simp

@[simp] theorem State.encSendRtcp_frame (s : State) (j : Nat) (f : Option Nat → EthFrame) :
    (State.encSendRtcp s j f).pending = s.pending ∧ (State.encSendRtcp s j f).time = s.time ∧ (State.encSendRtcp s j f).ledger = s.ledger ∧ (State.encSendRtcp s j f).mail = s.mail ∧ (State.encSendRtcp s j f).sets = s.sets ∧ (State.encSendRtcp s j f).src = s.src ∧ (State.encSendRtcp s j f).comp = s.comp ∧ (State.encSendRtcp s j f).heads = s.heads ∧ (State.encSendRtcp s j f).panels = s.panels ∧ (State.encSendRtcp s j f).panelInit = s.panelInit ∧ (State.encSendRtcp s j f).keys = s.keys ∧ (State.encSendRtcp s j f).keyRef = s.keyRef ∧ (State.encSendRtcp s j f).encJobs = s.encJobs ∧ (State.encSendRtcp s j f).links = s.links ∧ (State.encSendRtcp s j f).pair = s.pair ∧ (State.encSendRtcp s j f).mem = s.mem ∧ (State.encSendRtcp s j f).fault = s.fault ∧ (State.encSendRtcp s j f).sec = s.sec ∧ (State.encSendRtcp s j f).power = s.power ∧ (State.encSendRtcp s j f).draw = s.draw := by
  simp [State.encSendRtcp]

@[simp] theorem State.stopJob_frame (s : State) (j reason : Nat) (st : EncState) :
    (State.stopJob s j reason st).pending = s.pending ∧ (State.stopJob s j reason st).time = s.time ∧ (State.stopJob s j reason st).mail = s.mail ∧ (State.stopJob s j reason st).sets = s.sets ∧ (State.stopJob s j reason st).src = s.src ∧ (State.stopJob s j reason st).comp = s.comp ∧ (State.stopJob s j reason st).heads = s.heads ∧ (State.stopJob s j reason st).panels = s.panels ∧ (State.stopJob s j reason st).panelInit = s.panelInit ∧ (State.stopJob s j reason st).keys = s.keys ∧ (State.stopJob s j reason st).keyRef = s.keyRef ∧ (State.stopJob s j reason st).encJobs = s.encJobs ∧ (State.stopJob s j reason st).links = s.links ∧ (State.stopJob s j reason st).pair = s.pair ∧ (State.stopJob s j reason st).mem = s.mem ∧ (State.stopJob s j reason st).fault = s.fault ∧ (State.stopJob s j reason st).sec = s.sec ∧ (State.stopJob s j reason st).power = s.power ∧ (State.stopJob s j reason st).draw = s.draw := by
  simp [State.stopJob]

@[simp] theorem State.safePanel_frame (s : State) (p : Nat) :
    (State.safePanel s p).pending = s.pending ∧ (State.safePanel s p).time = s.time ∧ (State.safePanel s p).mail = s.mail ∧ (State.safePanel s p).sets = s.sets ∧ (State.safePanel s p).src = s.src ∧ (State.safePanel s p).comp = s.comp ∧ (State.safePanel s p).heads = s.heads ∧ (State.safePanel s p).panelInit = s.panelInit ∧ (State.safePanel s p).keys = s.keys ∧ (State.safePanel s p).keyRef = s.keyRef ∧ (State.safePanel s p).encJobs = s.encJobs ∧ (State.safePanel s p).enc = s.enc ∧ (State.safePanel s p).links = s.links ∧ (State.safePanel s p).pair = s.pair ∧ (State.safePanel s p).mem = s.mem ∧ (State.safePanel s p).fault = s.fault ∧ (State.safePanel s p).sec = s.sec ∧ (State.safePanel s p).power = s.power ∧ (State.safePanel s p).out = s.out ∧ (State.safePanel s p).draw = s.draw := by
  unfold State.safePanel; (try dsimp only); (repeat' split) <;> simp

@[simp] theorem State.safeHead_frame (s : State) (h : Nat) :
    (State.safeHead s h).pending = s.pending ∧ (State.safeHead s h).time = s.time ∧ (State.safeHead s h).mail = s.mail ∧ (State.safeHead s h).sets = s.sets ∧ (State.safeHead s h).src = s.src ∧ (State.safeHead s h).panels = s.panels ∧ (State.safeHead s h).panelInit = s.panelInit ∧ (State.safeHead s h).keys = s.keys ∧ (State.safeHead s h).keyRef = s.keyRef ∧ (State.safeHead s h).encJobs = s.encJobs ∧ (State.safeHead s h).enc = s.enc ∧ (State.safeHead s h).links = s.links ∧ (State.safeHead s h).pair = s.pair ∧ (State.safeHead s h).fault = s.fault ∧ (State.safeHead s h).sec = s.sec ∧ (State.safeHead s h).power = s.power ∧ (State.safeHead s h).draw = s.draw := by
  unfold State.safeHead; (try dsimp only); (repeat' split) <;> simp

@[simp] theorem State.rendererCuts_frame (s : State) (h : Nat) :
    (State.rendererCuts s h).pending = s.pending ∧ (State.rendererCuts s h).time = s.time ∧ (State.rendererCuts s h).ledger = s.ledger ∧ (State.rendererCuts s h).mail = s.mail ∧ (State.rendererCuts s h).sets = s.sets ∧ (State.rendererCuts s h).src = s.src ∧ (State.rendererCuts s h).comp = s.comp ∧ (State.rendererCuts s h).heads = s.heads ∧ (State.rendererCuts s h).panels = s.panels ∧ (State.rendererCuts s h).panelInit = s.panelInit ∧ (State.rendererCuts s h).keys = s.keys ∧ (State.rendererCuts s h).keyRef = s.keyRef ∧ (State.rendererCuts s h).encJobs = s.encJobs ∧ (State.rendererCuts s h).enc = s.enc ∧ (State.rendererCuts s h).links = s.links ∧ (State.rendererCuts s h).pair = s.pair ∧ (State.rendererCuts s h).mem = s.mem ∧ (State.rendererCuts s h).fault = s.fault ∧ (State.rendererCuts s h).sec = s.sec ∧ (State.rendererCuts s h).power = s.power ∧ (State.rendererCuts s h).draw = s.draw := by
  unfold State.rendererCuts; (try dsimp only); (repeat' split) <;> simp

@[simp] theorem State.yieldRole_frame (s : State) :
    (State.yieldRole s).pending = s.pending ∧ (State.yieldRole s).time = s.time ∧ (State.yieldRole s).ledger = s.ledger ∧ (State.yieldRole s).sets = s.sets ∧ (State.yieldRole s).src = s.src ∧ (State.yieldRole s).comp = s.comp ∧ (State.yieldRole s).heads = s.heads ∧ (State.yieldRole s).panels = s.panels ∧ (State.yieldRole s).panelInit = s.panelInit ∧ (State.yieldRole s).keys = s.keys ∧ (State.yieldRole s).keyRef = s.keyRef ∧ (State.yieldRole s).encJobs = s.encJobs ∧ (State.yieldRole s).enc = s.enc ∧ (State.yieldRole s).links = s.links ∧ (State.yieldRole s).mem = s.mem ∧ (State.yieldRole s).fault = s.fault ∧ (State.yieldRole s).sec = s.sec ∧ (State.yieldRole s).power = s.power ∧ (State.yieldRole s).draw = s.draw := by
  simp [State.yieldRole]

@[simp] theorem State.dropKeeps_frame (s : State) :
    (State.dropKeeps s).pending = s.pending ∧ (State.dropKeeps s).time = s.time ∧ (State.dropKeeps s).ledger = s.ledger ∧ (State.dropKeeps s).mail = s.mail ∧ (State.dropKeeps s).sets = s.sets ∧ (State.dropKeeps s).src = s.src ∧ (State.dropKeeps s).comp = s.comp ∧ (State.dropKeeps s).heads = s.heads ∧ (State.dropKeeps s).panelInit = s.panelInit ∧ (State.dropKeeps s).keys = s.keys ∧ (State.dropKeeps s).keyRef = s.keyRef ∧ (State.dropKeeps s).encJobs = s.encJobs ∧ (State.dropKeeps s).enc = s.enc ∧ (State.dropKeeps s).links = s.links ∧ (State.dropKeeps s).pair = s.pair ∧ (State.dropKeeps s).mem = s.mem ∧ (State.dropKeeps s).fault = s.fault ∧ (State.dropKeeps s).sec = s.sec ∧ (State.dropKeeps s).power = s.power ∧ (State.dropKeeps s).out = s.out ∧ (State.dropKeeps s).draw = s.draw := by
  simp [State.dropKeeps]

@[simp] theorem State.enterSafe_frame (s : State) (msg sev : Nat) :
    (State.enterSafe s msg sev).pending = s.pending ∧ (State.enterSafe s msg sev).time = s.time ∧ (State.enterSafe s msg sev).sets = s.sets ∧ (State.enterSafe s msg sev).src = s.src ∧ (State.enterSafe s msg sev).panelInit = s.panelInit ∧ (State.enterSafe s msg sev).keys = s.keys ∧ (State.enterSafe s msg sev).keyRef = s.keyRef ∧ (State.enterSafe s msg sev).encJobs = s.encJobs ∧ (State.enterSafe s msg sev).links = s.links ∧ (State.enterSafe s msg sev).pair = s.pair ∧ (State.enterSafe s msg sev).sec = s.sec ∧ (State.enterSafe s msg sev).power = s.power ∧ (State.enterSafe s msg sev).draw = s.draw := by
  unfold State.enterSafe
  simp
  (repeat' apply And.intro) <;>
    (refine (each_same _ _ _ _ (fun s a => ?_)).trans (by (repeat' split) <;> simp); (repeat' split) <;> simp)

@[simp] theorem State.furtherSafe_frame (s : State) (msg : Nat) :
    (State.furtherSafe s msg).pending = s.pending ∧ (State.furtherSafe s msg).time = s.time ∧ (State.furtherSafe s msg).mail = s.mail ∧ (State.furtherSafe s msg).sets = s.sets ∧ (State.furtherSafe s msg).src = s.src ∧ (State.furtherSafe s msg).panels = s.panels ∧ (State.furtherSafe s msg).panelInit = s.panelInit ∧ (State.furtherSafe s msg).keys = s.keys ∧ (State.furtherSafe s msg).keyRef = s.keyRef ∧ (State.furtherSafe s msg).encJobs = s.encJobs ∧ (State.furtherSafe s msg).enc = s.enc ∧ (State.furtherSafe s msg).links = s.links ∧ (State.furtherSafe s msg).pair = s.pair ∧ (State.furtherSafe s msg).sec = s.sec ∧ (State.furtherSafe s msg).power = s.power ∧ (State.furtherSafe s msg).draw = s.draw := by
  unfold State.furtherSafe; (try dsimp only); (repeat' split) <;> simp

@[simp] theorem State.faultLog_frame (s : State) (msg sev : Nat) :
    (State.faultLog s msg sev).pending = s.pending ∧ (State.faultLog s msg sev).time = s.time ∧ (State.faultLog s msg sev).mail = s.mail ∧ (State.faultLog s msg sev).sets = s.sets ∧ (State.faultLog s msg sev).src = s.src ∧ (State.faultLog s msg sev).comp = s.comp ∧ (State.faultLog s msg sev).heads = s.heads ∧ (State.faultLog s msg sev).panels = s.panels ∧ (State.faultLog s msg sev).panelInit = s.panelInit ∧ (State.faultLog s msg sev).keys = s.keys ∧ (State.faultLog s msg sev).keyRef = s.keyRef ∧ (State.faultLog s msg sev).encJobs = s.encJobs ∧ (State.faultLog s msg sev).enc = s.enc ∧ (State.faultLog s msg sev).links = s.links ∧ (State.faultLog s msg sev).pair = s.pair ∧ (State.faultLog s msg sev).mem = s.mem ∧ (State.faultLog s msg sev).sec = s.sec ∧ (State.faultLog s msg sev).power = s.power ∧ (State.faultLog s msg sev).out = s.out ∧ (State.faultLog s msg sev).draw = s.draw := by
  simp [State.faultLog]

@[simp] theorem State.faultRecord_frame (s : State) (msg sev : Nat) (since : Nat) :
    (State.faultRecord s msg sev since).pending = s.pending ∧ (State.faultRecord s msg sev since).time = s.time ∧ (State.faultRecord s msg sev since).mail = s.mail ∧ (State.faultRecord s msg sev since).sets = s.sets ∧ (State.faultRecord s msg sev since).src = s.src ∧ (State.faultRecord s msg sev since).comp = s.comp ∧ (State.faultRecord s msg sev since).heads = s.heads ∧ (State.faultRecord s msg sev since).panels = s.panels ∧ (State.faultRecord s msg sev since).panelInit = s.panelInit ∧ (State.faultRecord s msg sev since).keys = s.keys ∧ (State.faultRecord s msg sev since).keyRef = s.keyRef ∧ (State.faultRecord s msg sev since).encJobs = s.encJobs ∧ (State.faultRecord s msg sev since).enc = s.enc ∧ (State.faultRecord s msg sev since).links = s.links ∧ (State.faultRecord s msg sev since).pair = s.pair ∧ (State.faultRecord s msg sev since).mem = s.mem ∧ (State.faultRecord s msg sev since).sec = s.sec ∧ (State.faultRecord s msg sev since).power = s.power ∧ (State.faultRecord s msg sev since).out = s.out ∧ (State.faultRecord s msg sev since).draw = s.draw := by
  simp [State.faultRecord]

@[simp] theorem State.serviceFor_frame (s : State) (src param msg sev : Nat) :
    (State.serviceFor s src param msg sev).pending = s.pending ∧ (State.serviceFor s src param msg sev).time = s.time ∧ (State.serviceFor s src param msg sev).mail = s.mail ∧ (State.serviceFor s src param msg sev).sets = s.sets ∧ (State.serviceFor s src param msg sev).src = s.src ∧ (State.serviceFor s src param msg sev).comp = s.comp ∧ (State.serviceFor s src param msg sev).heads = s.heads ∧ (State.serviceFor s src param msg sev).panels = s.panels ∧ (State.serviceFor s src param msg sev).panelInit = s.panelInit ∧ (State.serviceFor s src param msg sev).keys = s.keys ∧ (State.serviceFor s src param msg sev).keyRef = s.keyRef ∧ (State.serviceFor s src param msg sev).encJobs = s.encJobs ∧ (State.serviceFor s src param msg sev).enc = s.enc ∧ (State.serviceFor s src param msg sev).links = s.links ∧ (State.serviceFor s src param msg sev).pair = s.pair ∧ (State.serviceFor s src param msg sev).mem = s.mem ∧ (State.serviceFor s src param msg sev).sec = s.sec ∧ (State.serviceFor s src param msg sev).power = s.power ∧ (State.serviceFor s src param msg sev).out = s.out ∧ (State.serviceFor s src param msg sev).draw = s.draw := by
  unfold State.serviceFor; (try dsimp only); (repeat' split) <;> simp

@[simp] theorem State.auditor_frame (s : State) (msg : Nat) :
    (State.auditor s msg).pending = s.pending ∧ (State.auditor s msg).time = s.time ∧ (State.auditor s msg).sets = s.sets ∧ (State.auditor s msg).src = s.src ∧ (State.auditor s msg).panelInit = s.panelInit ∧ (State.auditor s msg).keys = s.keys ∧ (State.auditor s msg).keyRef = s.keyRef ∧ (State.auditor s msg).encJobs = s.encJobs ∧ (State.auditor s msg).links = s.links ∧ (State.auditor s msg).sec = s.sec ∧ (State.auditor s msg).power = s.power ∧ (State.auditor s msg).draw = s.draw := by
  simp [State.auditor]

@[simp] theorem State.raised_frame (s : State) (src param : Nat) :
    (State.raised s src param).pending = s.pending ∧ (State.raised s src param).time = s.time ∧ (State.raised s src param).sets = s.sets ∧ (State.raised s src param).src = s.src ∧ (State.raised s src param).panelInit = s.panelInit ∧ (State.raised s src param).keys = s.keys ∧ (State.raised s src param).keyRef = s.keyRef ∧ (State.raised s src param).encJobs = s.encJobs ∧ (State.raised s src param).links = s.links ∧ (State.raised s src param).sec = s.sec ∧ (State.raised s src param).power = s.power ∧ (State.raised s src param).draw = s.draw := by
  simp [State.raised]

@[simp] theorem State.cleared_frame (s : State) (src param : Nat) :
    (State.cleared s src param).pending = s.pending ∧ (State.cleared s src param).time = s.time ∧ (State.cleared s src param).sets = s.sets ∧ (State.cleared s src param).src = s.src ∧ (State.cleared s src param).panelInit = s.panelInit ∧ (State.cleared s src param).keys = s.keys ∧ (State.cleared s src param).keyRef = s.keyRef ∧ (State.cleared s src param).encJobs = s.encJobs ∧ (State.cleared s src param).links = s.links ∧ (State.cleared s src param).sec = s.sec ∧ (State.cleared s src param).power = s.power ∧ (State.cleared s src param).draw = s.draw := by
  simp [State.cleared]

@[simp] theorem State.happened_frame (s : State) (src param : Nat) :
    (State.happened s src param).pending = s.pending ∧ (State.happened s src param).time = s.time ∧ (State.happened s src param).sets = s.sets ∧ (State.happened s src param).src = s.src ∧ (State.happened s src param).panelInit = s.panelInit ∧ (State.happened s src param).keys = s.keys ∧ (State.happened s src param).keyRef = s.keyRef ∧ (State.happened s src param).encJobs = s.encJobs ∧ (State.happened s src param).links = s.links ∧ (State.happened s src param).sec = s.sec ∧ (State.happened s src param).power = s.power ∧ (State.happened s src param).draw = s.draw := by
  simp [State.happened]

@[simp] theorem State.setOverride_frame (s : State) (b : Nat) (on : Bool) :
    (State.setOverride s b on).pending = s.pending ∧ (State.setOverride s b on).time = s.time ∧ (State.setOverride s b on).ledger = s.ledger ∧ (State.setOverride s b on).sets = s.sets ∧ (State.setOverride s b on).src = s.src ∧ (State.setOverride s b on).comp = s.comp ∧ (State.setOverride s b on).heads = s.heads ∧ (State.setOverride s b on).panels = s.panels ∧ (State.setOverride s b on).panelInit = s.panelInit ∧ (State.setOverride s b on).keys = s.keys ∧ (State.setOverride s b on).keyRef = s.keyRef ∧ (State.setOverride s b on).encJobs = s.encJobs ∧ (State.setOverride s b on).enc = s.enc ∧ (State.setOverride s b on).links = s.links ∧ (State.setOverride s b on).pair = s.pair ∧ (State.setOverride s b on).mem = s.mem ∧ (State.setOverride s b on).sec = s.sec ∧ (State.setOverride s b on).power = s.power ∧ (State.setOverride s b on).draw = s.draw := by
  simp [State.setOverride]

@[simp] theorem State.overridden_frame (s : State) (loop unit lo hi held : Nat) :
    (State.overridden s loop unit lo hi held).pending = s.pending ∧ (State.overridden s loop unit lo hi held).time = s.time ∧ (State.overridden s loop unit lo hi held).sets = s.sets ∧ (State.overridden s loop unit lo hi held).src = s.src ∧ (State.overridden s loop unit lo hi held).comp = s.comp ∧ (State.overridden s loop unit lo hi held).heads = s.heads ∧ (State.overridden s loop unit lo hi held).panels = s.panels ∧ (State.overridden s loop unit lo hi held).panelInit = s.panelInit ∧ (State.overridden s loop unit lo hi held).keys = s.keys ∧ (State.overridden s loop unit lo hi held).keyRef = s.keyRef ∧ (State.overridden s loop unit lo hi held).encJobs = s.encJobs ∧ (State.overridden s loop unit lo hi held).enc = s.enc ∧ (State.overridden s loop unit lo hi held).links = s.links ∧ (State.overridden s loop unit lo hi held).pair = s.pair ∧ (State.overridden s loop unit lo hi held).mem = s.mem ∧ (State.overridden s loop unit lo hi held).sec = s.sec ∧ (State.overridden s loop unit lo hi held).power = s.power ∧ (State.overridden s loop unit lo hi held).draw = s.draw := by
  simp [State.overridden]

@[simp] theorem State.checkWear_frame (s before : State) :
    (State.checkWear s before).pending = s.pending ∧ (State.checkWear s before).time = s.time ∧ (State.checkWear s before).sets = s.sets ∧ (State.checkWear s before).src = s.src ∧ (State.checkWear s before).panelInit = s.panelInit ∧ (State.checkWear s before).keys = s.keys ∧ (State.checkWear s before).keyRef = s.keyRef ∧ (State.checkWear s before).encJobs = s.encJobs ∧ (State.checkWear s before).links = s.links ∧ (State.checkWear s before).sec = s.sec ∧ (State.checkWear s before).power = s.power ∧ (State.checkWear s before).draw = s.draw := by
  simp [State.checkWear]

@[simp] theorem State.reportLost_frame (s : State) :
    (State.reportLost s).pending = s.pending ∧ (State.reportLost s).time = s.time ∧ (State.reportLost s).mail = s.mail ∧ (State.reportLost s).sets = s.sets ∧ (State.reportLost s).src = s.src ∧ (State.reportLost s).comp = s.comp ∧ (State.reportLost s).heads = s.heads ∧ (State.reportLost s).panels = s.panels ∧ (State.reportLost s).panelInit = s.panelInit ∧ (State.reportLost s).keys = s.keys ∧ (State.reportLost s).keyRef = s.keyRef ∧ (State.reportLost s).encJobs = s.encJobs ∧ (State.reportLost s).enc = s.enc ∧ (State.reportLost s).links = s.links ∧ (State.reportLost s).pair = s.pair ∧ (State.reportLost s).mem = s.mem ∧ (State.reportLost s).fault = s.fault ∧ (State.reportLost s).sec = s.sec ∧ (State.reportLost s).power = s.power ∧ (State.reportLost s).out = s.out ∧ (State.reportLost s).draw = s.draw := by
  unfold State.reportLost; (try dsimp only); (repeat' split) <;> simp

@[simp] theorem State.spill_frame (s : State) (n : Nat) :
    (State.spill s n).pending = s.pending ∧ (State.spill s n).time = s.time ∧ (State.spill s n).sets = s.sets ∧ (State.spill s n).src = s.src ∧ (State.spill s n).panelInit = s.panelInit ∧ (State.spill s n).keys = s.keys ∧ (State.spill s n).keyRef = s.keyRef ∧ (State.spill s n).encJobs = s.encJobs ∧ (State.spill s n).links = s.links ∧ (State.spill s n).sec = s.sec ∧ (State.spill s n).power = s.power ∧ (State.spill s n).draw = s.draw := by
  simp [State.spill]

@[simp] theorem State.flashError_frame (s : State) :
    (State.flashError s).pending = s.pending ∧ (State.flashError s).time = s.time ∧ (State.flashError s).sets = s.sets ∧ (State.flashError s).src = s.src ∧ (State.flashError s).panelInit = s.panelInit ∧ (State.flashError s).keys = s.keys ∧ (State.flashError s).keyRef = s.keyRef ∧ (State.flashError s).encJobs = s.encJobs ∧ (State.flashError s).links = s.links ∧ (State.flashError s).sec = s.sec ∧ (State.flashError s).power = s.power ∧ (State.flashError s).draw = s.draw := by
  simp [State.flashError]

@[simp] theorem State.spillNow_frame (s : State) :
    (State.spillNow s).pending = s.pending ∧ (State.spillNow s).time = s.time ∧ (State.spillNow s).sets = s.sets ∧ (State.spillNow s).src = s.src ∧ (State.spillNow s).panelInit = s.panelInit ∧ (State.spillNow s).keys = s.keys ∧ (State.spillNow s).keyRef = s.keyRef ∧ (State.spillNow s).encJobs = s.encJobs ∧ (State.spillNow s).links = s.links ∧ (State.spillNow s).sec = s.sec ∧ (State.spillNow s).power = s.power ∧ (State.spillNow s).draw = s.draw := by
  simp [State.spillNow]

@[simp] theorem State.closeDebug_frame (s : State) (cause : Nat) :
    (State.closeDebug s cause).pending = s.pending ∧ (State.closeDebug s cause).time = s.time ∧ (State.closeDebug s cause).mail = s.mail ∧ (State.closeDebug s cause).sets = s.sets ∧ (State.closeDebug s cause).src = s.src ∧ (State.closeDebug s cause).comp = s.comp ∧ (State.closeDebug s cause).heads = s.heads ∧ (State.closeDebug s cause).panels = s.panels ∧ (State.closeDebug s cause).panelInit = s.panelInit ∧ (State.closeDebug s cause).keys = s.keys ∧ (State.closeDebug s cause).keyRef = s.keyRef ∧ (State.closeDebug s cause).encJobs = s.encJobs ∧ (State.closeDebug s cause).enc = s.enc ∧ (State.closeDebug s cause).links = s.links ∧ (State.closeDebug s cause).pair = s.pair ∧ (State.closeDebug s cause).mem = s.mem ∧ (State.closeDebug s cause).fault = s.fault ∧ (State.closeDebug s cause).power = s.power ∧ (State.closeDebug s cause).out = s.out ∧ (State.closeDebug s cause).draw = s.draw := by
  unfold State.closeDebug; (try dsimp only); (repeat' split) <;> simp

@[simp] theorem State.closeSession_frame (s : State) (p cause : Nat) :
    (State.closeSession s p cause).pending = s.pending ∧ (State.closeSession s p cause).time = s.time ∧ (State.closeSession s p cause).sets = s.sets ∧ (State.closeSession s p cause).src = s.src ∧ (State.closeSession s p cause).comp = s.comp ∧ (State.closeSession s p cause).heads = s.heads ∧ (State.closeSession s p cause).panels = s.panels ∧ (State.closeSession s p cause).panelInit = s.panelInit ∧ (State.closeSession s p cause).keys = s.keys ∧ (State.closeSession s p cause).keyRef = s.keyRef ∧ (State.closeSession s p cause).encJobs = s.encJobs ∧ (State.closeSession s p cause).enc = s.enc ∧ (State.closeSession s p cause).links = s.links ∧ (State.closeSession s p cause).pair = s.pair ∧ (State.closeSession s p cause).mem = s.mem ∧ (State.closeSession s p cause).fault = s.fault ∧ (State.closeSession s p cause).sec = s.sec ∧ (State.closeSession s p cause).power = s.power ∧ (State.closeSession s p cause).out = s.out ∧ (State.closeSession s p cause).draw = s.draw := by
  simp [State.closeSession]

@[simp] theorem State.beginFlash_frame (s : State) (p : Nat) (r : Request) (image : Option Image) :
    (State.beginFlash s p r image).pending = s.pending ∧ (State.beginFlash s p r image).time = s.time ∧ (State.beginFlash s p r image).ledger = s.ledger ∧ (State.beginFlash s p r image).mail = s.mail ∧ (State.beginFlash s p r image).sets = s.sets ∧ (State.beginFlash s p r image).src = s.src ∧ (State.beginFlash s p r image).comp = s.comp ∧ (State.beginFlash s p r image).heads = s.heads ∧ (State.beginFlash s p r image).panels = s.panels ∧ (State.beginFlash s p r image).panelInit = s.panelInit ∧ (State.beginFlash s p r image).keys = s.keys ∧ (State.beginFlash s p r image).keyRef = s.keyRef ∧ (State.beginFlash s p r image).encJobs = s.encJobs ∧ (State.beginFlash s p r image).enc = s.enc ∧ (State.beginFlash s p r image).links = s.links ∧ (State.beginFlash s p r image).pair = s.pair ∧ (State.beginFlash s p r image).mem = s.mem ∧ (State.beginFlash s p r image).fault = s.fault ∧ (State.beginFlash s p r image).sec = s.sec ∧ (State.beginFlash s p r image).out = s.out ∧ (State.beginFlash s p r image).draw = s.draw := by
  simp [State.beginFlash]

@[simp] theorem State.domainOn_frame (s : State) (d cause : Nat) :
    (State.domainOn s d cause).pending = s.pending ∧ (State.domainOn s d cause).time = s.time ∧ (State.domainOn s d cause).sets = s.sets ∧ (State.domainOn s d cause).src = s.src ∧ (State.domainOn s d cause).panelInit = s.panelInit ∧ (State.domainOn s d cause).keys = s.keys ∧ (State.domainOn s d cause).keyRef = s.keyRef ∧ (State.domainOn s d cause).encJobs = s.encJobs ∧ (State.domainOn s d cause).links = s.links ∧ (State.domainOn s d cause).sec = s.sec ∧ (State.domainOn s d cause).draw = s.draw := by
  simp [State.domainOn]

@[simp] theorem State.domainOff_frame (s : State) (d cause : Nat) :
    (State.domainOff s d cause).pending = s.pending ∧ (State.domainOff s d cause).time = s.time ∧ (State.domainOff s d cause).mail = s.mail ∧ (State.domainOff s d cause).sets = s.sets ∧ (State.domainOff s d cause).src = s.src ∧ (State.domainOff s d cause).comp = s.comp ∧ (State.domainOff s d cause).heads = s.heads ∧ (State.domainOff s d cause).panels = s.panels ∧ (State.domainOff s d cause).panelInit = s.panelInit ∧ (State.domainOff s d cause).keys = s.keys ∧ (State.domainOff s d cause).keyRef = s.keyRef ∧ (State.domainOff s d cause).encJobs = s.encJobs ∧ (State.domainOff s d cause).enc = s.enc ∧ (State.domainOff s d cause).links = s.links ∧ (State.domainOff s d cause).pair = s.pair ∧ (State.domainOff s d cause).mem = s.mem ∧ (State.domainOff s d cause).fault = s.fault ∧ (State.domainOff s d cause).sec = s.sec ∧ (State.domainOff s d cause).out = s.out ∧ (State.domainOff s d cause).draw = s.draw := by
  simp [State.domainOff]

@[simp] theorem State.macroExhausted_frame (s : State) (block : SramBlock) (arr unit : Nat) :
    (State.macroExhausted s block arr unit).pending = s.pending ∧ (State.macroExhausted s block arr unit).time = s.time ∧ (State.macroExhausted s block arr unit).sets = s.sets ∧ (State.macroExhausted s block arr unit).src = s.src ∧ (State.macroExhausted s block arr unit).panelInit = s.panelInit ∧ (State.macroExhausted s block arr unit).keys = s.keys ∧ (State.macroExhausted s block arr unit).keyRef = s.keyRef ∧ (State.macroExhausted s block arr unit).encJobs = s.encJobs ∧ (State.macroExhausted s block arr unit).links = s.links ∧ (State.macroExhausted s block arr unit).sec = s.sec ∧ (State.macroExhausted s block arr unit).power = s.power ∧ (State.macroExhausted s block arr unit).draw = s.draw := by
  unfold State.macroExhausted; (try dsimp only); (repeat' split) <;> simp

@[simp] theorem State.testDomain_frame (s : State) (d : Nat) (t : SelfTest) :
    (s.testDomain d t).1.pending = s.pending ∧ (s.testDomain d t).1.time = s.time ∧ (s.testDomain d t).1.sets = s.sets ∧ (s.testDomain d t).1.src = s.src ∧ (s.testDomain d t).1.panelInit = s.panelInit ∧ (s.testDomain d t).1.keys = s.keys ∧ (s.testDomain d t).1.keyRef = s.keyRef ∧ (s.testDomain d t).1.encJobs = s.encJobs ∧ (s.testDomain d t).1.links = s.links ∧ (s.testDomain d t).1.sec = s.sec ∧ (s.testDomain d t).1.power = s.power ∧ (s.testDomain d t).1.draw = s.draw := by
  unfold State.testDomain; dsimp only; (repeat' split) <;> simp

@[simp] theorem State.configDefaults_frame (s : State) :
    (State.configDefaults s).pending = s.pending ∧ (State.configDefaults s).ledger = s.ledger ∧ (State.configDefaults s).mail = s.mail ∧ (State.configDefaults s).comp = s.comp ∧ (State.configDefaults s).heads = s.heads ∧ (State.configDefaults s).panels = s.panels ∧ (State.configDefaults s).keyRef = s.keyRef ∧ (State.configDefaults s).pair = s.pair ∧ (State.configDefaults s).out = s.out ∧ (State.configDefaults s).draw = s.draw := by
  simp [State.configDefaults]

@[simp] theorem State.earlyDomains_frame (s : State) :
    (State.earlyDomains s).pending = s.pending ∧ (State.earlyDomains s).time = s.time ∧ (State.earlyDomains s).ledger = s.ledger ∧ (State.earlyDomains s).mail = s.mail ∧ (State.earlyDomains s).sets = s.sets ∧ (State.earlyDomains s).src = s.src ∧ (State.earlyDomains s).comp = s.comp ∧ (State.earlyDomains s).heads = s.heads ∧ (State.earlyDomains s).panels = s.panels ∧ (State.earlyDomains s).panelInit = s.panelInit ∧ (State.earlyDomains s).keys = s.keys ∧ (State.earlyDomains s).keyRef = s.keyRef ∧ (State.earlyDomains s).encJobs = s.encJobs ∧ (State.earlyDomains s).enc = s.enc ∧ (State.earlyDomains s).links = s.links ∧ (State.earlyDomains s).pair = s.pair ∧ (State.earlyDomains s).mem = s.mem ∧ (State.earlyDomains s).fault = s.fault ∧ (State.earlyDomains s).sec = s.sec ∧ (State.earlyDomains s).out = s.out ∧ (State.earlyDomains s).draw = s.draw := by
  simp [State.earlyDomains]

@[simp] theorem State.testDomains_frame (s : State) (l : List Nat) :
    (State.testDomains s l).pending = s.pending ∧ (State.testDomains s l).time = s.time ∧ (State.testDomains s l).sets = s.sets ∧ (State.testDomains s l).src = s.src ∧ (State.testDomains s l).panelInit = s.panelInit ∧ (State.testDomains s l).keys = s.keys ∧ (State.testDomains s l).keyRef = s.keyRef ∧ (State.testDomains s l).encJobs = s.encJobs ∧ (State.testDomains s l).links = s.links ∧ (State.testDomains s l).sec = s.sec ∧ (State.testDomains s l).power = s.power ∧ (State.testDomains s l).draw = s.draw := by
  simp [State.testDomains]

@[simp] theorem State.ringBells_frame (s : State) (p : Nat) (bits : BitVec 8) :
    (State.ringBells s p bits).pending = s.pending ∧ (State.ringBells s p bits).time = s.time ∧ (State.ringBells s p bits).ledger = s.ledger ∧ (State.ringBells s p bits).sets = s.sets ∧ (State.ringBells s p bits).src = s.src ∧ (State.ringBells s p bits).comp = s.comp ∧ (State.ringBells s p bits).heads = s.heads ∧ (State.ringBells s p bits).panels = s.panels ∧ (State.ringBells s p bits).panelInit = s.panelInit ∧ (State.ringBells s p bits).keys = s.keys ∧ (State.ringBells s p bits).keyRef = s.keyRef ∧ (State.ringBells s p bits).encJobs = s.encJobs ∧ (State.ringBells s p bits).enc = s.enc ∧ (State.ringBells s p bits).links = s.links ∧ (State.ringBells s p bits).pair = s.pair ∧ (State.ringBells s p bits).mem = s.mem ∧ (State.ringBells s p bits).fault = s.fault ∧ (State.ringBells s p bits).sec = s.sec ∧ (State.ringBells s p bits).power = s.power ∧ (State.ringBells s p bits).out = s.out ∧ (State.ringBells s p bits).draw = s.draw := by
  simp [State.ringBells]

@[simp] theorem State.clearResp_frame (s : State) (p : Nat) (bits : BitVec 8) :
    (State.clearResp s p bits).pending = s.pending ∧ (State.clearResp s p bits).time = s.time ∧ (State.clearResp s p bits).ledger = s.ledger ∧ (State.clearResp s p bits).sets = s.sets ∧ (State.clearResp s p bits).src = s.src ∧ (State.clearResp s p bits).comp = s.comp ∧ (State.clearResp s p bits).heads = s.heads ∧ (State.clearResp s p bits).panels = s.panels ∧ (State.clearResp s p bits).panelInit = s.panelInit ∧ (State.clearResp s p bits).keys = s.keys ∧ (State.clearResp s p bits).keyRef = s.keyRef ∧ (State.clearResp s p bits).encJobs = s.encJobs ∧ (State.clearResp s p bits).enc = s.enc ∧ (State.clearResp s p bits).links = s.links ∧ (State.clearResp s p bits).pair = s.pair ∧ (State.clearResp s p bits).mem = s.mem ∧ (State.clearResp s p bits).fault = s.fault ∧ (State.clearResp s p bits).sec = s.sec ∧ (State.clearResp s p bits).power = s.power ∧ (State.clearResp s p bits).draw = s.draw := by
  simp [State.clearResp]

@[simp] theorem State.advanceRd_frame (s : State) (p idx : Nat) :
    (State.advanceRd s p idx).pending = s.pending ∧ (State.advanceRd s p idx).time = s.time ∧ (State.advanceRd s p idx).sets = s.sets ∧ (State.advanceRd s p idx).src = s.src ∧ (State.advanceRd s p idx).comp = s.comp ∧ (State.advanceRd s p idx).heads = s.heads ∧ (State.advanceRd s p idx).panels = s.panels ∧ (State.advanceRd s p idx).panelInit = s.panelInit ∧ (State.advanceRd s p idx).keys = s.keys ∧ (State.advanceRd s p idx).keyRef = s.keyRef ∧ (State.advanceRd s p idx).encJobs = s.encJobs ∧ (State.advanceRd s p idx).enc = s.enc ∧ (State.advanceRd s p idx).links = s.links ∧ (State.advanceRd s p idx).pair = s.pair ∧ (State.advanceRd s p idx).mem = s.mem ∧ (State.advanceRd s p idx).fault = s.fault ∧ (State.advanceRd s p idx).sec = s.sec ∧ (State.advanceRd s p idx).power = s.power ∧ (State.advanceRd s p idx).draw = s.draw := by
  simp [State.advanceRd]

@[simp] theorem State.unmask_frame (s : State) (p v : Nat) :
    (State.unmask s p v).pending = s.pending ∧ (State.unmask s p v).time = s.time ∧ (State.unmask s p v).ledger = s.ledger ∧ (State.unmask s p v).sets = s.sets ∧ (State.unmask s p v).src = s.src ∧ (State.unmask s p v).comp = s.comp ∧ (State.unmask s p v).heads = s.heads ∧ (State.unmask s p v).panels = s.panels ∧ (State.unmask s p v).panelInit = s.panelInit ∧ (State.unmask s p v).keys = s.keys ∧ (State.unmask s p v).keyRef = s.keyRef ∧ (State.unmask s p v).encJobs = s.encJobs ∧ (State.unmask s p v).enc = s.enc ∧ (State.unmask s p v).links = s.links ∧ (State.unmask s p v).pair = s.pair ∧ (State.unmask s p v).mem = s.mem ∧ (State.unmask s p v).fault = s.fault ∧ (State.unmask s p v).sec = s.sec ∧ (State.unmask s p v).power = s.power ∧ (State.unmask s p v).draw = s.draw := by
  simp [State.unmask]

@[simp] theorem State.writeWord_frame (s : State) (p off v : Nat) :
    (State.writeWord s p off v).pending = s.pending ∧ (State.writeWord s p off v).time = s.time ∧ (State.writeWord s p off v).sets = s.sets ∧ (State.writeWord s p off v).src = s.src ∧ (State.writeWord s p off v).comp = s.comp ∧ (State.writeWord s p off v).heads = s.heads ∧ (State.writeWord s p off v).panels = s.panels ∧ (State.writeWord s p off v).panelInit = s.panelInit ∧ (State.writeWord s p off v).keys = s.keys ∧ (State.writeWord s p off v).keyRef = s.keyRef ∧ (State.writeWord s p off v).encJobs = s.encJobs ∧ (State.writeWord s p off v).enc = s.enc ∧ (State.writeWord s p off v).links = s.links ∧ (State.writeWord s p off v).pair = s.pair ∧ (State.writeWord s p off v).mem = s.mem ∧ (State.writeWord s p off v).fault = s.fault ∧ (State.writeWord s p off v).sec = s.sec ∧ (State.writeWord s p off v).power = s.power ∧ (State.writeWord s p off v).draw = s.draw := by
  unfold State.writeWord; (try dsimp only); (repeat' split) <;> simp

@[simp] theorem State.sleepDram_frame (s : State) (on : Bool) :
    (State.sleepDram s on).pending = s.pending ∧ (State.sleepDram s on).time = s.time ∧ (State.sleepDram s on).ledger = s.ledger ∧ (State.sleepDram s on).mail = s.mail ∧ (State.sleepDram s on).sets = s.sets ∧ (State.sleepDram s on).src = s.src ∧ (State.sleepDram s on).comp = s.comp ∧ (State.sleepDram s on).heads = s.heads ∧ (State.sleepDram s on).panels = s.panels ∧ (State.sleepDram s on).panelInit = s.panelInit ∧ (State.sleepDram s on).keys = s.keys ∧ (State.sleepDram s on).keyRef = s.keyRef ∧ (State.sleepDram s on).encJobs = s.encJobs ∧ (State.sleepDram s on).enc = s.enc ∧ (State.sleepDram s on).links = s.links ∧ (State.sleepDram s on).pair = s.pair ∧ (State.sleepDram s on).fault = s.fault ∧ (State.sleepDram s on).sec = s.sec ∧ (State.sleepDram s on).power = s.power ∧ (State.sleepDram s on).out = s.out ∧ (State.sleepDram s on).draw = s.draw := by
  simp [State.sleepDram]

@[simp] theorem State.dramRequest_frame (s : State) :
    (State.dramRequest s).pending = s.pending ∧ (State.dramRequest s).time = s.time ∧ (State.dramRequest s).ledger = s.ledger ∧ (State.dramRequest s).mail = s.mail ∧ (State.dramRequest s).sets = s.sets ∧ (State.dramRequest s).src = s.src ∧ (State.dramRequest s).comp = s.comp ∧ (State.dramRequest s).heads = s.heads ∧ (State.dramRequest s).panels = s.panels ∧ (State.dramRequest s).panelInit = s.panelInit ∧ (State.dramRequest s).keys = s.keys ∧ (State.dramRequest s).keyRef = s.keyRef ∧ (State.dramRequest s).encJobs = s.encJobs ∧ (State.dramRequest s).enc = s.enc ∧ (State.dramRequest s).links = s.links ∧ (State.dramRequest s).pair = s.pair ∧ (State.dramRequest s).fault = s.fault ∧ (State.dramRequest s).sec = s.sec ∧ (State.dramRequest s).power = s.power ∧ (State.dramRequest s).out = s.out ∧ (State.dramRequest s).draw = s.draw := by
  simp [State.dramRequest]

@[simp] theorem State.closeNotice_frame (s : State) (g : Nat) :
    (State.closeNotice s g).pending = s.pending ∧ (State.closeNotice s g).time = s.time ∧ (State.closeNotice s g).sets = s.sets ∧ (State.closeNotice s g).src = s.src ∧ (State.closeNotice s g).panelInit = s.panelInit ∧ (State.closeNotice s g).keys = s.keys ∧ (State.closeNotice s g).keyRef = s.keyRef ∧ (State.closeNotice s g).encJobs = s.encJobs ∧ (State.closeNotice s g).links = s.links ∧ (State.closeNotice s g).power = s.power ∧ (State.closeNotice s g).draw = s.draw := by
  unfold State.closeNotice; (try dsimp only); (repeat' split) <;> simp

@[simp] theorem State.deniedWrite_frame (s : State) (g line : Nat) :
    (State.deniedWrite s g line).pending = s.pending ∧ (State.deniedWrite s g line).time = s.time ∧ (State.deniedWrite s g line).sets = s.sets ∧ (State.deniedWrite s g line).src = s.src ∧ (State.deniedWrite s g line).panelInit = s.panelInit ∧ (State.deniedWrite s g line).keys = s.keys ∧ (State.deniedWrite s g line).keyRef = s.keyRef ∧ (State.deniedWrite s g line).encJobs = s.encJobs ∧ (State.deniedWrite s g line).links = s.links ∧ (State.deniedWrite s g line).power = s.power ∧ (State.deniedWrite s g line).draw = s.draw := by
  unfold State.deniedWrite; (try dsimp only); (repeat' split) <;> simp

@[simp] theorem State.deniedRead_frame (s : State) (g line : Nat) :
    (State.deniedRead s g line).pending = s.pending ∧ (State.deniedRead s g line).time = s.time ∧ (State.deniedRead s g line).sets = s.sets ∧ (State.deniedRead s g line).src = s.src ∧ (State.deniedRead s g line).panelInit = s.panelInit ∧ (State.deniedRead s g line).keys = s.keys ∧ (State.deniedRead s g line).keyRef = s.keyRef ∧ (State.deniedRead s g line).encJobs = s.encJobs ∧ (State.deniedRead s g line).links = s.links ∧ (State.deniedRead s g line).sec = s.sec ∧ (State.deniedRead s g line).power = s.power ∧ (State.deniedRead s g line).draw = s.draw := by
  simp [State.deniedRead]

@[simp] theorem State.deniedDebug_frame (s : State) (kind addr : Nat) :
    (State.deniedDebug s kind addr).pending = s.pending ∧ (State.deniedDebug s kind addr).time = s.time ∧ (State.deniedDebug s kind addr).sets = s.sets ∧ (State.deniedDebug s kind addr).src = s.src ∧ (State.deniedDebug s kind addr).panelInit = s.panelInit ∧ (State.deniedDebug s kind addr).keys = s.keys ∧ (State.deniedDebug s kind addr).keyRef = s.keyRef ∧ (State.deniedDebug s kind addr).encJobs = s.encJobs ∧ (State.deniedDebug s kind addr).links = s.links ∧ (State.deniedDebug s kind addr).sec = s.sec ∧ (State.deniedDebug s kind addr).power = s.power ∧ (State.deniedDebug s kind addr).draw = s.draw := by
  simp [State.deniedDebug]

@[simp] theorem State.writeLine_frame (s : State) (acc : MemAccess) (line : Nat) :
    (State.writeLine s acc line).pending = s.pending ∧ (State.writeLine s acc line).time = s.time ∧ (State.writeLine s acc line).ledger = s.ledger ∧ (State.writeLine s acc line).mail = s.mail ∧ (State.writeLine s acc line).sets = s.sets ∧ (State.writeLine s acc line).src = s.src ∧ (State.writeLine s acc line).comp = s.comp ∧ (State.writeLine s acc line).heads = s.heads ∧ (State.writeLine s acc line).panels = s.panels ∧ (State.writeLine s acc line).panelInit = s.panelInit ∧ (State.writeLine s acc line).keys = s.keys ∧ (State.writeLine s acc line).keyRef = s.keyRef ∧ (State.writeLine s acc line).encJobs = s.encJobs ∧ (State.writeLine s acc line).enc = s.enc ∧ (State.writeLine s acc line).links = s.links ∧ (State.writeLine s acc line).pair = s.pair ∧ (State.writeLine s acc line).fault = s.fault ∧ (State.writeLine s acc line).sec = s.sec ∧ (State.writeLine s acc line).power = s.power ∧ (State.writeLine s acc line).out = s.out ∧ (State.writeLine s acc line).draw = s.draw := by
  simp [State.writeLine]

@[simp] theorem State.discardWrite_frame (s : State) (g : Nat) :
    (State.discardWrite s g).pending = s.pending ∧ (State.discardWrite s g).time = s.time ∧ (State.discardWrite s g).ledger = s.ledger ∧ (State.discardWrite s g).mail = s.mail ∧ (State.discardWrite s g).sets = s.sets ∧ (State.discardWrite s g).src = s.src ∧ (State.discardWrite s g).comp = s.comp ∧ (State.discardWrite s g).heads = s.heads ∧ (State.discardWrite s g).panels = s.panels ∧ (State.discardWrite s g).panelInit = s.panelInit ∧ (State.discardWrite s g).keys = s.keys ∧ (State.discardWrite s g).keyRef = s.keyRef ∧ (State.discardWrite s g).encJobs = s.encJobs ∧ (State.discardWrite s g).enc = s.enc ∧ (State.discardWrite s g).links = s.links ∧ (State.discardWrite s g).pair = s.pair ∧ (State.discardWrite s g).mem = s.mem ∧ (State.discardWrite s g).fault = s.fault ∧ (State.discardWrite s g).power = s.power ∧ (State.discardWrite s g).out = s.out ∧ (State.discardWrite s g).draw = s.draw := by
  simp [State.discardWrite]

@[simp] theorem State.hostWriteLine_frame (s : State) (g : Nat) (acc : MemAccess) (line : Nat) :
    (State.hostWriteLine s g acc line).pending = s.pending ∧ (State.hostWriteLine s g acc line).time = s.time ∧ (State.hostWriteLine s g acc line).sets = s.sets ∧ (State.hostWriteLine s g acc line).src = s.src ∧ (State.hostWriteLine s g acc line).panelInit = s.panelInit ∧ (State.hostWriteLine s g acc line).keys = s.keys ∧ (State.hostWriteLine s g acc line).keyRef = s.keyRef ∧ (State.hostWriteLine s g acc line).encJobs = s.encJobs ∧ (State.hostWriteLine s g acc line).links = s.links ∧ (State.hostWriteLine s g acc line).power = s.power ∧ (State.hostWriteLine s g acc line).draw = s.draw := by
  simp [State.hostWriteLine]

@[simp] theorem State.hostReadLine_frame (g : Nat) (acc : MemAccess) (x : State × Nat × Bool) (line : Nat) :
    (State.hostReadLine g acc x line).1.pending = x.1.pending ∧ (State.hostReadLine g acc x line).1.time = x.1.time ∧ (State.hostReadLine g acc x line).1.sets = x.1.sets ∧ (State.hostReadLine g acc x line).1.src = x.1.src ∧ (State.hostReadLine g acc x line).1.panelInit = x.1.panelInit ∧ (State.hostReadLine g acc x line).1.keys = x.1.keys ∧ (State.hostReadLine g acc x line).1.keyRef = x.1.keyRef ∧ (State.hostReadLine g acc x line).1.encJobs = x.1.encJobs ∧ (State.hostReadLine g acc x line).1.links = x.1.links ∧ (State.hostReadLine g acc x line).1.sec = x.1.sec ∧ (State.hostReadLine g acc x line).1.power = x.1.power ∧ (State.hostReadLine g acc x line).1.draw = x.1.draw := by
  unfold State.hostReadLine; dsimp only; (repeat' split) <;> simp

theorem hostReadLine_list_frame (g : Nat) (acc : MemAccess) (l : List Nat) (x : State × Nat × Bool) :
    (l.foldl (State.hostReadLine g acc) x).1.pending = x.1.pending ∧ (l.foldl (State.hostReadLine g acc) x).1.time = x.1.time ∧ (l.foldl (State.hostReadLine g acc) x).1.sets = x.1.sets ∧ (l.foldl (State.hostReadLine g acc) x).1.src = x.1.src ∧ (l.foldl (State.hostReadLine g acc) x).1.panelInit = x.1.panelInit ∧ (l.foldl (State.hostReadLine g acc) x).1.keys = x.1.keys ∧ (l.foldl (State.hostReadLine g acc) x).1.keyRef = x.1.keyRef ∧ (l.foldl (State.hostReadLine g acc) x).1.encJobs = x.1.encJobs ∧ (l.foldl (State.hostReadLine g acc) x).1.links = x.1.links ∧ (l.foldl (State.hostReadLine g acc) x).1.sec = x.1.sec ∧ (l.foldl (State.hostReadLine g acc) x).1.power = x.1.power ∧ (l.foldl (State.hostReadLine g acc) x).1.draw = x.1.draw := by
  induction l generalizing x with
  | nil => simp
  | cons a l ih => rw [List.foldl_cons]; simp [ih]

@[simp] theorem State.writeTeller_frame (s : State) (acc : MemAccess) :
    (State.writeTeller s acc).pending = s.pending ∧ (State.writeTeller s acc).time = s.time ∧ (State.writeTeller s acc).ledger = s.ledger ∧ (State.writeTeller s acc).mail = s.mail ∧ (State.writeTeller s acc).sets = s.sets ∧ (State.writeTeller s acc).src = s.src ∧ (State.writeTeller s acc).comp = s.comp ∧ (State.writeTeller s acc).heads = s.heads ∧ (State.writeTeller s acc).panels = s.panels ∧ (State.writeTeller s acc).panelInit = s.panelInit ∧ (State.writeTeller s acc).keys = s.keys ∧ (State.writeTeller s acc).keyRef = s.keyRef ∧ (State.writeTeller s acc).encJobs = s.encJobs ∧ (State.writeTeller s acc).enc = s.enc ∧ (State.writeTeller s acc).links = s.links ∧ (State.writeTeller s acc).pair = s.pair ∧ (State.writeTeller s acc).fault = s.fault ∧ (State.writeTeller s acc).sec = s.sec ∧ (State.writeTeller s acc).power = s.power ∧ (State.writeTeller s acc).out = s.out ∧ (State.writeTeller s acc).draw = s.draw := by
  simp [State.writeTeller]

@[simp] theorem State.readPayload_frame (s : State) (p : Nat) (r : Request) :
    (s.readPayload p r).1.pending = s.pending ∧ (s.readPayload p r).1.time = s.time ∧ (s.readPayload p r).1.sets = s.sets ∧ (s.readPayload p r).1.src = s.src ∧ (s.readPayload p r).1.panelInit = s.panelInit ∧ (s.readPayload p r).1.keys = s.keys ∧ (s.readPayload p r).1.keyRef = s.keyRef ∧ (s.readPayload p r).1.encJobs = s.encJobs ∧ (s.readPayload p r).1.links = s.links ∧ (s.readPayload p r).1.sec = s.sec ∧ (s.readPayload p r).1.power = s.power ∧ (s.readPayload p r).1.draw = s.draw := by
  unfold State.readPayload
  split
  · dsimp only
    exact hostReadLine_list_frame _ _ _ _
  · simp

@[simp] theorem State.takeFrom_frame (s : State) (p : Nat) (desc : Option DescRead) :
    (State.takeFrom s p desc).pending = s.pending ∧ (State.takeFrom s p desc).time = s.time ∧ (State.takeFrom s p desc).sets = s.sets ∧ (State.takeFrom s p desc).src = s.src ∧ (State.takeFrom s p desc).panelInit = s.panelInit ∧ (State.takeFrom s p desc).keys = s.keys ∧ (State.takeFrom s p desc).keyRef = s.keyRef ∧ (State.takeFrom s p desc).encJobs = s.encJobs ∧ (State.takeFrom s p desc).links = s.links ∧ (State.takeFrom s p desc).sec = s.sec ∧ (State.takeFrom s p desc).power = s.power ∧ (State.takeFrom s p desc).draw = s.draw := by
  unfold State.takeFrom
  dsimp only; split
  · simp
  · (repeat' split) <;> simp

@[simp] theorem State.writePayload_frame (s : State) (p : Nat) (r : Response) :
    (s.writePayload p r).1.pending = s.pending ∧ (s.writePayload p r).1.time = s.time ∧ (s.writePayload p r).1.sets = s.sets ∧ (s.writePayload p r).1.src = s.src ∧ (s.writePayload p r).1.panelInit = s.panelInit ∧ (s.writePayload p r).1.keys = s.keys ∧ (s.writePayload p r).1.keyRef = s.keyRef ∧ (s.writePayload p r).1.encJobs = s.encJobs ∧ (s.writePayload p r).1.links = s.links ∧ (s.writePayload p r).1.power = s.power ∧ (s.writePayload p r).1.draw = s.draw := by
  unfold State.writePayload; dsimp only; (repeat' split) <;> simp

@[simp] theorem State.reserveBlock_frame (s : State) (p : Nat) :
    (State.reserveBlock s p).pending = s.pending ∧ (State.reserveBlock s p).time = s.time ∧ (State.reserveBlock s p).sets = s.sets ∧ (State.reserveBlock s p).src = s.src ∧ (State.reserveBlock s p).panelInit = s.panelInit ∧ (State.reserveBlock s p).keys = s.keys ∧ (State.reserveBlock s p).keyRef = s.keyRef ∧ (State.reserveBlock s p).encJobs = s.encJobs ∧ (State.reserveBlock s p).links = s.links ∧ (State.reserveBlock s p).sec = s.sec ∧ (State.reserveBlock s p).power = s.power ∧ (State.reserveBlock s p).draw = s.draw := by
  simp [State.reserveBlock]

@[simp] theorem State.openSession_frame (s : State) (p : Nat) (r : Request) (major : Nat) :
    (State.openSession s p r major).pending = s.pending ∧ (State.openSession s p r major).time = s.time ∧ (State.openSession s p r major).sets = s.sets ∧ (State.openSession s p r major).src = s.src ∧ (State.openSession s p r major).panelInit = s.panelInit ∧ (State.openSession s p r major).keys = s.keys ∧ (State.openSession s p r major).keyRef = s.keyRef ∧ (State.openSession s p r major).encJobs = s.encJobs ∧ (State.openSession s p r major).links = s.links ∧ (State.openSession s p r major).sec = s.sec ∧ (State.openSession s p r major).power = s.power ∧ (State.openSession s p r major).draw = s.draw := by
  simp [State.openSession]

@[simp] theorem State.setTally_frame (s : State) (e : Nat) (x : TallyRun) :
    (State.setTally s e x).pending = s.pending ∧ (State.setTally s e x).time = s.time ∧ (State.setTally s e x).ledger = s.ledger ∧ (State.setTally s e x).mail = s.mail ∧ (State.setTally s e x).sets = s.sets ∧ (State.setTally s e x).src = s.src ∧ (State.setTally s e x).comp = s.comp ∧ (State.setTally s e x).heads = s.heads ∧ (State.setTally s e x).panels = s.panels ∧ (State.setTally s e x).panelInit = s.panelInit ∧ (State.setTally s e x).keys = s.keys ∧ (State.setTally s e x).keyRef = s.keyRef ∧ (State.setTally s e x).encJobs = s.encJobs ∧ (State.setTally s e x).enc = s.enc ∧ (State.setTally s e x).links = s.links ∧ (State.setTally s e x).pair = s.pair ∧ (State.setTally s e x).mem = s.mem ∧ (State.setTally s e x).fault = s.fault ∧ (State.setTally s e x).power = s.power ∧ (State.setTally s e x).out = s.out ∧ (State.setTally s e x).draw = s.draw := by
  simp [State.setTally]

@[simp] theorem State.tallyBlocked_frame (s : State) (e : Nat) :
    (State.tallyBlocked s e).pending = s.pending ∧ (State.tallyBlocked s e).time = s.time ∧ (State.tallyBlocked s e).sets = s.sets ∧ (State.tallyBlocked s e).src = s.src ∧ (State.tallyBlocked s e).panelInit = s.panelInit ∧ (State.tallyBlocked s e).keys = s.keys ∧ (State.tallyBlocked s e).keyRef = s.keyRef ∧ (State.tallyBlocked s e).encJobs = s.encJobs ∧ (State.tallyBlocked s e).links = s.links ∧ (State.tallyBlocked s e).power = s.power ∧ (State.tallyBlocked s e).draw = s.draw := by
  unfold State.tallyBlocked; (try dsimp only); (repeat' split) <;> simp

@[simp] theorem State.tallyFinish_frame (s : State) (e : Nat) :
    (State.tallyFinish s e).pending = s.pending ∧ (State.tallyFinish s e).time = s.time ∧ (State.tallyFinish s e).mail = s.mail ∧ (State.tallyFinish s e).sets = s.sets ∧ (State.tallyFinish s e).src = s.src ∧ (State.tallyFinish s e).comp = s.comp ∧ (State.tallyFinish s e).heads = s.heads ∧ (State.tallyFinish s e).panels = s.panels ∧ (State.tallyFinish s e).panelInit = s.panelInit ∧ (State.tallyFinish s e).keys = s.keys ∧ (State.tallyFinish s e).keyRef = s.keyRef ∧ (State.tallyFinish s e).encJobs = s.encJobs ∧ (State.tallyFinish s e).enc = s.enc ∧ (State.tallyFinish s e).links = s.links ∧ (State.tallyFinish s e).pair = s.pair ∧ (State.tallyFinish s e).fault = s.fault ∧ (State.tallyFinish s e).power = s.power ∧ (State.tallyFinish s e).out = s.out ∧ (State.tallyFinish s e).draw = s.draw := by
  simp [State.tallyFinish]

@[simp] theorem State.jtagShift_frame (s : State) (i v : Nat) :
    (State.jtagShift s i v).pending = s.pending ∧ (State.jtagShift s i v).time = s.time ∧ (State.jtagShift s i v).ledger = s.ledger ∧ (State.jtagShift s i v).mail = s.mail ∧ (State.jtagShift s i v).sets = s.sets ∧ (State.jtagShift s i v).src = s.src ∧ (State.jtagShift s i v).comp = s.comp ∧ (State.jtagShift s i v).heads = s.heads ∧ (State.jtagShift s i v).panels = s.panels ∧ (State.jtagShift s i v).panelInit = s.panelInit ∧ (State.jtagShift s i v).keys = s.keys ∧ (State.jtagShift s i v).keyRef = s.keyRef ∧ (State.jtagShift s i v).encJobs = s.encJobs ∧ (State.jtagShift s i v).enc = s.enc ∧ (State.jtagShift s i v).links = s.links ∧ (State.jtagShift s i v).pair = s.pair ∧ (State.jtagShift s i v).mem = s.mem ∧ (State.jtagShift s i v).fault = s.fault ∧ (State.jtagShift s i v).power = s.power ∧ (State.jtagShift s i v).draw = s.draw := by
  simp [State.jtagShift]

@[simp] theorem State.stageEnd_frame (s : State) (st : Nat) :
    (State.stageEnd s st).pending = s.pending ∧ (State.stageEnd s st).time = s.time ∧ (State.stageEnd s st).ledger = s.ledger ∧ (State.stageEnd s st).mail = s.mail ∧ (State.stageEnd s st).sets = s.sets ∧ (State.stageEnd s st).src = s.src ∧ (State.stageEnd s st).comp = s.comp ∧ (State.stageEnd s st).heads = s.heads ∧ (State.stageEnd s st).panels = s.panels ∧ (State.stageEnd s st).panelInit = s.panelInit ∧ (State.stageEnd s st).keys = s.keys ∧ (State.stageEnd s st).keyRef = s.keyRef ∧ (State.stageEnd s st).encJobs = s.encJobs ∧ (State.stageEnd s st).enc = s.enc ∧ (State.stageEnd s st).links = s.links ∧ (State.stageEnd s st).pair = s.pair ∧ (State.stageEnd s st).mem = s.mem ∧ (State.stageEnd s st).fault = s.fault ∧ (State.stageEnd s st).power = s.power ∧ (State.stageEnd s st).out = s.out ∧ (State.stageEnd s st).draw = s.draw := by
  simp [State.stageEnd]

@[simp] theorem State.destroyKeys_frame (s : State) (p : Nat) :
    (State.destroyKeys s p).pending = s.pending ∧ (State.destroyKeys s p).time = s.time ∧ (State.destroyKeys s p).mail = s.mail ∧ (State.destroyKeys s p).sets = s.sets ∧ (State.destroyKeys s p).src = s.src ∧ (State.destroyKeys s p).comp = s.comp ∧ (State.destroyKeys s p).heads = s.heads ∧ (State.destroyKeys s p).panels = s.panels ∧ (State.destroyKeys s p).panelInit = s.panelInit ∧ (State.destroyKeys s p).keys = s.keys ∧ (State.destroyKeys s p).keyRef = s.keyRef ∧ (State.destroyKeys s p).encJobs = s.encJobs ∧ (State.destroyKeys s p).enc = s.enc ∧ (State.destroyKeys s p).links = s.links ∧ (State.destroyKeys s p).pair = s.pair ∧ (State.destroyKeys s p).mem = s.mem ∧ (State.destroyKeys s p).fault = s.fault ∧ (State.destroyKeys s p).power = s.power ∧ (State.destroyKeys s p).out = s.out ∧ (State.destroyKeys s p).draw = s.draw := by
  simp [State.destroyKeys]

@[simp] theorem State.setLife_frame (s : State) (t : Lifecycle) :
    (State.setLife s t).pending = s.pending ∧ (State.setLife s t).time = s.time ∧ (State.setLife s t).ledger = s.ledger ∧ (State.setLife s t).mail = s.mail ∧ (State.setLife s t).sets = s.sets ∧ (State.setLife s t).src = s.src ∧ (State.setLife s t).comp = s.comp ∧ (State.setLife s t).heads = s.heads ∧ (State.setLife s t).panels = s.panels ∧ (State.setLife s t).panelInit = s.panelInit ∧ (State.setLife s t).keys = s.keys ∧ (State.setLife s t).keyRef = s.keyRef ∧ (State.setLife s t).encJobs = s.encJobs ∧ (State.setLife s t).enc = s.enc ∧ (State.setLife s t).links = s.links ∧ (State.setLife s t).pair = s.pair ∧ (State.setLife s t).mem = s.mem ∧ (State.setLife s t).fault = s.fault ∧ (State.setLife s t).power = s.power ∧ (State.setLife s t).out = s.out ∧ (State.setLife s t).draw = s.draw := by
  simp [State.setLife]

@[simp] theorem State.askWarm_frame (s : State) (p : Nat) :
    (State.askWarm s p).pending = s.pending ∧ (State.askWarm s p).time = s.time ∧ (State.askWarm s p).ledger = s.ledger ∧ (State.askWarm s p).mail = s.mail ∧ (State.askWarm s p).sets = s.sets ∧ (State.askWarm s p).src = s.src ∧ (State.askWarm s p).comp = s.comp ∧ (State.askWarm s p).heads = s.heads ∧ (State.askWarm s p).panels = s.panels ∧ (State.askWarm s p).panelInit = s.panelInit ∧ (State.askWarm s p).keys = s.keys ∧ (State.askWarm s p).keyRef = s.keyRef ∧ (State.askWarm s p).encJobs = s.encJobs ∧ (State.askWarm s p).enc = s.enc ∧ (State.askWarm s p).links = s.links ∧ (State.askWarm s p).pair = s.pair ∧ (State.askWarm s p).mem = s.mem ∧ (State.askWarm s p).fault = s.fault ∧ (State.askWarm s p).sec = s.sec ∧ (State.askWarm s p).out = s.out ∧ (State.askWarm s p).draw = s.draw := by
  simp [State.askWarm]

@[simp] theorem State.advanceLifecycle_frame (s : State) (p : Nat) (t : Lifecycle) :
    (State.advanceLifecycle s p t).pending = s.pending ∧ (State.advanceLifecycle s p t).time = s.time ∧ (State.advanceLifecycle s p t).mail = s.mail ∧ (State.advanceLifecycle s p t).sets = s.sets ∧ (State.advanceLifecycle s p t).src = s.src ∧ (State.advanceLifecycle s p t).comp = s.comp ∧ (State.advanceLifecycle s p t).heads = s.heads ∧ (State.advanceLifecycle s p t).panels = s.panels ∧ (State.advanceLifecycle s p t).panelInit = s.panelInit ∧ (State.advanceLifecycle s p t).keys = s.keys ∧ (State.advanceLifecycle s p t).keyRef = s.keyRef ∧ (State.advanceLifecycle s p t).encJobs = s.encJobs ∧ (State.advanceLifecycle s p t).enc = s.enc ∧ (State.advanceLifecycle s p t).links = s.links ∧ (State.advanceLifecycle s p t).pair = s.pair ∧ (State.advanceLifecycle s p t).mem = s.mem ∧ (State.advanceLifecycle s p t).fault = s.fault ∧ (State.advanceLifecycle s p t).out = s.out ∧ (State.advanceLifecycle s p t).draw = s.draw := by
  simp [State.advanceLifecycle]

@[simp] theorem State.restartSrtp_frame (s : State) (slot : Nat) :
    (State.restartSrtp s slot).pending = s.pending ∧ (State.restartSrtp s slot).time = s.time ∧ (State.restartSrtp s slot).ledger = s.ledger ∧ (State.restartSrtp s slot).mail = s.mail ∧ (State.restartSrtp s slot).sets = s.sets ∧ (State.restartSrtp s slot).comp = s.comp ∧ (State.restartSrtp s slot).heads = s.heads ∧ (State.restartSrtp s slot).panels = s.panels ∧ (State.restartSrtp s slot).panelInit = s.panelInit ∧ (State.restartSrtp s slot).keys = s.keys ∧ (State.restartSrtp s slot).keyRef = s.keyRef ∧ (State.restartSrtp s slot).encJobs = s.encJobs ∧ (State.restartSrtp s slot).links = s.links ∧ (State.restartSrtp s slot).pair = s.pair ∧ (State.restartSrtp s slot).mem = s.mem ∧ (State.restartSrtp s slot).fault = s.fault ∧ (State.restartSrtp s slot).sec = s.sec ∧ (State.restartSrtp s slot).power = s.power ∧ (State.restartSrtp s slot).out = s.out ∧ (State.restartSrtp s slot).draw = s.draw := by
  simp [State.restartSrtp]

@[simp] theorem State.debugFail_frame (s : State) (p : Nat) (r : Request) :
    (State.debugFail s p r).pending = s.pending ∧ (State.debugFail s p r).time = s.time ∧ (State.debugFail s p r).sets = s.sets ∧ (State.debugFail s p r).src = s.src ∧ (State.debugFail s p r).comp = s.comp ∧ (State.debugFail s p r).heads = s.heads ∧ (State.debugFail s p r).panels = s.panels ∧ (State.debugFail s p r).panelInit = s.panelInit ∧ (State.debugFail s p r).keys = s.keys ∧ (State.debugFail s p r).keyRef = s.keyRef ∧ (State.debugFail s p r).encJobs = s.encJobs ∧ (State.debugFail s p r).enc = s.enc ∧ (State.debugFail s p r).links = s.links ∧ (State.debugFail s p r).pair = s.pair ∧ (State.debugFail s p r).mem = s.mem ∧ (State.debugFail s p r).fault = s.fault ∧ (State.debugFail s p r).power = s.power ∧ (State.debugFail s p r).draw = s.draw := by
  simp [State.debugFail]

@[simp] theorem State.addHot_frame (s : State) (ms : Nat) :
    (State.addHot s ms).pending = s.pending ∧ (State.addHot s ms).time = s.time ∧ (State.addHot s ms).sets = s.sets ∧ (State.addHot s ms).src = s.src ∧ (State.addHot s ms).panelInit = s.panelInit ∧ (State.addHot s ms).keys = s.keys ∧ (State.addHot s ms).keyRef = s.keyRef ∧ (State.addHot s ms).encJobs = s.encJobs ∧ (State.addHot s ms).links = s.links ∧ (State.addHot s ms).sec = s.sec ∧ (State.addHot s ms).power = s.power ∧ (State.addHot s ms).draw = s.draw := by
  simp [State.addHot]

@[simp] theorem State.setSeverity_frame (s : State) (p src v : Nat) :
    (State.setSeverity s p src v).pending = s.pending ∧ (State.setSeverity s p src v).time = s.time ∧ (State.setSeverity s p src v).mail = s.mail ∧ (State.setSeverity s p src v).sets = s.sets ∧ (State.setSeverity s p src v).src = s.src ∧ (State.setSeverity s p src v).comp = s.comp ∧ (State.setSeverity s p src v).heads = s.heads ∧ (State.setSeverity s p src v).panels = s.panels ∧ (State.setSeverity s p src v).panelInit = s.panelInit ∧ (State.setSeverity s p src v).keys = s.keys ∧ (State.setSeverity s p src v).keyRef = s.keyRef ∧ (State.setSeverity s p src v).encJobs = s.encJobs ∧ (State.setSeverity s p src v).enc = s.enc ∧ (State.setSeverity s p src v).links = s.links ∧ (State.setSeverity s p src v).pair = s.pair ∧ (State.setSeverity s p src v).mem = s.mem ∧ (State.setSeverity s p src v).sec = s.sec ∧ (State.setSeverity s p src v).power = s.power ∧ (State.setSeverity s p src v).out = s.out ∧ (State.setSeverity s p src v).draw = s.draw := by
  simp [State.setSeverity]

@[simp] theorem State.refreshProven_frame (s : State) (h : Nat) :
    (State.refreshProven s h).pending = s.pending ∧ (State.refreshProven s h).time = s.time ∧ (State.refreshProven s h).sets = s.sets ∧ (State.refreshProven s h).src = s.src ∧ (State.refreshProven s h).panelInit = s.panelInit ∧ (State.refreshProven s h).keys = s.keys ∧ (State.refreshProven s h).keyRef = s.keyRef ∧ (State.refreshProven s h).encJobs = s.encJobs ∧ (State.refreshProven s h).links = s.links ∧ (State.refreshProven s h).sec = s.sec ∧ (State.refreshProven s h).power = s.power ∧ (State.refreshProven s h).draw = s.draw := by
  simp [State.refreshProven]

@[simp] theorem State.mark_frame (s : State) (o : Nat) (tiles : List Nat) :
    (State.mark s o tiles).pending = s.pending ∧ (State.mark s o tiles).time = s.time ∧ (State.mark s o tiles).ledger = s.ledger ∧ (State.mark s o tiles).mail = s.mail ∧ (State.mark s o tiles).sets = s.sets ∧ (State.mark s o tiles).src = s.src ∧ (State.mark s o tiles).heads = s.heads ∧ (State.mark s o tiles).panels = s.panels ∧ (State.mark s o tiles).panelInit = s.panelInit ∧ (State.mark s o tiles).keys = s.keys ∧ (State.mark s o tiles).keyRef = s.keyRef ∧ (State.mark s o tiles).encJobs = s.encJobs ∧ (State.mark s o tiles).enc = s.enc ∧ (State.mark s o tiles).links = s.links ∧ (State.mark s o tiles).pair = s.pair ∧ (State.mark s o tiles).mem = s.mem ∧ (State.mark s o tiles).fault = s.fault ∧ (State.mark s o tiles).sec = s.sec ∧ (State.mark s o tiles).power = s.power ∧ (State.mark s o tiles).out = s.out ∧ (State.mark s o tiles).draw = s.draw := by
  simp [State.mark]

@[simp] theorem State.markAll_frame (s : State) (o : Nat) :
    (State.markAll s o).pending = s.pending ∧ (State.markAll s o).time = s.time ∧ (State.markAll s o).ledger = s.ledger ∧ (State.markAll s o).mail = s.mail ∧ (State.markAll s o).sets = s.sets ∧ (State.markAll s o).src = s.src ∧ (State.markAll s o).heads = s.heads ∧ (State.markAll s o).panels = s.panels ∧ (State.markAll s o).panelInit = s.panelInit ∧ (State.markAll s o).keys = s.keys ∧ (State.markAll s o).keyRef = s.keyRef ∧ (State.markAll s o).encJobs = s.encJobs ∧ (State.markAll s o).enc = s.enc ∧ (State.markAll s o).links = s.links ∧ (State.markAll s o).pair = s.pair ∧ (State.markAll s o).mem = s.mem ∧ (State.markAll s o).fault = s.fault ∧ (State.markAll s o).sec = s.sec ∧ (State.markAll s o).power = s.power ∧ (State.markAll s o).out = s.out ∧ (State.markAll s o).draw = s.draw := by
  simp [State.markAll]

@[simp] theorem State.markLayers_frame (s : State) (ls : List Nat) :
    (State.markLayers s ls).pending = s.pending ∧ (State.markLayers s ls).time = s.time ∧ (State.markLayers s ls).ledger = s.ledger ∧ (State.markLayers s ls).mail = s.mail ∧ (State.markLayers s ls).sets = s.sets ∧ (State.markLayers s ls).src = s.src ∧ (State.markLayers s ls).heads = s.heads ∧ (State.markLayers s ls).panels = s.panels ∧ (State.markLayers s ls).panelInit = s.panelInit ∧ (State.markLayers s ls).keys = s.keys ∧ (State.markLayers s ls).keyRef = s.keyRef ∧ (State.markLayers s ls).encJobs = s.encJobs ∧ (State.markLayers s ls).enc = s.enc ∧ (State.markLayers s ls).links = s.links ∧ (State.markLayers s ls).pair = s.pair ∧ (State.markLayers s ls).mem = s.mem ∧ (State.markLayers s ls).fault = s.fault ∧ (State.markLayers s ls).sec = s.sec ∧ (State.markLayers s ls).power = s.power ∧ (State.markLayers s ls).out = s.out ∧ (State.markLayers s ls).draw = s.draw := by
  simp [State.markLayers]

@[simp] theorem State.ageOutput_frame (s : State) (o : Nat) :
    (State.ageOutput s o).pending = s.pending ∧ (State.ageOutput s o).time = s.time ∧ (State.ageOutput s o).ledger = s.ledger ∧ (State.ageOutput s o).mail = s.mail ∧ (State.ageOutput s o).sets = s.sets ∧ (State.ageOutput s o).src = s.src ∧ (State.ageOutput s o).heads = s.heads ∧ (State.ageOutput s o).panels = s.panels ∧ (State.ageOutput s o).panelInit = s.panelInit ∧ (State.ageOutput s o).keys = s.keys ∧ (State.ageOutput s o).keyRef = s.keyRef ∧ (State.ageOutput s o).encJobs = s.encJobs ∧ (State.ageOutput s o).enc = s.enc ∧ (State.ageOutput s o).links = s.links ∧ (State.ageOutput s o).pair = s.pair ∧ (State.ageOutput s o).mem = s.mem ∧ (State.ageOutput s o).fault = s.fault ∧ (State.ageOutput s o).sec = s.sec ∧ (State.ageOutput s o).power = s.power ∧ (State.ageOutput s o).out = s.out ∧ (State.ageOutput s o).draw = s.draw := by
  simp [State.ageOutput]

@[simp] theorem State.clearMismatch_frame (s : State) (o : Nat) :
    (State.clearMismatch s o).pending = s.pending ∧ (State.clearMismatch s o).time = s.time ∧ (State.clearMismatch s o).sets = s.sets ∧ (State.clearMismatch s o).src = s.src ∧ (State.clearMismatch s o).panelInit = s.panelInit ∧ (State.clearMismatch s o).keys = s.keys ∧ (State.clearMismatch s o).keyRef = s.keyRef ∧ (State.clearMismatch s o).encJobs = s.encJobs ∧ (State.clearMismatch s o).links = s.links ∧ (State.clearMismatch s o).sec = s.sec ∧ (State.clearMismatch s o).power = s.power ∧ (State.clearMismatch s o).draw = s.draw := by
  simp [State.clearMismatch]

@[simp] theorem State.dropTags_frame (s : State) :
    (State.dropTags s).pending = s.pending ∧ (State.dropTags s).time = s.time ∧ (State.dropTags s).sets = s.sets ∧ (State.dropTags s).src = s.src ∧ (State.dropTags s).panelInit = s.panelInit ∧ (State.dropTags s).keys = s.keys ∧ (State.dropTags s).keyRef = s.keyRef ∧ (State.dropTags s).encJobs = s.encJobs ∧ (State.dropTags s).links = s.links ∧ (State.dropTags s).sec = s.sec ∧ (State.dropTags s).power = s.power ∧ (State.dropTags s).draw = s.draw := by
  simp [State.dropTags]

@[simp] theorem State.resumeOutput_frame (s : State) (o : Nat) :
    (State.resumeOutput s o).pending = s.pending ∧ (State.resumeOutput s o).time = s.time ∧ (State.resumeOutput s o).ledger = s.ledger ∧ (State.resumeOutput s o).mail = s.mail ∧ (State.resumeOutput s o).sets = s.sets ∧ (State.resumeOutput s o).src = s.src ∧ (State.resumeOutput s o).heads = s.heads ∧ (State.resumeOutput s o).panels = s.panels ∧ (State.resumeOutput s o).panelInit = s.panelInit ∧ (State.resumeOutput s o).keys = s.keys ∧ (State.resumeOutput s o).keyRef = s.keyRef ∧ (State.resumeOutput s o).encJobs = s.encJobs ∧ (State.resumeOutput s o).enc = s.enc ∧ (State.resumeOutput s o).links = s.links ∧ (State.resumeOutput s o).pair = s.pair ∧ (State.resumeOutput s o).mem = s.mem ∧ (State.resumeOutput s o).fault = s.fault ∧ (State.resumeOutput s o).sec = s.sec ∧ (State.resumeOutput s o).power = s.power ∧ (State.resumeOutput s o).out = s.out ∧ (State.resumeOutput s o).draw = s.draw := by
  simp [State.resumeOutput]

@[simp] theorem State.ageAll_frame (s : State) :
    (State.ageAll s).pending = s.pending ∧ (State.ageAll s).time = s.time ∧ (State.ageAll s).ledger = s.ledger ∧ (State.ageAll s).mail = s.mail ∧ (State.ageAll s).sets = s.sets ∧ (State.ageAll s).src = s.src ∧ (State.ageAll s).heads = s.heads ∧ (State.ageAll s).panels = s.panels ∧ (State.ageAll s).panelInit = s.panelInit ∧ (State.ageAll s).keys = s.keys ∧ (State.ageAll s).keyRef = s.keyRef ∧ (State.ageAll s).encJobs = s.encJobs ∧ (State.ageAll s).enc = s.enc ∧ (State.ageAll s).links = s.links ∧ (State.ageAll s).pair = s.pair ∧ (State.ageAll s).mem = s.mem ∧ (State.ageAll s).fault = s.fault ∧ (State.ageAll s).sec = s.sec ∧ (State.ageAll s).power = s.power ∧ (State.ageAll s).out = s.out ∧ (State.ageAll s).draw = s.draw := by
  simp [State.ageAll]

@[simp] theorem State.emitPeer_frame (s : State) (pp type seq : Nat) (b : Bytes) :
    (State.emitPeer s pp type seq b).pending = s.pending ∧ (State.emitPeer s pp type seq b).time = s.time ∧ (State.emitPeer s pp type seq b).ledger = s.ledger ∧ (State.emitPeer s pp type seq b).mail = s.mail ∧ (State.emitPeer s pp type seq b).sets = s.sets ∧ (State.emitPeer s pp type seq b).src = s.src ∧ (State.emitPeer s pp type seq b).comp = s.comp ∧ (State.emitPeer s pp type seq b).heads = s.heads ∧ (State.emitPeer s pp type seq b).panels = s.panels ∧ (State.emitPeer s pp type seq b).panelInit = s.panelInit ∧ (State.emitPeer s pp type seq b).keys = s.keys ∧ (State.emitPeer s pp type seq b).keyRef = s.keyRef ∧ (State.emitPeer s pp type seq b).encJobs = s.encJobs ∧ (State.emitPeer s pp type seq b).enc = s.enc ∧ (State.emitPeer s pp type seq b).links = s.links ∧ (State.emitPeer s pp type seq b).pair = s.pair ∧ (State.emitPeer s pp type seq b).mem = s.mem ∧ (State.emitPeer s pp type seq b).fault = s.fault ∧ (State.emitPeer s pp type seq b).sec = s.sec ∧ (State.emitPeer s pp type seq b).power = s.power ∧ (State.emitPeer s pp type seq b).draw = s.draw := by
  simp [State.emitPeer]

@[simp] theorem State.sendPeer_frame (s : State) (pp type : Nat) (b : Bytes) :
    (State.sendPeer s pp type b).pending = s.pending ∧ (State.sendPeer s pp type b).time = s.time ∧ (State.sendPeer s pp type b).ledger = s.ledger ∧ (State.sendPeer s pp type b).mail = s.mail ∧ (State.sendPeer s pp type b).sets = s.sets ∧ (State.sendPeer s pp type b).src = s.src ∧ (State.sendPeer s pp type b).comp = s.comp ∧ (State.sendPeer s pp type b).heads = s.heads ∧ (State.sendPeer s pp type b).panels = s.panels ∧ (State.sendPeer s pp type b).panelInit = s.panelInit ∧ (State.sendPeer s pp type b).keys = s.keys ∧ (State.sendPeer s pp type b).keyRef = s.keyRef ∧ (State.sendPeer s pp type b).encJobs = s.encJobs ∧ (State.sendPeer s pp type b).enc = s.enc ∧ (State.sendPeer s pp type b).pair = s.pair ∧ (State.sendPeer s pp type b).mem = s.mem ∧ (State.sendPeer s pp type b).fault = s.fault ∧ (State.sendPeer s pp type b).sec = s.sec ∧ (State.sendPeer s pp type b).power = s.power ∧ (State.sendPeer s pp type b).draw = s.draw := by
  simp [State.sendPeer]

@[simp] theorem State.drainPeer_frame (s : State) (pp : Nat) :
    (State.drainPeer s pp).pending = s.pending ∧ (State.drainPeer s pp).time = s.time ∧ (State.drainPeer s pp).ledger = s.ledger ∧ (State.drainPeer s pp).mail = s.mail ∧ (State.drainPeer s pp).sets = s.sets ∧ (State.drainPeer s pp).src = s.src ∧ (State.drainPeer s pp).comp = s.comp ∧ (State.drainPeer s pp).heads = s.heads ∧ (State.drainPeer s pp).panels = s.panels ∧ (State.drainPeer s pp).panelInit = s.panelInit ∧ (State.drainPeer s pp).keys = s.keys ∧ (State.drainPeer s pp).keyRef = s.keyRef ∧ (State.drainPeer s pp).encJobs = s.encJobs ∧ (State.drainPeer s pp).enc = s.enc ∧ (State.drainPeer s pp).pair = s.pair ∧ (State.drainPeer s pp).mem = s.mem ∧ (State.drainPeer s pp).fault = s.fault ∧ (State.drainPeer s pp).sec = s.sec ∧ (State.drainPeer s pp).power = s.power ∧ (State.drainPeer s pp).draw = s.draw := by
  unfold State.drainPeer; (try dsimp only); (repeat' split) <;> simp

@[simp] theorem State.mirror_frame (s : State) (type : Nat) (mk : Nat → Bytes) :
    (State.mirror s type mk).pending = s.pending ∧ (State.mirror s type mk).time = s.time ∧ (State.mirror s type mk).ledger = s.ledger ∧ (State.mirror s type mk).mail = s.mail ∧ (State.mirror s type mk).sets = s.sets ∧ (State.mirror s type mk).src = s.src ∧ (State.mirror s type mk).comp = s.comp ∧ (State.mirror s type mk).heads = s.heads ∧ (State.mirror s type mk).panels = s.panels ∧ (State.mirror s type mk).panelInit = s.panelInit ∧ (State.mirror s type mk).keys = s.keys ∧ (State.mirror s type mk).keyRef = s.keyRef ∧ (State.mirror s type mk).encJobs = s.encJobs ∧ (State.mirror s type mk).enc = s.enc ∧ (State.mirror s type mk).mem = s.mem ∧ (State.mirror s type mk).fault = s.fault ∧ (State.mirror s type mk).sec = s.sec ∧ (State.mirror s type mk).power = s.power ∧ (State.mirror s type mk).draw = s.draw := by
  simp [State.mirror]

@[simp] theorem State.mirrorWrite_frame (s : State) (k : SetKind) (first : Nat) (items : List Nat) :
    (State.mirrorWrite s k first items).pending = s.pending ∧ (State.mirrorWrite s k first items).time = s.time ∧ (State.mirrorWrite s k first items).ledger = s.ledger ∧ (State.mirrorWrite s k first items).mail = s.mail ∧ (State.mirrorWrite s k first items).sets = s.sets ∧ (State.mirrorWrite s k first items).src = s.src ∧ (State.mirrorWrite s k first items).comp = s.comp ∧ (State.mirrorWrite s k first items).heads = s.heads ∧ (State.mirrorWrite s k first items).panels = s.panels ∧ (State.mirrorWrite s k first items).panelInit = s.panelInit ∧ (State.mirrorWrite s k first items).keys = s.keys ∧ (State.mirrorWrite s k first items).keyRef = s.keyRef ∧ (State.mirrorWrite s k first items).encJobs = s.encJobs ∧ (State.mirrorWrite s k first items).enc = s.enc ∧ (State.mirrorWrite s k first items).mem = s.mem ∧ (State.mirrorWrite s k first items).fault = s.fault ∧ (State.mirrorWrite s k first items).sec = s.sec ∧ (State.mirrorWrite s k first items).power = s.power ∧ (State.mirrorWrite s k first items).draw = s.draw := by
  simp [State.mirrorWrite]

@[simp] theorem State.mirrorSetting_frame (s : State) (item index : Nat) (b : Bytes) :
    (State.mirrorSetting s item index b).pending = s.pending ∧ (State.mirrorSetting s item index b).time = s.time ∧ (State.mirrorSetting s item index b).ledger = s.ledger ∧ (State.mirrorSetting s item index b).mail = s.mail ∧ (State.mirrorSetting s item index b).sets = s.sets ∧ (State.mirrorSetting s item index b).src = s.src ∧ (State.mirrorSetting s item index b).comp = s.comp ∧ (State.mirrorSetting s item index b).heads = s.heads ∧ (State.mirrorSetting s item index b).panels = s.panels ∧ (State.mirrorSetting s item index b).panelInit = s.panelInit ∧ (State.mirrorSetting s item index b).keys = s.keys ∧ (State.mirrorSetting s item index b).keyRef = s.keyRef ∧ (State.mirrorSetting s item index b).encJobs = s.encJobs ∧ (State.mirrorSetting s item index b).enc = s.enc ∧ (State.mirrorSetting s item index b).mem = s.mem ∧ (State.mirrorSetting s item index b).fault = s.fault ∧ (State.mirrorSetting s item index b).sec = s.sec ∧ (State.mirrorSetting s item index b).power = s.power ∧ (State.mirrorSetting s item index b).draw = s.draw := by
  simp [State.mirrorSetting]

@[simp] theorem State.mirrorSettle_frame (s : State) (c : Commit) :
    (State.mirrorSettle s c).pending = s.pending ∧ (State.mirrorSettle s c).time = s.time ∧ (State.mirrorSettle s c).ledger = s.ledger ∧ (State.mirrorSettle s c).mail = s.mail ∧ (State.mirrorSettle s c).sets = s.sets ∧ (State.mirrorSettle s c).src = s.src ∧ (State.mirrorSettle s c).comp = s.comp ∧ (State.mirrorSettle s c).heads = s.heads ∧ (State.mirrorSettle s c).panels = s.panels ∧ (State.mirrorSettle s c).panelInit = s.panelInit ∧ (State.mirrorSettle s c).keys = s.keys ∧ (State.mirrorSettle s c).keyRef = s.keyRef ∧ (State.mirrorSettle s c).encJobs = s.encJobs ∧ (State.mirrorSettle s c).enc = s.enc ∧ (State.mirrorSettle s c).mem = s.mem ∧ (State.mirrorSettle s c).fault = s.fault ∧ (State.mirrorSettle s c).sec = s.sec ∧ (State.mirrorSettle s c).power = s.power ∧ (State.mirrorSettle s c).draw = s.draw := by
  simp [State.mirrorSettle]

@[simp] theorem State.setMirror_frame (s : State) (new : Mirror) :
    (State.setMirror s new).pending = s.pending ∧ (State.setMirror s new).time = s.time ∧ (State.setMirror s new).mail = s.mail ∧ (State.setMirror s new).sets = s.sets ∧ (State.setMirror s new).src = s.src ∧ (State.setMirror s new).comp = s.comp ∧ (State.setMirror s new).heads = s.heads ∧ (State.setMirror s new).panels = s.panels ∧ (State.setMirror s new).panelInit = s.panelInit ∧ (State.setMirror s new).keys = s.keys ∧ (State.setMirror s new).keyRef = s.keyRef ∧ (State.setMirror s new).encJobs = s.encJobs ∧ (State.setMirror s new).enc = s.enc ∧ (State.setMirror s new).mem = s.mem ∧ (State.setMirror s new).fault = s.fault ∧ (State.setMirror s new).sec = s.sec ∧ (State.setMirror s new).draw = s.draw := by
  simp [State.setMirror]

@[simp] theorem State.checkTwin_frame (s : State) (pp : Nat) :
    (State.checkTwin s pp).pending = s.pending ∧ (State.checkTwin s pp).sets = s.sets ∧ (State.checkTwin s pp).panelInit = s.panelInit ∧ (State.checkTwin s pp).keys = s.keys ∧ (State.checkTwin s pp).keyRef = s.keyRef ∧ (State.checkTwin s pp).encJobs = s.encJobs ∧ (State.checkTwin s pp).sec = s.sec ∧ (State.checkTwin s pp).draw = s.draw := by
  unfold State.checkTwin; (try dsimp only); (repeat' split) <;> simp

@[simp] theorem State.writeShadow_frame (s : State) (k : SetKind) (first : Nat) (items : List Nat) :
    (State.writeShadow s k first items).pending = s.pending ∧ (State.writeShadow s k first items).time = s.time ∧ (State.writeShadow s k first items).ledger = s.ledger ∧ (State.writeShadow s k first items).mail = s.mail ∧ (State.writeShadow s k first items).src = s.src ∧ (State.writeShadow s k first items).comp = s.comp ∧ (State.writeShadow s k first items).heads = s.heads ∧ (State.writeShadow s k first items).panels = s.panels ∧ (State.writeShadow s k first items).panelInit = s.panelInit ∧ (State.writeShadow s k first items).keys = s.keys ∧ (State.writeShadow s k first items).keyRef = s.keyRef ∧ (State.writeShadow s k first items).encJobs = s.encJobs ∧ (State.writeShadow s k first items).enc = s.enc ∧ (State.writeShadow s k first items).links = s.links ∧ (State.writeShadow s k first items).pair = s.pair ∧ (State.writeShadow s k first items).mem = s.mem ∧ (State.writeShadow s k first items).fault = s.fault ∧ (State.writeShadow s k first items).sec = s.sec ∧ (State.writeShadow s k first items).power = s.power ∧ (State.writeShadow s k first items).out = s.out ∧ (State.writeShadow s k first items).draw = s.draw := by
  simp [State.writeShadow]

@[simp] theorem State.applyHeld_frame (s : State) :
    (State.applyHeld s).pending = s.pending ∧ (State.applyHeld s).time = s.time ∧ (State.applyHeld s).ledger = s.ledger ∧ (State.applyHeld s).mail = s.mail ∧ (State.applyHeld s).src = s.src ∧ (State.applyHeld s).comp = s.comp ∧ (State.applyHeld s).heads = s.heads ∧ (State.applyHeld s).panels = s.panels ∧ (State.applyHeld s).panelInit = s.panelInit ∧ (State.applyHeld s).keys = s.keys ∧ (State.applyHeld s).keyRef = s.keyRef ∧ (State.applyHeld s).encJobs = s.encJobs ∧ (State.applyHeld s).enc = s.enc ∧ (State.applyHeld s).mem = s.mem ∧ (State.applyHeld s).fault = s.fault ∧ (State.applyHeld s).sec = s.sec ∧ (State.applyHeld s).power = s.power ∧ (State.applyHeld s).draw = s.draw := by
  simp [State.applyHeld]

@[simp] theorem State.writeItems_frame (s : State) (p : Nat) (r : Request) (k : SetKind) (first : Nat) (items : List Nat) :
    (State.writeItems s p r k first items).pending = s.pending ∧ (State.writeItems s p r k first items).time = s.time ∧ (State.writeItems s p r k first items).ledger = s.ledger ∧ (State.writeItems s p r k first items).src = s.src ∧ (State.writeItems s p r k first items).comp = s.comp ∧ (State.writeItems s p r k first items).heads = s.heads ∧ (State.writeItems s p r k first items).panels = s.panels ∧ (State.writeItems s p r k first items).panelInit = s.panelInit ∧ (State.writeItems s p r k first items).keys = s.keys ∧ (State.writeItems s p r k first items).keyRef = s.keyRef ∧ (State.writeItems s p r k first items).encJobs = s.encJobs ∧ (State.writeItems s p r k first items).enc = s.enc ∧ (State.writeItems s p r k first items).mem = s.mem ∧ (State.writeItems s p r k first items).fault = s.fault ∧ (State.writeItems s p r k first items).sec = s.sec ∧ (State.writeItems s p r k first items).power = s.power ∧ (State.writeItems s p r k first items).draw = s.draw := by
  simp [State.writeItems]

@[simp] theorem State.setGroup_frame (s : State) (g : Nat) (x : GroupDesc) :
    (State.setGroup s g x).pending = s.pending ∧ (State.setGroup s g x).time = s.time ∧ (State.setGroup s g x).ledger = s.ledger ∧ (State.setGroup s g x).mail = s.mail ∧ (State.setGroup s g x).src = s.src ∧ (State.setGroup s g x).comp = s.comp ∧ (State.setGroup s g x).heads = s.heads ∧ (State.setGroup s g x).panels = s.panels ∧ (State.setGroup s g x).panelInit = s.panelInit ∧ (State.setGroup s g x).keys = s.keys ∧ (State.setGroup s g x).keyRef = s.keyRef ∧ (State.setGroup s g x).encJobs = s.encJobs ∧ (State.setGroup s g x).enc = s.enc ∧ (State.setGroup s g x).links = s.links ∧ (State.setGroup s g x).pair = s.pair ∧ (State.setGroup s g x).mem = s.mem ∧ (State.setGroup s g x).fault = s.fault ∧ (State.setGroup s g x).sec = s.sec ∧ (State.setGroup s g x).power = s.power ∧ (State.setGroup s g x).out = s.out ∧ (State.setGroup s g x).draw = s.draw := by
  simp [State.setGroup]

@[simp] theorem State.storeTile_frame (s : State) (o t : Nat) (r : TileRec) :
    (State.storeTile s o t r).pending = s.pending ∧ (State.storeTile s o t r).time = s.time ∧ (State.storeTile s o t r).ledger = s.ledger ∧ (State.storeTile s o t r).mail = s.mail ∧ (State.storeTile s o t r).sets = s.sets ∧ (State.storeTile s o t r).src = s.src ∧ (State.storeTile s o t r).comp = s.comp ∧ (State.storeTile s o t r).heads = s.heads ∧ (State.storeTile s o t r).panels = s.panels ∧ (State.storeTile s o t r).panelInit = s.panelInit ∧ (State.storeTile s o t r).keys = s.keys ∧ (State.storeTile s o t r).keyRef = s.keyRef ∧ (State.storeTile s o t r).encJobs = s.encJobs ∧ (State.storeTile s o t r).enc = s.enc ∧ (State.storeTile s o t r).links = s.links ∧ (State.storeTile s o t r).pair = s.pair ∧ (State.storeTile s o t r).fault = s.fault ∧ (State.storeTile s o t r).sec = s.sec ∧ (State.storeTile s o t r).power = s.power ∧ (State.storeTile s o t r).out = s.out ∧ (State.storeTile s o t r).draw = s.draw := by
  simp [State.storeTile]

@[simp] theorem State.noteSeq_frame (s : State) (c : ConfigSet) (frames : List Frame) (notReady : List Nat) (r : TileRec) :
    (State.noteSeq s c frames notReady r).pending = s.pending ∧ (State.noteSeq s c frames notReady r).time = s.time ∧ (State.noteSeq s c frames notReady r).ledger = s.ledger ∧ (State.noteSeq s c frames notReady r).mail = s.mail ∧ (State.noteSeq s c frames notReady r).sets = s.sets ∧ (State.noteSeq s c frames notReady r).src = s.src ∧ (State.noteSeq s c frames notReady r).heads = s.heads ∧ (State.noteSeq s c frames notReady r).panels = s.panels ∧ (State.noteSeq s c frames notReady r).panelInit = s.panelInit ∧ (State.noteSeq s c frames notReady r).keys = s.keys ∧ (State.noteSeq s c frames notReady r).keyRef = s.keyRef ∧ (State.noteSeq s c frames notReady r).encJobs = s.encJobs ∧ (State.noteSeq s c frames notReady r).enc = s.enc ∧ (State.noteSeq s c frames notReady r).links = s.links ∧ (State.noteSeq s c frames notReady r).pair = s.pair ∧ (State.noteSeq s c frames notReady r).mem = s.mem ∧ (State.noteSeq s c frames notReady r).fault = s.fault ∧ (State.noteSeq s c frames notReady r).sec = s.sec ∧ (State.noteSeq s c frames notReady r).power = s.power ∧ (State.noteSeq s c frames notReady r).out = s.out ∧ (State.noteSeq s c frames notReady r).draw = s.draw := by
  unfold State.noteSeq; simp (disch := (intros; first | rfl | ((try dsimp only); (repeat' split) <;> (try simp))))

@[simp] theorem State.stage_frame (s : State) (c : Commit) (frames : List Frame) (o : Nat) (tiles : List Nat) :
    (State.stage s c frames o tiles).pending = s.pending ∧ (State.stage s c frames o tiles).time = s.time ∧ (State.stage s c frames o tiles).ledger = s.ledger ∧ (State.stage s c frames o tiles).mail = s.mail ∧ (State.stage s c frames o tiles).sets = s.sets ∧ (State.stage s c frames o tiles).src = s.src ∧ (State.stage s c frames o tiles).heads = s.heads ∧ (State.stage s c frames o tiles).panels = s.panels ∧ (State.stage s c frames o tiles).panelInit = s.panelInit ∧ (State.stage s c frames o tiles).keys = s.keys ∧ (State.stage s c frames o tiles).keyRef = s.keyRef ∧ (State.stage s c frames o tiles).encJobs = s.encJobs ∧ (State.stage s c frames o tiles).enc = s.enc ∧ (State.stage s c frames o tiles).links = s.links ∧ (State.stage s c frames o tiles).pair = s.pair ∧ (State.stage s c frames o tiles).fault = s.fault ∧ (State.stage s c frames o tiles).sec = s.sec ∧ (State.stage s c frames o tiles).power = s.power ∧ (State.stage s c frames o tiles).out = s.out ∧ (State.stage s c frames o tiles).draw = s.draw := by
  unfold State.stage
  exact ⟨each_same _ _ _ _ (fun s _ => (State.storeTile_frame _ _ _ _).1.trans ((State.noteSeq_frame _ _ _ _ _).1.trans (State.setOutComp_pending _ _ _))),
    each_same _ _ _ _ (fun s _ => (State.storeTile_frame _ _ _ _).2.1.trans ((State.noteSeq_frame _ _ _ _ _).2.1.trans (State.setOutComp_time _ _ _))),
    each_same _ _ _ _ (fun s _ => (State.storeTile_frame _ _ _ _).2.2.1.trans ((State.noteSeq_frame _ _ _ _ _).2.2.1.trans (State.setOutComp_ledger _ _ _))),
    each_same _ _ _ _ (fun s _ => (State.storeTile_frame _ _ _ _).2.2.2.1.trans ((State.noteSeq_frame _ _ _ _ _).2.2.2.1.trans (State.setOutComp_mail _ _ _))),
    each_same _ _ _ _ (fun s _ => (State.storeTile_frame _ _ _ _).2.2.2.2.1.trans ((State.noteSeq_frame _ _ _ _ _).2.2.2.2.1.trans (State.setOutComp_sets _ _ _))),
    each_same _ _ _ _ (fun s _ => (State.storeTile_frame _ _ _ _).2.2.2.2.2.1.trans ((State.noteSeq_frame _ _ _ _ _).2.2.2.2.2.1.trans (State.setOutComp_src _ _ _))),
    each_same _ _ _ _ (fun s _ => (State.storeTile_frame _ _ _ _).2.2.2.2.2.2.2.1.trans ((State.noteSeq_frame _ _ _ _ _).2.2.2.2.2.2.1.trans (State.setOutComp_heads _ _ _))),
    each_same _ _ _ _ (fun s _ => (State.storeTile_frame _ _ _ _).2.2.2.2.2.2.2.2.1.trans ((State.noteSeq_frame _ _ _ _ _).2.2.2.2.2.2.2.1.trans (State.setOutComp_panels _ _ _))),
    each_same _ _ _ _ (fun s _ => (State.storeTile_frame _ _ _ _).2.2.2.2.2.2.2.2.2.1.trans ((State.noteSeq_frame _ _ _ _ _).2.2.2.2.2.2.2.2.1.trans (State.setOutComp_panelInit _ _ _))),
    each_same _ _ _ _ (fun s _ => (State.storeTile_frame _ _ _ _).2.2.2.2.2.2.2.2.2.2.1.trans ((State.noteSeq_frame _ _ _ _ _).2.2.2.2.2.2.2.2.2.1.trans (State.setOutComp_keys _ _ _))),
    each_same _ _ _ _ (fun s _ => (State.storeTile_frame _ _ _ _).2.2.2.2.2.2.2.2.2.2.2.1.trans ((State.noteSeq_frame _ _ _ _ _).2.2.2.2.2.2.2.2.2.2.1.trans (State.setOutComp_keyRef _ _ _))),
    each_same _ _ _ _ (fun s _ => (State.storeTile_frame _ _ _ _).2.2.2.2.2.2.2.2.2.2.2.2.1.trans ((State.noteSeq_frame _ _ _ _ _).2.2.2.2.2.2.2.2.2.2.2.1.trans (State.setOutComp_encJobs _ _ _))),
    each_same _ _ _ _ (fun s _ => (State.storeTile_frame _ _ _ _).2.2.2.2.2.2.2.2.2.2.2.2.2.1.trans ((State.noteSeq_frame _ _ _ _ _).2.2.2.2.2.2.2.2.2.2.2.2.1.trans (State.setOutComp_enc _ _ _))),
    each_same _ _ _ _ (fun s _ => (State.storeTile_frame _ _ _ _).2.2.2.2.2.2.2.2.2.2.2.2.2.2.1.trans ((State.noteSeq_frame _ _ _ _ _).2.2.2.2.2.2.2.2.2.2.2.2.2.1.trans (State.setOutComp_links _ _ _))),
    each_same _ _ _ _ (fun s _ => (State.storeTile_frame _ _ _ _).2.2.2.2.2.2.2.2.2.2.2.2.2.2.2.1.trans ((State.noteSeq_frame _ _ _ _ _).2.2.2.2.2.2.2.2.2.2.2.2.2.2.1.trans (State.setOutComp_pair _ _ _))),
    each_same _ _ _ _ (fun s _ => (State.storeTile_frame _ _ _ _).2.2.2.2.2.2.2.2.2.2.2.2.2.2.2.2.1.trans ((State.noteSeq_frame _ _ _ _ _).2.2.2.2.2.2.2.2.2.2.2.2.2.2.2.2.1.trans (State.setOutComp_fault _ _ _))),
    each_same _ _ _ _ (fun s _ => (State.storeTile_frame _ _ _ _).2.2.2.2.2.2.2.2.2.2.2.2.2.2.2.2.2.1.trans ((State.noteSeq_frame _ _ _ _ _).2.2.2.2.2.2.2.2.2.2.2.2.2.2.2.2.2.1.trans (State.setOutComp_sec _ _ _))),
    each_same _ _ _ _ (fun s _ => (State.storeTile_frame _ _ _ _).2.2.2.2.2.2.2.2.2.2.2.2.2.2.2.2.2.2.1.trans ((State.noteSeq_frame _ _ _ _ _).2.2.2.2.2.2.2.2.2.2.2.2.2.2.2.2.2.2.1.trans (State.setOutComp_power _ _ _))),
    each_same _ _ _ _ (fun s _ => (State.storeTile_frame _ _ _ _).2.2.2.2.2.2.2.2.2.2.2.2.2.2.2.2.2.2.2.1.trans ((State.noteSeq_frame _ _ _ _ _).2.2.2.2.2.2.2.2.2.2.2.2.2.2.2.2.2.2.2.1.trans (State.setOutComp_out _ _ _))),
    each_same _ _ _ _ (fun s _ => (State.storeTile_frame _ _ _ _).2.2.2.2.2.2.2.2.2.2.2.2.2.2.2.2.2.2.2.2.trans ((State.noteSeq_frame _ _ _ _ _).2.2.2.2.2.2.2.2.2.2.2.2.2.2.2.2.2.2.2.2.trans (State.setOutComp_draw _ _ _)))⟩

@[simp] theorem State.stageRest_frame (s : State) :
    (State.stageRest s).pending = s.pending ∧ (State.stageRest s).time = s.time ∧ (State.stageRest s).ledger = s.ledger ∧ (State.stageRest s).mail = s.mail ∧ (State.stageRest s).sets = s.sets ∧ (State.stageRest s).src = s.src ∧ (State.stageRest s).heads = s.heads ∧ (State.stageRest s).panels = s.panels ∧ (State.stageRest s).panelInit = s.panelInit ∧ (State.stageRest s).keys = s.keys ∧ (State.stageRest s).keyRef = s.keyRef ∧ (State.stageRest s).encJobs = s.encJobs ∧ (State.stageRest s).enc = s.enc ∧ (State.stageRest s).links = s.links ∧ (State.stageRest s).pair = s.pair ∧ (State.stageRest s).fault = s.fault ∧ (State.stageRest s).sec = s.sec ∧ (State.stageRest s).power = s.power ∧ (State.stageRest s).out = s.out ∧ (State.stageRest s).draw = s.draw := by
  unfold State.stageRest; (try dsimp only); (repeat' split) <;> simp

@[simp] theorem State.dropStaged_frame (s : State) :
    (State.dropStaged s).pending = s.pending ∧ (State.dropStaged s).time = s.time ∧ (State.dropStaged s).ledger = s.ledger ∧ (State.dropStaged s).mail = s.mail ∧ (State.dropStaged s).sets = s.sets ∧ (State.dropStaged s).src = s.src ∧ (State.dropStaged s).heads = s.heads ∧ (State.dropStaged s).panels = s.panels ∧ (State.dropStaged s).panelInit = s.panelInit ∧ (State.dropStaged s).keys = s.keys ∧ (State.dropStaged s).keyRef = s.keyRef ∧ (State.dropStaged s).encJobs = s.encJobs ∧ (State.dropStaged s).enc = s.enc ∧ (State.dropStaged s).links = s.links ∧ (State.dropStaged s).pair = s.pair ∧ (State.dropStaged s).mem = s.mem ∧ (State.dropStaged s).fault = s.fault ∧ (State.dropStaged s).sec = s.sec ∧ (State.dropStaged s).power = s.power ∧ (State.dropStaged s).out = s.out ∧ (State.dropStaged s).draw = s.draw := by
  simp [State.dropStaged]

@[simp] theorem State.restageLayers_frame (s : State) (ls : List Nat) :
    (State.restageLayers s ls).pending = s.pending ∧ (State.restageLayers s ls).time = s.time ∧ (State.restageLayers s ls).ledger = s.ledger ∧ (State.restageLayers s ls).mail = s.mail ∧ (State.restageLayers s ls).src = s.src ∧ (State.restageLayers s ls).heads = s.heads ∧ (State.restageLayers s ls).panels = s.panels ∧ (State.restageLayers s ls).panelInit = s.panelInit ∧ (State.restageLayers s ls).keys = s.keys ∧ (State.restageLayers s ls).keyRef = s.keyRef ∧ (State.restageLayers s ls).encJobs = s.encJobs ∧ (State.restageLayers s ls).enc = s.enc ∧ (State.restageLayers s ls).links = s.links ∧ (State.restageLayers s ls).pair = s.pair ∧ (State.restageLayers s ls).fault = s.fault ∧ (State.restageLayers s ls).sec = s.sec ∧ (State.restageLayers s ls).power = s.power ∧ (State.restageLayers s ls).out = s.out ∧ (State.restageLayers s ls).draw = s.draw := by
  unfold State.restageLayers; (try dsimp only); (repeat' split) <;> simp

@[simp] theorem State.outdate_frame (s : State) :
    (State.outdate s).pending = s.pending ∧ (State.outdate s).time = s.time ∧ (State.outdate s).ledger = s.ledger ∧ (State.outdate s).mail = s.mail ∧ (State.outdate s).heads = s.heads ∧ (State.outdate s).panels = s.panels ∧ (State.outdate s).panelInit = s.panelInit ∧ (State.outdate s).keys = s.keys ∧ (State.outdate s).keyRef = s.keyRef ∧ (State.outdate s).encJobs = s.encJobs ∧ (State.outdate s).enc = s.enc ∧ (State.outdate s).links = s.links ∧ (State.outdate s).pair = s.pair ∧ (State.outdate s).mem = s.mem ∧ (State.outdate s).fault = s.fault ∧ (State.outdate s).sec = s.sec ∧ (State.outdate s).power = s.power ∧ (State.outdate s).out = s.out ∧ (State.outdate s).draw = s.draw := by
  simp [State.outdate]

@[simp] theorem State.withdraw_frame (s : State) (test : Frame → Bool) :
    (State.withdraw s test).pending = s.pending ∧ (State.withdraw s test).time = s.time ∧ (State.withdraw s test).ledger = s.ledger ∧ (State.withdraw s test).mail = s.mail ∧ (State.withdraw s test).heads = s.heads ∧ (State.withdraw s test).panels = s.panels ∧ (State.withdraw s test).panelInit = s.panelInit ∧ (State.withdraw s test).keys = s.keys ∧ (State.withdraw s test).keyRef = s.keyRef ∧ (State.withdraw s test).encJobs = s.encJobs ∧ (State.withdraw s test).enc = s.enc ∧ (State.withdraw s test).links = s.links ∧ (State.withdraw s test).pair = s.pair ∧ (State.withdraw s test).mem = s.mem ∧ (State.withdraw s test).fault = s.fault ∧ (State.withdraw s test).sec = s.sec ∧ (State.withdraw s test).power = s.power ∧ (State.withdraw s test).out = s.out ∧ (State.withdraw s test).draw = s.draw := by
  simp [State.withdraw]

@[simp] theorem State.sendMembership_frame (s : State) (port group kind : Nat) (sources : List Nat) (left : Bool) :
    (State.sendMembership s port group kind sources left).pending = s.pending ∧ (State.sendMembership s port group kind sources left).time = s.time ∧ (State.sendMembership s port group kind sources left).ledger = s.ledger ∧ (State.sendMembership s port group kind sources left).mail = s.mail ∧ (State.sendMembership s port group kind sources left).sets = s.sets ∧ (State.sendMembership s port group kind sources left).src = s.src ∧ (State.sendMembership s port group kind sources left).comp = s.comp ∧ (State.sendMembership s port group kind sources left).heads = s.heads ∧ (State.sendMembership s port group kind sources left).panels = s.panels ∧ (State.sendMembership s port group kind sources left).panelInit = s.panelInit ∧ (State.sendMembership s port group kind sources left).keys = s.keys ∧ (State.sendMembership s port group kind sources left).keyRef = s.keyRef ∧ (State.sendMembership s port group kind sources left).encJobs = s.encJobs ∧ (State.sendMembership s port group kind sources left).enc = s.enc ∧ (State.sendMembership s port group kind sources left).links = s.links ∧ (State.sendMembership s port group kind sources left).pair = s.pair ∧ (State.sendMembership s port group kind sources left).mem = s.mem ∧ (State.sendMembership s port group kind sources left).fault = s.fault ∧ (State.sendMembership s port group kind sources left).sec = s.sec ∧ (State.sendMembership s port group kind sources left).power = s.power ∧ (State.sendMembership s port group kind sources left).draw = s.draw := by
  simp [State.sendMembership]

@[simp] theorem State.reportJoin_frame (s : State) (port group : Nat) (sources : List Nat) :
    (State.reportJoin s port group sources).pending = s.pending ∧ (State.reportJoin s port group sources).time = s.time ∧ (State.reportJoin s port group sources).ledger = s.ledger ∧ (State.reportJoin s port group sources).mail = s.mail ∧ (State.reportJoin s port group sources).sets = s.sets ∧ (State.reportJoin s port group sources).src = s.src ∧ (State.reportJoin s port group sources).comp = s.comp ∧ (State.reportJoin s port group sources).heads = s.heads ∧ (State.reportJoin s port group sources).panels = s.panels ∧ (State.reportJoin s port group sources).panelInit = s.panelInit ∧ (State.reportJoin s port group sources).keys = s.keys ∧ (State.reportJoin s port group sources).keyRef = s.keyRef ∧ (State.reportJoin s port group sources).encJobs = s.encJobs ∧ (State.reportJoin s port group sources).enc = s.enc ∧ (State.reportJoin s port group sources).links = s.links ∧ (State.reportJoin s port group sources).pair = s.pair ∧ (State.reportJoin s port group sources).mem = s.mem ∧ (State.reportJoin s port group sources).fault = s.fault ∧ (State.reportJoin s port group sources).sec = s.sec ∧ (State.reportJoin s port group sources).power = s.power ∧ (State.reportJoin s port group sources).draw = s.draw := by
  unfold State.reportJoin; (try dsimp only); (repeat' split) <;> simp

@[simp] theorem State.reportChange_frame (s s0 : State) (port group : Nat) :
    (State.reportChange s s0 port group).pending = s.pending ∧ (State.reportChange s s0 port group).time = s.time ∧ (State.reportChange s s0 port group).ledger = s.ledger ∧ (State.reportChange s s0 port group).mail = s.mail ∧ (State.reportChange s s0 port group).sets = s.sets ∧ (State.reportChange s s0 port group).src = s.src ∧ (State.reportChange s s0 port group).comp = s.comp ∧ (State.reportChange s s0 port group).heads = s.heads ∧ (State.reportChange s s0 port group).panels = s.panels ∧ (State.reportChange s s0 port group).panelInit = s.panelInit ∧ (State.reportChange s s0 port group).keys = s.keys ∧ (State.reportChange s s0 port group).keyRef = s.keyRef ∧ (State.reportChange s s0 port group).encJobs = s.encJobs ∧ (State.reportChange s s0 port group).enc = s.enc ∧ (State.reportChange s s0 port group).links = s.links ∧ (State.reportChange s s0 port group).pair = s.pair ∧ (State.reportChange s s0 port group).mem = s.mem ∧ (State.reportChange s s0 port group).fault = s.fault ∧ (State.reportChange s s0 port group).sec = s.sec ∧ (State.reportChange s s0 port group).power = s.power ∧ (State.reportChange s s0 port group).draw = s.draw := by
  simp [State.reportChange]

@[simp] theorem State.loseSource_frame (s : State) (i condition : Nat) :
    (State.loseSource s i condition).pending = s.pending ∧ (State.loseSource s i condition).time = s.time ∧ (State.loseSource s i condition).mail = s.mail ∧ (State.loseSource s i condition).sets = s.sets ∧ (State.loseSource s i condition).comp = s.comp ∧ (State.loseSource s i condition).heads = s.heads ∧ (State.loseSource s i condition).panels = s.panels ∧ (State.loseSource s i condition).panelInit = s.panelInit ∧ (State.loseSource s i condition).keys = s.keys ∧ (State.loseSource s i condition).keyRef = s.keyRef ∧ (State.loseSource s i condition).encJobs = s.encJobs ∧ (State.loseSource s i condition).enc = s.enc ∧ (State.loseSource s i condition).links = s.links ∧ (State.loseSource s i condition).pair = s.pair ∧ (State.loseSource s i condition).mem = s.mem ∧ (State.loseSource s i condition).fault = s.fault ∧ (State.loseSource s i condition).sec = s.sec ∧ (State.loseSource s i condition).power = s.power ∧ (State.loseSource s i condition).out = s.out ∧ (State.loseSource s i condition).draw = s.draw := by
  simp [State.loseSource]

@[simp] theorem State.subscribe_frame (s : State) (i : Nat) :
    (State.subscribe s i).pending = s.pending ∧ (State.subscribe s i).time = s.time ∧ (State.subscribe s i).mail = s.mail ∧ (State.subscribe s i).sets = s.sets ∧ (State.subscribe s i).comp = s.comp ∧ (State.subscribe s i).heads = s.heads ∧ (State.subscribe s i).panels = s.panels ∧ (State.subscribe s i).panelInit = s.panelInit ∧ (State.subscribe s i).keys = s.keys ∧ (State.subscribe s i).keyRef = s.keyRef ∧ (State.subscribe s i).encJobs = s.encJobs ∧ (State.subscribe s i).enc = s.enc ∧ (State.subscribe s i).links = s.links ∧ (State.subscribe s i).pair = s.pair ∧ (State.subscribe s i).mem = s.mem ∧ (State.subscribe s i).fault = s.fault ∧ (State.subscribe s i).sec = s.sec ∧ (State.subscribe s i).power = s.power ∧ (State.subscribe s i).draw = s.draw := by
  simp [State.subscribe]

@[simp] theorem State.leaveCore_frame (s : State) (i : Nat) :
    (State.leaveCore s i).pending = s.pending ∧ (State.leaveCore s i).time = s.time ∧ (State.leaveCore s i).mail = s.mail ∧ (State.leaveCore s i).sets = s.sets ∧ (State.leaveCore s i).comp = s.comp ∧ (State.leaveCore s i).heads = s.heads ∧ (State.leaveCore s i).panels = s.panels ∧ (State.leaveCore s i).panelInit = s.panelInit ∧ (State.leaveCore s i).keys = s.keys ∧ (State.leaveCore s i).keyRef = s.keyRef ∧ (State.leaveCore s i).encJobs = s.encJobs ∧ (State.leaveCore s i).enc = s.enc ∧ (State.leaveCore s i).links = s.links ∧ (State.leaveCore s i).pair = s.pair ∧ (State.leaveCore s i).mem = s.mem ∧ (State.leaveCore s i).fault = s.fault ∧ (State.leaveCore s i).sec = s.sec ∧ (State.leaveCore s i).out = s.out ∧ (State.leaveCore s i).draw = s.draw := by
  unfold State.leaveCore; (try dsimp only); (repeat' split) <;> simp

@[simp] theorem State.unsubscribe_frame (s : State) (i reason : Nat) (d : SrcDesc) :
    (State.unsubscribe s i reason d).pending = s.pending ∧ (State.unsubscribe s i reason d).time = s.time ∧ (State.unsubscribe s i reason d).mail = s.mail ∧ (State.unsubscribe s i reason d).heads = s.heads ∧ (State.unsubscribe s i reason d).panels = s.panels ∧ (State.unsubscribe s i reason d).panelInit = s.panelInit ∧ (State.unsubscribe s i reason d).keys = s.keys ∧ (State.unsubscribe s i reason d).keyRef = s.keyRef ∧ (State.unsubscribe s i reason d).encJobs = s.encJobs ∧ (State.unsubscribe s i reason d).enc = s.enc ∧ (State.unsubscribe s i reason d).links = s.links ∧ (State.unsubscribe s i reason d).pair = s.pair ∧ (State.unsubscribe s i reason d).mem = s.mem ∧ (State.unsubscribe s i reason d).fault = s.fault ∧ (State.unsubscribe s i reason d).sec = s.sec ∧ (State.unsubscribe s i reason d).draw = s.draw := by
  unfold State.unsubscribe; (try dsimp only); (repeat' split) <;> simp

@[simp] theorem State.kinikLost_frame (s : State) (i : Nat) :
    (State.kinikLost s i).pending = s.pending ∧ (State.kinikLost s i).sets = s.sets ∧ (State.kinikLost s i).panelInit = s.panelInit ∧ (State.kinikLost s i).keys = s.keys ∧ (State.kinikLost s i).keyRef = s.keyRef ∧ (State.kinikLost s i).encJobs = s.encJobs ∧ (State.kinikLost s i).sec = s.sec ∧ (State.kinikLost s i).draw = s.draw := by
  unfold State.kinikLost; (try dsimp only); (repeat' split) <;> simp

@[simp] theorem State.admitKinik_frame (s : State) (i : Nat) :
    (State.admitKinik s i).pending = s.pending ∧ (State.admitKinik s i).sets = s.sets ∧ (State.admitKinik s i).panelInit = s.panelInit ∧ (State.admitKinik s i).keys = s.keys ∧ (State.admitKinik s i).keyRef = s.keyRef ∧ (State.admitKinik s i).encJobs = s.encJobs ∧ (State.admitKinik s i).sec = s.sec ∧ (State.admitKinik s i).draw = s.draw := by
  simp [State.admitKinik]

@[simp] theorem State.subscribeAll_frame (s : State) :
    (State.subscribeAll s).pending = s.pending ∧ (State.subscribeAll s).sets = s.sets ∧ (State.subscribeAll s).panelInit = s.panelInit ∧ (State.subscribeAll s).keys = s.keys ∧ (State.subscribeAll s).keyRef = s.keyRef ∧ (State.subscribeAll s).encJobs = s.encJobs ∧ (State.subscribeAll s).sec = s.sec ∧ (State.subscribeAll s).draw = s.draw := by
  simp [State.subscribeAll]

@[simp] theorem State.unsubscribeAll_frame (s : State) (reason : Nat) :
    (State.unsubscribeAll s reason).pending = s.pending ∧ (State.unsubscribeAll s reason).time = s.time ∧ (State.unsubscribeAll s reason).mail = s.mail ∧ (State.unsubscribeAll s reason).heads = s.heads ∧ (State.unsubscribeAll s reason).panels = s.panels ∧ (State.unsubscribeAll s reason).panelInit = s.panelInit ∧ (State.unsubscribeAll s reason).keys = s.keys ∧ (State.unsubscribeAll s reason).keyRef = s.keyRef ∧ (State.unsubscribeAll s reason).encJobs = s.encJobs ∧ (State.unsubscribeAll s reason).enc = s.enc ∧ (State.unsubscribeAll s reason).links = s.links ∧ (State.unsubscribeAll s reason).pair = s.pair ∧ (State.unsubscribeAll s reason).mem = s.mem ∧ (State.unsubscribeAll s reason).fault = s.fault ∧ (State.unsubscribeAll s reason).sec = s.sec ∧ (State.unsubscribeAll s reason).draw = s.draw := by
  simp [State.unsubscribeAll]

@[simp] theorem State.encodeMint_frame (s : State) (i : Nat) (f : Frame) :
    (State.encodeMint s i f).pending = s.pending ∧ (State.encodeMint s i f).time = s.time ∧ (State.encodeMint s i f).mail = s.mail ∧ (State.encodeMint s i f).sets = s.sets ∧ (State.encodeMint s i f).src = s.src ∧ (State.encodeMint s i f).comp = s.comp ∧ (State.encodeMint s i f).heads = s.heads ∧ (State.encodeMint s i f).panels = s.panels ∧ (State.encodeMint s i f).panelInit = s.panelInit ∧ (State.encodeMint s i f).keys = s.keys ∧ (State.encodeMint s i f).keyRef = s.keyRef ∧ (State.encodeMint s i f).encJobs = s.encJobs ∧ (State.encodeMint s i f).links = s.links ∧ (State.encodeMint s i f).pair = s.pair ∧ (State.encodeMint s i f).mem = s.mem ∧ (State.encodeMint s i f).fault = s.fault ∧ (State.encodeMint s i f).sec = s.sec ∧ (State.encodeMint s i f).power = s.power ∧ (State.encodeMint s i f).out = s.out ∧ (State.encodeMint s i f).draw = s.draw := by
  simp [State.encodeMint]

@[simp] theorem State.mint_frame (s : State) (i : Nat) (f : Frame) :
    (State.mint s i f).pending = s.pending ∧ (State.mint s i f).time = s.time ∧ (State.mint s i f).mail = s.mail ∧ (State.mint s i f).sets = s.sets ∧ (State.mint s i f).heads = s.heads ∧ (State.mint s i f).panels = s.panels ∧ (State.mint s i f).panelInit = s.panelInit ∧ (State.mint s i f).keys = s.keys ∧ (State.mint s i f).keyRef = s.keyRef ∧ (State.mint s i f).encJobs = s.encJobs ∧ (State.mint s i f).links = s.links ∧ (State.mint s i f).pair = s.pair ∧ (State.mint s i f).mem = s.mem ∧ (State.mint s i f).fault = s.fault ∧ (State.mint s i f).sec = s.sec ∧ (State.mint s i f).power = s.power ∧ (State.mint s i f).out = s.out ∧ (State.mint s i f).draw = s.draw := by
  unfold State.mint; (try dsimp only); (repeat' split) <;> simp

@[simp] theorem State.endCommit_frame (s : State) (c : Commit) (st : CommitState) :
    (State.endCommit s c st).pending = s.pending ∧ (State.endCommit s c st).time = s.time ∧ (State.endCommit s c st).ledger = s.ledger ∧ (State.endCommit s c st).mail = s.mail ∧ (State.endCommit s c st).src = s.src ∧ (State.endCommit s c st).heads = s.heads ∧ (State.endCommit s c st).panels = s.panels ∧ (State.endCommit s c st).panelInit = s.panelInit ∧ (State.endCommit s c st).keys = s.keys ∧ (State.endCommit s c st).keyRef = s.keyRef ∧ (State.endCommit s c st).encJobs = s.encJobs ∧ (State.endCommit s c st).enc = s.enc ∧ (State.endCommit s c st).mem = s.mem ∧ (State.endCommit s c st).fault = s.fault ∧ (State.endCommit s c st).sec = s.sec ∧ (State.endCommit s c st).power = s.power ∧ (State.endCommit s c st).draw = s.draw := by
  simp [State.endCommit]

@[simp] theorem State.deferResponse_frame (s : State) (c : Commit) :
    (State.deferResponse s c).pending = s.pending ∧ (State.deferResponse s c).time = s.time ∧ (State.deferResponse s c).ledger = s.ledger ∧ (State.deferResponse s c).sets = s.sets ∧ (State.deferResponse s c).src = s.src ∧ (State.deferResponse s c).comp = s.comp ∧ (State.deferResponse s c).heads = s.heads ∧ (State.deferResponse s c).panels = s.panels ∧ (State.deferResponse s c).panelInit = s.panelInit ∧ (State.deferResponse s c).keys = s.keys ∧ (State.deferResponse s c).keyRef = s.keyRef ∧ (State.deferResponse s c).encJobs = s.encJobs ∧ (State.deferResponse s c).enc = s.enc ∧ (State.deferResponse s c).links = s.links ∧ (State.deferResponse s c).pair = s.pair ∧ (State.deferResponse s c).mem = s.mem ∧ (State.deferResponse s c).fault = s.fault ∧ (State.deferResponse s c).sec = s.sec ∧ (State.deferResponse s c).power = s.power ∧ (State.deferResponse s c).draw = s.draw := by
  unfold State.deferResponse; (try dsimp only); (repeat' split) <;> simp

@[simp] theorem State.reject_frame (s : State) (c : Commit) (f : Reject) :
    (State.reject s c f).pending = s.pending ∧ (State.reject s c f).time = s.time ∧ (State.reject s c f).src = s.src ∧ (State.reject s c f).heads = s.heads ∧ (State.reject s c f).panels = s.panels ∧ (State.reject s c f).panelInit = s.panelInit ∧ (State.reject s c f).keys = s.keys ∧ (State.reject s c f).keyRef = s.keyRef ∧ (State.reject s c f).encJobs = s.encJobs ∧ (State.reject s c f).enc = s.enc ∧ (State.reject s c f).mem = s.mem ∧ (State.reject s c f).fault = s.fault ∧ (State.reject s c f).sec = s.sec ∧ (State.reject s c f).power = s.power ∧ (State.reject s c f).draw = s.draw := by
  unfold State.reject; (try dsimp only); (repeat' split) <;> simp

@[simp] theorem State.eligible_frame (s : State) (c : Commit) :
    (State.eligible s c).pending = s.pending ∧ (State.eligible s c).time = s.time ∧ (State.eligible s c).ledger = s.ledger ∧ (State.eligible s c).src = s.src ∧ (State.eligible s c).comp = s.comp ∧ (State.eligible s c).heads = s.heads ∧ (State.eligible s c).panels = s.panels ∧ (State.eligible s c).panelInit = s.panelInit ∧ (State.eligible s c).keys = s.keys ∧ (State.eligible s c).keyRef = s.keyRef ∧ (State.eligible s c).encJobs = s.encJobs ∧ (State.eligible s c).enc = s.enc ∧ (State.eligible s c).links = s.links ∧ (State.eligible s c).pair = s.pair ∧ (State.eligible s c).mem = s.mem ∧ (State.eligible s c).fault = s.fault ∧ (State.eligible s c).sec = s.sec ∧ (State.eligible s c).power = s.power ∧ (State.eligible s c).draw = s.draw := by
  unfold State.eligible; (try dsimp only); (repeat' split) <;> simp

@[simp] theorem State.checkColours_frame (s : State) :
    (State.checkColours s).pending = s.pending ∧ (State.checkColours s).time = s.time ∧ (State.checkColours s).mail = s.mail ∧ (State.checkColours s).sets = s.sets ∧ (State.checkColours s).src = s.src ∧ (State.checkColours s).heads = s.heads ∧ (State.checkColours s).panels = s.panels ∧ (State.checkColours s).panelInit = s.panelInit ∧ (State.checkColours s).keys = s.keys ∧ (State.checkColours s).keyRef = s.keyRef ∧ (State.checkColours s).encJobs = s.encJobs ∧ (State.checkColours s).enc = s.enc ∧ (State.checkColours s).links = s.links ∧ (State.checkColours s).pair = s.pair ∧ (State.checkColours s).mem = s.mem ∧ (State.checkColours s).fault = s.fault ∧ (State.checkColours s).sec = s.sec ∧ (State.checkColours s).power = s.power ∧ (State.checkColours s).out = s.out ∧ (State.checkColours s).draw = s.draw := by
  simp [State.checkColours]

@[simp] theorem State.logPolicy_frame (s : State) (a b : ConfigSet) (seq : Nat) :
    (State.logPolicy s a b seq).pending = s.pending ∧ (State.logPolicy s a b seq).time = s.time ∧ (State.logPolicy s a b seq).mail = s.mail ∧ (State.logPolicy s a b seq).sets = s.sets ∧ (State.logPolicy s a b seq).src = s.src ∧ (State.logPolicy s a b seq).comp = s.comp ∧ (State.logPolicy s a b seq).heads = s.heads ∧ (State.logPolicy s a b seq).panels = s.panels ∧ (State.logPolicy s a b seq).panelInit = s.panelInit ∧ (State.logPolicy s a b seq).keys = s.keys ∧ (State.logPolicy s a b seq).keyRef = s.keyRef ∧ (State.logPolicy s a b seq).encJobs = s.encJobs ∧ (State.logPolicy s a b seq).enc = s.enc ∧ (State.logPolicy s a b seq).links = s.links ∧ (State.logPolicy s a b seq).pair = s.pair ∧ (State.logPolicy s a b seq).mem = s.mem ∧ (State.logPolicy s a b seq).fault = s.fault ∧ (State.logPolicy s a b seq).sec = s.sec ∧ (State.logPolicy s a b seq).power = s.power ∧ (State.logPolicy s a b seq).out = s.out ∧ (State.logPolicy s a b seq).draw = s.draw := by
  simp [State.logPolicy]

@[simp] theorem State.changeSubscriptions_frame (s : State) (a : ConfigSet) :
    (State.changeSubscriptions s a).pending = s.pending ∧ (State.changeSubscriptions s a).panelInit = s.panelInit ∧ (State.changeSubscriptions s a).keys = s.keys ∧ (State.changeSubscriptions s a).keyRef = s.keyRef ∧ (State.changeSubscriptions s a).encJobs = s.encJobs ∧ (State.changeSubscriptions s a).sec = s.sec ∧ (State.changeSubscriptions s a).draw = s.draw := by
  simp [State.changeSubscriptions]

@[simp] theorem State.settleHead_frame (s : State) (a : ConfigSet) (h : Nat) :
    (State.settleHead s a h).pending = s.pending ∧ (State.settleHead s a h).time = s.time ∧ (State.settleHead s a h).sets = s.sets ∧ (State.settleHead s a h).src = s.src ∧ (State.settleHead s a h).panelInit = s.panelInit ∧ (State.settleHead s a h).keys = s.keys ∧ (State.settleHead s a h).keyRef = s.keyRef ∧ (State.settleHead s a h).encJobs = s.encJobs ∧ (State.settleHead s a h).links = s.links ∧ (State.settleHead s a h).sec = s.sec ∧ (State.settleHead s a h).power = s.power ∧ (State.settleHead s a h).draw = s.draw := by
  unfold State.settleHead; (try dsimp only); (repeat' split) <;> simp

@[simp] theorem State.beginPanelStart_frame (s : State) (p retries : Nat) :
    (State.beginPanelStart s p retries).pending = s.pending ∧ (State.beginPanelStart s p retries).time = s.time ∧ (State.beginPanelStart s p retries).ledger = s.ledger ∧ (State.beginPanelStart s p retries).mail = s.mail ∧ (State.beginPanelStart s p retries).sets = s.sets ∧ (State.beginPanelStart s p retries).src = s.src ∧ (State.beginPanelStart s p retries).comp = s.comp ∧ (State.beginPanelStart s p retries).heads = s.heads ∧ (State.beginPanelStart s p retries).panelInit = s.panelInit ∧ (State.beginPanelStart s p retries).keys = s.keys ∧ (State.beginPanelStart s p retries).keyRef = s.keyRef ∧ (State.beginPanelStart s p retries).encJobs = s.encJobs ∧ (State.beginPanelStart s p retries).enc = s.enc ∧ (State.beginPanelStart s p retries).links = s.links ∧ (State.beginPanelStart s p retries).pair = s.pair ∧ (State.beginPanelStart s p retries).mem = s.mem ∧ (State.beginPanelStart s p retries).fault = s.fault ∧ (State.beginPanelStart s p retries).sec = s.sec ∧ (State.beginPanelStart s p retries).power = s.power ∧ (State.beginPanelStart s p retries).draw = s.draw := by
  simp [State.beginPanelStart]

@[simp] theorem State.beginPanelStop_frame (s : State) (p reason : Nat) (restart : Bool) :
    (State.beginPanelStop s p reason restart).pending = s.pending ∧ (State.beginPanelStop s p reason restart).time = s.time ∧ (State.beginPanelStop s p reason restart).sets = s.sets ∧ (State.beginPanelStop s p reason restart).src = s.src ∧ (State.beginPanelStop s p reason restart).heads = s.heads ∧ (State.beginPanelStop s p reason restart).panelInit = s.panelInit ∧ (State.beginPanelStop s p reason restart).keys = s.keys ∧ (State.beginPanelStop s p reason restart).keyRef = s.keyRef ∧ (State.beginPanelStop s p reason restart).encJobs = s.encJobs ∧ (State.beginPanelStop s p reason restart).enc = s.enc ∧ (State.beginPanelStop s p reason restart).links = s.links ∧ (State.beginPanelStop s p reason restart).pair = s.pair ∧ (State.beginPanelStop s p reason restart).fault = s.fault ∧ (State.beginPanelStop s p reason restart).sec = s.sec ∧ (State.beginPanelStop s p reason restart).power = s.power ∧ (State.beginPanelStop s p reason restart).draw = s.draw := by
  simp [State.beginPanelStop]

@[simp] theorem State.keepUnder_frame (s : State) (a : ConfigSet) (p : Nat) :
    (State.keepUnder s a p).pending = s.pending ∧ (State.keepUnder s a p).time = s.time ∧ (State.keepUnder s a p).ledger = s.ledger ∧ (State.keepUnder s a p).mail = s.mail ∧ (State.keepUnder s a p).sets = s.sets ∧ (State.keepUnder s a p).src = s.src ∧ (State.keepUnder s a p).comp = s.comp ∧ (State.keepUnder s a p).heads = s.heads ∧ (State.keepUnder s a p).panelInit = s.panelInit ∧ (State.keepUnder s a p).keys = s.keys ∧ (State.keepUnder s a p).keyRef = s.keyRef ∧ (State.keepUnder s a p).encJobs = s.encJobs ∧ (State.keepUnder s a p).enc = s.enc ∧ (State.keepUnder s a p).links = s.links ∧ (State.keepUnder s a p).pair = s.pair ∧ (State.keepUnder s a p).mem = s.mem ∧ (State.keepUnder s a p).fault = s.fault ∧ (State.keepUnder s a p).sec = s.sec ∧ (State.keepUnder s a p).power = s.power ∧ (State.keepUnder s a p).out = s.out ∧ (State.keepUnder s a p).draw = s.draw := by
  simp [State.keepUnder]

@[simp] theorem State.settlePanel_frame (s : State) (a : ConfigSet) (p : Nat) :
    (State.settlePanel s a p).pending = s.pending ∧ (State.settlePanel s a p).time = s.time ∧ (State.settlePanel s a p).sets = s.sets ∧ (State.settlePanel s a p).src = s.src ∧ (State.settlePanel s a p).heads = s.heads ∧ (State.settlePanel s a p).panelInit = s.panelInit ∧ (State.settlePanel s a p).keys = s.keys ∧ (State.settlePanel s a p).keyRef = s.keyRef ∧ (State.settlePanel s a p).encJobs = s.encJobs ∧ (State.settlePanel s a p).enc = s.enc ∧ (State.settlePanel s a p).links = s.links ∧ (State.settlePanel s a p).pair = s.pair ∧ (State.settlePanel s a p).fault = s.fault ∧ (State.settlePanel s a p).sec = s.sec ∧ (State.settlePanel s a p).power = s.power ∧ (State.settlePanel s a p).draw = s.draw := by
  unfold State.settlePanel; (try dsimp only); (repeat' split) <;> simp

@[simp] theorem State.clearWritten_frame (s : State) (a : ConfigSet) :
    (State.clearWritten s a).pending = s.pending ∧ (State.clearWritten s a).time = s.time ∧ (State.clearWritten s a).ledger = s.ledger ∧ (State.clearWritten s a).mail = s.mail ∧ (State.clearWritten s a).sets = s.sets ∧ (State.clearWritten s a).src = s.src ∧ (State.clearWritten s a).heads = s.heads ∧ (State.clearWritten s a).panels = s.panels ∧ (State.clearWritten s a).panelInit = s.panelInit ∧ (State.clearWritten s a).keys = s.keys ∧ (State.clearWritten s a).keyRef = s.keyRef ∧ (State.clearWritten s a).encJobs = s.encJobs ∧ (State.clearWritten s a).enc = s.enc ∧ (State.clearWritten s a).links = s.links ∧ (State.clearWritten s a).pair = s.pair ∧ (State.clearWritten s a).mem = s.mem ∧ (State.clearWritten s a).fault = s.fault ∧ (State.clearWritten s a).sec = s.sec ∧ (State.clearWritten s a).power = s.power ∧ (State.clearWritten s a).out = s.out ∧ (State.clearWritten s a).draw = s.draw := by
  simp [State.clearWritten]

@[simp] theorem State.endOutputs_frame (s : State) (a : ConfigSet) :
    (State.endOutputs s a).pending = s.pending ∧ (State.endOutputs s a).time = s.time ∧ (State.endOutputs s a).sets = s.sets ∧ (State.endOutputs s a).src = s.src ∧ (State.endOutputs s a).panelInit = s.panelInit ∧ (State.endOutputs s a).keys = s.keys ∧ (State.endOutputs s a).keyRef = s.keyRef ∧ (State.endOutputs s a).encJobs = s.encJobs ∧ (State.endOutputs s a).links = s.links ∧ (State.endOutputs s a).sec = s.sec ∧ (State.endOutputs s a).power = s.power ∧ (State.endOutputs s a).draw = s.draw := by
  simp [State.endOutputs]

@[simp] theorem State.settle_frame (s : State) (c : Commit) :
    (State.settle s c).pending = s.pending ∧ (State.settle s c).panelInit = s.panelInit ∧ (State.settle s c).keys = s.keys ∧ (State.settle s c).keyRef = s.keyRef ∧ (State.settle s c).encJobs = s.encJobs ∧ (State.settle s c).sec = s.sec ∧ (State.settle s c).draw = s.draw := by
  simp [State.settle]

@[simp] theorem State.defer_frame (s : State) (c : Commit) (cause : Nat) :
    (State.defer s c cause).pending = s.pending ∧ (State.defer s c cause).time = s.time ∧ (State.defer s c cause).ledger = s.ledger ∧ (State.defer s c cause).src = s.src ∧ (State.defer s c cause).comp = s.comp ∧ (State.defer s c cause).heads = s.heads ∧ (State.defer s c cause).panels = s.panels ∧ (State.defer s c cause).panelInit = s.panelInit ∧ (State.defer s c cause).keys = s.keys ∧ (State.defer s c cause).keyRef = s.keyRef ∧ (State.defer s c cause).encJobs = s.encJobs ∧ (State.defer s c cause).enc = s.enc ∧ (State.defer s c cause).links = s.links ∧ (State.defer s c cause).pair = s.pair ∧ (State.defer s c cause).mem = s.mem ∧ (State.defer s c cause).fault = s.fault ∧ (State.defer s c cause).sec = s.sec ∧ (State.defer s c cause).power = s.power ∧ (State.defer s c cause).draw = s.draw := by
  simp [State.defer]

@[simp] theorem State.deferStaging_frame (s : State) (c : Commit) :
    (State.deferStaging s c).pending = s.pending ∧ (State.deferStaging s c).time = s.time ∧ (State.deferStaging s c).src = s.src ∧ (State.deferStaging s c).comp = s.comp ∧ (State.deferStaging s c).heads = s.heads ∧ (State.deferStaging s c).panels = s.panels ∧ (State.deferStaging s c).panelInit = s.panelInit ∧ (State.deferStaging s c).keys = s.keys ∧ (State.deferStaging s c).keyRef = s.keyRef ∧ (State.deferStaging s c).encJobs = s.encJobs ∧ (State.deferStaging s c).enc = s.enc ∧ (State.deferStaging s c).links = s.links ∧ (State.deferStaging s c).pair = s.pair ∧ (State.deferStaging s c).mem = s.mem ∧ (State.deferStaging s c).fault = s.fault ∧ (State.deferStaging s c).sec = s.sec ∧ (State.deferStaging s c).power = s.power ∧ (State.deferStaging s c).draw = s.draw := by
  simp [State.deferStaging]

@[simp] theorem State.mirrorReject_frame (s : State) (seq : Nat) (f : Reject) :
    (State.mirrorReject s seq f).pending = s.pending ∧ (State.mirrorReject s seq f).time = s.time ∧ (State.mirrorReject s seq f).sets = s.sets ∧ (State.mirrorReject s seq f).src = s.src ∧ (State.mirrorReject s seq f).comp = s.comp ∧ (State.mirrorReject s seq f).heads = s.heads ∧ (State.mirrorReject s seq f).panels = s.panels ∧ (State.mirrorReject s seq f).panelInit = s.panelInit ∧ (State.mirrorReject s seq f).keys = s.keys ∧ (State.mirrorReject s seq f).keyRef = s.keyRef ∧ (State.mirrorReject s seq f).encJobs = s.encJobs ∧ (State.mirrorReject s seq f).enc = s.enc ∧ (State.mirrorReject s seq f).mem = s.mem ∧ (State.mirrorReject s seq f).fault = s.fault ∧ (State.mirrorReject s seq f).sec = s.sec ∧ (State.mirrorReject s seq f).draw = s.draw := by
  simp [State.mirrorReject]

@[simp] theorem State.mirrorClear_frame (s : State) (seq group : Nat) (swap : Bool) :
    (State.mirrorClear s seq group swap).pending = s.pending ∧ (State.mirrorClear s seq group swap).time = s.time ∧ (State.mirrorClear s seq group swap).src = s.src ∧ (State.mirrorClear s seq group swap).comp = s.comp ∧ (State.mirrorClear s seq group swap).heads = s.heads ∧ (State.mirrorClear s seq group swap).panels = s.panels ∧ (State.mirrorClear s seq group swap).panelInit = s.panelInit ∧ (State.mirrorClear s seq group swap).keys = s.keys ∧ (State.mirrorClear s seq group swap).keyRef = s.keyRef ∧ (State.mirrorClear s seq group swap).encJobs = s.encJobs ∧ (State.mirrorClear s seq group swap).enc = s.enc ∧ (State.mirrorClear s seq group swap).mem = s.mem ∧ (State.mirrorClear s seq group swap).fault = s.fault ∧ (State.mirrorClear s seq group swap).sec = s.sec ∧ (State.mirrorClear s seq group swap).draw = s.draw := by
  unfold State.mirrorClear; (try dsimp only); (repeat' split) <;> simp

@[simp] theorem State.mirrorDo_frame (s : State) (m : MirrorOp) :
    (State.mirrorDo s m).pending = s.pending ∧ (State.mirrorDo s m).panelInit = s.panelInit ∧ (State.mirrorDo s m).keys = s.keys ∧ (State.mirrorDo s m).keyRef = s.keyRef ∧ (State.mirrorDo s m).encJobs = s.encJobs ∧ (State.mirrorDo s m).sec = s.sec ∧ (State.mirrorDo s m).draw = s.draw := by
  unfold State.mirrorDo; (try dsimp only); (repeat' split) <;> simp

@[simp] theorem State.mirrorTake_frame (s : State) (m : MirrorOp) :
    (State.mirrorTake s m).pending = s.pending ∧ (State.mirrorTake s m).panelInit = s.panelInit ∧ (State.mirrorTake s m).keys = s.keys ∧ (State.mirrorTake s m).keyRef = s.keyRef ∧ (State.mirrorTake s m).encJobs = s.encJobs ∧ (State.mirrorTake s m).sec = s.sec ∧ (State.mirrorTake s m).draw = s.draw := by
  simp [State.mirrorTake]

@[simp] theorem State.mirrorDrain_frame (s : State) (n : Nat) :
    (s.mirrorDrain n).pending = s.pending ∧ (s.mirrorDrain n).panelInit = s.panelInit ∧ (s.mirrorDrain n).keys = s.keys ∧ (s.mirrorDrain n).keyRef = s.keyRef ∧ (s.mirrorDrain n).encJobs = s.encJobs ∧ (s.mirrorDrain n).sec = s.sec ∧ (s.mirrorDrain n).draw = s.draw := by
  induction n generalizing s with
  | zero => simp [State.mirrorDrain]
  | succ n ih => unfold State.mirrorDrain; (repeat' split) <;> simp [ih]

@[simp] theorem State.evaluateMirrored_frame (s : State) (c : Commit) :
    (State.evaluateMirrored s c).pending = s.pending ∧ (State.evaluateMirrored s c).panelInit = s.panelInit ∧ (State.evaluateMirrored s c).keys = s.keys ∧ (State.evaluateMirrored s c).keyRef = s.keyRef ∧ (State.evaluateMirrored s c).encJobs = s.encJobs ∧ (State.evaluateMirrored s c).sec = s.sec ∧ (State.evaluateMirrored s c).draw = s.draw := by
  unfold State.evaluateMirrored; (try dsimp only); (repeat' split) <;> simp (disch := (intros; first | rfl | ((try dsimp only); (repeat' split) <;> (try simp))))

@[simp] theorem State.evaluate_frame (s : State) (c : Commit) :
    (State.evaluate s c).pending = s.pending ∧ (State.evaluate s c).panelInit = s.panelInit ∧ (State.evaluate s c).keys = s.keys ∧ (State.evaluate s c).keyRef = s.keyRef ∧ (State.evaluate s c).encJobs = s.encJobs ∧ (State.evaluate s c).sec = s.sec ∧ (State.evaluate s c).draw = s.draw := by
  simp [State.evaluate]

@[simp] theorem State.sample_frame (s : State) (g : Nat) :
    (State.sample s g).pending = s.pending ∧ (State.sample s g).panelInit = s.panelInit ∧ (State.sample s g).keys = s.keys ∧ (State.sample s g).keyRef = s.keyRef ∧ (State.sample s g).encJobs = s.encJobs ∧ (State.sample s g).sec = s.sec ∧ (State.sample s g).draw = s.draw := by
  unfold State.sample; (try dsimp only); (repeat' split) <;> simp

@[simp] theorem State.placeAnchor_frame (s : State) (l : Nat) :
    (State.placeAnchor s l).pending = s.pending ∧ (State.placeAnchor s l).time = s.time ∧ (State.placeAnchor s l).ledger = s.ledger ∧ (State.placeAnchor s l).mail = s.mail ∧ (State.placeAnchor s l).sets = s.sets ∧ (State.placeAnchor s l).src = s.src ∧ (State.placeAnchor s l).heads = s.heads ∧ (State.placeAnchor s l).panels = s.panels ∧ (State.placeAnchor s l).panelInit = s.panelInit ∧ (State.placeAnchor s l).keys = s.keys ∧ (State.placeAnchor s l).keyRef = s.keyRef ∧ (State.placeAnchor s l).encJobs = s.encJobs ∧ (State.placeAnchor s l).enc = s.enc ∧ (State.placeAnchor s l).links = s.links ∧ (State.placeAnchor s l).pair = s.pair ∧ (State.placeAnchor s l).mem = s.mem ∧ (State.placeAnchor s l).fault = s.fault ∧ (State.placeAnchor s l).sec = s.sec ∧ (State.placeAnchor s l).power = s.power ∧ (State.placeAnchor s l).out = s.out ∧ (State.placeAnchor s l).draw = s.draw := by
  unfold State.placeAnchor; (try dsimp only); (repeat' split) <;> simp

@[simp] theorem State.publish_frame (s : State) (o : Nat) (recs : List (Nat × TileRec)) (tag : Option Nat) :
    (State.publish s o recs tag).pending = s.pending ∧ (State.publish s o recs tag).time = s.time ∧ (State.publish s o recs tag).ledger = s.ledger ∧ (State.publish s o recs tag).mail = s.mail ∧ (State.publish s o recs tag).sets = s.sets ∧ (State.publish s o recs tag).src = s.src ∧ (State.publish s o recs tag).heads = s.heads ∧ (State.publish s o recs tag).panels = s.panels ∧ (State.publish s o recs tag).panelInit = s.panelInit ∧ (State.publish s o recs tag).keys = s.keys ∧ (State.publish s o recs tag).keyRef = s.keyRef ∧ (State.publish s o recs tag).encJobs = s.encJobs ∧ (State.publish s o recs tag).enc = s.enc ∧ (State.publish s o recs tag).links = s.links ∧ (State.publish s o recs tag).pair = s.pair ∧ (State.publish s o recs tag).mem = s.mem ∧ (State.publish s o recs tag).fault = s.fault ∧ (State.publish s o recs tag).sec = s.sec ∧ (State.publish s o recs tag).power = s.power ∧ (State.publish s o recs tag).out = s.out ∧ (State.publish s o recs tag).draw = s.draw := by
  simp [State.publish]

@[simp] theorem State.takeEffect_frame (s : State) (o : Nat) :
    (State.takeEffect s o).pending = s.pending ∧ (State.takeEffect s o).time = s.time ∧ (State.takeEffect s o).ledger = s.ledger ∧ (State.takeEffect s o).mail = s.mail ∧ (State.takeEffect s o).src = s.src ∧ (State.takeEffect s o).heads = s.heads ∧ (State.takeEffect s o).panels = s.panels ∧ (State.takeEffect s o).panelInit = s.panelInit ∧ (State.takeEffect s o).keys = s.keys ∧ (State.takeEffect s o).keyRef = s.keyRef ∧ (State.takeEffect s o).encJobs = s.encJobs ∧ (State.takeEffect s o).enc = s.enc ∧ (State.takeEffect s o).links = s.links ∧ (State.takeEffect s o).pair = s.pair ∧ (State.takeEffect s o).mem = s.mem ∧ (State.takeEffect s o).fault = s.fault ∧ (State.takeEffect s o).sec = s.sec ∧ (State.takeEffect s o).power = s.power ∧ (State.takeEffect s o).out = s.out ∧ (State.takeEffect s o).draw = s.draw := by
  unfold State.takeEffect; (try dsimp only); (repeat' split) <;> simp

@[simp] theorem State.roomReported_frame (s : State) (c : Commit) :
    (State.roomReported s c).pending = s.pending ∧ (State.roomReported s c).time = s.time ∧ (State.roomReported s c).mail = s.mail ∧ (State.roomReported s c).sets = s.sets ∧ (State.roomReported s c).src = s.src ∧ (State.roomReported s c).comp = s.comp ∧ (State.roomReported s c).heads = s.heads ∧ (State.roomReported s c).panels = s.panels ∧ (State.roomReported s c).panelInit = s.panelInit ∧ (State.roomReported s c).keys = s.keys ∧ (State.roomReported s c).keyRef = s.keyRef ∧ (State.roomReported s c).encJobs = s.encJobs ∧ (State.roomReported s c).enc = s.enc ∧ (State.roomReported s c).pair = s.pair ∧ (State.roomReported s c).mem = s.mem ∧ (State.roomReported s c).fault = s.fault ∧ (State.roomReported s c).sec = s.sec ∧ (State.roomReported s c).power = s.power ∧ (State.roomReported s c).draw = s.draw := by
  unfold State.roomReported; (try dsimp only); (repeat' split) <;> simp

@[simp] theorem State.report_frame (s : State) (frame : Nat) :
    (State.report s frame).pending = s.pending ∧ (State.report s frame).time = s.time ∧ (State.report s frame).src = s.src ∧ (State.report s frame).comp = s.comp ∧ (State.report s frame).heads = s.heads ∧ (State.report s frame).panels = s.panels ∧ (State.report s frame).panelInit = s.panelInit ∧ (State.report s frame).keys = s.keys ∧ (State.report s frame).keyRef = s.keyRef ∧ (State.report s frame).encJobs = s.encJobs ∧ (State.report s frame).enc = s.enc ∧ (State.report s frame).pair = s.pair ∧ (State.report s frame).mem = s.mem ∧ (State.report s frame).fault = s.fault ∧ (State.report s frame).sec = s.sec ∧ (State.report s frame).power = s.power ∧ (State.report s frame).draw = s.draw := by
  unfold State.report; (try dsimp only); (repeat' split) <;> simp

@[simp] theorem State.withdrawAtReset_frame (s : State) (kind : Nat) :
    (State.withdrawAtReset s kind).pending = s.pending ∧ (State.withdrawAtReset s kind).time = s.time ∧ (State.withdrawAtReset s kind).ledger = s.ledger ∧ (State.withdrawAtReset s kind).mail = s.mail ∧ (State.withdrawAtReset s kind).src = s.src ∧ (State.withdrawAtReset s kind).heads = s.heads ∧ (State.withdrawAtReset s kind).panels = s.panels ∧ (State.withdrawAtReset s kind).panelInit = s.panelInit ∧ (State.withdrawAtReset s kind).keys = s.keys ∧ (State.withdrawAtReset s kind).keyRef = s.keyRef ∧ (State.withdrawAtReset s kind).encJobs = s.encJobs ∧ (State.withdrawAtReset s kind).enc = s.enc ∧ (State.withdrawAtReset s kind).mem = s.mem ∧ (State.withdrawAtReset s kind).fault = s.fault ∧ (State.withdrawAtReset s kind).sec = s.sec ∧ (State.withdrawAtReset s kind).draw = s.draw := by
  unfold State.withdrawAtReset; (try dsimp only); (repeat' split) <;> simp

@[simp] theorem State.setRt_frame (s : State) (new : RtState) :
    (State.setRt s new).pending = s.pending ∧ (State.setRt s new).sets = s.sets ∧ (State.setRt s new).src = s.src ∧ (State.setRt s new).comp = s.comp ∧ (State.setRt s new).heads = s.heads ∧ (State.setRt s new).panels = s.panels ∧ (State.setRt s new).panelInit = s.panelInit ∧ (State.setRt s new).keys = s.keys ∧ (State.setRt s new).keyRef = s.keyRef ∧ (State.setRt s new).encJobs = s.encJobs ∧ (State.setRt s new).enc = s.enc ∧ (State.setRt s new).links = s.links ∧ (State.setRt s new).pair = s.pair ∧ (State.setRt s new).mem = s.mem ∧ (State.setRt s new).fault = s.fault ∧ (State.setRt s new).sec = s.sec ∧ (State.setRt s new).power = s.power ∧ (State.setRt s new).draw = s.draw := by
  simp [State.setRt]

@[simp] theorem State.setTraceable_frame (s : State) (t : Bool) :
    (State.setTraceable s t).pending = s.pending ∧ (State.setTraceable s t).ledger = s.ledger ∧ (State.setTraceable s t).mail = s.mail ∧ (State.setTraceable s t).sets = s.sets ∧ (State.setTraceable s t).src = s.src ∧ (State.setTraceable s t).comp = s.comp ∧ (State.setTraceable s t).heads = s.heads ∧ (State.setTraceable s t).panels = s.panels ∧ (State.setTraceable s t).panelInit = s.panelInit ∧ (State.setTraceable s t).keys = s.keys ∧ (State.setTraceable s t).keyRef = s.keyRef ∧ (State.setTraceable s t).encJobs = s.encJobs ∧ (State.setTraceable s t).enc = s.enc ∧ (State.setTraceable s t).links = s.links ∧ (State.setTraceable s t).pair = s.pair ∧ (State.setTraceable s t).mem = s.mem ∧ (State.setTraceable s t).fault = s.fault ∧ (State.setTraceable s t).sec = s.sec ∧ (State.setTraceable s t).power = s.power ∧ (State.setTraceable s t).out = s.out ∧ (State.setTraceable s t).draw = s.draw := by
  simp [State.setTraceable]

@[simp] theorem State.slewFor_frame (s : State) (off : Int) :
    (State.slewFor s off).pending = s.pending ∧ (State.slewFor s off).ledger = s.ledger ∧ (State.slewFor s off).mail = s.mail ∧ (State.slewFor s off).sets = s.sets ∧ (State.slewFor s off).src = s.src ∧ (State.slewFor s off).comp = s.comp ∧ (State.slewFor s off).heads = s.heads ∧ (State.slewFor s off).panels = s.panels ∧ (State.slewFor s off).panelInit = s.panelInit ∧ (State.slewFor s off).keys = s.keys ∧ (State.slewFor s off).keyRef = s.keyRef ∧ (State.slewFor s off).encJobs = s.encJobs ∧ (State.slewFor s off).enc = s.enc ∧ (State.slewFor s off).links = s.links ∧ (State.slewFor s off).pair = s.pair ∧ (State.slewFor s off).mem = s.mem ∧ (State.slewFor s off).fault = s.fault ∧ (State.slewFor s off).sec = s.sec ∧ (State.slewFor s off).power = s.power ∧ (State.slewFor s off).out = s.out ∧ (State.slewFor s off).draw = s.draw := by
  simp [State.slewFor]

@[simp] theorem State.setOffset_frame (s : State) (o : Int) :
    (State.setOffset s o).pending = s.pending ∧ (State.setOffset s o).ledger = s.ledger ∧ (State.setOffset s o).mail = s.mail ∧ (State.setOffset s o).sets = s.sets ∧ (State.setOffset s o).src = s.src ∧ (State.setOffset s o).comp = s.comp ∧ (State.setOffset s o).heads = s.heads ∧ (State.setOffset s o).panels = s.panels ∧ (State.setOffset s o).panelInit = s.panelInit ∧ (State.setOffset s o).keys = s.keys ∧ (State.setOffset s o).keyRef = s.keyRef ∧ (State.setOffset s o).encJobs = s.encJobs ∧ (State.setOffset s o).enc = s.enc ∧ (State.setOffset s o).links = s.links ∧ (State.setOffset s o).pair = s.pair ∧ (State.setOffset s o).mem = s.mem ∧ (State.setOffset s o).fault = s.fault ∧ (State.setOffset s o).sec = s.sec ∧ (State.setOffset s o).power = s.power ∧ (State.setOffset s o).out = s.out ∧ (State.setOffset s o).draw = s.draw := by
  simp [State.setOffset]

@[simp] theorem State.endAhead_frame (s : State) :
    (State.endAhead s).pending = s.pending ∧ (State.endAhead s).ledger = s.ledger ∧ (State.endAhead s).sets = s.sets ∧ (State.endAhead s).src = s.src ∧ (State.endAhead s).comp = s.comp ∧ (State.endAhead s).heads = s.heads ∧ (State.endAhead s).panels = s.panels ∧ (State.endAhead s).panelInit = s.panelInit ∧ (State.endAhead s).keys = s.keys ∧ (State.endAhead s).keyRef = s.keyRef ∧ (State.endAhead s).encJobs = s.encJobs ∧ (State.endAhead s).enc = s.enc ∧ (State.endAhead s).links = s.links ∧ (State.endAhead s).pair = s.pair ∧ (State.endAhead s).mem = s.mem ∧ (State.endAhead s).sec = s.sec ∧ (State.endAhead s).power = s.power ∧ (State.endAhead s).draw = s.draw := by
  simp [State.endAhead]

@[simp] theorem State.stepRoom_frame (s : State) (d : Int) (st : RtState) :
    (State.stepRoom s d st).pending = s.pending ∧ (State.stepRoom s d st).mail = s.mail ∧ (State.stepRoom s d st).sets = s.sets ∧ (State.stepRoom s d st).src = s.src ∧ (State.stepRoom s d st).comp = s.comp ∧ (State.stepRoom s d st).heads = s.heads ∧ (State.stepRoom s d st).panels = s.panels ∧ (State.stepRoom s d st).panelInit = s.panelInit ∧ (State.stepRoom s d st).keys = s.keys ∧ (State.stepRoom s d st).keyRef = s.keyRef ∧ (State.stepRoom s d st).encJobs = s.encJobs ∧ (State.stepRoom s d st).enc = s.enc ∧ (State.stepRoom s d st).links = s.links ∧ (State.stepRoom s d st).pair = s.pair ∧ (State.stepRoom s d st).mem = s.mem ∧ (State.stepRoom s d st).fault = s.fault ∧ (State.stepRoom s d st).sec = s.sec ∧ (State.stepRoom s d st).power = s.power ∧ (State.stepRoom s d st).out = s.out ∧ (State.stepRoom s d st).draw = s.draw := by
  simp [State.stepRoom]

@[simp] theorem State.applyOffset_frame (s : State) (off : Int) (st : RtState) :
    (State.applyOffset s off st).pending = s.pending ∧ (State.applyOffset s off st).sets = s.sets ∧ (State.applyOffset s off st).src = s.src ∧ (State.applyOffset s off st).comp = s.comp ∧ (State.applyOffset s off st).heads = s.heads ∧ (State.applyOffset s off st).panels = s.panels ∧ (State.applyOffset s off st).panelInit = s.panelInit ∧ (State.applyOffset s off st).keys = s.keys ∧ (State.applyOffset s off st).keyRef = s.keyRef ∧ (State.applyOffset s off st).encJobs = s.encJobs ∧ (State.applyOffset s off st).enc = s.enc ∧ (State.applyOffset s off st).links = s.links ∧ (State.applyOffset s off st).pair = s.pair ∧ (State.applyOffset s off st).mem = s.mem ∧ (State.applyOffset s off st).sec = s.sec ∧ (State.applyOffset s off st).power = s.power ∧ (State.applyOffset s off st).draw = s.draw := by
  simp [State.applyOffset]

@[simp] theorem State.follow_frame (s : State) (off : Int) (traceable : Bool) :
    (State.follow s off traceable).pending = s.pending ∧ (State.follow s off traceable).sets = s.sets ∧ (State.follow s off traceable).src = s.src ∧ (State.follow s off traceable).comp = s.comp ∧ (State.follow s off traceable).heads = s.heads ∧ (State.follow s off traceable).panels = s.panels ∧ (State.follow s off traceable).panelInit = s.panelInit ∧ (State.follow s off traceable).keys = s.keys ∧ (State.follow s off traceable).keyRef = s.keyRef ∧ (State.follow s off traceable).encJobs = s.encJobs ∧ (State.follow s off traceable).enc = s.enc ∧ (State.follow s off traceable).links = s.links ∧ (State.follow s off traceable).pair = s.pair ∧ (State.follow s off traceable).mem = s.mem ∧ (State.follow s off traceable).sec = s.sec ∧ (State.follow s off traceable).power = s.power ∧ (State.follow s off traceable).draw = s.draw := by
  simp [State.follow]

@[simp] theorem State.peerTimeLost_frame (s : State) (pp : Nat) :
    (State.peerTimeLost s pp).pending = s.pending ∧ (State.peerTimeLost s pp).sets = s.sets ∧ (State.peerTimeLost s pp).src = s.src ∧ (State.peerTimeLost s pp).comp = s.comp ∧ (State.peerTimeLost s pp).heads = s.heads ∧ (State.peerTimeLost s pp).panels = s.panels ∧ (State.peerTimeLost s pp).panelInit = s.panelInit ∧ (State.peerTimeLost s pp).keys = s.keys ∧ (State.peerTimeLost s pp).keyRef = s.keyRef ∧ (State.peerTimeLost s pp).encJobs = s.encJobs ∧ (State.peerTimeLost s pp).enc = s.enc ∧ (State.peerTimeLost s pp).links = s.links ∧ (State.peerTimeLost s pp).pair = s.pair ∧ (State.peerTimeLost s pp).mem = s.mem ∧ (State.peerTimeLost s pp).fault = s.fault ∧ (State.peerTimeLost s pp).sec = s.sec ∧ (State.peerTimeLost s pp).power = s.power ∧ (State.peerTimeLost s pp).draw = s.draw := by
  simp [State.peerTimeLost]

@[simp] theorem State.genlockRate_frame (s : State) :
    (State.genlockRate s).pending = s.pending ∧ (State.genlockRate s).ledger = s.ledger ∧ (State.genlockRate s).mail = s.mail ∧ (State.genlockRate s).sets = s.sets ∧ (State.genlockRate s).src = s.src ∧ (State.genlockRate s).comp = s.comp ∧ (State.genlockRate s).heads = s.heads ∧ (State.genlockRate s).panels = s.panels ∧ (State.genlockRate s).panelInit = s.panelInit ∧ (State.genlockRate s).keys = s.keys ∧ (State.genlockRate s).keyRef = s.keyRef ∧ (State.genlockRate s).encJobs = s.encJobs ∧ (State.genlockRate s).enc = s.enc ∧ (State.genlockRate s).links = s.links ∧ (State.genlockRate s).pair = s.pair ∧ (State.genlockRate s).mem = s.mem ∧ (State.genlockRate s).fault = s.fault ∧ (State.genlockRate s).sec = s.sec ∧ (State.genlockRate s).power = s.power ∧ (State.genlockRate s).out = s.out ∧ (State.genlockRate s).draw = s.draw := by
  simp [State.genlockRate]

@[simp] theorem State.genlockLock_frame (s : State) :
    (State.genlockLock s).pending = s.pending ∧ (State.genlockLock s).sets = s.sets ∧ (State.genlockLock s).src = s.src ∧ (State.genlockLock s).comp = s.comp ∧ (State.genlockLock s).heads = s.heads ∧ (State.genlockLock s).panels = s.panels ∧ (State.genlockLock s).panelInit = s.panelInit ∧ (State.genlockLock s).keys = s.keys ∧ (State.genlockLock s).keyRef = s.keyRef ∧ (State.genlockLock s).encJobs = s.encJobs ∧ (State.genlockLock s).enc = s.enc ∧ (State.genlockLock s).links = s.links ∧ (State.genlockLock s).pair = s.pair ∧ (State.genlockLock s).mem = s.mem ∧ (State.genlockLock s).fault = s.fault ∧ (State.genlockLock s).sec = s.sec ∧ (State.genlockLock s).power = s.power ∧ (State.genlockLock s).draw = s.draw := by
  simp [State.genlockLock]

@[simp] theorem State.genlockSeek_frame (s : State) :
    (State.genlockSeek s).pending = s.pending ∧ (State.genlockSeek s).sets = s.sets ∧ (State.genlockSeek s).src = s.src ∧ (State.genlockSeek s).comp = s.comp ∧ (State.genlockSeek s).heads = s.heads ∧ (State.genlockSeek s).panels = s.panels ∧ (State.genlockSeek s).panelInit = s.panelInit ∧ (State.genlockSeek s).keys = s.keys ∧ (State.genlockSeek s).keyRef = s.keyRef ∧ (State.genlockSeek s).encJobs = s.encJobs ∧ (State.genlockSeek s).enc = s.enc ∧ (State.genlockSeek s).links = s.links ∧ (State.genlockSeek s).pair = s.pair ∧ (State.genlockSeek s).mem = s.mem ∧ (State.genlockSeek s).fault = s.fault ∧ (State.genlockSeek s).sec = s.sec ∧ (State.genlockSeek s).power = s.power ∧ (State.genlockSeek s).draw = s.draw := by
  simp [State.genlockSeek]

@[simp] theorem State.genlockTrack_frame (s : State) :
    (State.genlockTrack s).pending = s.pending ∧ (State.genlockTrack s).ledger = s.ledger ∧ (State.genlockTrack s).mail = s.mail ∧ (State.genlockTrack s).sets = s.sets ∧ (State.genlockTrack s).src = s.src ∧ (State.genlockTrack s).comp = s.comp ∧ (State.genlockTrack s).heads = s.heads ∧ (State.genlockTrack s).panels = s.panels ∧ (State.genlockTrack s).panelInit = s.panelInit ∧ (State.genlockTrack s).keys = s.keys ∧ (State.genlockTrack s).keyRef = s.keyRef ∧ (State.genlockTrack s).encJobs = s.encJobs ∧ (State.genlockTrack s).enc = s.enc ∧ (State.genlockTrack s).links = s.links ∧ (State.genlockTrack s).pair = s.pair ∧ (State.genlockTrack s).mem = s.mem ∧ (State.genlockTrack s).fault = s.fault ∧ (State.genlockTrack s).sec = s.sec ∧ (State.genlockTrack s).power = s.power ∧ (State.genlockTrack s).out = s.out ∧ (State.genlockTrack s).draw = s.draw := by
  unfold State.genlockTrack; (try dsimp only); (repeat' split) <;> simp

@[simp] theorem State.selectDisc_frame (s : State) (new : Bool) :
    (State.selectDisc s new).pending = s.pending ∧ (State.selectDisc s new).sets = s.sets ∧ (State.selectDisc s new).src = s.src ∧ (State.selectDisc s new).comp = s.comp ∧ (State.selectDisc s new).heads = s.heads ∧ (State.selectDisc s new).panels = s.panels ∧ (State.selectDisc s new).panelInit = s.panelInit ∧ (State.selectDisc s new).keys = s.keys ∧ (State.selectDisc s new).keyRef = s.keyRef ∧ (State.selectDisc s new).encJobs = s.encJobs ∧ (State.selectDisc s new).enc = s.enc ∧ (State.selectDisc s new).links = s.links ∧ (State.selectDisc s new).pair = s.pair ∧ (State.selectDisc s new).mem = s.mem ∧ (State.selectDisc s new).fault = s.fault ∧ (State.selectDisc s new).sec = s.sec ∧ (State.selectDisc s new).power = s.power ∧ (State.selectDisc s new).draw = s.draw := by
  unfold State.selectDisc; (try dsimp only); (repeat' split) <;> simp

@[simp] theorem State.hostSetting_frame (s : State) (value : Nat) :
    (State.hostSetting s value).pending = s.pending ∧ (State.hostSetting s value).sets = s.sets ∧ (State.hostSetting s value).src = s.src ∧ (State.hostSetting s value).comp = s.comp ∧ (State.hostSetting s value).heads = s.heads ∧ (State.hostSetting s value).panels = s.panels ∧ (State.hostSetting s value).panelInit = s.panelInit ∧ (State.hostSetting s value).keys = s.keys ∧ (State.hostSetting s value).keyRef = s.keyRef ∧ (State.hostSetting s value).encJobs = s.encJobs ∧ (State.hostSetting s value).enc = s.enc ∧ (State.hostSetting s value).links = s.links ∧ (State.hostSetting s value).pair = s.pair ∧ (State.hostSetting s value).mem = s.mem ∧ (State.hostSetting s value).fault = s.fault ∧ (State.hostSetting s value).sec = s.sec ∧ (State.hostSetting s value).power = s.power ∧ (State.hostSetting s value).draw = s.draw := by
  simp [State.hostSetting]

@[simp] theorem State.configure_frame (s : State) (r : Request) (d : Discipline) (k : FrameClock) :
    (State.configure s r d k).pending = s.pending ∧ (State.configure s r d k).sets = s.sets ∧ (State.configure s r d k).src = s.src ∧ (State.configure s r d k).comp = s.comp ∧ (State.configure s r d k).heads = s.heads ∧ (State.configure s r d k).panels = s.panels ∧ (State.configure s r d k).panelInit = s.panelInit ∧ (State.configure s r d k).keys = s.keys ∧ (State.configure s r d k).keyRef = s.keyRef ∧ (State.configure s r d k).encJobs = s.encJobs ∧ (State.configure s r d k).enc = s.enc ∧ (State.configure s r d k).links = s.links ∧ (State.configure s r d k).pair = s.pair ∧ (State.configure s r d k).mem = s.mem ∧ (State.configure s r d k).sec = s.sec ∧ (State.configure s r d k).power = s.power ∧ (State.configure s r d k).draw = s.draw := by
  simp [State.configure]

@[simp] theorem State.withdrawSurface_frame (s : State) (surf : Nat) :
    (State.withdrawSurface s surf).pending = s.pending ∧ (State.withdrawSurface s surf).time = s.time ∧ (State.withdrawSurface s surf).ledger = s.ledger ∧ (State.withdrawSurface s surf).mail = s.mail ∧ (State.withdrawSurface s surf).heads = s.heads ∧ (State.withdrawSurface s surf).panels = s.panels ∧ (State.withdrawSurface s surf).panelInit = s.panelInit ∧ (State.withdrawSurface s surf).keys = s.keys ∧ (State.withdrawSurface s surf).keyRef = s.keyRef ∧ (State.withdrawSurface s surf).encJobs = s.encJobs ∧ (State.withdrawSurface s surf).enc = s.enc ∧ (State.withdrawSurface s surf).links = s.links ∧ (State.withdrawSurface s surf).pair = s.pair ∧ (State.withdrawSurface s surf).mem = s.mem ∧ (State.withdrawSurface s surf).fault = s.fault ∧ (State.withdrawSurface s surf).sec = s.sec ∧ (State.withdrawSurface s surf).power = s.power ∧ (State.withdrawSurface s surf).out = s.out ∧ (State.withdrawSurface s surf).draw = s.draw := by
  unfold State.withdrawSurface; (try dsimp only); (repeat' split) <;> simp

@[simp] theorem State.fenceSignalled_frame (s : State) (waited : List Nat) :
    (State.fenceSignalled s waited).pending = s.pending ∧ (State.fenceSignalled s waited).time = s.time ∧ (State.fenceSignalled s waited).ledger = s.ledger ∧ (State.fenceSignalled s waited).mail = s.mail ∧ (State.fenceSignalled s waited).src = s.src ∧ (State.fenceSignalled s waited).heads = s.heads ∧ (State.fenceSignalled s waited).panels = s.panels ∧ (State.fenceSignalled s waited).panelInit = s.panelInit ∧ (State.fenceSignalled s waited).keys = s.keys ∧ (State.fenceSignalled s waited).keyRef = s.keyRef ∧ (State.fenceSignalled s waited).encJobs = s.encJobs ∧ (State.fenceSignalled s waited).enc = s.enc ∧ (State.fenceSignalled s waited).links = s.links ∧ (State.fenceSignalled s waited).pair = s.pair ∧ (State.fenceSignalled s waited).fault = s.fault ∧ (State.fenceSignalled s waited).sec = s.sec ∧ (State.fenceSignalled s waited).power = s.power ∧ (State.fenceSignalled s waited).out = s.out ∧ (State.fenceSignalled s waited).draw = s.draw := by
  simp [State.fenceSignalled]

@[simp] theorem State.mintSurface_frame (s : State) (i b : Nat) (d : SurfDesc) (at' : Nat) (declared : Option Nat) :
    (State.mintSurface s i b d at' declared).pending = s.pending ∧ (State.mintSurface s i b d at' declared).time = s.time ∧ (State.mintSurface s i b d at' declared).mail = s.mail ∧ (State.mintSurface s i b d at' declared).sets = s.sets ∧ (State.mintSurface s i b d at' declared).heads = s.heads ∧ (State.mintSurface s i b d at' declared).panels = s.panels ∧ (State.mintSurface s i b d at' declared).panelInit = s.panelInit ∧ (State.mintSurface s i b d at' declared).keys = s.keys ∧ (State.mintSurface s i b d at' declared).keyRef = s.keyRef ∧ (State.mintSurface s i b d at' declared).encJobs = s.encJobs ∧ (State.mintSurface s i b d at' declared).links = s.links ∧ (State.mintSurface s i b d at' declared).pair = s.pair ∧ (State.mintSurface s i b d at' declared).fault = s.fault ∧ (State.mintSurface s i b d at' declared).sec = s.sec ∧ (State.mintSurface s i b d at' declared).power = s.power ∧ (State.mintSurface s i b d at' declared).out = s.out ∧ (State.mintSurface s i b d at' declared).draw = s.draw := by
  simp [State.mintSurface]

@[simp] theorem State.holdSets_frame (s : State) (i : Nat) (body : Bytes) :
    (State.holdSets s i body).pending = s.pending ∧ (State.holdSets s i body).time = s.time ∧ (State.holdSets s i body).ledger = s.ledger ∧ (State.holdSets s i body).mail = s.mail ∧ (State.holdSets s i body).sets = s.sets ∧ (State.holdSets s i body).comp = s.comp ∧ (State.holdSets s i body).heads = s.heads ∧ (State.holdSets s i body).panels = s.panels ∧ (State.holdSets s i body).panelInit = s.panelInit ∧ (State.holdSets s i body).keys = s.keys ∧ (State.holdSets s i body).keyRef = s.keyRef ∧ (State.holdSets s i body).encJobs = s.encJobs ∧ (State.holdSets s i body).enc = s.enc ∧ (State.holdSets s i body).links = s.links ∧ (State.holdSets s i body).pair = s.pair ∧ (State.holdSets s i body).mem = s.mem ∧ (State.holdSets s i body).fault = s.fault ∧ (State.holdSets s i body).sec = s.sec ∧ (State.holdSets s i body).power = s.power ∧ (State.holdSets s i body).out = s.out ∧ (State.holdSets s i body).draw = s.draw := by
  simp [State.holdSets]

@[simp] theorem State.storePicture_frame (s : State) (i picture : Nat) (p : Sps) :
    (State.storePicture s i picture p).pending = s.pending ∧ (State.storePicture s i picture p).time = s.time ∧ (State.storePicture s i picture p).ledger = s.ledger ∧ (State.storePicture s i picture p).mail = s.mail ∧ (State.storePicture s i picture p).sets = s.sets ∧ (State.storePicture s i picture p).comp = s.comp ∧ (State.storePicture s i picture p).heads = s.heads ∧ (State.storePicture s i picture p).panels = s.panels ∧ (State.storePicture s i picture p).panelInit = s.panelInit ∧ (State.storePicture s i picture p).keys = s.keys ∧ (State.storePicture s i picture p).keyRef = s.keyRef ∧ (State.storePicture s i picture p).encJobs = s.encJobs ∧ (State.storePicture s i picture p).enc = s.enc ∧ (State.storePicture s i picture p).links = s.links ∧ (State.storePicture s i picture p).pair = s.pair ∧ (State.storePicture s i picture p).fault = s.fault ∧ (State.storePicture s i picture p).sec = s.sec ∧ (State.storePicture s i picture p).power = s.power ∧ (State.storePicture s i picture p).out = s.out ∧ (State.storePicture s i picture p).draw = s.draw := by
  simp [State.storePicture]

@[simp] theorem State.retireCore_frame (s : State) (c : Nat) :
    (State.retireCore s c).pending = s.pending ∧ (State.retireCore s c).time = s.time ∧ (State.retireCore s c).sets = s.sets ∧ (State.retireCore s c).panelInit = s.panelInit ∧ (State.retireCore s c).keys = s.keys ∧ (State.retireCore s c).keyRef = s.keyRef ∧ (State.retireCore s c).encJobs = s.encJobs ∧ (State.retireCore s c).links = s.links ∧ (State.retireCore s c).sec = s.sec ∧ (State.retireCore s c).draw = s.draw := by
  simp [State.retireCore]

@[simp] theorem State.powerCore_frame (s : State) (c : Nat) :
    (s.powerCore c).1.pending = s.pending ∧ (s.powerCore c).1.time = s.time ∧ (s.powerCore c).1.sets = s.sets ∧ (s.powerCore c).1.panelInit = s.panelInit ∧ (s.powerCore c).1.keys = s.keys ∧ (s.powerCore c).1.keyRef = s.keyRef ∧ (s.powerCore c).1.encJobs = s.encJobs ∧ (s.powerCore c).1.links = s.links ∧ (s.powerCore c).1.sec = s.sec ∧ (s.powerCore c).1.draw = s.draw := by
  unfold State.powerCore; dsimp only; (repeat' split) <;> simp

@[simp] theorem State.placeOn_frame (s : State) (i : Nat) (p : Sps) (n : Nat) :
    (s.placeOn i p n).1.pending = s.pending ∧ (s.placeOn i p n).1.time = s.time ∧ (s.placeOn i p n).1.sets = s.sets ∧ (s.placeOn i p n).1.panelInit = s.panelInit ∧ (s.placeOn i p n).1.keys = s.keys ∧ (s.placeOn i p n).1.keyRef = s.keyRef ∧ (s.placeOn i p n).1.encJobs = s.encJobs ∧ (s.placeOn i p n).1.links = s.links ∧ (s.placeOn i p n).1.sec = s.sec ∧ (s.placeOn i p n).1.draw = s.draw := by
  induction n generalizing s with
  | zero => simp [State.placeOn]
  | succ n ih => unfold State.placeOn; (try dsimp only); (repeat' split) <;> simp [ih]

@[simp] theorem State.place_frame (s : State) (i : Nat) (p : Sps) :
    (s.place i p).1.pending = s.pending ∧ (s.place i p).1.time = s.time ∧ (s.place i p).1.sets = s.sets ∧ (s.place i p).1.panelInit = s.panelInit ∧ (s.place i p).1.keys = s.keys ∧ (s.place i p).1.keyRef = s.keyRef ∧ (s.place i p).1.encJobs = s.encJobs ∧ (s.place i p).1.links = s.links ∧ (s.place i p).1.sec = s.sec ∧ (s.place i p).1.draw = s.draw := by
  simp [State.place]

@[simp] theorem State.outputPic_frame (s : State) (i : Nat) (x : DpbPic) :
    (State.outputPic s i x).pending = s.pending ∧ (State.outputPic s i x).time = s.time ∧ (State.outputPic s i x).mail = s.mail ∧ (State.outputPic s i x).sets = s.sets ∧ (State.outputPic s i x).heads = s.heads ∧ (State.outputPic s i x).panels = s.panels ∧ (State.outputPic s i x).panelInit = s.panelInit ∧ (State.outputPic s i x).keys = s.keys ∧ (State.outputPic s i x).keyRef = s.keyRef ∧ (State.outputPic s i x).encJobs = s.encJobs ∧ (State.outputPic s i x).links = s.links ∧ (State.outputPic s i x).pair = s.pair ∧ (State.outputPic s i x).mem = s.mem ∧ (State.outputPic s i x).fault = s.fault ∧ (State.outputPic s i x).sec = s.sec ∧ (State.outputPic s i x).power = s.power ∧ (State.outputPic s i x).out = s.out ∧ (State.outputPic s i x).draw = s.draw := by
  simp [State.outputPic]

@[simp] theorem State.outputWhile_frame (s : State) (i : Nat) (test : List DpbPic → Bool) (n : Nat) :
    (s.outputWhile i test n).pending = s.pending ∧ (s.outputWhile i test n).time = s.time ∧ (s.outputWhile i test n).mail = s.mail ∧ (s.outputWhile i test n).sets = s.sets ∧ (s.outputWhile i test n).heads = s.heads ∧ (s.outputWhile i test n).panels = s.panels ∧ (s.outputWhile i test n).panelInit = s.panelInit ∧ (s.outputWhile i test n).keys = s.keys ∧ (s.outputWhile i test n).keyRef = s.keyRef ∧ (s.outputWhile i test n).encJobs = s.encJobs ∧ (s.outputWhile i test n).links = s.links ∧ (s.outputWhile i test n).pair = s.pair ∧ (s.outputWhile i test n).mem = s.mem ∧ (s.outputWhile i test n).fault = s.fault ∧ (s.outputWhile i test n).sec = s.sec ∧ (s.outputWhile i test n).power = s.power ∧ (s.outputWhile i test n).out = s.out ∧ (s.outputWhile i test n).draw = s.draw := by
  induction n generalizing s with
  | zero => simp [State.outputWhile]
  | succ n ih => unfold State.outputWhile; dsimp only; (repeat' split) <;> simp [ih]

@[simp] theorem State.flushOutput_frame (s : State) (i : Nat) :
    (State.flushOutput s i).pending = s.pending ∧ (State.flushOutput s i).time = s.time ∧ (State.flushOutput s i).mail = s.mail ∧ (State.flushOutput s i).sets = s.sets ∧ (State.flushOutput s i).heads = s.heads ∧ (State.flushOutput s i).panels = s.panels ∧ (State.flushOutput s i).panelInit = s.panelInit ∧ (State.flushOutput s i).keys = s.keys ∧ (State.flushOutput s i).keyRef = s.keyRef ∧ (State.flushOutput s i).encJobs = s.encJobs ∧ (State.flushOutput s i).links = s.links ∧ (State.flushOutput s i).pair = s.pair ∧ (State.flushOutput s i).mem = s.mem ∧ (State.flushOutput s i).fault = s.fault ∧ (State.flushOutput s i).sec = s.sec ∧ (State.flushOutput s i).power = s.power ∧ (State.flushOutput s i).out = s.out ∧ (State.flushOutput s i).draw = s.draw := by
  unfold State.flushOutput; (try dsimp only); (repeat' split) <;> simp (disch := (intros; first | rfl | ((try dsimp only); (repeat' split) <;> (try simp))))

@[simp] theorem State.bumpOutput_frame (s : State) (i : Nat) :
    (State.bumpOutput s i).pending = s.pending ∧ (State.bumpOutput s i).time = s.time ∧ (State.bumpOutput s i).mail = s.mail ∧ (State.bumpOutput s i).sets = s.sets ∧ (State.bumpOutput s i).heads = s.heads ∧ (State.bumpOutput s i).panels = s.panels ∧ (State.bumpOutput s i).panelInit = s.panelInit ∧ (State.bumpOutput s i).keys = s.keys ∧ (State.bumpOutput s i).keyRef = s.keyRef ∧ (State.bumpOutput s i).encJobs = s.encJobs ∧ (State.bumpOutput s i).links = s.links ∧ (State.bumpOutput s i).pair = s.pair ∧ (State.bumpOutput s i).mem = s.mem ∧ (State.bumpOutput s i).fault = s.fault ∧ (State.bumpOutput s i).sec = s.sec ∧ (State.bumpOutput s i).power = s.power ∧ (State.bumpOutput s i).out = s.out ∧ (State.bumpOutput s i).draw = s.draw := by
  unfold State.bumpOutput; (try dsimp only); (repeat' split) <;> simp (disch := (intros; first | rfl | ((try dsimp only); (repeat' split) <;> (try simp))))

@[simp] theorem State.countStop_frame (s : State) (i code : Nat) (poc : Int) :
    (s.countStop i code poc).1.pending = s.pending ∧ (s.countStop i code poc).1.time = s.time ∧ (s.countStop i code poc).1.ledger = s.ledger ∧ (s.countStop i code poc).1.mail = s.mail ∧ (s.countStop i code poc).1.sets = s.sets ∧ (s.countStop i code poc).1.comp = s.comp ∧ (s.countStop i code poc).1.heads = s.heads ∧ (s.countStop i code poc).1.panels = s.panels ∧ (s.countStop i code poc).1.panelInit = s.panelInit ∧ (s.countStop i code poc).1.keys = s.keys ∧ (s.countStop i code poc).1.keyRef = s.keyRef ∧ (s.countStop i code poc).1.encJobs = s.encJobs ∧ (s.countStop i code poc).1.enc = s.enc ∧ (s.countStop i code poc).1.links = s.links ∧ (s.countStop i code poc).1.pair = s.pair ∧ (s.countStop i code poc).1.mem = s.mem ∧ (s.countStop i code poc).1.fault = s.fault ∧ (s.countStop i code poc).1.sec = s.sec ∧ (s.countStop i code poc).1.power = s.power ∧ (s.countStop i code poc).1.out = s.out ∧ (s.countStop i code poc).1.draw = s.draw := by
  unfold State.countStop; dsimp only; (repeat' split) <;> simp

@[simp] theorem State.loseStopped_frame (s : State) (i : Nat) :
    (State.loseStopped s i).pending = s.pending ∧ (State.loseStopped s i).time = s.time ∧ (State.loseStopped s i).mail = s.mail ∧ (State.loseStopped s i).sets = s.sets ∧ (State.loseStopped s i).comp = s.comp ∧ (State.loseStopped s i).heads = s.heads ∧ (State.loseStopped s i).panels = s.panels ∧ (State.loseStopped s i).panelInit = s.panelInit ∧ (State.loseStopped s i).keys = s.keys ∧ (State.loseStopped s i).keyRef = s.keyRef ∧ (State.loseStopped s i).encJobs = s.encJobs ∧ (State.loseStopped s i).enc = s.enc ∧ (State.loseStopped s i).links = s.links ∧ (State.loseStopped s i).pair = s.pair ∧ (State.loseStopped s i).mem = s.mem ∧ (State.loseStopped s i).fault = s.fault ∧ (State.loseStopped s i).sec = s.sec ∧ (State.loseStopped s i).power = s.power ∧ (State.loseStopped s i).out = s.out ∧ (State.loseStopped s i).draw = s.draw := by
  simp [State.loseStopped]

@[simp] theorem State.damage_frame (s : State) (i code : Nat) (poc : Int) (ps : List Nat) (discard : Nat) :
    (State.damage s i code poc ps discard).pending = s.pending ∧ (State.damage s i code poc ps discard).time = s.time ∧ (State.damage s i code poc ps discard).sets = s.sets ∧ (State.damage s i code poc ps discard).heads = s.heads ∧ (State.damage s i code poc ps discard).panels = s.panels ∧ (State.damage s i code poc ps discard).panelInit = s.panelInit ∧ (State.damage s i code poc ps discard).keys = s.keys ∧ (State.damage s i code poc ps discard).keyRef = s.keyRef ∧ (State.damage s i code poc ps discard).encJobs = s.encJobs ∧ (State.damage s i code poc ps discard).links = s.links ∧ (State.damage s i code poc ps discard).pair = s.pair ∧ (State.damage s i code poc ps discard).mem = s.mem ∧ (State.damage s i code poc ps discard).fault = s.fault ∧ (State.damage s i code poc ps discard).sec = s.sec ∧ (State.damage s i code poc ps discard).power = s.power ∧ (State.damage s i code poc ps discard).draw = s.draw := by
  unfold State.damage; dsimp only; (repeat' split) <;> simp

@[simp] theorem State.auDamage_frame (s : State) (i code : Nat) (poc : Int) (ps : List Nat) :
    (State.auDamage s i code poc ps).pending = s.pending ∧ (State.auDamage s i code poc ps).time = s.time ∧ (State.auDamage s i code poc ps).sets = s.sets ∧ (State.auDamage s i code poc ps).heads = s.heads ∧ (State.auDamage s i code poc ps).panels = s.panels ∧ (State.auDamage s i code poc ps).panelInit = s.panelInit ∧ (State.auDamage s i code poc ps).keys = s.keys ∧ (State.auDamage s i code poc ps).keyRef = s.keyRef ∧ (State.auDamage s i code poc ps).encJobs = s.encJobs ∧ (State.auDamage s i code poc ps).links = s.links ∧ (State.auDamage s i code poc ps).pair = s.pair ∧ (State.auDamage s i code poc ps).mem = s.mem ∧ (State.auDamage s i code poc ps).fault = s.fault ∧ (State.auDamage s i code poc ps).sec = s.sec ∧ (State.auDamage s i code poc ps).power = s.power ∧ (State.auDamage s i code poc ps).draw = s.draw := by
  simp [State.auDamage]

@[simp] theorem State.discontinuity_frame (s : State) (i cause : Nat) :
    (State.discontinuity s i cause).pending = s.pending ∧ (State.discontinuity s i cause).time = s.time ∧ (State.discontinuity s i cause).sets = s.sets ∧ (State.discontinuity s i cause).heads = s.heads ∧ (State.discontinuity s i cause).panels = s.panels ∧ (State.discontinuity s i cause).panelInit = s.panelInit ∧ (State.discontinuity s i cause).keys = s.keys ∧ (State.discontinuity s i cause).keyRef = s.keyRef ∧ (State.discontinuity s i cause).encJobs = s.encJobs ∧ (State.discontinuity s i cause).links = s.links ∧ (State.discontinuity s i cause).pair = s.pair ∧ (State.discontinuity s i cause).mem = s.mem ∧ (State.discontinuity s i cause).fault = s.fault ∧ (State.discontinuity s i cause).sec = s.sec ∧ (State.discontinuity s i cause).power = s.power ∧ (State.discontinuity s i cause).draw = s.draw := by
  unfold State.discontinuity; (try dsimp only); (repeat' split) <;> simp

@[simp] theorem State.beginDecode_frame (s : State) (i : Nat) (u : AuInfo) (a : AuUnit) :
    (State.beginDecode s i u a).pending = s.pending ∧ (State.beginDecode s i u a).time = s.time ∧ (State.beginDecode s i u a).ledger = s.ledger ∧ (State.beginDecode s i u a).mail = s.mail ∧ (State.beginDecode s i u a).sets = s.sets ∧ (State.beginDecode s i u a).comp = s.comp ∧ (State.beginDecode s i u a).heads = s.heads ∧ (State.beginDecode s i u a).panels = s.panels ∧ (State.beginDecode s i u a).panelInit = s.panelInit ∧ (State.beginDecode s i u a).keys = s.keys ∧ (State.beginDecode s i u a).keyRef = s.keyRef ∧ (State.beginDecode s i u a).encJobs = s.encJobs ∧ (State.beginDecode s i u a).enc = s.enc ∧ (State.beginDecode s i u a).links = s.links ∧ (State.beginDecode s i u a).pair = s.pair ∧ (State.beginDecode s i u a).mem = s.mem ∧ (State.beginDecode s i u a).fault = s.fault ∧ (State.beginDecode s i u a).sec = s.sec ∧ (State.beginDecode s i u a).power = s.power ∧ (State.beginDecode s i u a).out = s.out ∧ (State.beginDecode s i u a).draw = s.draw := by
  simp [State.beginDecode]

@[simp] theorem State.loadSets_frame (s : State) (i : Nat) :
    (State.loadSets s i).pending = s.pending ∧ (State.loadSets s i).time = s.time ∧ (State.loadSets s i).ledger = s.ledger ∧ (State.loadSets s i).mail = s.mail ∧ (State.loadSets s i).sets = s.sets ∧ (State.loadSets s i).comp = s.comp ∧ (State.loadSets s i).heads = s.heads ∧ (State.loadSets s i).panels = s.panels ∧ (State.loadSets s i).panelInit = s.panelInit ∧ (State.loadSets s i).keys = s.keys ∧ (State.loadSets s i).keyRef = s.keyRef ∧ (State.loadSets s i).encJobs = s.encJobs ∧ (State.loadSets s i).enc = s.enc ∧ (State.loadSets s i).links = s.links ∧ (State.loadSets s i).pair = s.pair ∧ (State.loadSets s i).mem = s.mem ∧ (State.loadSets s i).fault = s.fault ∧ (State.loadSets s i).sec = s.sec ∧ (State.loadSets s i).power = s.power ∧ (State.loadSets s i).out = s.out ∧ (State.loadSets s i).draw = s.draw := by
  simp [State.loadSets]

@[simp] theorem State.restartable_frame (s : State) (i : Nat) (u : AuInfo) :
    (s.restartable i u).1.pending = s.pending ∧ (s.restartable i u).1.time = s.time ∧ (s.restartable i u).1.sets = s.sets ∧ (s.restartable i u).1.panelInit = s.panelInit ∧ (s.restartable i u).1.keys = s.keys ∧ (s.restartable i u).1.keyRef = s.keyRef ∧ (s.restartable i u).1.encJobs = s.encJobs ∧ (s.restartable i u).1.links = s.links ∧ (s.restartable i u).1.sec = s.sec ∧ (s.restartable i u).1.draw = s.draw := by
  unfold State.restartable; dsimp only; (repeat' split) <;> simp

@[simp] theorem State.parseNext_frame (s : State) (c : Nat) :
    (State.parseNext s c).pending = s.pending ∧ (State.parseNext s c).time = s.time ∧ (State.parseNext s c).ledger = s.ledger ∧ (State.parseNext s c).mail = s.mail ∧ (State.parseNext s c).sets = s.sets ∧ (State.parseNext s c).comp = s.comp ∧ (State.parseNext s c).heads = s.heads ∧ (State.parseNext s c).panels = s.panels ∧ (State.parseNext s c).panelInit = s.panelInit ∧ (State.parseNext s c).keys = s.keys ∧ (State.parseNext s c).keyRef = s.keyRef ∧ (State.parseNext s c).encJobs = s.encJobs ∧ (State.parseNext s c).enc = s.enc ∧ (State.parseNext s c).links = s.links ∧ (State.parseNext s c).pair = s.pair ∧ (State.parseNext s c).mem = s.mem ∧ (State.parseNext s c).fault = s.fault ∧ (State.parseNext s c).power = s.power ∧ (State.parseNext s c).out = s.out ∧ (State.parseNext s c).draw = s.draw := by
  unfold State.parseNext; (try dsimp only); (repeat' split) <;> simp

@[simp] theorem State.runAhead_frame (s : State) (i : Nat) :
    (State.runAhead s i).pending = s.pending ∧ (State.runAhead s i).time = s.time ∧ (State.runAhead s i).ledger = s.ledger ∧ (State.runAhead s i).mail = s.mail ∧ (State.runAhead s i).sets = s.sets ∧ (State.runAhead s i).comp = s.comp ∧ (State.runAhead s i).heads = s.heads ∧ (State.runAhead s i).panels = s.panels ∧ (State.runAhead s i).panelInit = s.panelInit ∧ (State.runAhead s i).keys = s.keys ∧ (State.runAhead s i).keyRef = s.keyRef ∧ (State.runAhead s i).encJobs = s.encJobs ∧ (State.runAhead s i).enc = s.enc ∧ (State.runAhead s i).links = s.links ∧ (State.runAhead s i).pair = s.pair ∧ (State.runAhead s i).mem = s.mem ∧ (State.runAhead s i).fault = s.fault ∧ (State.runAhead s i).power = s.power ∧ (State.runAhead s i).out = s.out ∧ (State.runAhead s i).draw = s.draw := by
  unfold State.runAhead; (try dsimp only); (repeat' split) <;> simp

@[simp] theorem State.takeAu_frame (s : State) (i : Nat) (a : AuUnit) :
    (State.takeAu s i a).pending = s.pending ∧ (State.takeAu s i a).time = s.time ∧ (State.takeAu s i a).sets = s.sets ∧ (State.takeAu s i a).panelInit = s.panelInit ∧ (State.takeAu s i a).keys = s.keys ∧ (State.takeAu s i a).keyRef = s.keyRef ∧ (State.takeAu s i a).encJobs = s.encJobs ∧ (State.takeAu s i a).links = s.links ∧ (State.takeAu s i a).sec = s.sec ∧ (State.takeAu s i a).draw = s.draw := by
  unfold State.takeAu; (try dsimp only); (repeat' split) <;> simp

@[simp] theorem State.releaseAu_frame (s : State) (i : Nat) (a : AuUnit) :
    (State.releaseAu s i a).pending = s.pending ∧ (State.releaseAu s i a).time = s.time ∧ (State.releaseAu s i a).sets = s.sets ∧ (State.releaseAu s i a).panelInit = s.panelInit ∧ (State.releaseAu s i a).keys = s.keys ∧ (State.releaseAu s i a).keyRef = s.keyRef ∧ (State.releaseAu s i a).encJobs = s.encJobs ∧ (State.releaseAu s i a).links = s.links ∧ (State.releaseAu s i a).draw = s.draw := by
  unfold State.releaseAu; (try dsimp only); (repeat' split) <;> simp (disch := (intros; first | rfl | ((try dsimp only); (repeat' split) <;> (try simp))))

@[simp] theorem State.rateWindow_frame (s : State) (i : Nat) :
    (State.rateWindow s i).pending = s.pending ∧ (State.rateWindow s i).time = s.time ∧ (State.rateWindow s i).sets = s.sets ∧ (State.rateWindow s i).heads = s.heads ∧ (State.rateWindow s i).panels = s.panels ∧ (State.rateWindow s i).panelInit = s.panelInit ∧ (State.rateWindow s i).keys = s.keys ∧ (State.rateWindow s i).keyRef = s.keyRef ∧ (State.rateWindow s i).encJobs = s.encJobs ∧ (State.rateWindow s i).links = s.links ∧ (State.rateWindow s i).pair = s.pair ∧ (State.rateWindow s i).mem = s.mem ∧ (State.rateWindow s i).fault = s.fault ∧ (State.rateWindow s i).sec = s.sec ∧ (State.rateWindow s i).power = s.power ∧ (State.rateWindow s i).draw = s.draw := by
  unfold State.rateWindow; (try dsimp only); (repeat' split) <;> simp

@[simp] theorem State.activate_frame (s : State) (i : Nat) (u : AuInfo) (h265 : Bool) (q : Active) :
    (s.activate i u h265 q).1.pending = s.pending ∧ (s.activate i u h265 q).1.time = s.time ∧ (s.activate i u h265 q).1.sets = s.sets ∧ (s.activate i u h265 q).1.panelInit = s.panelInit ∧ (s.activate i u h265 q).1.keys = s.keys ∧ (s.activate i u h265 q).1.keyRef = s.keyRef ∧ (s.activate i u h265 q).1.encJobs = s.encJobs ∧ (s.activate i u h265 q).1.links = s.links ∧ (s.activate i u h265 q).1.sec = s.sec ∧ (s.activate i u h265 q).1.draw = s.draw := by
  unfold State.activate; (try dsimp only); (repeat' split) <;> simp

@[simp] theorem State.keepPicture_frame (s : State) (i : Nat) (u : AuInfo) (a : AuUnit) (p : Sps) (h265 : Bool) :
    (State.keepPicture s i u a p h265).pending = s.pending ∧ (State.keepPicture s i u a p h265).time = s.time ∧ (State.keepPicture s i u a p h265).mail = s.mail ∧ (State.keepPicture s i u a p h265).sets = s.sets ∧ (State.keepPicture s i u a p h265).heads = s.heads ∧ (State.keepPicture s i u a p h265).panels = s.panels ∧ (State.keepPicture s i u a p h265).panelInit = s.panelInit ∧ (State.keepPicture s i u a p h265).keys = s.keys ∧ (State.keepPicture s i u a p h265).keyRef = s.keyRef ∧ (State.keepPicture s i u a p h265).encJobs = s.encJobs ∧ (State.keepPicture s i u a p h265).links = s.links ∧ (State.keepPicture s i u a p h265).pair = s.pair ∧ (State.keepPicture s i u a p h265).fault = s.fault ∧ (State.keepPicture s i u a p h265).sec = s.sec ∧ (State.keepPicture s i u a p h265).power = s.power ∧ (State.keepPicture s i u a p h265).out = s.out ∧ (State.keepPicture s i u a p h265).draw = s.draw := by
  simp [State.keepPicture]

@[simp] theorem State.countBits_frame (s : State) (i bytes : Nat) :
    (State.countBits s i bytes).pending = s.pending ∧ (State.countBits s i bytes).time = s.time ∧ (State.countBits s i bytes).mail = s.mail ∧ (State.countBits s i bytes).sets = s.sets ∧ (State.countBits s i bytes).comp = s.comp ∧ (State.countBits s i bytes).heads = s.heads ∧ (State.countBits s i bytes).panels = s.panels ∧ (State.countBits s i bytes).panelInit = s.panelInit ∧ (State.countBits s i bytes).keys = s.keys ∧ (State.countBits s i bytes).keyRef = s.keyRef ∧ (State.countBits s i bytes).encJobs = s.encJobs ∧ (State.countBits s i bytes).enc = s.enc ∧ (State.countBits s i bytes).links = s.links ∧ (State.countBits s i bytes).pair = s.pair ∧ (State.countBits s i bytes).mem = s.mem ∧ (State.countBits s i bytes).fault = s.fault ∧ (State.countBits s i bytes).sec = s.sec ∧ (State.countBits s i bytes).power = s.power ∧ (State.countBits s i bytes).out = s.out ∧ (State.countBits s i bytes).draw = s.draw := by
  unfold State.countBits; (try dsimp only); (repeat' split) <;> simp

@[simp] theorem State.decodePicture_frame (s : State) (i : Nat) (u : AuInfo) (a : AuUnit) :
    (State.decodePicture s i u a).pending = s.pending ∧ (State.decodePicture s i u a).time = s.time ∧ (State.decodePicture s i u a).sets = s.sets ∧ (State.decodePicture s i u a).panelInit = s.panelInit ∧ (State.decodePicture s i u a).keys = s.keys ∧ (State.decodePicture s i u a).keyRef = s.keyRef ∧ (State.decodePicture s i u a).encJobs = s.encJobs ∧ (State.decodePicture s i u a).links = s.links ∧ (State.decodePicture s i u a).sec = s.sec ∧ (State.decodePicture s i u a).draw = s.draw := by
  unfold State.decodePicture; (try dsimp only); (repeat' split) <;> simp (disch := (intros; first | rfl | ((try dsimp only); (repeat' split) <;> (try simp))))

@[simp] theorem State.coreFails_frame (s : State) (c : Nat) :
    (State.coreFails s c).pending = s.pending ∧ (State.coreFails s c).time = s.time ∧ (State.coreFails s c).sets = s.sets ∧ (State.coreFails s c).panelInit = s.panelInit ∧ (State.coreFails s c).keys = s.keys ∧ (State.coreFails s c).keyRef = s.keyRef ∧ (State.coreFails s c).encJobs = s.encJobs ∧ (State.coreFails s c).links = s.links ∧ (State.coreFails s c).sec = s.sec ∧ (State.coreFails s c).draw = s.draw := by
  unfold State.coreFails
  simp
  refine ⟨?_, ?_, ?_, ?_, ?_, ?_, ?_, ?_, ?_, ?_⟩ <;>
    (refine (each_same _ _ _ _ (fun s a => ?_)).trans (by simp); (try dsimp only); (repeat' split) <;> simp)

@[simp] theorem State.dropFrame_frame (s : State) (port : Nat) :
    (State.dropFrame s port).pending = s.pending ∧ (State.dropFrame s port).time = s.time ∧ (State.dropFrame s port).ledger = s.ledger ∧ (State.dropFrame s port).mail = s.mail ∧ (State.dropFrame s port).sets = s.sets ∧ (State.dropFrame s port).src = s.src ∧ (State.dropFrame s port).comp = s.comp ∧ (State.dropFrame s port).heads = s.heads ∧ (State.dropFrame s port).panels = s.panels ∧ (State.dropFrame s port).panelInit = s.panelInit ∧ (State.dropFrame s port).keys = s.keys ∧ (State.dropFrame s port).keyRef = s.keyRef ∧ (State.dropFrame s port).encJobs = s.encJobs ∧ (State.dropFrame s port).enc = s.enc ∧ (State.dropFrame s port).pair = s.pair ∧ (State.dropFrame s port).mem = s.mem ∧ (State.dropFrame s port).fault = s.fault ∧ (State.dropFrame s port).sec = s.sec ∧ (State.dropFrame s port).power = s.power ∧ (State.dropFrame s port).out = s.out ∧ (State.dropFrame s port).draw = s.draw := by
  simp [State.dropFrame]

@[simp] theorem State.authFails_frame (s : State) (i : Nat) :
    (State.authFails s i).pending = s.pending ∧ (State.authFails s i).time = s.time ∧ (State.authFails s i).mail = s.mail ∧ (State.authFails s i).sets = s.sets ∧ (State.authFails s i).comp = s.comp ∧ (State.authFails s i).heads = s.heads ∧ (State.authFails s i).panels = s.panels ∧ (State.authFails s i).panelInit = s.panelInit ∧ (State.authFails s i).keys = s.keys ∧ (State.authFails s i).keyRef = s.keyRef ∧ (State.authFails s i).encJobs = s.encJobs ∧ (State.authFails s i).enc = s.enc ∧ (State.authFails s i).links = s.links ∧ (State.authFails s i).pair = s.pair ∧ (State.authFails s i).mem = s.mem ∧ (State.authFails s i).fault = s.fault ∧ (State.authFails s i).sec = s.sec ∧ (State.authFails s i).power = s.power ∧ (State.authFails s i).out = s.out ∧ (State.authFails s i).draw = s.draw := by
  simp [State.authFails]

@[simp] theorem State.authRtp_frame (s : State) (i : Nat) (k : RtpPacket) :
    (s.authRtp i k).1.pending = s.pending ∧ (s.authRtp i k).1.time = s.time ∧ (s.authRtp i k).1.mail = s.mail ∧ (s.authRtp i k).1.sets = s.sets ∧ (s.authRtp i k).1.comp = s.comp ∧ (s.authRtp i k).1.heads = s.heads ∧ (s.authRtp i k).1.panels = s.panels ∧ (s.authRtp i k).1.panelInit = s.panelInit ∧ (s.authRtp i k).1.keys = s.keys ∧ (s.authRtp i k).1.keyRef = s.keyRef ∧ (s.authRtp i k).1.encJobs = s.encJobs ∧ (s.authRtp i k).1.enc = s.enc ∧ (s.authRtp i k).1.links = s.links ∧ (s.authRtp i k).1.pair = s.pair ∧ (s.authRtp i k).1.mem = s.mem ∧ (s.authRtp i k).1.fault = s.fault ∧ (s.authRtp i k).1.sec = s.sec ∧ (s.authRtp i k).1.power = s.power ∧ (s.authRtp i k).1.out = s.out ∧ (s.authRtp i k).1.draw = s.draw := by
  unfold State.authRtp; dsimp only; (repeat' split) <;> simp

@[simp] theorem State.authRtcp_frame (s : State) (i : Nat) (k : RtcpHead) :
    (s.authRtcp i k).1.pending = s.pending ∧ (s.authRtcp i k).1.time = s.time ∧ (s.authRtcp i k).1.mail = s.mail ∧ (s.authRtcp i k).1.sets = s.sets ∧ (s.authRtcp i k).1.comp = s.comp ∧ (s.authRtcp i k).1.heads = s.heads ∧ (s.authRtcp i k).1.panels = s.panels ∧ (s.authRtcp i k).1.panelInit = s.panelInit ∧ (s.authRtcp i k).1.keys = s.keys ∧ (s.authRtcp i k).1.keyRef = s.keyRef ∧ (s.authRtcp i k).1.encJobs = s.encJobs ∧ (s.authRtcp i k).1.enc = s.enc ∧ (s.authRtcp i k).1.links = s.links ∧ (s.authRtcp i k).1.pair = s.pair ∧ (s.authRtcp i k).1.mem = s.mem ∧ (s.authRtcp i k).1.fault = s.fault ∧ (s.authRtcp i k).1.sec = s.sec ∧ (s.authRtcp i k).1.power = s.power ∧ (s.authRtcp i k).1.out = s.out ∧ (s.authRtcp i k).1.draw = s.draw := by
  unfold State.authRtcp; dsimp only; (repeat' split) <;> simp

@[simp] theorem State.captureTime_frame (s : State) (i ts arrival : Nat) (annex : Option Annex) (element : Option Nat) :
    (s.captureTime i ts arrival annex element).1.pending = s.pending ∧ (s.captureTime i ts arrival annex element).1.time = s.time ∧ (s.captureTime i ts arrival annex element).1.mail = s.mail ∧ (s.captureTime i ts arrival annex element).1.sets = s.sets ∧ (s.captureTime i ts arrival annex element).1.src = s.src ∧ (s.captureTime i ts arrival annex element).1.comp = s.comp ∧ (s.captureTime i ts arrival annex element).1.heads = s.heads ∧ (s.captureTime i ts arrival annex element).1.panels = s.panels ∧ (s.captureTime i ts arrival annex element).1.panelInit = s.panelInit ∧ (s.captureTime i ts arrival annex element).1.keys = s.keys ∧ (s.captureTime i ts arrival annex element).1.keyRef = s.keyRef ∧ (s.captureTime i ts arrival annex element).1.encJobs = s.encJobs ∧ (s.captureTime i ts arrival annex element).1.enc = s.enc ∧ (s.captureTime i ts arrival annex element).1.links = s.links ∧ (s.captureTime i ts arrival annex element).1.pair = s.pair ∧ (s.captureTime i ts arrival annex element).1.mem = s.mem ∧ (s.captureTime i ts arrival annex element).1.fault = s.fault ∧ (s.captureTime i ts arrival annex element).1.sec = s.sec ∧ (s.captureTime i ts arrival annex element).1.power = s.power ∧ (s.captureTime i ts arrival annex element).1.out = s.out ∧ (s.captureTime i ts arrival annex element).1.draw = s.draw := by
  unfold State.captureTime; dsimp only; (repeat' split) <;> simp

@[simp] theorem State.emitAu_frame (s : State) (i : Nat) (l : List HeldPacket) (incomplete : Bool) (missing : Nat) :
    (State.emitAu s i l incomplete missing).pending = s.pending ∧ (State.emitAu s i l incomplete missing).time = s.time ∧ (State.emitAu s i l incomplete missing).sets = s.sets ∧ (State.emitAu s i l incomplete missing).panelInit = s.panelInit ∧ (State.emitAu s i l incomplete missing).keys = s.keys ∧ (State.emitAu s i l incomplete missing).keyRef = s.keyRef ∧ (State.emitAu s i l incomplete missing).encJobs = s.encJobs ∧ (State.emitAu s i l incomplete missing).links = s.links ∧ (State.emitAu s i l incomplete missing).draw = s.draw := by
  unfold State.emitAu; (repeat' split) <;> simp

@[simp] theorem State.releaseReady_frame (s : State) (i : Nat) (n : Nat) :
    (s.releaseReady i n).pending = s.pending ∧ (s.releaseReady i n).time = s.time ∧ (s.releaseReady i n).sets = s.sets ∧ (s.releaseReady i n).panelInit = s.panelInit ∧ (s.releaseReady i n).keys = s.keys ∧ (s.releaseReady i n).keyRef = s.keyRef ∧ (s.releaseReady i n).encJobs = s.encJobs ∧ (s.releaseReady i n).links = s.links ∧ (s.releaseReady i n).draw = s.draw := by
  induction n generalizing s with
  | zero => simp [State.releaseReady]
  | succ n ih => unfold State.releaseReady; (repeat' split) <;> simp [ih]

theorem State.jitterTakes_frame {s : State} {n : Nat} {t : State} (h : s.jitterTakes n = some t) :
    t.pending = s.pending ∧ t.time = s.time ∧ t.ledger = s.ledger ∧ t.mail = s.mail ∧ t.sets = s.sets ∧ t.comp = s.comp ∧ t.heads = s.heads ∧ t.panels = s.panels ∧ t.panelInit = s.panelInit ∧ t.keys = s.keys ∧ t.keyRef = s.keyRef ∧ t.encJobs = s.encJobs ∧ t.enc = s.enc ∧ t.links = s.links ∧ t.pair = s.pair ∧ t.mem = s.mem ∧ t.fault = s.fault ∧ t.sec = s.sec ∧ t.power = s.power ∧ t.out = s.out ∧ t.draw = s.draw := by
  unfold State.jitterTakes at h
  dsimp only at h
  split at h
  · cases h
  · cases h; simp

@[simp] theorem State.holdPacket_frame (s : State) (i ext : Nat) (k : RtpPacket) :
    (State.holdPacket s i ext k).pending = s.pending ∧ (State.holdPacket s i ext k).time = s.time ∧ (State.holdPacket s i ext k).sets = s.sets ∧ (State.holdPacket s i ext k).panelInit = s.panelInit ∧ (State.holdPacket s i ext k).keys = s.keys ∧ (State.holdPacket s i ext k).keyRef = s.keyRef ∧ (State.holdPacket s i ext k).encJobs = s.encJobs ∧ (State.holdPacket s i ext k).links = s.links ∧ (State.holdPacket s i ext k).draw = s.draw := by
  unfold State.holdPacket
  dsimp only
  split
  · simp
  split
  · simp
  split
  · simp
  · rename_i h
    have h := State.jitterTakes_frame h
    simp [h]

@[simp] theorem State.bufferPacket_frame (s : State) (i : Nat) (k : RtpPacket) :
    (State.bufferPacket s i k).pending = s.pending ∧ (State.bufferPacket s i k).time = s.time ∧ (State.bufferPacket s i k).sets = s.sets ∧ (State.bufferPacket s i k).panelInit = s.panelInit ∧ (State.bufferPacket s i k).keys = s.keys ∧ (State.bufferPacket s i k).keyRef = s.keyRef ∧ (State.bufferPacket s i k).encJobs = s.encJobs ∧ (State.bufferPacket s i k).links = s.links ∧ (State.bufferPacket s i k).draw = s.draw := by
  unfold State.bufferPacket; (try dsimp only); (repeat' split) <;> simp

@[simp] theorem State.changeSsrc_frame (s : State) (i new : Nat) :
    (State.changeSsrc s i new).pending = s.pending ∧ (State.changeSsrc s i new).time = s.time ∧ (State.changeSsrc s i new).sets = s.sets ∧ (State.changeSsrc s i new).heads = s.heads ∧ (State.changeSsrc s i new).panels = s.panels ∧ (State.changeSsrc s i new).panelInit = s.panelInit ∧ (State.changeSsrc s i new).keys = s.keys ∧ (State.changeSsrc s i new).keyRef = s.keyRef ∧ (State.changeSsrc s i new).encJobs = s.encJobs ∧ (State.changeSsrc s i new).links = s.links ∧ (State.changeSsrc s i new).pair = s.pair ∧ (State.changeSsrc s i new).mem = s.mem ∧ (State.changeSsrc s i new).fault = s.fault ∧ (State.changeSsrc s i new).sec = s.sec ∧ (State.changeSsrc s i new).power = s.power ∧ (State.changeSsrc s i new).draw = s.draw := by
  simp [State.changeSsrc]

@[simp] theorem State.deliverRtp_frame (s : State) (port i : Nat) (k : RtpPacket) :
    (State.deliverRtp s port i k).pending = s.pending ∧ (State.deliverRtp s port i k).time = s.time ∧ (State.deliverRtp s port i k).sets = s.sets ∧ (State.deliverRtp s port i k).panelInit = s.panelInit ∧ (State.deliverRtp s port i k).keys = s.keys ∧ (State.deliverRtp s port i k).keyRef = s.keyRef ∧ (State.deliverRtp s port i k).encJobs = s.encJobs ∧ (State.deliverRtp s port i k).draw = s.draw := by
  unfold State.deliverRtp; dsimp only; (repeat' split) <;> simp

@[simp] theorem State.answerQuery_frame (s : State) (port : Nat) (q : MembershipQuery) :
    (State.answerQuery s port q).pending = s.pending ∧ (State.answerQuery s port q).time = s.time ∧ (State.answerQuery s port q).ledger = s.ledger ∧ (State.answerQuery s port q).mail = s.mail ∧ (State.answerQuery s port q).sets = s.sets ∧ (State.answerQuery s port q).src = s.src ∧ (State.answerQuery s port q).comp = s.comp ∧ (State.answerQuery s port q).heads = s.heads ∧ (State.answerQuery s port q).panels = s.panels ∧ (State.answerQuery s port q).panelInit = s.panelInit ∧ (State.answerQuery s port q).keys = s.keys ∧ (State.answerQuery s port q).keyRef = s.keyRef ∧ (State.answerQuery s port q).encJobs = s.encJobs ∧ (State.answerQuery s port q).enc = s.enc ∧ (State.answerQuery s port q).pair = s.pair ∧ (State.answerQuery s port q).mem = s.mem ∧ (State.answerQuery s port q).fault = s.fault ∧ (State.answerQuery s port q).sec = s.sec ∧ (State.answerQuery s port q).power = s.power ∧ (State.answerQuery s port q).draw = s.draw := by
  unfold State.answerQuery; simp (disch := (intros; first | rfl | ((try dsimp only); (repeat' split) <;> (try simp))))

@[simp] theorem State.deliverRtcp_frame (s : State) (i : Nat) (k : EthPacket) :
    (State.deliverRtcp s i k).pending = s.pending ∧ (State.deliverRtcp s i k).time = s.time ∧ (State.deliverRtcp s i k).mail = s.mail ∧ (State.deliverRtcp s i k).sets = s.sets ∧ (State.deliverRtcp s i k).comp = s.comp ∧ (State.deliverRtcp s i k).heads = s.heads ∧ (State.deliverRtcp s i k).panels = s.panels ∧ (State.deliverRtcp s i k).panelInit = s.panelInit ∧ (State.deliverRtcp s i k).keys = s.keys ∧ (State.deliverRtcp s i k).keyRef = s.keyRef ∧ (State.deliverRtcp s i k).encJobs = s.encJobs ∧ (State.deliverRtcp s i k).enc = s.enc ∧ (State.deliverRtcp s i k).links = s.links ∧ (State.deliverRtcp s i k).pair = s.pair ∧ (State.deliverRtcp s i k).mem = s.mem ∧ (State.deliverRtcp s i k).fault = s.fault ∧ (State.deliverRtcp s i k).sec = s.sec ∧ (State.deliverRtcp s i k).power = s.power ∧ (State.deliverRtcp s i k).out = s.out ∧ (State.deliverRtcp s i k).draw = s.draw := by
  unfold State.deliverRtcp; split <;> (try dsimp only) <;> (repeat' split) <;> simp

@[simp] theorem State.takeFrame_frame (s : State) (port : Nat) (d : EthDesc) (k : EthPacket) :
    (State.takeFrame s port d k).pending = s.pending ∧ (State.takeFrame s port d k).time = s.time ∧ (State.takeFrame s port d k).sets = s.sets ∧ (State.takeFrame s port d k).panelInit = s.panelInit ∧ (State.takeFrame s port d k).keys = s.keys ∧ (State.takeFrame s port d k).keyRef = s.keyRef ∧ (State.takeFrame s port d k).encJobs = s.encJobs ∧ (State.takeFrame s port d k).draw = s.draw := by
  unfold State.takeFrame; (try dsimp only); (repeat' split) <;> simp

@[simp] theorem State.startRound_frame (s : State) (o : Nat) :
    (State.startRound s o).pending = s.pending ∧ (State.startRound s o).time = s.time ∧ (State.startRound s o).ledger = s.ledger ∧ (State.startRound s o).mail = s.mail ∧ (State.startRound s o).sets = s.sets ∧ (State.startRound s o).src = s.src ∧ (State.startRound s o).heads = s.heads ∧ (State.startRound s o).panels = s.panels ∧ (State.startRound s o).panelInit = s.panelInit ∧ (State.startRound s o).keys = s.keys ∧ (State.startRound s o).keyRef = s.keyRef ∧ (State.startRound s o).encJobs = s.encJobs ∧ (State.startRound s o).enc = s.enc ∧ (State.startRound s o).links = s.links ∧ (State.startRound s o).pair = s.pair ∧ (State.startRound s o).mem = s.mem ∧ (State.startRound s o).fault = s.fault ∧ (State.startRound s o).sec = s.sec ∧ (State.startRound s o).power = s.power ∧ (State.startRound s o).out = s.out ∧ (State.startRound s o).draw = s.draw := by
  unfold State.startRound; (try dsimp only); (repeat' split) <;> simp

@[simp] theorem State.publishRound_frame (s : State) (o : Nat) :
    (State.publishRound s o).pending = s.pending ∧ (State.publishRound s o).time = s.time ∧ (State.publishRound s o).mail = s.mail ∧ (State.publishRound s o).sets = s.sets ∧ (State.publishRound s o).src = s.src ∧ (State.publishRound s o).heads = s.heads ∧ (State.publishRound s o).panels = s.panels ∧ (State.publishRound s o).panelInit = s.panelInit ∧ (State.publishRound s o).keys = s.keys ∧ (State.publishRound s o).keyRef = s.keyRef ∧ (State.publishRound s o).encJobs = s.encJobs ∧ (State.publishRound s o).enc = s.enc ∧ (State.publishRound s o).links = s.links ∧ (State.publishRound s o).pair = s.pair ∧ (State.publishRound s o).mem = s.mem ∧ (State.publishRound s o).fault = s.fault ∧ (State.publishRound s o).sec = s.sec ∧ (State.publishRound s o).power = s.power ∧ (State.publishRound s o).out = s.out ∧ (State.publishRound s o).draw = s.draw := by
  unfold State.publishRound; (try dsimp only); (repeat' split) <;> simp

@[simp] theorem State.restageRound_frame (s : State) (o : Nat) (r : Round) :
    (State.restageRound s o r).pending = s.pending ∧ (State.restageRound s o r).time = s.time ∧ (State.restageRound s o r).ledger = s.ledger ∧ (State.restageRound s o r).mail = s.mail ∧ (State.restageRound s o r).sets = s.sets ∧ (State.restageRound s o r).src = s.src ∧ (State.restageRound s o r).heads = s.heads ∧ (State.restageRound s o r).panels = s.panels ∧ (State.restageRound s o r).panelInit = s.panelInit ∧ (State.restageRound s o r).keys = s.keys ∧ (State.restageRound s o r).keyRef = s.keyRef ∧ (State.restageRound s o r).encJobs = s.encJobs ∧ (State.restageRound s o r).enc = s.enc ∧ (State.restageRound s o r).links = s.links ∧ (State.restageRound s o r).pair = s.pair ∧ (State.restageRound s o r).fault = s.fault ∧ (State.restageRound s o r).sec = s.sec ∧ (State.restageRound s o r).power = s.power ∧ (State.restageRound s o r).out = s.out ∧ (State.restageRound s o r).draw = s.draw := by
  unfold State.restageRound; (try dsimp only); (repeat' split) <;> simp

@[simp] theorem State.composeRound_frame (s : State) (o : Nat) (r : Round) :
    (State.composeRound s o r).pending = s.pending ∧ (State.composeRound s o r).time = s.time ∧ (State.composeRound s o r).ledger = s.ledger ∧ (State.composeRound s o r).mail = s.mail ∧ (State.composeRound s o r).sets = s.sets ∧ (State.composeRound s o r).src = s.src ∧ (State.composeRound s o r).heads = s.heads ∧ (State.composeRound s o r).panels = s.panels ∧ (State.composeRound s o r).panelInit = s.panelInit ∧ (State.composeRound s o r).keys = s.keys ∧ (State.composeRound s o r).keyRef = s.keyRef ∧ (State.composeRound s o r).encJobs = s.encJobs ∧ (State.composeRound s o r).enc = s.enc ∧ (State.composeRound s o r).links = s.links ∧ (State.composeRound s o r).pair = s.pair ∧ (State.composeRound s o r).fault = s.fault ∧ (State.composeRound s o r).sec = s.sec ∧ (State.composeRound s o r).power = s.power ∧ (State.composeRound s o r).out = s.out ∧ (State.composeRound s o r).draw = s.draw := by
  unfold State.composeRound
  exact ⟨((State.restageRound_frame _ _ _).1.trans ((State.mark_frame _ _ _).1.trans ((State.setOutComp_pending _ _ _).trans (each_same _ _ _ _ (fun _ _ => (State.storeTile_frame _ _ _ _).1.trans (State.noteSeq_frame _ _ _ _ _).1))))),
    ((State.restageRound_frame _ _ _).2.1.trans ((State.mark_frame _ _ _).2.1.trans ((State.setOutComp_time _ _ _).trans (each_same _ _ _ _ (fun _ _ => (State.storeTile_frame _ _ _ _).2.1.trans (State.noteSeq_frame _ _ _ _ _).2.1))))),
    ((State.restageRound_frame _ _ _).2.2.1.trans ((State.mark_frame _ _ _).2.2.1.trans ((State.setOutComp_ledger _ _ _).trans (each_same _ _ _ _ (fun _ _ => (State.storeTile_frame _ _ _ _).2.2.1.trans (State.noteSeq_frame _ _ _ _ _).2.2.1))))),
    ((State.restageRound_frame _ _ _).2.2.2.1.trans ((State.mark_frame _ _ _).2.2.2.1.trans ((State.setOutComp_mail _ _ _).trans (each_same _ _ _ _ (fun _ _ => (State.storeTile_frame _ _ _ _).2.2.2.1.trans (State.noteSeq_frame _ _ _ _ _).2.2.2.1))))),
    ((State.restageRound_frame _ _ _).2.2.2.2.1.trans ((State.mark_frame _ _ _).2.2.2.2.1.trans ((State.setOutComp_sets _ _ _).trans (each_same _ _ _ _ (fun _ _ => (State.storeTile_frame _ _ _ _).2.2.2.2.1.trans (State.noteSeq_frame _ _ _ _ _).2.2.2.2.1))))),
    ((State.restageRound_frame _ _ _).2.2.2.2.2.1.trans ((State.mark_frame _ _ _).2.2.2.2.2.1.trans ((State.setOutComp_src _ _ _).trans (each_same _ _ _ _ (fun _ _ => (State.storeTile_frame _ _ _ _).2.2.2.2.2.1.trans (State.noteSeq_frame _ _ _ _ _).2.2.2.2.2.1))))),
    ((State.restageRound_frame _ _ _).2.2.2.2.2.2.1.trans ((State.mark_frame _ _ _).2.2.2.2.2.2.1.trans ((State.setOutComp_heads _ _ _).trans (each_same _ _ _ _ (fun _ _ => (State.storeTile_frame _ _ _ _).2.2.2.2.2.2.2.1.trans (State.noteSeq_frame _ _ _ _ _).2.2.2.2.2.2.1))))),
    ((State.restageRound_frame _ _ _).2.2.2.2.2.2.2.1.trans ((State.mark_frame _ _ _).2.2.2.2.2.2.2.1.trans ((State.setOutComp_panels _ _ _).trans (each_same _ _ _ _ (fun _ _ => (State.storeTile_frame _ _ _ _).2.2.2.2.2.2.2.2.1.trans (State.noteSeq_frame _ _ _ _ _).2.2.2.2.2.2.2.1))))),
    ((State.restageRound_frame _ _ _).2.2.2.2.2.2.2.2.1.trans ((State.mark_frame _ _ _).2.2.2.2.2.2.2.2.1.trans ((State.setOutComp_panelInit _ _ _).trans (each_same _ _ _ _ (fun _ _ => (State.storeTile_frame _ _ _ _).2.2.2.2.2.2.2.2.2.1.trans (State.noteSeq_frame _ _ _ _ _).2.2.2.2.2.2.2.2.1))))),
    ((State.restageRound_frame _ _ _).2.2.2.2.2.2.2.2.2.1.trans ((State.mark_frame _ _ _).2.2.2.2.2.2.2.2.2.1.trans ((State.setOutComp_keys _ _ _).trans (each_same _ _ _ _ (fun _ _ => (State.storeTile_frame _ _ _ _).2.2.2.2.2.2.2.2.2.2.1.trans (State.noteSeq_frame _ _ _ _ _).2.2.2.2.2.2.2.2.2.1))))),
    ((State.restageRound_frame _ _ _).2.2.2.2.2.2.2.2.2.2.1.trans ((State.mark_frame _ _ _).2.2.2.2.2.2.2.2.2.2.1.trans ((State.setOutComp_keyRef _ _ _).trans (each_same _ _ _ _ (fun _ _ => (State.storeTile_frame _ _ _ _).2.2.2.2.2.2.2.2.2.2.2.1.trans (State.noteSeq_frame _ _ _ _ _).2.2.2.2.2.2.2.2.2.2.1))))),
    ((State.restageRound_frame _ _ _).2.2.2.2.2.2.2.2.2.2.2.1.trans ((State.mark_frame _ _ _).2.2.2.2.2.2.2.2.2.2.2.1.trans ((State.setOutComp_encJobs _ _ _).trans (each_same _ _ _ _ (fun _ _ => (State.storeTile_frame _ _ _ _).2.2.2.2.2.2.2.2.2.2.2.2.1.trans (State.noteSeq_frame _ _ _ _ _).2.2.2.2.2.2.2.2.2.2.2.1))))),
    ((State.restageRound_frame _ _ _).2.2.2.2.2.2.2.2.2.2.2.2.1.trans ((State.mark_frame _ _ _).2.2.2.2.2.2.2.2.2.2.2.2.1.trans ((State.setOutComp_enc _ _ _).trans (each_same _ _ _ _ (fun _ _ => (State.storeTile_frame _ _ _ _).2.2.2.2.2.2.2.2.2.2.2.2.2.1.trans (State.noteSeq_frame _ _ _ _ _).2.2.2.2.2.2.2.2.2.2.2.2.1))))),
    ((State.restageRound_frame _ _ _).2.2.2.2.2.2.2.2.2.2.2.2.2.1.trans ((State.mark_frame _ _ _).2.2.2.2.2.2.2.2.2.2.2.2.2.1.trans ((State.setOutComp_links _ _ _).trans (each_same _ _ _ _ (fun _ _ => (State.storeTile_frame _ _ _ _).2.2.2.2.2.2.2.2.2.2.2.2.2.2.1.trans (State.noteSeq_frame _ _ _ _ _).2.2.2.2.2.2.2.2.2.2.2.2.2.1))))),
    ((State.restageRound_frame _ _ _).2.2.2.2.2.2.2.2.2.2.2.2.2.2.1.trans ((State.mark_frame _ _ _).2.2.2.2.2.2.2.2.2.2.2.2.2.2.1.trans ((State.setOutComp_pair _ _ _).trans (each_same _ _ _ _ (fun _ _ => (State.storeTile_frame _ _ _ _).2.2.2.2.2.2.2.2.2.2.2.2.2.2.2.1.trans (State.noteSeq_frame _ _ _ _ _).2.2.2.2.2.2.2.2.2.2.2.2.2.2.1))))),
    ((State.restageRound_frame _ _ _).2.2.2.2.2.2.2.2.2.2.2.2.2.2.2.1.trans ((State.mark_frame _ _ _).2.2.2.2.2.2.2.2.2.2.2.2.2.2.2.2.1.trans ((State.setOutComp_fault _ _ _).trans (each_same _ _ _ _ (fun _ _ => (State.storeTile_frame _ _ _ _).2.2.2.2.2.2.2.2.2.2.2.2.2.2.2.2.1.trans (State.noteSeq_frame _ _ _ _ _).2.2.2.2.2.2.2.2.2.2.2.2.2.2.2.2.1))))),
    ((State.restageRound_frame _ _ _).2.2.2.2.2.2.2.2.2.2.2.2.2.2.2.2.1.trans ((State.mark_frame _ _ _).2.2.2.2.2.2.2.2.2.2.2.2.2.2.2.2.2.1.trans ((State.setOutComp_sec _ _ _).trans (each_same _ _ _ _ (fun _ _ => (State.storeTile_frame _ _ _ _).2.2.2.2.2.2.2.2.2.2.2.2.2.2.2.2.2.1.trans (State.noteSeq_frame _ _ _ _ _).2.2.2.2.2.2.2.2.2.2.2.2.2.2.2.2.2.1))))),
    ((State.restageRound_frame _ _ _).2.2.2.2.2.2.2.2.2.2.2.2.2.2.2.2.2.1.trans ((State.mark_frame _ _ _).2.2.2.2.2.2.2.2.2.2.2.2.2.2.2.2.2.2.1.trans ((State.setOutComp_power _ _ _).trans (each_same _ _ _ _ (fun _ _ => (State.storeTile_frame _ _ _ _).2.2.2.2.2.2.2.2.2.2.2.2.2.2.2.2.2.2.1.trans (State.noteSeq_frame _ _ _ _ _).2.2.2.2.2.2.2.2.2.2.2.2.2.2.2.2.2.2.1))))),
    ((State.restageRound_frame _ _ _).2.2.2.2.2.2.2.2.2.2.2.2.2.2.2.2.2.2.1.trans ((State.mark_frame _ _ _).2.2.2.2.2.2.2.2.2.2.2.2.2.2.2.2.2.2.2.1.trans ((State.setOutComp_out _ _ _).trans (each_same _ _ _ _ (fun _ _ => (State.storeTile_frame _ _ _ _).2.2.2.2.2.2.2.2.2.2.2.2.2.2.2.2.2.2.2.1.trans (State.noteSeq_frame _ _ _ _ _).2.2.2.2.2.2.2.2.2.2.2.2.2.2.2.2.2.2.2.1))))),
    ((State.restageRound_frame _ _ _).2.2.2.2.2.2.2.2.2.2.2.2.2.2.2.2.2.2.2.trans ((State.mark_frame _ _ _).2.2.2.2.2.2.2.2.2.2.2.2.2.2.2.2.2.2.2.2.trans ((State.setOutComp_draw _ _ _).trans (each_same _ _ _ _ (fun _ _ => (State.storeTile_frame _ _ _ _).2.2.2.2.2.2.2.2.2.2.2.2.2.2.2.2.2.2.2.2.trans (State.noteSeq_frame _ _ _ _ _).2.2.2.2.2.2.2.2.2.2.2.2.2.2.2.2.2.2.2.2)))))⟩

@[simp] theorem State.checkTag_frame (s : State) (o t : Nat) :
    (State.checkTag s o t).pending = s.pending ∧ (State.checkTag s o t).time = s.time ∧ (State.checkTag s o t).sets = s.sets ∧ (State.checkTag s o t).src = s.src ∧ (State.checkTag s o t).panelInit = s.panelInit ∧ (State.checkTag s o t).keys = s.keys ∧ (State.checkTag s o t).keyRef = s.keyRef ∧ (State.checkTag s o t).encJobs = s.encJobs ∧ (State.checkTag s o t).links = s.links ∧ (State.checkTag s o t).sec = s.sec ∧ (State.checkTag s o t).power = s.power ∧ (State.checkTag s o t).draw = s.draw := by
  simp [State.checkTag]

@[simp] theorem State.putEpisode_frame (s : State) (e : Episode) :
    (State.putEpisode s e).pending = s.pending ∧ (State.putEpisode s e).time = s.time ∧ (State.putEpisode s e).ledger = s.ledger ∧ (State.putEpisode s e).mail = s.mail ∧ (State.putEpisode s e).sets = s.sets ∧ (State.putEpisode s e).src = s.src ∧ (State.putEpisode s e).heads = s.heads ∧ (State.putEpisode s e).panels = s.panels ∧ (State.putEpisode s e).panelInit = s.panelInit ∧ (State.putEpisode s e).keys = s.keys ∧ (State.putEpisode s e).keyRef = s.keyRef ∧ (State.putEpisode s e).encJobs = s.encJobs ∧ (State.putEpisode s e).enc = s.enc ∧ (State.putEpisode s e).links = s.links ∧ (State.putEpisode s e).pair = s.pair ∧ (State.putEpisode s e).mem = s.mem ∧ (State.putEpisode s e).fault = s.fault ∧ (State.putEpisode s e).sec = s.sec ∧ (State.putEpisode s e).power = s.power ∧ (State.putEpisode s e).out = s.out ∧ (State.putEpisode s e).draw = s.draw := by
  simp [State.putEpisode]

@[simp] theorem State.voidBegin_frame (s : State) (o l reason : Nat) (age : Option Nat) (tEval : Nat) (old : Option Episode) :
    (State.voidBegin s o l reason age tEval old).pending = s.pending ∧ (State.voidBegin s o l reason age tEval old).time = s.time ∧ (State.voidBegin s o l reason age tEval old).mail = s.mail ∧ (State.voidBegin s o l reason age tEval old).sets = s.sets ∧ (State.voidBegin s o l reason age tEval old).src = s.src ∧ (State.voidBegin s o l reason age tEval old).heads = s.heads ∧ (State.voidBegin s o l reason age tEval old).panels = s.panels ∧ (State.voidBegin s o l reason age tEval old).panelInit = s.panelInit ∧ (State.voidBegin s o l reason age tEval old).keys = s.keys ∧ (State.voidBegin s o l reason age tEval old).keyRef = s.keyRef ∧ (State.voidBegin s o l reason age tEval old).encJobs = s.encJobs ∧ (State.voidBegin s o l reason age tEval old).enc = s.enc ∧ (State.voidBegin s o l reason age tEval old).links = s.links ∧ (State.voidBegin s o l reason age tEval old).pair = s.pair ∧ (State.voidBegin s o l reason age tEval old).mem = s.mem ∧ (State.voidBegin s o l reason age tEval old).fault = s.fault ∧ (State.voidBegin s o l reason age tEval old).sec = s.sec ∧ (State.voidBegin s o l reason age tEval old).power = s.power ∧ (State.voidBegin s o l reason age tEval old).out = s.out ∧ (State.voidBegin s o l reason age tEval old).draw = s.draw := by
  simp [State.voidBegin]

@[simp] theorem State.updateEpisode_frame (s : State) (o tEval l : Nat) :
    (State.updateEpisode s o tEval l).pending = s.pending ∧ (State.updateEpisode s o tEval l).time = s.time ∧ (State.updateEpisode s o tEval l).mail = s.mail ∧ (State.updateEpisode s o tEval l).sets = s.sets ∧ (State.updateEpisode s o tEval l).src = s.src ∧ (State.updateEpisode s o tEval l).heads = s.heads ∧ (State.updateEpisode s o tEval l).panels = s.panels ∧ (State.updateEpisode s o tEval l).panelInit = s.panelInit ∧ (State.updateEpisode s o tEval l).keys = s.keys ∧ (State.updateEpisode s o tEval l).keyRef = s.keyRef ∧ (State.updateEpisode s o tEval l).encJobs = s.encJobs ∧ (State.updateEpisode s o tEval l).enc = s.enc ∧ (State.updateEpisode s o tEval l).links = s.links ∧ (State.updateEpisode s o tEval l).pair = s.pair ∧ (State.updateEpisode s o tEval l).mem = s.mem ∧ (State.updateEpisode s o tEval l).fault = s.fault ∧ (State.updateEpisode s o tEval l).sec = s.sec ∧ (State.updateEpisode s o tEval l).power = s.power ∧ (State.updateEpisode s o tEval l).out = s.out ∧ (State.updateEpisode s o tEval l).draw = s.draw := by
  unfold State.updateEpisode; (try dsimp only); (repeat' split) <;> simp

@[simp] theorem State.proofStart_frame (s : State) (o count : Nat) :
    (State.proofStart s o count).pending = s.pending ∧ (State.proofStart s o count).time = s.time ∧ (State.proofStart s o count).ledger = s.ledger ∧ (State.proofStart s o count).mail = s.mail ∧ (State.proofStart s o count).sets = s.sets ∧ (State.proofStart s o count).src = s.src ∧ (State.proofStart s o count).heads = s.heads ∧ (State.proofStart s o count).panels = s.panels ∧ (State.proofStart s o count).panelInit = s.panelInit ∧ (State.proofStart s o count).keys = s.keys ∧ (State.proofStart s o count).keyRef = s.keyRef ∧ (State.proofStart s o count).encJobs = s.encJobs ∧ (State.proofStart s o count).enc = s.enc ∧ (State.proofStart s o count).links = s.links ∧ (State.proofStart s o count).pair = s.pair ∧ (State.proofStart s o count).mem = s.mem ∧ (State.proofStart s o count).fault = s.fault ∧ (State.proofStart s o count).sec = s.sec ∧ (State.proofStart s o count).power = s.power ∧ (State.proofStart s o count).out = s.out ∧ (State.proofStart s o count).draw = s.draw := by
  unfold State.proofStart; (try dsimp only); (repeat' split) <;> simp

@[simp] theorem State.renderRow_frame (s : State) (o row : Nat) :
    (State.renderRow s o row).pending = s.pending ∧ (State.renderRow s o row).time = s.time ∧ (State.renderRow s o row).ledger = s.ledger ∧ (State.renderRow s o row).mail = s.mail ∧ (State.renderRow s o row).sets = s.sets ∧ (State.renderRow s o row).src = s.src ∧ (State.renderRow s o row).comp = s.comp ∧ (State.renderRow s o row).heads = s.heads ∧ (State.renderRow s o row).panels = s.panels ∧ (State.renderRow s o row).panelInit = s.panelInit ∧ (State.renderRow s o row).keys = s.keys ∧ (State.renderRow s o row).keyRef = s.keyRef ∧ (State.renderRow s o row).encJobs = s.encJobs ∧ (State.renderRow s o row).enc = s.enc ∧ (State.renderRow s o row).links = s.links ∧ (State.renderRow s o row).pair = s.pair ∧ (State.renderRow s o row).mem = s.mem ∧ (State.renderRow s o row).fault = s.fault ∧ (State.renderRow s o row).sec = s.sec ∧ (State.renderRow s o row).power = s.power ∧ (State.renderRow s o row).draw = s.draw := by
  simp [State.renderRow]

@[simp] theorem State.sendVoids_frame (s : State) (o : Nat) (l : List VoidArea) :
    (State.sendVoids s o l).pending = s.pending ∧ (State.sendVoids s o l).time = s.time ∧ (State.sendVoids s o l).ledger = s.ledger ∧ (State.sendVoids s o l).mail = s.mail ∧ (State.sendVoids s o l).sets = s.sets ∧ (State.sendVoids s o l).src = s.src ∧ (State.sendVoids s o l).comp = s.comp ∧ (State.sendVoids s o l).heads = s.heads ∧ (State.sendVoids s o l).panels = s.panels ∧ (State.sendVoids s o l).panelInit = s.panelInit ∧ (State.sendVoids s o l).keys = s.keys ∧ (State.sendVoids s o l).keyRef = s.keyRef ∧ (State.sendVoids s o l).encJobs = s.encJobs ∧ (State.sendVoids s o l).enc = s.enc ∧ (State.sendVoids s o l).links = s.links ∧ (State.sendVoids s o l).pair = s.pair ∧ (State.sendVoids s o l).mem = s.mem ∧ (State.sendVoids s o l).fault = s.fault ∧ (State.sendVoids s o l).sec = s.sec ∧ (State.sendVoids s o l).power = s.power ∧ (State.sendVoids s o l).draw = s.draw := by
  simp [State.sendVoids]

@[simp] theorem State.sendLegends_frame (s : State) (o : Nat) (l : List Legend) :
    (State.sendLegends s o l).pending = s.pending ∧ (State.sendLegends s o l).time = s.time ∧ (State.sendLegends s o l).ledger = s.ledger ∧ (State.sendLegends s o l).mail = s.mail ∧ (State.sendLegends s o l).sets = s.sets ∧ (State.sendLegends s o l).src = s.src ∧ (State.sendLegends s o l).comp = s.comp ∧ (State.sendLegends s o l).heads = s.heads ∧ (State.sendLegends s o l).panels = s.panels ∧ (State.sendLegends s o l).panelInit = s.panelInit ∧ (State.sendLegends s o l).keys = s.keys ∧ (State.sendLegends s o l).keyRef = s.keyRef ∧ (State.sendLegends s o l).encJobs = s.encJobs ∧ (State.sendLegends s o l).enc = s.enc ∧ (State.sendLegends s o l).links = s.links ∧ (State.sendLegends s o l).pair = s.pair ∧ (State.sendLegends s o l).mem = s.mem ∧ (State.sendLegends s o l).fault = s.fault ∧ (State.sendLegends s o l).sec = s.sec ∧ (State.sendLegends s o l).power = s.power ∧ (State.sendLegends s o l).draw = s.draw := by
  simp [State.sendLegends]

@[simp] theorem State.writeBack_frame (s : State) (o : Nat) (recs : List (Nat × TileRec)) :
    (State.writeBack s o recs).pending = s.pending ∧ (State.writeBack s o recs).time = s.time ∧ (State.writeBack s o recs).ledger = s.ledger ∧ (State.writeBack s o recs).mail = s.mail ∧ (State.writeBack s o recs).sets = s.sets ∧ (State.writeBack s o recs).src = s.src ∧ (State.writeBack s o recs).heads = s.heads ∧ (State.writeBack s o recs).panels = s.panels ∧ (State.writeBack s o recs).panelInit = s.panelInit ∧ (State.writeBack s o recs).keys = s.keys ∧ (State.writeBack s o recs).keyRef = s.keyRef ∧ (State.writeBack s o recs).encJobs = s.encJobs ∧ (State.writeBack s o recs).enc = s.enc ∧ (State.writeBack s o recs).links = s.links ∧ (State.writeBack s o recs).pair = s.pair ∧ (State.writeBack s o recs).mem = s.mem ∧ (State.writeBack s o recs).fault = s.fault ∧ (State.writeBack s o recs).sec = s.sec ∧ (State.writeBack s o recs).power = s.power ∧ (State.writeBack s o recs).out = s.out ∧ (State.writeBack s o recs).draw = s.draw := by
  simp [State.writeBack]

@[simp] theorem State.evalRow_frame (s : State) (o row tEval : Nat) (emit : Bool) :
    (State.evalRow s o row tEval emit).pending = s.pending ∧ (State.evalRow s o row tEval emit).time = s.time ∧ (State.evalRow s o row tEval emit).sets = s.sets ∧ (State.evalRow s o row tEval emit).src = s.src ∧ (State.evalRow s o row tEval emit).panelInit = s.panelInit ∧ (State.evalRow s o row tEval emit).keys = s.keys ∧ (State.evalRow s o row tEval emit).keyRef = s.keyRef ∧ (State.evalRow s o row tEval emit).encJobs = s.encJobs ∧ (State.evalRow s o row tEval emit).links = s.links ∧ (State.evalRow s o row tEval emit).sec = s.sec ∧ (State.evalRow s o row tEval emit).power = s.power ∧ (State.evalRow s o row tEval emit).draw = s.draw := by
  simp [State.evalRow]

@[simp] theorem State.putLane_frame (s : State) (h : Nat) (x : LaneOut) :
    (State.putLane s h x).pending = s.pending ∧ (State.putLane s h x).time = s.time ∧ (State.putLane s h x).ledger = s.ledger ∧ (State.putLane s h x).mail = s.mail ∧ (State.putLane s h x).sets = s.sets ∧ (State.putLane s h x).src = s.src ∧ (State.putLane s h x).comp = s.comp ∧ (State.putLane s h x).panels = s.panels ∧ (State.putLane s h x).panelInit = s.panelInit ∧ (State.putLane s h x).keys = s.keys ∧ (State.putLane s h x).keyRef = s.keyRef ∧ (State.putLane s h x).encJobs = s.encJobs ∧ (State.putLane s h x).enc = s.enc ∧ (State.putLane s h x).links = s.links ∧ (State.putLane s h x).pair = s.pair ∧ (State.putLane s h x).mem = s.mem ∧ (State.putLane s h x).fault = s.fault ∧ (State.putLane s h x).sec = s.sec ∧ (State.putLane s h x).power = s.power ∧ (State.putLane s h x).out = s.out ∧ (State.putLane s h x).draw = s.draw := by
  simp [State.putLane]

@[simp] theorem State.keepCrc_frame (s : State) (h row : Nat) (x : LaneOut) :
    (State.keepCrc s h row x).pending = s.pending ∧ (State.keepCrc s h row x).time = s.time ∧ (State.keepCrc s h row x).ledger = s.ledger ∧ (State.keepCrc s h row x).mail = s.mail ∧ (State.keepCrc s h row x).sets = s.sets ∧ (State.keepCrc s h row x).src = s.src ∧ (State.keepCrc s h row x).comp = s.comp ∧ (State.keepCrc s h row x).panels = s.panels ∧ (State.keepCrc s h row x).panelInit = s.panelInit ∧ (State.keepCrc s h row x).keys = s.keys ∧ (State.keepCrc s h row x).keyRef = s.keyRef ∧ (State.keepCrc s h row x).encJobs = s.encJobs ∧ (State.keepCrc s h row x).enc = s.enc ∧ (State.keepCrc s h row x).links = s.links ∧ (State.keepCrc s h row x).pair = s.pair ∧ (State.keepCrc s h row x).mem = s.mem ∧ (State.keepCrc s h row x).fault = s.fault ∧ (State.keepCrc s h row x).sec = s.sec ∧ (State.keepCrc s h row x).power = s.power ∧ (State.keepCrc s h row x).out = s.out ∧ (State.keepCrc s h row x).draw = s.draw := by
  simp [State.keepCrc]

@[simp] theorem State.noteRegion_frame (s : State) (h k x0 : Nat) (codes : List Nat) :
    (State.noteRegion s h k x0 codes).pending = s.pending ∧ (State.noteRegion s h k x0 codes).time = s.time ∧ (State.noteRegion s h k x0 codes).ledger = s.ledger ∧ (State.noteRegion s h k x0 codes).mail = s.mail ∧ (State.noteRegion s h k x0 codes).sets = s.sets ∧ (State.noteRegion s h k x0 codes).src = s.src ∧ (State.noteRegion s h k x0 codes).heads = s.heads ∧ (State.noteRegion s h k x0 codes).panels = s.panels ∧ (State.noteRegion s h k x0 codes).panelInit = s.panelInit ∧ (State.noteRegion s h k x0 codes).keys = s.keys ∧ (State.noteRegion s h k x0 codes).keyRef = s.keyRef ∧ (State.noteRegion s h k x0 codes).encJobs = s.encJobs ∧ (State.noteRegion s h k x0 codes).enc = s.enc ∧ (State.noteRegion s h k x0 codes).links = s.links ∧ (State.noteRegion s h k x0 codes).pair = s.pair ∧ (State.noteRegion s h k x0 codes).mem = s.mem ∧ (State.noteRegion s h k x0 codes).fault = s.fault ∧ (State.noteRegion s h k x0 codes).sec = s.sec ∧ (State.noteRegion s h k x0 codes).power = s.power ∧ (State.noteRegion s h k x0 codes).out = s.out ∧ (State.noteRegion s h k x0 codes).draw = s.draw := by
  unfold State.noteRegion; (try dsimp only); (repeat' split) <;> simp

@[simp] theorem State.dropCapture_frame (s : State) (j o : Nat) :
    (State.dropCapture s j o).pending = s.pending ∧ (State.dropCapture s j o).time = s.time ∧ (State.dropCapture s j o).mail = s.mail ∧ (State.dropCapture s j o).sets = s.sets ∧ (State.dropCapture s j o).src = s.src ∧ (State.dropCapture s j o).comp = s.comp ∧ (State.dropCapture s j o).heads = s.heads ∧ (State.dropCapture s j o).panels = s.panels ∧ (State.dropCapture s j o).panelInit = s.panelInit ∧ (State.dropCapture s j o).keys = s.keys ∧ (State.dropCapture s j o).keyRef = s.keyRef ∧ (State.dropCapture s j o).encJobs = s.encJobs ∧ (State.dropCapture s j o).links = s.links ∧ (State.dropCapture s j o).pair = s.pair ∧ (State.dropCapture s j o).mem = s.mem ∧ (State.dropCapture s j o).fault = s.fault ∧ (State.dropCapture s j o).sec = s.sec ∧ (State.dropCapture s j o).power = s.power ∧ (State.dropCapture s j o).out = s.out ∧ (State.dropCapture s j o).draw = s.draw := by
  simp [State.dropCapture]

@[simp] theorem State.sampleJob_frame (s : State) (o j : Nat) :
    (State.sampleJob s o j).pending = s.pending ∧ (State.sampleJob s o j).time = s.time ∧ (State.sampleJob s o j).mail = s.mail ∧ (State.sampleJob s o j).sets = s.sets ∧ (State.sampleJob s o j).src = s.src ∧ (State.sampleJob s o j).comp = s.comp ∧ (State.sampleJob s o j).heads = s.heads ∧ (State.sampleJob s o j).panels = s.panels ∧ (State.sampleJob s o j).panelInit = s.panelInit ∧ (State.sampleJob s o j).keys = s.keys ∧ (State.sampleJob s o j).keyRef = s.keyRef ∧ (State.sampleJob s o j).encJobs = s.encJobs ∧ (State.sampleJob s o j).links = s.links ∧ (State.sampleJob s o j).pair = s.pair ∧ (State.sampleJob s o j).fault = s.fault ∧ (State.sampleJob s o j).sec = s.sec ∧ (State.sampleJob s o j).power = s.power ∧ (State.sampleJob s o j).out = s.out ∧ (State.sampleJob s o j).draw = s.draw := by
  simp [State.sampleJob]

@[simp] theorem State.sampleEncode_frame (s : State) (o : Nat) :
    (State.sampleEncode s o).pending = s.pending ∧ (State.sampleEncode s o).time = s.time ∧ (State.sampleEncode s o).mail = s.mail ∧ (State.sampleEncode s o).sets = s.sets ∧ (State.sampleEncode s o).src = s.src ∧ (State.sampleEncode s o).comp = s.comp ∧ (State.sampleEncode s o).heads = s.heads ∧ (State.sampleEncode s o).panels = s.panels ∧ (State.sampleEncode s o).panelInit = s.panelInit ∧ (State.sampleEncode s o).keys = s.keys ∧ (State.sampleEncode s o).keyRef = s.keyRef ∧ (State.sampleEncode s o).encJobs = s.encJobs ∧ (State.sampleEncode s o).links = s.links ∧ (State.sampleEncode s o).pair = s.pair ∧ (State.sampleEncode s o).fault = s.fault ∧ (State.sampleEncode s o).sec = s.sec ∧ (State.sampleEncode s o).power = s.power ∧ (State.sampleEncode s o).out = s.out ∧ (State.sampleEncode s o).draw = s.draw := by
  simp [State.sampleEncode]

@[simp] theorem State.sendFrameStart_frame (s : State) (h : Nat) :
    (State.sendFrameStart s h).pending = s.pending ∧ (State.sendFrameStart s h).time = s.time ∧ (State.sendFrameStart s h).ledger = s.ledger ∧ (State.sendFrameStart s h).mail = s.mail ∧ (State.sendFrameStart s h).sets = s.sets ∧ (State.sendFrameStart s h).src = s.src ∧ (State.sendFrameStart s h).comp = s.comp ∧ (State.sendFrameStart s h).heads = s.heads ∧ (State.sendFrameStart s h).panels = s.panels ∧ (State.sendFrameStart s h).panelInit = s.panelInit ∧ (State.sendFrameStart s h).keys = s.keys ∧ (State.sendFrameStart s h).keyRef = s.keyRef ∧ (State.sendFrameStart s h).encJobs = s.encJobs ∧ (State.sendFrameStart s h).enc = s.enc ∧ (State.sendFrameStart s h).links = s.links ∧ (State.sendFrameStart s h).pair = s.pair ∧ (State.sendFrameStart s h).mem = s.mem ∧ (State.sendFrameStart s h).fault = s.fault ∧ (State.sendFrameStart s h).sec = s.sec ∧ (State.sendFrameStart s h).power = s.power ∧ (State.sendFrameStart s h).draw = s.draw := by
  simp [State.sendFrameStart]

@[simp] theorem State.sendLaneLine_frame (s : State) (h k : Nat) (e : Nat × Bool × Nat × Nat) :
    (State.sendLaneLine s h k e).pending = s.pending ∧ (State.sendLaneLine s h k e).time = s.time ∧ (State.sendLaneLine s h k e).ledger = s.ledger ∧ (State.sendLaneLine s h k e).mail = s.mail ∧ (State.sendLaneLine s h k e).sets = s.sets ∧ (State.sendLaneLine s h k e).src = s.src ∧ (State.sendLaneLine s h k e).panels = s.panels ∧ (State.sendLaneLine s h k e).panelInit = s.panelInit ∧ (State.sendLaneLine s h k e).keys = s.keys ∧ (State.sendLaneLine s h k e).keyRef = s.keyRef ∧ (State.sendLaneLine s h k e).encJobs = s.encJobs ∧ (State.sendLaneLine s h k e).enc = s.enc ∧ (State.sendLaneLine s h k e).links = s.links ∧ (State.sendLaneLine s h k e).pair = s.pair ∧ (State.sendLaneLine s h k e).mem = s.mem ∧ (State.sendLaneLine s h k e).fault = s.fault ∧ (State.sendLaneLine s h k e).sec = s.sec ∧ (State.sendLaneLine s h k e).power = s.power ∧ (State.sendLaneLine s h k e).draw = s.draw := by
  simp [State.sendLaneLine]

@[simp] theorem State.sendLine_frame (s : State) (h k : Nat) :
    (State.sendLine s h k).pending = s.pending ∧ (State.sendLine s h k).time = s.time ∧ (State.sendLine s h k).ledger = s.ledger ∧ (State.sendLine s h k).mail = s.mail ∧ (State.sendLine s h k).sets = s.sets ∧ (State.sendLine s h k).src = s.src ∧ (State.sendLine s h k).panels = s.panels ∧ (State.sendLine s h k).panelInit = s.panelInit ∧ (State.sendLine s h k).keys = s.keys ∧ (State.sendLine s h k).keyRef = s.keyRef ∧ (State.sendLine s h k).encJobs = s.encJobs ∧ (State.sendLine s h k).enc = s.enc ∧ (State.sendLine s h k).links = s.links ∧ (State.sendLine s h k).pair = s.pair ∧ (State.sendLine s h k).mem = s.mem ∧ (State.sendLine s h k).fault = s.fault ∧ (State.sendLine s h k).sec = s.sec ∧ (State.sendLine s h k).power = s.power ∧ (State.sendLine s h k).draw = s.draw := by
  simp [State.sendLine]

@[simp] theorem State.sendRasterInfo_frame (s : State) (h : Nat) :
    (State.sendRasterInfo s h).pending = s.pending ∧ (State.sendRasterInfo s h).time = s.time ∧ (State.sendRasterInfo s h).ledger = s.ledger ∧ (State.sendRasterInfo s h).mail = s.mail ∧ (State.sendRasterInfo s h).sets = s.sets ∧ (State.sendRasterInfo s h).src = s.src ∧ (State.sendRasterInfo s h).comp = s.comp ∧ (State.sendRasterInfo s h).heads = s.heads ∧ (State.sendRasterInfo s h).panels = s.panels ∧ (State.sendRasterInfo s h).panelInit = s.panelInit ∧ (State.sendRasterInfo s h).keys = s.keys ∧ (State.sendRasterInfo s h).keyRef = s.keyRef ∧ (State.sendRasterInfo s h).encJobs = s.encJobs ∧ (State.sendRasterInfo s h).enc = s.enc ∧ (State.sendRasterInfo s h).links = s.links ∧ (State.sendRasterInfo s h).pair = s.pair ∧ (State.sendRasterInfo s h).mem = s.mem ∧ (State.sendRasterInfo s h).fault = s.fault ∧ (State.sendRasterInfo s h).sec = s.sec ∧ (State.sendRasterInfo s h).power = s.power ∧ (State.sendRasterInfo s h).draw = s.draw := by
  simp [State.sendRasterInfo]

@[simp] theorem State.frameMismatched_frame (s : State) (h : Nat) (k : KeptRow) :
    (State.frameMismatched s h k).pending = s.pending ∧ (State.frameMismatched s h k).time = s.time ∧ (State.frameMismatched s h k).sets = s.sets ∧ (State.frameMismatched s h k).src = s.src ∧ (State.frameMismatched s h k).panelInit = s.panelInit ∧ (State.frameMismatched s h k).keys = s.keys ∧ (State.frameMismatched s h k).keyRef = s.keyRef ∧ (State.frameMismatched s h k).encJobs = s.encJobs ∧ (State.frameMismatched s h k).links = s.links ∧ (State.frameMismatched s h k).sec = s.sec ∧ (State.frameMismatched s h k).power = s.power ∧ (State.frameMismatched s h k).draw = s.draw := by
  simp [State.frameMismatched]

@[simp] theorem State.frameMatched_frame (s : State) (h frame : Nat) :
    (State.frameMatched s h frame).pending = s.pending ∧ (State.frameMatched s h frame).time = s.time ∧ (State.frameMatched s h frame).sets = s.sets ∧ (State.frameMatched s h frame).src = s.src ∧ (State.frameMatched s h frame).panelInit = s.panelInit ∧ (State.frameMatched s h frame).keys = s.keys ∧ (State.frameMatched s h frame).keyRef = s.keyRef ∧ (State.frameMatched s h frame).encJobs = s.encJobs ∧ (State.frameMatched s h frame).links = s.links ∧ (State.frameMatched s h frame).sec = s.sec ∧ (State.frameMatched s h frame).power = s.power ∧ (State.frameMatched s h frame).draw = s.draw := by
  simp [State.frameMatched]

@[simp] theorem State.decideFrame_frame (s : State) (h frame : Nat) :
    (State.decideFrame s h frame).pending = s.pending ∧ (State.decideFrame s h frame).time = s.time ∧ (State.decideFrame s h frame).sets = s.sets ∧ (State.decideFrame s h frame).src = s.src ∧ (State.decideFrame s h frame).panelInit = s.panelInit ∧ (State.decideFrame s h frame).keys = s.keys ∧ (State.decideFrame s h frame).keyRef = s.keyRef ∧ (State.decideFrame s h frame).encJobs = s.encJobs ∧ (State.decideFrame s h frame).links = s.links ∧ (State.decideFrame s h frame).sec = s.sec ∧ (State.decideFrame s h frame).power = s.power ∧ (State.decideFrame s h frame).draw = s.draw := by
  unfold State.decideFrame; (try dsimp only); (repeat' split) <;> simp

@[simp] theorem State.decideFrames_frame (s : State) (h : Nat) :
    (State.decideFrames s h).pending = s.pending ∧ (State.decideFrames s h).time = s.time ∧ (State.decideFrames s h).sets = s.sets ∧ (State.decideFrames s h).src = s.src ∧ (State.decideFrames s h).panelInit = s.panelInit ∧ (State.decideFrames s h).keys = s.keys ∧ (State.decideFrames s h).keyRef = s.keyRef ∧ (State.decideFrames s h).encJobs = s.encJobs ∧ (State.decideFrames s h).links = s.links ∧ (State.decideFrames s h).sec = s.sec ∧ (State.decideFrames s h).power = s.power ∧ (State.decideFrames s h).draw = s.draw := by
  simp [State.decideFrames]

@[simp] theorem State.proofCheck_frame (s : State) (h : Nat) (late : Bool) :
    (State.proofCheck s h late).pending = s.pending ∧ (State.proofCheck s h late).time = s.time ∧ (State.proofCheck s h late).sets = s.sets ∧ (State.proofCheck s h late).src = s.src ∧ (State.proofCheck s h late).heads = s.heads ∧ (State.proofCheck s h late).panels = s.panels ∧ (State.proofCheck s h late).panelInit = s.panelInit ∧ (State.proofCheck s h late).keys = s.keys ∧ (State.proofCheck s h late).keyRef = s.keyRef ∧ (State.proofCheck s h late).encJobs = s.encJobs ∧ (State.proofCheck s h late).enc = s.enc ∧ (State.proofCheck s h late).links = s.links ∧ (State.proofCheck s h late).pair = s.pair ∧ (State.proofCheck s h late).mem = s.mem ∧ (State.proofCheck s h late).fault = s.fault ∧ (State.proofCheck s h late).sec = s.sec ∧ (State.proofCheck s h late).power = s.power ∧ (State.proofCheck s h late).draw = s.draw := by
  unfold State.proofCheck; (try dsimp only); (repeat' split) <;> simp

@[simp] theorem State.proofLost_frame (s : State) (h : Nat) :
    (State.proofLost s h).pending = s.pending ∧ (State.proofLost s h).time = s.time ∧ (State.proofLost s h).sets = s.sets ∧ (State.proofLost s h).src = s.src ∧ (State.proofLost s h).heads = s.heads ∧ (State.proofLost s h).panels = s.panels ∧ (State.proofLost s h).panelInit = s.panelInit ∧ (State.proofLost s h).keys = s.keys ∧ (State.proofLost s h).keyRef = s.keyRef ∧ (State.proofLost s h).encJobs = s.encJobs ∧ (State.proofLost s h).enc = s.enc ∧ (State.proofLost s h).links = s.links ∧ (State.proofLost s h).pair = s.pair ∧ (State.proofLost s h).mem = s.mem ∧ (State.proofLost s h).fault = s.fault ∧ (State.proofLost s h).sec = s.sec ∧ (State.proofLost s h).power = s.power ∧ (State.proofLost s h).draw = s.draw := by
  simp [State.proofLost]

@[simp] theorem State.echoesDue_frame (s : State) (h n : Nat) :
    (State.echoesDue s h n).pending = s.pending ∧ (State.echoesDue s h n).time = s.time ∧ (State.echoesDue s h n).sets = s.sets ∧ (State.echoesDue s h n).src = s.src ∧ (State.echoesDue s h n).panelInit = s.panelInit ∧ (State.echoesDue s h n).keys = s.keys ∧ (State.echoesDue s h n).keyRef = s.keyRef ∧ (State.echoesDue s h n).encJobs = s.encJobs ∧ (State.echoesDue s h n).links = s.links ∧ (State.echoesDue s h n).sec = s.sec ∧ (State.echoesDue s h n).power = s.power ∧ (State.echoesDue s h n).draw = s.draw := by
  unfold State.echoesDue; (try dsimp only); (repeat' split) <;> simp

@[simp] theorem State.discardEcho_frame (s : State) (h : Nat) :
    (State.discardEcho s h).pending = s.pending ∧ (State.discardEcho s h).time = s.time ∧ (State.discardEcho s h).ledger = s.ledger ∧ (State.discardEcho s h).mail = s.mail ∧ (State.discardEcho s h).sets = s.sets ∧ (State.discardEcho s h).src = s.src ∧ (State.discardEcho s h).comp = s.comp ∧ (State.discardEcho s h).panels = s.panels ∧ (State.discardEcho s h).panelInit = s.panelInit ∧ (State.discardEcho s h).keys = s.keys ∧ (State.discardEcho s h).keyRef = s.keyRef ∧ (State.discardEcho s h).encJobs = s.encJobs ∧ (State.discardEcho s h).enc = s.enc ∧ (State.discardEcho s h).links = s.links ∧ (State.discardEcho s h).pair = s.pair ∧ (State.discardEcho s h).mem = s.mem ∧ (State.discardEcho s h).fault = s.fault ∧ (State.discardEcho s h).sec = s.sec ∧ (State.discardEcho s h).power = s.power ∧ (State.discardEcho s h).out = s.out ∧ (State.discardEcho s h).draw = s.draw := by
  simp [State.discardEcho]

@[simp] theorem State.decideRow_frame (s : State) (h : Nat) (k : KeptRow) (ok : Bool) (cause : Nat) :
    (State.decideRow s h k ok cause).pending = s.pending ∧ (State.decideRow s h k ok cause).time = s.time ∧ (State.decideRow s h k ok cause).sets = s.sets ∧ (State.decideRow s h k ok cause).src = s.src ∧ (State.decideRow s h k ok cause).panelInit = s.panelInit ∧ (State.decideRow s h k ok cause).keys = s.keys ∧ (State.decideRow s h k ok cause).keyRef = s.keyRef ∧ (State.decideRow s h k ok cause).encJobs = s.encJobs ∧ (State.decideRow s h k ok cause).links = s.links ∧ (State.decideRow s h k ok cause).sec = s.sec ∧ (State.decideRow s h k ok cause).power = s.power ∧ (State.decideRow s h k ok cause).draw = s.draw := by
  simp [State.decideRow]

@[simp] theorem State.unknownBlock_frame (s : State) (l : Nat) :
    (State.unknownBlock s l).pending = s.pending ∧ (State.unknownBlock s l).time = s.time ∧ (State.unknownBlock s l).ledger = s.ledger ∧ (State.unknownBlock s l).mail = s.mail ∧ (State.unknownBlock s l).sets = s.sets ∧ (State.unknownBlock s l).src = s.src ∧ (State.unknownBlock s l).comp = s.comp ∧ (State.unknownBlock s l).heads = s.heads ∧ (State.unknownBlock s l).panels = s.panels ∧ (State.unknownBlock s l).panelInit = s.panelInit ∧ (State.unknownBlock s l).keys = s.keys ∧ (State.unknownBlock s l).keyRef = s.keyRef ∧ (State.unknownBlock s l).encJobs = s.encJobs ∧ (State.unknownBlock s l).enc = s.enc ∧ (State.unknownBlock s l).pair = s.pair ∧ (State.unknownBlock s l).mem = s.mem ∧ (State.unknownBlock s l).fault = s.fault ∧ (State.unknownBlock s l).sec = s.sec ∧ (State.unknownBlock s l).power = s.power ∧ (State.unknownBlock s l).out = s.out ∧ (State.unknownBlock s l).draw = s.draw := by
  simp [State.unknownBlock]

@[simp] theorem State.effectHere_frame (s : State) (o frame : Nat) :
    (State.effectHere s o frame).pending = s.pending ∧ (State.effectHere s o frame).time = s.time ∧ (State.effectHere s o frame).src = s.src ∧ (State.effectHere s o frame).heads = s.heads ∧ (State.effectHere s o frame).panels = s.panels ∧ (State.effectHere s o frame).panelInit = s.panelInit ∧ (State.effectHere s o frame).keys = s.keys ∧ (State.effectHere s o frame).keyRef = s.keyRef ∧ (State.effectHere s o frame).encJobs = s.encJobs ∧ (State.effectHere s o frame).enc = s.enc ∧ (State.effectHere s o frame).pair = s.pair ∧ (State.effectHere s o frame).mem = s.mem ∧ (State.effectHere s o frame).fault = s.fault ∧ (State.effectHere s o frame).sec = s.sec ∧ (State.effectHere s o frame).power = s.power ∧ (State.effectHere s o frame).draw = s.draw := by
  simp [State.effectHere]

@[simp] theorem State.stopAtFrame_frame (s : State) (h reason : Nat) :
    (State.stopAtFrame s h reason).pending = s.pending ∧ (State.stopAtFrame s h reason).time = s.time ∧ (State.stopAtFrame s h reason).src = s.src ∧ (State.stopAtFrame s h reason).panels = s.panels ∧ (State.stopAtFrame s h reason).panelInit = s.panelInit ∧ (State.stopAtFrame s h reason).keys = s.keys ∧ (State.stopAtFrame s h reason).keyRef = s.keyRef ∧ (State.stopAtFrame s h reason).encJobs = s.encJobs ∧ (State.stopAtFrame s h reason).enc = s.enc ∧ (State.stopAtFrame s h reason).pair = s.pair ∧ (State.stopAtFrame s h reason).fault = s.fault ∧ (State.stopAtFrame s h reason).sec = s.sec ∧ (State.stopAtFrame s h reason).power = s.power ∧ (State.stopAtFrame s h reason).draw = s.draw := by
  simp [State.stopAtFrame]

@[simp] theorem State.beginFrame_frame (s : State) (h : Nat) :
    (State.beginFrame s h).pending = s.pending ∧ (State.beginFrame s h).time = s.time ∧ (State.beginFrame s h).src = s.src ∧ (State.beginFrame s h).heads = s.heads ∧ (State.beginFrame s h).panels = s.panels ∧ (State.beginFrame s h).panelInit = s.panelInit ∧ (State.beginFrame s h).keys = s.keys ∧ (State.beginFrame s h).keyRef = s.keyRef ∧ (State.beginFrame s h).encJobs = s.encJobs ∧ (State.beginFrame s h).pair = s.pair ∧ (State.beginFrame s h).fault = s.fault ∧ (State.beginFrame s h).sec = s.sec ∧ (State.beginFrame s h).power = s.power ∧ (State.beginFrame s h).draw = s.draw := by
  simp [State.beginFrame]

@[simp] theorem State.nextFrame_frame (s : State) (h : Nat) :
    (State.nextFrame s h).pending = s.pending ∧ (State.nextFrame s h).time = s.time ∧ (State.nextFrame s h).src = s.src ∧ (State.nextFrame s h).panelInit = s.panelInit ∧ (State.nextFrame s h).keys = s.keys ∧ (State.nextFrame s h).keyRef = s.keyRef ∧ (State.nextFrame s h).encJobs = s.encJobs ∧ (State.nextFrame s h).sec = s.sec ∧ (State.nextFrame s h).power = s.power ∧ (State.nextFrame s h).draw = s.draw := by
  simp [State.nextFrame]

@[simp] theorem State.startScanning_frame (s : State) (h : Nat) :
    (State.startScanning s h).pending = s.pending ∧ (State.startScanning s h).time = s.time ∧ (State.startScanning s h).src = s.src ∧ (State.startScanning s h).panelInit = s.panelInit ∧ (State.startScanning s h).keys = s.keys ∧ (State.startScanning s h).keyRef = s.keyRef ∧ (State.startScanning s h).encJobs = s.encJobs ∧ (State.startScanning s h).sec = s.sec ∧ (State.startScanning s h).power = s.power ∧ (State.startScanning s h).draw = s.draw := by
  simp [State.startScanning]

@[simp] theorem State.beginRow_frame (s : State) (h row : Nat) :
    (State.beginRow s h row).pending = s.pending ∧ (State.beginRow s h row).time = s.time ∧ (State.beginRow s h row).sets = s.sets ∧ (State.beginRow s h row).src = s.src ∧ (State.beginRow s h row).panelInit = s.panelInit ∧ (State.beginRow s h row).keys = s.keys ∧ (State.beginRow s h row).keyRef = s.keyRef ∧ (State.beginRow s h row).encJobs = s.encJobs ∧ (State.beginRow s h row).links = s.links ∧ (State.beginRow s h row).sec = s.sec ∧ (State.beginRow s h row).power = s.power ∧ (State.beginRow s h row).draw = s.draw := by
  simp [State.beginRow]

@[simp] theorem State.endActive_frame (s : State) (h : Nat) :
    (State.endActive s h).pending = s.pending ∧ (State.endActive s h).time = s.time ∧ (State.endActive s h).sets = s.sets ∧ (State.endActive s h).src = s.src ∧ (State.endActive s h).heads = s.heads ∧ (State.endActive s h).panels = s.panels ∧ (State.endActive s h).panelInit = s.panelInit ∧ (State.endActive s h).keys = s.keys ∧ (State.endActive s h).keyRef = s.keyRef ∧ (State.endActive s h).encJobs = s.encJobs ∧ (State.endActive s h).enc = s.enc ∧ (State.endActive s h).links = s.links ∧ (State.endActive s h).pair = s.pair ∧ (State.endActive s h).mem = s.mem ∧ (State.endActive s h).fault = s.fault ∧ (State.endActive s h).sec = s.sec ∧ (State.endActive s h).power = s.power ∧ (State.endActive s h).draw = s.draw := by
  unfold State.endActive; (try dsimp only); (repeat' split) <;> simp

@[simp] theorem State.lineStarts_frame (s : State) (h k : Nat) :
    (State.lineStarts s h k).pending = s.pending ∧ (State.lineStarts s h k).time = s.time ∧ (State.lineStarts s h k).sets = s.sets ∧ (State.lineStarts s h k).src = s.src ∧ (State.lineStarts s h k).panelInit = s.panelInit ∧ (State.lineStarts s h k).keys = s.keys ∧ (State.lineStarts s h k).keyRef = s.keyRef ∧ (State.lineStarts s h k).encJobs = s.encJobs ∧ (State.lineStarts s h k).links = s.links ∧ (State.lineStarts s h k).sec = s.sec ∧ (State.lineStarts s h k).power = s.power ∧ (State.lineStarts s h k).draw = s.draw := by
  simp [State.lineStarts]

@[simp] theorem State.upperFilled_frame (s : State) (h fill : Nat) :
    (State.upperFilled s h fill).pending = s.pending ∧ (State.upperFilled s h fill).time = s.time ∧ (State.upperFilled s h fill).ledger = s.ledger ∧ (State.upperFilled s h fill).mail = s.mail ∧ (State.upperFilled s h fill).sets = s.sets ∧ (State.upperFilled s h fill).src = s.src ∧ (State.upperFilled s h fill).comp = s.comp ∧ (State.upperFilled s h fill).panels = s.panels ∧ (State.upperFilled s h fill).panelInit = s.panelInit ∧ (State.upperFilled s h fill).keys = s.keys ∧ (State.upperFilled s h fill).keyRef = s.keyRef ∧ (State.upperFilled s h fill).encJobs = s.encJobs ∧ (State.upperFilled s h fill).enc = s.enc ∧ (State.upperFilled s h fill).links = s.links ∧ (State.upperFilled s h fill).pair = s.pair ∧ (State.upperFilled s h fill).mem = s.mem ∧ (State.upperFilled s h fill).fault = s.fault ∧ (State.upperFilled s h fill).sec = s.sec ∧ (State.upperFilled s h fill).power = s.power ∧ (State.upperFilled s h fill).out = s.out ∧ (State.upperFilled s h fill).draw = s.draw := by
  simp [State.upperFilled]

@[simp] theorem State.hatchRest_frame (s : State) (h k : Nat) (upper : Bool) (x0 pixel : Nat) :
    (State.hatchRest s h k upper x0 pixel).pending = s.pending ∧ (State.hatchRest s h k upper x0 pixel).time = s.time ∧ (State.hatchRest s h k upper x0 pixel).ledger = s.ledger ∧ (State.hatchRest s h k upper x0 pixel).mail = s.mail ∧ (State.hatchRest s h k upper x0 pixel).sets = s.sets ∧ (State.hatchRest s h k upper x0 pixel).src = s.src ∧ (State.hatchRest s h k upper x0 pixel).panels = s.panels ∧ (State.hatchRest s h k upper x0 pixel).panelInit = s.panelInit ∧ (State.hatchRest s h k upper x0 pixel).keys = s.keys ∧ (State.hatchRest s h k upper x0 pixel).keyRef = s.keyRef ∧ (State.hatchRest s h k upper x0 pixel).encJobs = s.encJobs ∧ (State.hatchRest s h k upper x0 pixel).enc = s.enc ∧ (State.hatchRest s h k upper x0 pixel).links = s.links ∧ (State.hatchRest s h k upper x0 pixel).pair = s.pair ∧ (State.hatchRest s h k upper x0 pixel).mem = s.mem ∧ (State.hatchRest s h k upper x0 pixel).fault = s.fault ∧ (State.hatchRest s h k upper x0 pixel).sec = s.sec ∧ (State.hatchRest s h k upper x0 pixel).power = s.power ∧ (State.hatchRest s h k upper x0 pixel).out = s.out ∧ (State.hatchRest s h k upper x0 pixel).draw = s.draw := by
  unfold State.hatchRest; (try dsimp only); (repeat' split) <;> simp

@[simp] theorem State.underrun_frame (s : State) (h k : Nat) (upper : Bool) (first cols pixel : Nat) :
    (State.underrun s h k upper first cols pixel).pending = s.pending ∧ (State.underrun s h k upper first cols pixel).time = s.time ∧ (State.underrun s h k upper first cols pixel).sets = s.sets ∧ (State.underrun s h k upper first cols pixel).src = s.src ∧ (State.underrun s h k upper first cols pixel).panelInit = s.panelInit ∧ (State.underrun s h k upper first cols pixel).keys = s.keys ∧ (State.underrun s h k upper first cols pixel).keyRef = s.keyRef ∧ (State.underrun s h k upper first cols pixel).encJobs = s.encJobs ∧ (State.underrun s h k upper first cols pixel).links = s.links ∧ (State.underrun s h k upper first cols pixel).sec = s.sec ∧ (State.underrun s h k upper first cols pixel).power = s.power ∧ (State.underrun s h k upper first cols pixel).draw = s.draw := by
  unfold State.underrun; (try dsimp only); (repeat' split) <;> simp

@[simp] theorem State.tileMismatch_frame (s : State) (o t count : Nat) :
    (State.tileMismatch s o t count).pending = s.pending ∧ (State.tileMismatch s o t count).time = s.time ∧ (State.tileMismatch s o t count).sets = s.sets ∧ (State.tileMismatch s o t count).src = s.src ∧ (State.tileMismatch s o t count).panelInit = s.panelInit ∧ (State.tileMismatch s o t count).keys = s.keys ∧ (State.tileMismatch s o t count).keyRef = s.keyRef ∧ (State.tileMismatch s o t count).encJobs = s.encJobs ∧ (State.tileMismatch s o t count).links = s.links ∧ (State.tileMismatch s o t count).sec = s.sec ∧ (State.tileMismatch s o t count).power = s.power ∧ (State.tileMismatch s o t count).draw = s.draw := by
  simp [State.tileMismatch]

@[simp] theorem State.crcMismatch_frame (s : State) (h t : Nat) :
    (State.crcMismatch s h t).pending = s.pending ∧ (State.crcMismatch s h t).time = s.time ∧ (State.crcMismatch s h t).sets = s.sets ∧ (State.crcMismatch s h t).src = s.src ∧ (State.crcMismatch s h t).panelInit = s.panelInit ∧ (State.crcMismatch s h t).keys = s.keys ∧ (State.crcMismatch s h t).keyRef = s.keyRef ∧ (State.crcMismatch s h t).encJobs = s.encJobs ∧ (State.crcMismatch s h t).links = s.links ∧ (State.crcMismatch s h t).sec = s.sec ∧ (State.crcMismatch s h t).power = s.power ∧ (State.crcMismatch s h t).draw = s.draw := by
  simp [State.crcMismatch]

@[simp] theorem State.readOutput_frame (s : State) (o : Nat) :
    (State.readOutput s o).pending = s.pending ∧ (State.readOutput s o).time = s.time ∧ (State.readOutput s o).ledger = s.ledger ∧ (State.readOutput s o).mail = s.mail ∧ (State.readOutput s o).sets = s.sets ∧ (State.readOutput s o).src = s.src ∧ (State.readOutput s o).comp = s.comp ∧ (State.readOutput s o).panelInit = s.panelInit ∧ (State.readOutput s o).keys = s.keys ∧ (State.readOutput s o).keyRef = s.keyRef ∧ (State.readOutput s o).encJobs = s.encJobs ∧ (State.readOutput s o).enc = s.enc ∧ (State.readOutput s o).links = s.links ∧ (State.readOutput s o).pair = s.pair ∧ (State.readOutput s o).mem = s.mem ∧ (State.readOutput s o).fault = s.fault ∧ (State.readOutput s o).sec = s.sec ∧ (State.readOutput s o).power = s.power ∧ (State.readOutput s o).out = s.out ∧ (State.readOutput s o).draw = s.draw := by
  simp [State.readOutput]

@[simp] theorem State.lightPanel_frame (s : State) (p : Nat) :
    (State.lightPanel s p).pending = s.pending ∧ (State.lightPanel s p).time = s.time ∧ (State.lightPanel s p).mail = s.mail ∧ (State.lightPanel s p).sets = s.sets ∧ (State.lightPanel s p).src = s.src ∧ (State.lightPanel s p).comp = s.comp ∧ (State.lightPanel s p).heads = s.heads ∧ (State.lightPanel s p).panelInit = s.panelInit ∧ (State.lightPanel s p).keys = s.keys ∧ (State.lightPanel s p).keyRef = s.keyRef ∧ (State.lightPanel s p).encJobs = s.encJobs ∧ (State.lightPanel s p).enc = s.enc ∧ (State.lightPanel s p).links = s.links ∧ (State.lightPanel s p).pair = s.pair ∧ (State.lightPanel s p).mem = s.mem ∧ (State.lightPanel s p).fault = s.fault ∧ (State.lightPanel s p).sec = s.sec ∧ (State.lightPanel s p).power = s.power ∧ (State.lightPanel s p).out = s.out ∧ (State.lightPanel s p).draw = s.draw := by
  unfold State.lightPanel; (try dsimp only); (repeat' split) <;> simp

@[simp] theorem State.darkenPanel_frame (s : State) (p cause : Nat) :
    (State.darkenPanel s p cause).pending = s.pending ∧ (State.darkenPanel s p cause).time = s.time ∧ (State.darkenPanel s p cause).mail = s.mail ∧ (State.darkenPanel s p cause).sets = s.sets ∧ (State.darkenPanel s p cause).src = s.src ∧ (State.darkenPanel s p cause).comp = s.comp ∧ (State.darkenPanel s p cause).heads = s.heads ∧ (State.darkenPanel s p cause).panelInit = s.panelInit ∧ (State.darkenPanel s p cause).keys = s.keys ∧ (State.darkenPanel s p cause).keyRef = s.keyRef ∧ (State.darkenPanel s p cause).encJobs = s.encJobs ∧ (State.darkenPanel s p cause).enc = s.enc ∧ (State.darkenPanel s p cause).links = s.links ∧ (State.darkenPanel s p cause).pair = s.pair ∧ (State.darkenPanel s p cause).mem = s.mem ∧ (State.darkenPanel s p cause).fault = s.fault ∧ (State.darkenPanel s p cause).sec = s.sec ∧ (State.darkenPanel s p cause).power = s.power ∧ (State.darkenPanel s p cause).out = s.out ∧ (State.darkenPanel s p cause).draw = s.draw := by
  simp [State.darkenPanel]

@[simp] theorem State.fullCompleted_frame (s : State) (p : Nat) (rendered : Bool) :
    (State.fullCompleted s p rendered).pending = s.pending ∧ (State.fullCompleted s p rendered).time = s.time ∧ (State.fullCompleted s p rendered).sets = s.sets ∧ (State.fullCompleted s p rendered).src = s.src ∧ (State.fullCompleted s p rendered).panelInit = s.panelInit ∧ (State.fullCompleted s p rendered).keys = s.keys ∧ (State.fullCompleted s p rendered).keyRef = s.keyRef ∧ (State.fullCompleted s p rendered).encJobs = s.encJobs ∧ (State.fullCompleted s p rendered).links = s.links ∧ (State.fullCompleted s p rendered).sec = s.sec ∧ (State.fullCompleted s p rendered).power = s.power ∧ (State.fullCompleted s p rendered).draw = s.draw := by
  unfold State.fullCompleted; (try dsimp only); (repeat' split) <;> simp

@[simp] theorem State.proofPushed_frame (s : State) (p : Nat) (region : Option (Nat × Nat)) :
    (State.proofPushed s p region).pending = s.pending ∧ (State.proofPushed s p region).time = s.time ∧ (State.proofPushed s p region).sets = s.sets ∧ (State.proofPushed s p region).src = s.src ∧ (State.proofPushed s p region).heads = s.heads ∧ (State.proofPushed s p region).panels = s.panels ∧ (State.proofPushed s p region).panelInit = s.panelInit ∧ (State.proofPushed s p region).keys = s.keys ∧ (State.proofPushed s p region).keyRef = s.keyRef ∧ (State.proofPushed s p region).encJobs = s.encJobs ∧ (State.proofPushed s p region).enc = s.enc ∧ (State.proofPushed s p region).links = s.links ∧ (State.proofPushed s p region).pair = s.pair ∧ (State.proofPushed s p region).mem = s.mem ∧ (State.proofPushed s p region).fault = s.fault ∧ (State.proofPushed s p region).sec = s.sec ∧ (State.proofPushed s p region).power = s.power ∧ (State.proofPushed s p region).draw = s.draw := by
  unfold State.proofPushed; (try dsimp only); (repeat' split) <;> simp

@[simp] theorem State.pushCompleted_frame (s : State) (p : Nat) :
    (State.pushCompleted s p).pending = s.pending ∧ (State.pushCompleted s p).time = s.time ∧ (State.pushCompleted s p).sets = s.sets ∧ (State.pushCompleted s p).src = s.src ∧ (State.pushCompleted s p).panelInit = s.panelInit ∧ (State.pushCompleted s p).keys = s.keys ∧ (State.pushCompleted s p).keyRef = s.keyRef ∧ (State.pushCompleted s p).encJobs = s.encJobs ∧ (State.pushCompleted s p).links = s.links ∧ (State.pushCompleted s p).sec = s.sec ∧ (State.pushCompleted s p).power = s.power ∧ (State.pushCompleted s p).draw = s.draw := by
  unfold State.pushCompleted; (try dsimp only); (repeat' split) <;> simp

@[simp] theorem State.pushAbandoned_frame (s : State) (p cause : Nat) :
    (State.pushAbandoned s p cause).pending = s.pending ∧ (State.pushAbandoned s p cause).time = s.time ∧ (State.pushAbandoned s p cause).sets = s.sets ∧ (State.pushAbandoned s p cause).src = s.src ∧ (State.pushAbandoned s p cause).panelInit = s.panelInit ∧ (State.pushAbandoned s p cause).keys = s.keys ∧ (State.pushAbandoned s p cause).keyRef = s.keyRef ∧ (State.pushAbandoned s p cause).encJobs = s.encJobs ∧ (State.pushAbandoned s p cause).links = s.links ∧ (State.pushAbandoned s p cause).sec = s.sec ∧ (State.pushAbandoned s p cause).power = s.power ∧ (State.pushAbandoned s p cause).draw = s.draw := by
  unfold State.pushAbandoned; (try dsimp only); (repeat' split) <;> simp

@[simp] theorem State.sendPush_frame (s : State) (p : Nat) (rects : List Rect) (legends : List Legend) :
    (State.sendPush s p rects legends).pending = s.pending ∧ (State.sendPush s p rects legends).time = s.time ∧ (State.sendPush s p rects legends).ledger = s.ledger ∧ (State.sendPush s p rects legends).mail = s.mail ∧ (State.sendPush s p rects legends).sets = s.sets ∧ (State.sendPush s p rects legends).src = s.src ∧ (State.sendPush s p rects legends).comp = s.comp ∧ (State.sendPush s p rects legends).heads = s.heads ∧ (State.sendPush s p rects legends).panels = s.panels ∧ (State.sendPush s p rects legends).panelInit = s.panelInit ∧ (State.sendPush s p rects legends).keys = s.keys ∧ (State.sendPush s p rects legends).keyRef = s.keyRef ∧ (State.sendPush s p rects legends).encJobs = s.encJobs ∧ (State.sendPush s p rects legends).enc = s.enc ∧ (State.sendPush s p rects legends).links = s.links ∧ (State.sendPush s p rects legends).pair = s.pair ∧ (State.sendPush s p rects legends).mem = s.mem ∧ (State.sendPush s p rects legends).fault = s.fault ∧ (State.sendPush s p rects legends).sec = s.sec ∧ (State.sendPush s p rects legends).power = s.power ∧ (State.sendPush s p rects legends).draw = s.draw := by
  simp [State.sendPush]

@[simp] theorem State.startPush_frame (s : State) (p : Nat) (set : List Nat) (legends : List Legend) :
    (State.startPush s p set legends).pending = s.pending ∧ (State.startPush s p set legends).time = s.time ∧ (State.startPush s p set legends).ledger = s.ledger ∧ (State.startPush s p set legends).mail = s.mail ∧ (State.startPush s p set legends).sets = s.sets ∧ (State.startPush s p set legends).src = s.src ∧ (State.startPush s p set legends).comp = s.comp ∧ (State.startPush s p set legends).heads = s.heads ∧ (State.startPush s p set legends).panelInit = s.panelInit ∧ (State.startPush s p set legends).keys = s.keys ∧ (State.startPush s p set legends).keyRef = s.keyRef ∧ (State.startPush s p set legends).encJobs = s.encJobs ∧ (State.startPush s p set legends).enc = s.enc ∧ (State.startPush s p set legends).links = s.links ∧ (State.startPush s p set legends).pair = s.pair ∧ (State.startPush s p set legends).fault = s.fault ∧ (State.startPush s p set legends).sec = s.sec ∧ (State.startPush s p set legends).power = s.power ∧ (State.startPush s p set legends).draw = s.draw := by
  simp [State.startPush]

@[simp] theorem State.pushAtTe_frame (s : State) (p : Nat) (set : List Nat) (legends : List Legend) :
    (State.pushAtTe s p set legends).pending = s.pending ∧ (State.pushAtTe s p set legends).time = s.time ∧ (State.pushAtTe s p set legends).sets = s.sets ∧ (State.pushAtTe s p set legends).src = s.src ∧ (State.pushAtTe s p set legends).panelInit = s.panelInit ∧ (State.pushAtTe s p set legends).keys = s.keys ∧ (State.pushAtTe s p set legends).keyRef = s.keyRef ∧ (State.pushAtTe s p set legends).encJobs = s.encJobs ∧ (State.pushAtTe s p set legends).links = s.links ∧ (State.pushAtTe s p set legends).sec = s.sec ∧ (State.pushAtTe s p set legends).power = s.power ∧ (State.pushAtTe s p set legends).draw = s.draw := by
  unfold State.pushAtTe; (try dsimp only); (repeat' split) <;> simp

@[simp] theorem State.sampleAtTe_frame (s : State) (o : Nat) :
    (State.sampleAtTe s o).pending = s.pending ∧ (State.sampleAtTe s o).panelInit = s.panelInit ∧ (State.sampleAtTe s o).keys = s.keys ∧ (State.sampleAtTe s o).keyRef = s.keyRef ∧ (State.sampleAtTe s o).encJobs = s.encJobs ∧ (State.sampleAtTe s o).sec = s.sec ∧ (State.sampleAtTe s o).draw = s.draw := by
  unfold State.sampleAtTe; (try dsimp only); (repeat' split) <;> simp

@[simp] theorem State.evalPanel_frame (s : State) (p : Nat) :
    (s.evalPanel p).1.pending = s.pending ∧ (s.evalPanel p).1.time = s.time ∧ (s.evalPanel p).1.sets = s.sets ∧ (s.evalPanel p).1.src = s.src ∧ (s.evalPanel p).1.panelInit = s.panelInit ∧ (s.evalPanel p).1.keys = s.keys ∧ (s.evalPanel p).1.keyRef = s.keyRef ∧ (s.evalPanel p).1.encJobs = s.encJobs ∧ (s.evalPanel p).1.links = s.links ∧ (s.evalPanel p).1.sec = s.sec ∧ (s.evalPanel p).1.power = s.power ∧ (s.evalPanel p).1.draw = s.draw := by
  unfold State.evalPanel; dsimp only; (repeat' split) <;> simp

@[simp] theorem State.finishStart_frame (s : State) (p : Nat) :
    (State.finishStart s p).pending = s.pending ∧ (State.finishStart s p).time = s.time ∧ (State.finishStart s p).mail = s.mail ∧ (State.finishStart s p).sets = s.sets ∧ (State.finishStart s p).src = s.src ∧ (State.finishStart s p).comp = s.comp ∧ (State.finishStart s p).heads = s.heads ∧ (State.finishStart s p).panelInit = s.panelInit ∧ (State.finishStart s p).keys = s.keys ∧ (State.finishStart s p).keyRef = s.keyRef ∧ (State.finishStart s p).encJobs = s.encJobs ∧ (State.finishStart s p).enc = s.enc ∧ (State.finishStart s p).links = s.links ∧ (State.finishStart s p).pair = s.pair ∧ (State.finishStart s p).mem = s.mem ∧ (State.finishStart s p).fault = s.fault ∧ (State.finishStart s p).sec = s.sec ∧ (State.finishStart s p).power = s.power ∧ (State.finishStart s p).out = s.out ∧ (State.finishStart s p).draw = s.draw := by
  simp [State.finishStart]

@[simp] theorem State.countTe_frame (s : State) (p : Nat) :
    (State.countTe s p).pending = s.pending ∧ (State.countTe s p).time = s.time ∧ (State.countTe s p).ledger = s.ledger ∧ (State.countTe s p).sets = s.sets ∧ (State.countTe s p).src = s.src ∧ (State.countTe s p).comp = s.comp ∧ (State.countTe s p).heads = s.heads ∧ (State.countTe s p).panelInit = s.panelInit ∧ (State.countTe s p).keys = s.keys ∧ (State.countTe s p).keyRef = s.keyRef ∧ (State.countTe s p).encJobs = s.encJobs ∧ (State.countTe s p).enc = s.enc ∧ (State.countTe s p).links = s.links ∧ (State.countTe s p).pair = s.pair ∧ (State.countTe s p).mem = s.mem ∧ (State.countTe s p).fault = s.fault ∧ (State.countTe s p).sec = s.sec ∧ (State.countTe s p).power = s.power ∧ (State.countTe s p).draw = s.draw := by
  simp [State.countTe]

@[simp] theorem State.resumeTe_frame (s : State) (p : Nat) :
    (State.resumeTe s p).pending = s.pending ∧ (State.resumeTe s p).time = s.time ∧ (State.resumeTe s p).sets = s.sets ∧ (State.resumeTe s p).src = s.src ∧ (State.resumeTe s p).panelInit = s.panelInit ∧ (State.resumeTe s p).keys = s.keys ∧ (State.resumeTe s p).keyRef = s.keyRef ∧ (State.resumeTe s p).encJobs = s.encJobs ∧ (State.resumeTe s p).links = s.links ∧ (State.resumeTe s p).sec = s.sec ∧ (State.resumeTe s p).power = s.power ∧ (State.resumeTe s p).draw = s.draw := by
  simp [State.resumeTe]

@[simp] theorem State.dropUnder_frame (s : State) (p : Nat) :
    (State.dropUnder s p).pending = s.pending ∧ (State.dropUnder s p).time = s.time ∧ (State.dropUnder s p).ledger = s.ledger ∧ (State.dropUnder s p).mail = s.mail ∧ (State.dropUnder s p).sets = s.sets ∧ (State.dropUnder s p).src = s.src ∧ (State.dropUnder s p).comp = s.comp ∧ (State.dropUnder s p).heads = s.heads ∧ (State.dropUnder s p).panelInit = s.panelInit ∧ (State.dropUnder s p).keys = s.keys ∧ (State.dropUnder s p).keyRef = s.keyRef ∧ (State.dropUnder s p).encJobs = s.encJobs ∧ (State.dropUnder s p).links = s.links ∧ (State.dropUnder s p).pair = s.pair ∧ (State.dropUnder s p).mem = s.mem ∧ (State.dropUnder s p).fault = s.fault ∧ (State.dropUnder s p).sec = s.sec ∧ (State.dropUnder s p).power = s.power ∧ (State.dropUnder s p).out = s.out ∧ (State.dropUnder s p).draw = s.draw := by
  simp [State.dropUnder]

@[simp] theorem State.takeTe_frame (s : State) (p : Nat) :
    (State.takeTe s p).pending = s.pending ∧ (State.takeTe s p).panelInit = s.panelInit ∧ (State.takeTe s p).keys = s.keys ∧ (State.takeTe s p).keyRef = s.keyRef ∧ (State.takeTe s p).encJobs = s.encJobs ∧ (State.takeTe s p).sec = s.sec ∧ (State.takeTe s p).draw = s.draw := by
  unfold State.takeTe; (try dsimp only); (repeat' split) <;> simp (disch := (intros; first | rfl | ((try dsimp only); (repeat' split) <;> (try simp))))

@[simp] theorem State.sendTearOn_frame (s : State) (p : Nat) :
    (State.sendTearOn s p).pending = s.pending ∧ (State.sendTearOn s p).time = s.time ∧ (State.sendTearOn s p).ledger = s.ledger ∧ (State.sendTearOn s p).mail = s.mail ∧ (State.sendTearOn s p).sets = s.sets ∧ (State.sendTearOn s p).src = s.src ∧ (State.sendTearOn s p).comp = s.comp ∧ (State.sendTearOn s p).heads = s.heads ∧ (State.sendTearOn s p).panelInit = s.panelInit ∧ (State.sendTearOn s p).keys = s.keys ∧ (State.sendTearOn s p).keyRef = s.keyRef ∧ (State.sendTearOn s p).encJobs = s.encJobs ∧ (State.sendTearOn s p).enc = s.enc ∧ (State.sendTearOn s p).links = s.links ∧ (State.sendTearOn s p).pair = s.pair ∧ (State.sendTearOn s p).mem = s.mem ∧ (State.sendTearOn s p).fault = s.fault ∧ (State.sendTearOn s p).sec = s.sec ∧ (State.sendTearOn s p).power = s.power ∧ (State.sendTearOn s p).draw = s.draw := by
  simp [State.sendTearOn]

@[simp] theorem State.sendEntries_frame (s : State) (p : Nat) (n : Nat) :
    (s.sendEntries p n).pending = s.pending ∧ (s.sendEntries p n).time = s.time ∧ (s.sendEntries p n).ledger = s.ledger ∧ (s.sendEntries p n).mail = s.mail ∧ (s.sendEntries p n).sets = s.sets ∧ (s.sendEntries p n).src = s.src ∧ (s.sendEntries p n).comp = s.comp ∧ (s.sendEntries p n).heads = s.heads ∧ (s.sendEntries p n).panelInit = s.panelInit ∧ (s.sendEntries p n).keys = s.keys ∧ (s.sendEntries p n).keyRef = s.keyRef ∧ (s.sendEntries p n).encJobs = s.encJobs ∧ (s.sendEntries p n).enc = s.enc ∧ (s.sendEntries p n).links = s.links ∧ (s.sendEntries p n).pair = s.pair ∧ (s.sendEntries p n).mem = s.mem ∧ (s.sendEntries p n).fault = s.fault ∧ (s.sendEntries p n).sec = s.sec ∧ (s.sendEntries p n).power = s.power ∧ (s.sendEntries p n).draw = s.draw := by
  induction n generalizing s with
  | zero => simp [State.sendEntries]
  | succ n ih => unfold State.sendEntries; dsimp only; (repeat' split) <;> simp [ih]

@[simp] theorem State.startStep_frame (s : State) (p : Nat) :
    (State.startStep s p).pending = s.pending ∧ (State.startStep s p).time = s.time ∧ (State.startStep s p).ledger = s.ledger ∧ (State.startStep s p).mail = s.mail ∧ (State.startStep s p).sets = s.sets ∧ (State.startStep s p).src = s.src ∧ (State.startStep s p).comp = s.comp ∧ (State.startStep s p).heads = s.heads ∧ (State.startStep s p).panelInit = s.panelInit ∧ (State.startStep s p).keys = s.keys ∧ (State.startStep s p).keyRef = s.keyRef ∧ (State.startStep s p).encJobs = s.encJobs ∧ (State.startStep s p).enc = s.enc ∧ (State.startStep s p).links = s.links ∧ (State.startStep s p).pair = s.pair ∧ (State.startStep s p).mem = s.mem ∧ (State.startStep s p).fault = s.fault ∧ (State.startStep s p).sec = s.sec ∧ (State.startStep s p).power = s.power ∧ (State.startStep s p).draw = s.draw := by
  unfold State.startStep; dsimp only; (repeat' split) <;> simp

@[simp] theorem State.stopStep_frame (s : State) (p : Nat) :
    (State.stopStep s p).pending = s.pending ∧ (State.stopStep s p).time = s.time ∧ (State.stopStep s p).sets = s.sets ∧ (State.stopStep s p).src = s.src ∧ (State.stopStep s p).panelInit = s.panelInit ∧ (State.stopStep s p).keys = s.keys ∧ (State.stopStep s p).keyRef = s.keyRef ∧ (State.stopStep s p).encJobs = s.encJobs ∧ (State.stopStep s p).links = s.links ∧ (State.stopStep s p).sec = s.sec ∧ (State.stopStep s p).power = s.power ∧ (State.stopStep s p).draw = s.draw := by
  simp [State.stopStep]

@[simp] theorem State.acceptKeys_frame (s : State) (g v : Nat) :
    (State.acceptKeys s g v).pending = s.pending ∧ (State.acceptKeys s g v).time = s.time ∧ (State.acceptKeys s g v).ledger = s.ledger ∧ (State.acceptKeys s g v).mail = s.mail ∧ (State.acceptKeys s g v).sets = s.sets ∧ (State.acceptKeys s g v).src = s.src ∧ (State.acceptKeys s g v).comp = s.comp ∧ (State.acceptKeys s g v).heads = s.heads ∧ (State.acceptKeys s g v).panels = s.panels ∧ (State.acceptKeys s g v).panelInit = s.panelInit ∧ (State.acceptKeys s g v).keyRef = s.keyRef ∧ (State.acceptKeys s g v).encJobs = s.encJobs ∧ (State.acceptKeys s g v).enc = s.enc ∧ (State.acceptKeys s g v).mem = s.mem ∧ (State.acceptKeys s g v).fault = s.fault ∧ (State.acceptKeys s g v).sec = s.sec ∧ (State.acceptKeys s g v).power = s.power ∧ (State.acceptKeys s g v).draw = s.draw := by
  simp [State.acceptKeys]

@[simp] theorem State.postSnapshot_frame (s : State) (g : Nat) (multi : Bool) (f : BitVec 128) :
    (State.postSnapshot s g multi f).pending = s.pending ∧ (State.postSnapshot s g multi f).time = s.time ∧ (State.postSnapshot s g multi f).ledger = s.ledger ∧ (State.postSnapshot s g multi f).sets = s.sets ∧ (State.postSnapshot s g multi f).src = s.src ∧ (State.postSnapshot s g multi f).comp = s.comp ∧ (State.postSnapshot s g multi f).heads = s.heads ∧ (State.postSnapshot s g multi f).panels = s.panels ∧ (State.postSnapshot s g multi f).panelInit = s.panelInit ∧ (State.postSnapshot s g multi f).keys = s.keys ∧ (State.postSnapshot s g multi f).keyRef = s.keyRef ∧ (State.postSnapshot s g multi f).encJobs = s.encJobs ∧ (State.postSnapshot s g multi f).enc = s.enc ∧ (State.postSnapshot s g multi f).links = s.links ∧ (State.postSnapshot s g multi f).pair = s.pair ∧ (State.postSnapshot s g multi f).mem = s.mem ∧ (State.postSnapshot s g multi f).fault = s.fault ∧ (State.postSnapshot s g multi f).sec = s.sec ∧ (State.postSnapshot s g multi f).power = s.power ∧ (State.postSnapshot s g multi f).draw = s.draw := by
  simp [State.postSnapshot]

@[simp] theorem State.snapshotKeys_frame (s : State) :
    (State.snapshotKeys s).pending = s.pending ∧ (State.snapshotKeys s).time = s.time ∧ (State.snapshotKeys s).ledger = s.ledger ∧ (State.snapshotKeys s).sets = s.sets ∧ (State.snapshotKeys s).src = s.src ∧ (State.snapshotKeys s).comp = s.comp ∧ (State.snapshotKeys s).heads = s.heads ∧ (State.snapshotKeys s).panels = s.panels ∧ (State.snapshotKeys s).panelInit = s.panelInit ∧ (State.snapshotKeys s).keys = s.keys ∧ (State.snapshotKeys s).keyRef = s.keyRef ∧ (State.snapshotKeys s).encJobs = s.encJobs ∧ (State.snapshotKeys s).enc = s.enc ∧ (State.snapshotKeys s).links = s.links ∧ (State.snapshotKeys s).pair = s.pair ∧ (State.snapshotKeys s).mem = s.mem ∧ (State.snapshotKeys s).fault = s.fault ∧ (State.snapshotKeys s).sec = s.sec ∧ (State.snapshotKeys s).power = s.power ∧ (State.snapshotKeys s).draw = s.draw := by
  simp [State.snapshotKeys]

@[simp] theorem State.mirrorKeyField_frame (s : State) (g : Nat) :
    (State.mirrorKeyField s g).pending = s.pending ∧ (State.mirrorKeyField s g).time = s.time ∧ (State.mirrorKeyField s g).ledger = s.ledger ∧ (State.mirrorKeyField s g).mail = s.mail ∧ (State.mirrorKeyField s g).sets = s.sets ∧ (State.mirrorKeyField s g).src = s.src ∧ (State.mirrorKeyField s g).comp = s.comp ∧ (State.mirrorKeyField s g).heads = s.heads ∧ (State.mirrorKeyField s g).panels = s.panels ∧ (State.mirrorKeyField s g).panelInit = s.panelInit ∧ (State.mirrorKeyField s g).keys = s.keys ∧ (State.mirrorKeyField s g).keyRef = s.keyRef ∧ (State.mirrorKeyField s g).encJobs = s.encJobs ∧ (State.mirrorKeyField s g).enc = s.enc ∧ (State.mirrorKeyField s g).mem = s.mem ∧ (State.mirrorKeyField s g).fault = s.fault ∧ (State.mirrorKeyField s g).sec = s.sec ∧ (State.mirrorKeyField s g).power = s.power ∧ (State.mirrorKeyField s g).draw = s.draw := by
  simp [State.mirrorKeyField]

@[simp] theorem State.keyEvent_frame (s : State) (event record : Nat) (ps : List Nat) :
    (State.keyEvent s event record ps).pending = s.pending ∧ (State.keyEvent s event record ps).time = s.time ∧ (State.keyEvent s event record ps).sets = s.sets ∧ (State.keyEvent s event record ps).src = s.src ∧ (State.keyEvent s event record ps).comp = s.comp ∧ (State.keyEvent s event record ps).heads = s.heads ∧ (State.keyEvent s event record ps).panels = s.panels ∧ (State.keyEvent s event record ps).panelInit = s.panelInit ∧ (State.keyEvent s event record ps).keys = s.keys ∧ (State.keyEvent s event record ps).keyRef = s.keyRef ∧ (State.keyEvent s event record ps).encJobs = s.encJobs ∧ (State.keyEvent s event record ps).enc = s.enc ∧ (State.keyEvent s event record ps).links = s.links ∧ (State.keyEvent s event record ps).pair = s.pair ∧ (State.keyEvent s event record ps).mem = s.mem ∧ (State.keyEvent s event record ps).fault = s.fault ∧ (State.keyEvent s event record ps).sec = s.sec ∧ (State.keyEvent s event record ps).power = s.power ∧ (State.keyEvent s event record ps).draw = s.draw := by
  simp [State.keyEvent]

@[simp] theorem State.beginForming_frame (s : State) (g : Nat) :
    (State.beginForming s g).pending = s.pending ∧ (State.beginForming s g).time = s.time ∧ (State.beginForming s g).mail = s.mail ∧ (State.beginForming s g).sets = s.sets ∧ (State.beginForming s g).src = s.src ∧ (State.beginForming s g).comp = s.comp ∧ (State.beginForming s g).heads = s.heads ∧ (State.beginForming s g).panels = s.panels ∧ (State.beginForming s g).panelInit = s.panelInit ∧ (State.beginForming s g).keyRef = s.keyRef ∧ (State.beginForming s g).encJobs = s.encJobs ∧ (State.beginForming s g).enc = s.enc ∧ (State.beginForming s g).links = s.links ∧ (State.beginForming s g).pair = s.pair ∧ (State.beginForming s g).mem = s.mem ∧ (State.beginForming s g).fault = s.fault ∧ (State.beginForming s g).sec = s.sec ∧ (State.beginForming s g).power = s.power ∧ (State.beginForming s g).out = s.out ∧ (State.beginForming s g).draw = s.draw := by
  simp [State.beginForming]

@[simp] theorem State.keyChange_frame (s : State) (g k : Nat) (old new : KeyRun) (multi : Bool) :
    (State.keyChange s g k old new multi).pending = s.pending ∧ (State.keyChange s g k old new multi).time = s.time ∧ (State.keyChange s g k old new multi).sets = s.sets ∧ (State.keyChange s g k old new multi).src = s.src ∧ (State.keyChange s g k old new multi).comp = s.comp ∧ (State.keyChange s g k old new multi).heads = s.heads ∧ (State.keyChange s g k old new multi).panels = s.panels ∧ (State.keyChange s g k old new multi).panelInit = s.panelInit ∧ (State.keyChange s g k old new multi).keys = s.keys ∧ (State.keyChange s g k old new multi).keyRef = s.keyRef ∧ (State.keyChange s g k old new multi).encJobs = s.encJobs ∧ (State.keyChange s g k old new multi).enc = s.enc ∧ (State.keyChange s g k old new multi).links = s.links ∧ (State.keyChange s g k old new multi).pair = s.pair ∧ (State.keyChange s g k old new multi).mem = s.mem ∧ (State.keyChange s g k old new multi).fault = s.fault ∧ (State.keyChange s g k old new multi).sec = s.sec ∧ (State.keyChange s g k old new multi).power = s.power ∧ (State.keyChange s g k old new multi).draw = s.draw := by
  simp [State.keyChange]

@[simp] theorem State.scanGroup_frame (s : State) (g : Nat) (raws : List KeySample) :
    (State.scanGroup s g raws).pending = s.pending ∧ (State.scanGroup s g raws).time = s.time ∧ (State.scanGroup s g raws).sets = s.sets ∧ (State.scanGroup s g raws).src = s.src ∧ (State.scanGroup s g raws).comp = s.comp ∧ (State.scanGroup s g raws).heads = s.heads ∧ (State.scanGroup s g raws).panels = s.panels ∧ (State.scanGroup s g raws).panelInit = s.panelInit ∧ (State.scanGroup s g raws).keyRef = s.keyRef ∧ (State.scanGroup s g raws).encJobs = s.encJobs ∧ (State.scanGroup s g raws).enc = s.enc ∧ (State.scanGroup s g raws).mem = s.mem ∧ (State.scanGroup s g raws).fault = s.fault ∧ (State.scanGroup s g raws).sec = s.sec ∧ (State.scanGroup s g raws).power = s.power ∧ (State.scanGroup s g raws).draw = s.draw := by
  simp [State.scanGroup]

@[simp] theorem State.storeReference_frame (s : State) (g : Nat) :
    (State.storeReference s g).pending = s.pending ∧ (State.storeReference s g).time = s.time ∧ (State.storeReference s g).mail = s.mail ∧ (State.storeReference s g).sets = s.sets ∧ (State.storeReference s g).src = s.src ∧ (State.storeReference s g).comp = s.comp ∧ (State.storeReference s g).heads = s.heads ∧ (State.storeReference s g).panels = s.panels ∧ (State.storeReference s g).panelInit = s.panelInit ∧ (State.storeReference s g).keys = s.keys ∧ (State.storeReference s g).encJobs = s.encJobs ∧ (State.storeReference s g).enc = s.enc ∧ (State.storeReference s g).links = s.links ∧ (State.storeReference s g).pair = s.pair ∧ (State.storeReference s g).mem = s.mem ∧ (State.storeReference s g).fault = s.fault ∧ (State.storeReference s g).sec = s.sec ∧ (State.storeReference s g).power = s.power ∧ (State.storeReference s g).out = s.out ∧ (State.storeReference s g).draw = s.draw := by
  simp [State.storeReference]

@[simp] theorem State.beginStream_frame (s : State) (j : Nat) :
    (State.beginStream s j).pending = s.pending ∧ (State.beginStream s j).time = s.time ∧ (State.beginStream s j).mail = s.mail ∧ (State.beginStream s j).sets = s.sets ∧ (State.beginStream s j).src = s.src ∧ (State.beginStream s j).comp = s.comp ∧ (State.beginStream s j).heads = s.heads ∧ (State.beginStream s j).panels = s.panels ∧ (State.beginStream s j).panelInit = s.panelInit ∧ (State.beginStream s j).keys = s.keys ∧ (State.beginStream s j).keyRef = s.keyRef ∧ (State.beginStream s j).encJobs = s.encJobs ∧ (State.beginStream s j).links = s.links ∧ (State.beginStream s j).pair = s.pair ∧ (State.beginStream s j).mem = s.mem ∧ (State.beginStream s j).fault = s.fault ∧ (State.beginStream s j).sec = s.sec ∧ (State.beginStream s j).power = s.power ∧ (State.beginStream s j).out = s.out ∧ (State.beginStream s j).draw = s.draw := by
  simp [State.beginStream]

@[simp] theorem State.encCoreFails_frame (s : State) (c : Nat) :
    (State.encCoreFails s c).pending = s.pending ∧ (State.encCoreFails s c).time = s.time ∧ (State.encCoreFails s c).sets = s.sets ∧ (State.encCoreFails s c).src = s.src ∧ (State.encCoreFails s c).panelInit = s.panelInit ∧ (State.encCoreFails s c).keys = s.keys ∧ (State.encCoreFails s c).keyRef = s.keyRef ∧ (State.encCoreFails s c).encJobs = s.encJobs ∧ (State.encCoreFails s c).sec = s.sec ∧ (State.encCoreFails s c).power = s.power ∧ (State.encCoreFails s c).draw = s.draw := by
  unfold State.encCoreFails; simp (disch := (intros; first | rfl | ((try dsimp only); (repeat' split) <;> (try simp))))

@[simp] theorem State.powerEncoder_frame (s : State) :
    (State.powerEncoder s).pending = s.pending ∧ (State.powerEncoder s).time = s.time ∧ (State.powerEncoder s).sets = s.sets ∧ (State.powerEncoder s).src = s.src ∧ (State.powerEncoder s).panelInit = s.panelInit ∧ (State.powerEncoder s).keys = s.keys ∧ (State.powerEncoder s).keyRef = s.keyRef ∧ (State.powerEncoder s).encJobs = s.encJobs ∧ (State.powerEncoder s).sec = s.sec ∧ (State.powerEncoder s).draw = s.draw := by
  simp [State.powerEncoder]

@[simp] theorem State.placeJob_frame (s : State) (j c : Nat) :
    (State.placeJob s j c).pending = s.pending ∧ (State.placeJob s j c).time = s.time ∧ (State.placeJob s j c).sets = s.sets ∧ (State.placeJob s j c).src = s.src ∧ (State.placeJob s j c).panelInit = s.panelInit ∧ (State.placeJob s j c).keys = s.keys ∧ (State.placeJob s j c).keyRef = s.keyRef ∧ (State.placeJob s j c).encJobs = s.encJobs ∧ (State.placeJob s j c).sec = s.sec ∧ (State.placeJob s j c).draw = s.draw := by
  simp [State.placeJob]

@[simp] theorem State.replaceJobs_frame (s : State) :
    (State.replaceJobs s).pending = s.pending ∧ (State.replaceJobs s).time = s.time ∧ (State.replaceJobs s).sets = s.sets ∧ (State.replaceJobs s).src = s.src ∧ (State.replaceJobs s).panelInit = s.panelInit ∧ (State.replaceJobs s).keys = s.keys ∧ (State.replaceJobs s).keyRef = s.keyRef ∧ (State.replaceJobs s).encJobs = s.encJobs ∧ (State.replaceJobs s).sec = s.sec ∧ (State.replaceJobs s).draw = s.draw := by
  unfold State.replaceJobs; simp (disch := (intros; first | rfl | ((try dsimp only); (repeat' split) <;> (try simp))))

@[simp] theorem State.encIdleDomain_frame (s : State) :
    (State.encIdleDomain s).pending = s.pending ∧ (State.encIdleDomain s).time = s.time ∧ (State.encIdleDomain s).mail = s.mail ∧ (State.encIdleDomain s).sets = s.sets ∧ (State.encIdleDomain s).src = s.src ∧ (State.encIdleDomain s).comp = s.comp ∧ (State.encIdleDomain s).heads = s.heads ∧ (State.encIdleDomain s).panels = s.panels ∧ (State.encIdleDomain s).panelInit = s.panelInit ∧ (State.encIdleDomain s).keys = s.keys ∧ (State.encIdleDomain s).keyRef = s.keyRef ∧ (State.encIdleDomain s).encJobs = s.encJobs ∧ (State.encIdleDomain s).enc = s.enc ∧ (State.encIdleDomain s).links = s.links ∧ (State.encIdleDomain s).pair = s.pair ∧ (State.encIdleDomain s).mem = s.mem ∧ (State.encIdleDomain s).fault = s.fault ∧ (State.encIdleDomain s).sec = s.sec ∧ (State.encIdleDomain s).out = s.out ∧ (State.encIdleDomain s).draw = s.draw := by
  simp [State.encIdleDomain]

@[simp] theorem State.setEncJob_frame (s : State) (j : Nat) (d : EncDesc) :
    (State.setEncJob s j d).pending = s.pending ∧ (State.setEncJob s j d).time = s.time ∧ (State.setEncJob s j d).ledger = s.ledger ∧ (State.setEncJob s j d).mail = s.mail ∧ (State.setEncJob s j d).sets = s.sets ∧ (State.setEncJob s j d).src = s.src ∧ (State.setEncJob s j d).comp = s.comp ∧ (State.setEncJob s j d).heads = s.heads ∧ (State.setEncJob s j d).panels = s.panels ∧ (State.setEncJob s j d).panelInit = s.panelInit ∧ (State.setEncJob s j d).keys = s.keys ∧ (State.setEncJob s j d).keyRef = s.keyRef ∧ (State.setEncJob s j d).enc = s.enc ∧ (State.setEncJob s j d).links = s.links ∧ (State.setEncJob s j d).pair = s.pair ∧ (State.setEncJob s j d).mem = s.mem ∧ (State.setEncJob s j d).fault = s.fault ∧ (State.setEncJob s j d).sec = s.sec ∧ (State.setEncJob s j d).power = s.power ∧ (State.setEncJob s j d).out = s.out ∧ (State.setEncJob s j d).draw = s.draw := by
  simp [State.setEncJob]

@[simp] theorem State.encApply_frame (s : State) (j : Nat) (d : EncDesc) (core : Option Nat) :
    (State.encApply s j d core).pending = s.pending ∧ (State.encApply s j d core).time = s.time ∧ (State.encApply s j d core).sets = s.sets ∧ (State.encApply s j d core).src = s.src ∧ (State.encApply s j d core).panelInit = s.panelInit ∧ (State.encApply s j d core).keys = s.keys ∧ (State.encApply s j d core).keyRef = s.keyRef ∧ (State.encApply s j d core).sec = s.sec ∧ (State.encApply s j d core).draw = s.draw := by
  unfold State.encApply; (try dsimp only); (repeat' split) <;> simp

@[simp] theorem State.reportCarried_frame (s : State) (j : Nat) (carried : List Nat) :
    (State.reportCarried s j carried).pending = s.pending ∧ (State.reportCarried s j carried).time = s.time ∧ (State.reportCarried s j carried).mail = s.mail ∧ (State.reportCarried s j carried).sets = s.sets ∧ (State.reportCarried s j carried).src = s.src ∧ (State.reportCarried s j carried).comp = s.comp ∧ (State.reportCarried s j carried).heads = s.heads ∧ (State.reportCarried s j carried).panels = s.panels ∧ (State.reportCarried s j carried).panelInit = s.panelInit ∧ (State.reportCarried s j carried).keys = s.keys ∧ (State.reportCarried s j carried).keyRef = s.keyRef ∧ (State.reportCarried s j carried).encJobs = s.encJobs ∧ (State.reportCarried s j carried).enc = s.enc ∧ (State.reportCarried s j carried).links = s.links ∧ (State.reportCarried s j carried).pair = s.pair ∧ (State.reportCarried s j carried).mem = s.mem ∧ (State.reportCarried s j carried).fault = s.fault ∧ (State.reportCarried s j carried).sec = s.sec ∧ (State.reportCarried s j carried).power = s.power ∧ (State.reportCarried s j carried).out = s.out ∧ (State.reportCarried s j carried).draw = s.draw := by
  simp [State.reportCarried]

@[simp] theorem State.codePicture_frame (s : State) (j : Nat) (c : Capture) (costs : RowCosts) :
    (State.codePicture s j c costs).pending = s.pending ∧ (State.codePicture s j c costs).time = s.time ∧ (State.codePicture s j c costs).mail = s.mail ∧ (State.codePicture s j c costs).sets = s.sets ∧ (State.codePicture s j c costs).src = s.src ∧ (State.codePicture s j c costs).comp = s.comp ∧ (State.codePicture s j c costs).heads = s.heads ∧ (State.codePicture s j c costs).panels = s.panels ∧ (State.codePicture s j c costs).panelInit = s.panelInit ∧ (State.codePicture s j c costs).keys = s.keys ∧ (State.codePicture s j c costs).keyRef = s.keyRef ∧ (State.codePicture s j c costs).encJobs = s.encJobs ∧ (State.codePicture s j c costs).links = s.links ∧ (State.codePicture s j c costs).pair = s.pair ∧ (State.codePicture s j c costs).mem = s.mem ∧ (State.codePicture s j c costs).fault = s.fault ∧ (State.codePicture s j c costs).sec = s.sec ∧ (State.codePicture s j c costs).power = s.power ∧ (State.codePicture s j c costs).out = s.out ∧ (State.codePicture s j c costs).draw = s.draw := by
  simp [State.codePicture]

@[simp] theorem State.sendPacket_frame (s : State) (j : Nat) (k : EncPacket) :
    (State.sendPacket s j k).pending = s.pending ∧ (State.sendPacket s j k).time = s.time ∧ (State.sendPacket s j k).ledger = s.ledger ∧ (State.sendPacket s j k).mail = s.mail ∧ (State.sendPacket s j k).sets = s.sets ∧ (State.sendPacket s j k).src = s.src ∧ (State.sendPacket s j k).comp = s.comp ∧ (State.sendPacket s j k).heads = s.heads ∧ (State.sendPacket s j k).panels = s.panels ∧ (State.sendPacket s j k).panelInit = s.panelInit ∧ (State.sendPacket s j k).keys = s.keys ∧ (State.sendPacket s j k).keyRef = s.keyRef ∧ (State.sendPacket s j k).encJobs = s.encJobs ∧ (State.sendPacket s j k).links = s.links ∧ (State.sendPacket s j k).pair = s.pair ∧ (State.sendPacket s j k).mem = s.mem ∧ (State.sendPacket s j k).fault = s.fault ∧ (State.sendPacket s j k).sec = s.sec ∧ (State.sendPacket s j k).power = s.power ∧ (State.sendPacket s j k).draw = s.draw := by
  unfold State.sendPacket; (try dsimp only); (repeat' split) <;> simp

@[simp] theorem State.encRestart_frame (s : State) :
    (State.encRestart s).pending = s.pending ∧ (State.encRestart s).time = s.time ∧ (State.encRestart s).sets = s.sets ∧ (State.encRestart s).src = s.src ∧ (State.encRestart s).panelInit = s.panelInit ∧ (State.encRestart s).keys = s.keys ∧ (State.encRestart s).keyRef = s.keyRef ∧ (State.encRestart s).encJobs = s.encJobs ∧ (State.encRestart s).sec = s.sec ∧ (State.encRestart s).draw = s.draw := by
  simp [State.encRestart]

@[simp] theorem State.laneLink_frame (s : State) (l : Nat) (old new : LaneState) :
    (State.laneLink s l old new).pending = s.pending ∧ (State.laneLink s l old new).time = s.time ∧ (State.laneLink s l old new).mail = s.mail ∧ (State.laneLink s l old new).sets = s.sets ∧ (State.laneLink s l old new).src = s.src ∧ (State.laneLink s l old new).comp = s.comp ∧ (State.laneLink s l old new).heads = s.heads ∧ (State.laneLink s l old new).panels = s.panels ∧ (State.laneLink s l old new).panelInit = s.panelInit ∧ (State.laneLink s l old new).keys = s.keys ∧ (State.laneLink s l old new).keyRef = s.keyRef ∧ (State.laneLink s l old new).encJobs = s.encJobs ∧ (State.laneLink s l old new).enc = s.enc ∧ (State.laneLink s l old new).pair = s.pair ∧ (State.laneLink s l old new).mem = s.mem ∧ (State.laneLink s l old new).fault = s.fault ∧ (State.laneLink s l old new).sec = s.sec ∧ (State.laneLink s l old new).power = s.power ∧ (State.laneLink s l old new).out = s.out ∧ (State.laneLink s l old new).draw = s.draw := by
  simp [State.laneLink]

@[simp] theorem State.receiverLink_frame (s : State) (l : Nat) :
    (State.receiverLink s l).pending = s.pending ∧ (State.receiverLink s l).time = s.time ∧ (State.receiverLink s l).mail = s.mail ∧ (State.receiverLink s l).sets = s.sets ∧ (State.receiverLink s l).src = s.src ∧ (State.receiverLink s l).comp = s.comp ∧ (State.receiverLink s l).heads = s.heads ∧ (State.receiverLink s l).panels = s.panels ∧ (State.receiverLink s l).panelInit = s.panelInit ∧ (State.receiverLink s l).keys = s.keys ∧ (State.receiverLink s l).keyRef = s.keyRef ∧ (State.receiverLink s l).encJobs = s.encJobs ∧ (State.receiverLink s l).enc = s.enc ∧ (State.receiverLink s l).links = s.links ∧ (State.receiverLink s l).pair = s.pair ∧ (State.receiverLink s l).mem = s.mem ∧ (State.receiverLink s l).fault = s.fault ∧ (State.receiverLink s l).sec = s.sec ∧ (State.receiverLink s l).power = s.power ∧ (State.receiverLink s l).out = s.out ∧ (State.receiverLink s l).draw = s.draw := by
  unfold State.receiverLink; (try dsimp only); (repeat' split) <;> simp

@[simp] theorem State.discardKinik_frame (s : State) (l : Nat) :
    (State.discardKinik s l).pending = s.pending ∧ (State.discardKinik s l).time = s.time ∧ (State.discardKinik s l).mail = s.mail ∧ (State.discardKinik s l).sets = s.sets ∧ (State.discardKinik s l).comp = s.comp ∧ (State.discardKinik s l).heads = s.heads ∧ (State.discardKinik s l).panels = s.panels ∧ (State.discardKinik s l).panelInit = s.panelInit ∧ (State.discardKinik s l).keys = s.keys ∧ (State.discardKinik s l).keyRef = s.keyRef ∧ (State.discardKinik s l).encJobs = s.encJobs ∧ (State.discardKinik s l).enc = s.enc ∧ (State.discardKinik s l).links = s.links ∧ (State.discardKinik s l).pair = s.pair ∧ (State.discardKinik s l).mem = s.mem ∧ (State.discardKinik s l).fault = s.fault ∧ (State.discardKinik s l).sec = s.sec ∧ (State.discardKinik s l).power = s.power ∧ (State.discardKinik s l).out = s.out ∧ (State.discardKinik s l).draw = s.draw := by
  unfold State.discardKinik; (try dsimp only); (repeat' split) <;> simp

@[simp] theorem State.peerRestart_frame (s : State) (pp : Nat) :
    (State.peerRestart s pp).pending = s.pending ∧ (State.peerRestart s pp).time = s.time ∧ (State.peerRestart s pp).ledger = s.ledger ∧ (State.peerRestart s pp).mail = s.mail ∧ (State.peerRestart s pp).sets = s.sets ∧ (State.peerRestart s pp).src = s.src ∧ (State.peerRestart s pp).comp = s.comp ∧ (State.peerRestart s pp).heads = s.heads ∧ (State.peerRestart s pp).panels = s.panels ∧ (State.peerRestart s pp).panelInit = s.panelInit ∧ (State.peerRestart s pp).keys = s.keys ∧ (State.peerRestart s pp).keyRef = s.keyRef ∧ (State.peerRestart s pp).encJobs = s.encJobs ∧ (State.peerRestart s pp).enc = s.enc ∧ (State.peerRestart s pp).pair = s.pair ∧ (State.peerRestart s pp).mem = s.mem ∧ (State.peerRestart s pp).fault = s.fault ∧ (State.peerRestart s pp).sec = s.sec ∧ (State.peerRestart s pp).power = s.power ∧ (State.peerRestart s pp).out = s.out ∧ (State.peerRestart s pp).draw = s.draw := by
  simp [State.peerRestart]

@[simp] theorem State.linkGone_frame (s : State) (l : Nat) :
    (State.linkGone s l).pending = s.pending ∧ (State.linkGone s l).sets = s.sets ∧ (State.linkGone s l).panelInit = s.panelInit ∧ (State.linkGone s l).keys = s.keys ∧ (State.linkGone s l).keyRef = s.keyRef ∧ (State.linkGone s l).encJobs = s.encJobs ∧ (State.linkGone s l).sec = s.sec ∧ (State.linkGone s l).draw = s.draw := by
  unfold State.linkGone; (try dsimp only); (repeat' split) <;> simp

@[simp] theorem State.linkHere_frame (s : State) (l : Nat) :
    (State.linkHere s l).pending = s.pending ∧ (State.linkHere s l).sets = s.sets ∧ (State.linkHere s l).panelInit = s.panelInit ∧ (State.linkHere s l).keys = s.keys ∧ (State.linkHere s l).keyRef = s.keyRef ∧ (State.linkHere s l).encJobs = s.encJobs ∧ (State.linkHere s l).sec = s.sec ∧ (State.linkHere s l).draw = s.draw := by
  unfold State.linkHere; (try dsimp only); (repeat' split) <;> simp

@[simp] theorem State.laneTo_frame (s : State) (l : Nat) (new : LaneState) :
    (State.laneTo s l new).pending = s.pending ∧ (State.laneTo s l new).sets = s.sets ∧ (State.laneTo s l new).panelInit = s.panelInit ∧ (State.laneTo s l new).keys = s.keys ∧ (State.laneTo s l new).keyRef = s.keyRef ∧ (State.laneTo s l new).encJobs = s.encJobs ∧ (State.laneTo s l new).sec = s.sec ∧ (State.laneTo s l new).draw = s.draw := by
  simp [State.laneTo]

@[simp] theorem State.laneHunt_frame (s : State) (l : Nat) :
    (State.laneHunt s l).pending = s.pending ∧ (State.laneHunt s l).sets = s.sets ∧ (State.laneHunt s l).panelInit = s.panelInit ∧ (State.laneHunt s l).keys = s.keys ∧ (State.laneHunt s l).keyRef = s.keyRef ∧ (State.laneHunt s l).encJobs = s.encJobs ∧ (State.laneHunt s l).sec = s.sec ∧ (State.laneHunt s l).draw = s.draw := by
  simp [State.laneHunt]

@[simp] theorem State.sendCap_frame (s : State) (l : Nat) :
    (State.sendCap s l).pending = s.pending ∧ (State.sendCap s l).time = s.time ∧ (State.sendCap s l).ledger = s.ledger ∧ (State.sendCap s l).mail = s.mail ∧ (State.sendCap s l).sets = s.sets ∧ (State.sendCap s l).src = s.src ∧ (State.sendCap s l).comp = s.comp ∧ (State.sendCap s l).heads = s.heads ∧ (State.sendCap s l).panels = s.panels ∧ (State.sendCap s l).panelInit = s.panelInit ∧ (State.sendCap s l).keys = s.keys ∧ (State.sendCap s l).keyRef = s.keyRef ∧ (State.sendCap s l).encJobs = s.encJobs ∧ (State.sendCap s l).enc = s.enc ∧ (State.sendCap s l).links = s.links ∧ (State.sendCap s l).pair = s.pair ∧ (State.sendCap s l).mem = s.mem ∧ (State.sendCap s l).fault = s.fault ∧ (State.sendCap s l).sec = s.sec ∧ (State.sendCap s l).power = s.power ∧ (State.sendCap s l).draw = s.draw := by
  simp [State.sendCap]

@[simp] theorem State.checkUp_frame (s : State) (l : Nat) :
    (State.checkUp s l).pending = s.pending ∧ (State.checkUp s l).sets = s.sets ∧ (State.checkUp s l).panelInit = s.panelInit ∧ (State.checkUp s l).keys = s.keys ∧ (State.checkUp s l).keyRef = s.keyRef ∧ (State.checkUp s l).encJobs = s.encJobs ∧ (State.checkUp s l).sec = s.sec ∧ (State.checkUp s l).draw = s.draw := by
  simp [State.checkUp]

@[simp] theorem State.incompatible_frame (s : State) (l : Nat) (r : Bytes) :
    (State.incompatible s l r).pending = s.pending ∧ (State.incompatible s l r).sets = s.sets ∧ (State.incompatible s l r).panelInit = s.panelInit ∧ (State.incompatible s l r).keys = s.keys ∧ (State.incompatible s l r).keyRef = s.keyRef ∧ (State.incompatible s l r).encJobs = s.encJobs ∧ (State.incompatible s l r).sec = s.sec ∧ (State.incompatible s l r).draw = s.draw := by
  simp [State.incompatible]

@[simp] theorem State.takeRecord_frame (s : State) (l : Nat) (r : Bytes) :
    (State.takeRecord s l r).pending = s.pending ∧ (State.takeRecord s l r).sets = s.sets ∧ (State.takeRecord s l r).panelInit = s.panelInit ∧ (State.takeRecord s l r).keys = s.keys ∧ (State.takeRecord s l r).keyRef = s.keyRef ∧ (State.takeRecord s l r).encJobs = s.encJobs ∧ (State.takeRecord s l r).sec = s.sec ∧ (State.takeRecord s l r).draw = s.draw := by
  simp [State.takeRecord]

@[simp] theorem State.elasticOverflow_frame (s : State) (l : Nat) :
    (State.elasticOverflow s l).pending = s.pending ∧ (State.elasticOverflow s l).time = s.time ∧ (State.elasticOverflow s l).mail = s.mail ∧ (State.elasticOverflow s l).sets = s.sets ∧ (State.elasticOverflow s l).comp = s.comp ∧ (State.elasticOverflow s l).heads = s.heads ∧ (State.elasticOverflow s l).panels = s.panels ∧ (State.elasticOverflow s l).panelInit = s.panelInit ∧ (State.elasticOverflow s l).keys = s.keys ∧ (State.elasticOverflow s l).keyRef = s.keyRef ∧ (State.elasticOverflow s l).encJobs = s.encJobs ∧ (State.elasticOverflow s l).enc = s.enc ∧ (State.elasticOverflow s l).pair = s.pair ∧ (State.elasticOverflow s l).mem = s.mem ∧ (State.elasticOverflow s l).fault = s.fault ∧ (State.elasticOverflow s l).sec = s.sec ∧ (State.elasticOverflow s l).power = s.power ∧ (State.elasticOverflow s l).out = s.out ∧ (State.elasticOverflow s l).draw = s.draw := by
  simp [State.elasticOverflow]

@[simp] theorem State.lanesUp_frame (s : State) (d : Nat) :
    (State.lanesUp s d).pending = s.pending ∧ (State.lanesUp s d).sets = s.sets ∧ (State.lanesUp s d).panelInit = s.panelInit ∧ (State.lanesUp s d).keys = s.keys ∧ (State.lanesUp s d).keyRef = s.keyRef ∧ (State.lanesUp s d).encJobs = s.encJobs ∧ (State.lanesUp s d).sec = s.sec ∧ (State.lanesUp s d).draw = s.draw := by
  simp [State.lanesUp]

@[simp] theorem State.lanesDown_frame (s : State) (d : Nat) :
    (State.lanesDown s d).pending = s.pending ∧ (State.lanesDown s d).sets = s.sets ∧ (State.lanesDown s d).panelInit = s.panelInit ∧ (State.lanesDown s d).keys = s.keys ∧ (State.lanesDown s d).keyRef = s.keyRef ∧ (State.lanesDown s d).encJobs = s.encJobs ∧ (State.lanesDown s d).sec = s.sec ∧ (State.lanesDown s d).draw = s.draw := by
  simp [State.lanesDown]

@[simp] theorem State.laneTested_frame (s : State) (l bitErrors : Nat) :
    (State.laneTested s l bitErrors).pending = s.pending ∧ (State.laneTested s l bitErrors).time = s.time ∧ (State.laneTested s l bitErrors).sets = s.sets ∧ (State.laneTested s l bitErrors).src = s.src ∧ (State.laneTested s l bitErrors).panelInit = s.panelInit ∧ (State.laneTested s l bitErrors).keys = s.keys ∧ (State.laneTested s l bitErrors).keyRef = s.keyRef ∧ (State.laneTested s l bitErrors).encJobs = s.encJobs ∧ (State.laneTested s l bitErrors).sec = s.sec ∧ (State.laneTested s l bitErrors).power = s.power ∧ (State.laneTested s l bitErrors).draw = s.draw := by
  simp [State.laneTested]

@[simp] theorem State.storeTable_frame (s : State) (t : LaneTable) :
    (State.storeTable s t).pending = s.pending ∧ (State.storeTable s t).time = s.time ∧ (State.storeTable s t).ledger = s.ledger ∧ (State.storeTable s t).mail = s.mail ∧ (State.storeTable s t).sets = s.sets ∧ (State.storeTable s t).src = s.src ∧ (State.storeTable s t).comp = s.comp ∧ (State.storeTable s t).heads = s.heads ∧ (State.storeTable s t).panels = s.panels ∧ (State.storeTable s t).panelInit = s.panelInit ∧ (State.storeTable s t).keys = s.keys ∧ (State.storeTable s t).keyRef = s.keyRef ∧ (State.storeTable s t).encJobs = s.encJobs ∧ (State.storeTable s t).enc = s.enc ∧ (State.storeTable s t).pair = s.pair ∧ (State.storeTable s t).mem = s.mem ∧ (State.storeTable s t).fault = s.fault ∧ (State.storeTable s t).sec = s.sec ∧ (State.storeTable s t).power = s.power ∧ (State.storeTable s t).out = s.out ∧ (State.storeTable s t).draw = s.draw := by
  simp [State.storeTable]

@[simp] theorem State.applyTable_frame (s : State) :
    (State.applyTable s).pending = s.pending ∧ (State.applyTable s).time = s.time ∧ (State.applyTable s).mail = s.mail ∧ (State.applyTable s).sets = s.sets ∧ (State.applyTable s).src = s.src ∧ (State.applyTable s).comp = s.comp ∧ (State.applyTable s).heads = s.heads ∧ (State.applyTable s).panels = s.panels ∧ (State.applyTable s).panelInit = s.panelInit ∧ (State.applyTable s).keys = s.keys ∧ (State.applyTable s).keyRef = s.keyRef ∧ (State.applyTable s).encJobs = s.encJobs ∧ (State.applyTable s).enc = s.enc ∧ (State.applyTable s).pair = s.pair ∧ (State.applyTable s).mem = s.mem ∧ (State.applyTable s).fault = s.fault ∧ (State.applyTable s).sec = s.sec ∧ (State.applyTable s).power = s.power ∧ (State.applyTable s).out = s.out ∧ (State.applyTable s).draw = s.draw := by
  unfold State.applyTable; (try dsimp only); (repeat' split) <;> simp

@[simp] theorem State.readFec_frame (s : State) (l : Nat) :
    (State.readFec s l).pending = s.pending ∧ (State.readFec s l).time = s.time ∧ (State.readFec s l).ledger = s.ledger ∧ (State.readFec s l).mail = s.mail ∧ (State.readFec s l).sets = s.sets ∧ (State.readFec s l).src = s.src ∧ (State.readFec s l).comp = s.comp ∧ (State.readFec s l).heads = s.heads ∧ (State.readFec s l).panels = s.panels ∧ (State.readFec s l).panelInit = s.panelInit ∧ (State.readFec s l).keys = s.keys ∧ (State.readFec s l).keyRef = s.keyRef ∧ (State.readFec s l).encJobs = s.encJobs ∧ (State.readFec s l).enc = s.enc ∧ (State.readFec s l).pair = s.pair ∧ (State.readFec s l).mem = s.mem ∧ (State.readFec s l).fault = s.fault ∧ (State.readFec s l).sec = s.sec ∧ (State.readFec s l).power = s.power ∧ (State.readFec s l).out = s.out ∧ (State.readFec s l).draw = s.draw := by
  simp [State.readFec]

@[simp] theorem State.reportAgain_frame (s : State) (port : Nat) :
    (State.reportAgain s port).pending = s.pending ∧ (State.reportAgain s port).time = s.time ∧ (State.reportAgain s port).ledger = s.ledger ∧ (State.reportAgain s port).mail = s.mail ∧ (State.reportAgain s port).sets = s.sets ∧ (State.reportAgain s port).comp = s.comp ∧ (State.reportAgain s port).heads = s.heads ∧ (State.reportAgain s port).panels = s.panels ∧ (State.reportAgain s port).panelInit = s.panelInit ∧ (State.reportAgain s port).keys = s.keys ∧ (State.reportAgain s port).keyRef = s.keyRef ∧ (State.reportAgain s port).encJobs = s.encJobs ∧ (State.reportAgain s port).enc = s.enc ∧ (State.reportAgain s port).links = s.links ∧ (State.reportAgain s port).pair = s.pair ∧ (State.reportAgain s port).mem = s.mem ∧ (State.reportAgain s port).fault = s.fault ∧ (State.reportAgain s port).sec = s.sec ∧ (State.reportAgain s port).power = s.power ∧ (State.reportAgain s port).draw = s.draw := by
  simp [State.reportAgain]

@[simp] theorem State.setKinik_frame (s : State) (l : Nat) (f : KinikFrame) :
    (State.setKinik s l f).pending = s.pending ∧ (State.setKinik s l f).time = s.time ∧ (State.setKinik s l f).ledger = s.ledger ∧ (State.setKinik s l f).mail = s.mail ∧ (State.setKinik s l f).sets = s.sets ∧ (State.setKinik s l f).comp = s.comp ∧ (State.setKinik s l f).heads = s.heads ∧ (State.setKinik s l f).panels = s.panels ∧ (State.setKinik s l f).panelInit = s.panelInit ∧ (State.setKinik s l f).keys = s.keys ∧ (State.setKinik s l f).keyRef = s.keyRef ∧ (State.setKinik s l f).encJobs = s.encJobs ∧ (State.setKinik s l f).enc = s.enc ∧ (State.setKinik s l f).links = s.links ∧ (State.setKinik s l f).pair = s.pair ∧ (State.setKinik s l f).mem = s.mem ∧ (State.setKinik s l f).fault = s.fault ∧ (State.setKinik s l f).sec = s.sec ∧ (State.setKinik s l f).power = s.power ∧ (State.setKinik s l f).out = s.out ∧ (State.setKinik s l f).draw = s.draw := by
  simp [State.setKinik]

@[simp] theorem State.mintKinik_frame (s : State) (l i : Nat) (k : KinikFrame) (r : Bytes) :
    (State.mintKinik s l i k r).pending = s.pending ∧ (State.mintKinik s l i k r).time = s.time ∧ (State.mintKinik s l i k r).mail = s.mail ∧ (State.mintKinik s l i k r).sets = s.sets ∧ (State.mintKinik s l i k r).heads = s.heads ∧ (State.mintKinik s l i k r).panels = s.panels ∧ (State.mintKinik s l i k r).panelInit = s.panelInit ∧ (State.mintKinik s l i k r).keys = s.keys ∧ (State.mintKinik s l i k r).keyRef = s.keyRef ∧ (State.mintKinik s l i k r).encJobs = s.encJobs ∧ (State.mintKinik s l i k r).links = s.links ∧ (State.mintKinik s l i k r).pair = s.pair ∧ (State.mintKinik s l i k r).mem = s.mem ∧ (State.mintKinik s l i k r).fault = s.fault ∧ (State.mintKinik s l i k r).sec = s.sec ∧ (State.mintKinik s l i k r).power = s.power ∧ (State.mintKinik s l i k r).out = s.out ∧ (State.mintKinik s l i k r).draw = s.draw := by
  simp [State.mintKinik]

@[simp] theorem State.roomSettle_frame (s : State) (id defers : Nat) :
    (State.roomSettle s id defers).pending = s.pending ∧ (State.roomSettle s id defers).panelInit = s.panelInit ∧ (State.roomSettle s id defers).keys = s.keys ∧ (State.roomSettle s id defers).keyRef = s.keyRef ∧ (State.roomSettle s id defers).encJobs = s.encJobs ∧ (State.roomSettle s id defers).sec = s.sec ∧ (State.roomSettle s id defers).draw = s.draw := by
  unfold State.roomSettle; (try dsimp only); (repeat' split) <;> simp

@[simp] theorem State.roomDefer_frame (s : State) (id defers : Nat) (counted : Bool) :
    (State.roomDefer s id defers counted).pending = s.pending ∧ (State.roomDefer s id defers counted).time = s.time ∧ (State.roomDefer s id defers counted).src = s.src ∧ (State.roomDefer s id defers counted).comp = s.comp ∧ (State.roomDefer s id defers counted).heads = s.heads ∧ (State.roomDefer s id defers counted).panels = s.panels ∧ (State.roomDefer s id defers counted).panelInit = s.panelInit ∧ (State.roomDefer s id defers counted).keys = s.keys ∧ (State.roomDefer s id defers counted).keyRef = s.keyRef ∧ (State.roomDefer s id defers counted).encJobs = s.encJobs ∧ (State.roomDefer s id defers counted).enc = s.enc ∧ (State.roomDefer s id defers counted).links = s.links ∧ (State.roomDefer s id defers counted).pair = s.pair ∧ (State.roomDefer s id defers counted).mem = s.mem ∧ (State.roomDefer s id defers counted).fault = s.fault ∧ (State.roomDefer s id defers counted).sec = s.sec ∧ (State.roomDefer s id defers counted).power = s.power ∧ (State.roomDefer s id defers counted).draw = s.draw := by
  unfold State.roomDefer; (try dsimp only); (repeat' split) <;> simp

@[simp] theorem State.setCo_frame (s : State) (x : RoomCo) :
    (State.setCo s x).pending = s.pending ∧ (State.setCo s x).time = s.time ∧ (State.setCo s x).ledger = s.ledger ∧ (State.setCo s x).mail = s.mail ∧ (State.setCo s x).sets = s.sets ∧ (State.setCo s x).src = s.src ∧ (State.setCo s x).comp = s.comp ∧ (State.setCo s x).heads = s.heads ∧ (State.setCo s x).panels = s.panels ∧ (State.setCo s x).panelInit = s.panelInit ∧ (State.setCo s x).keys = s.keys ∧ (State.setCo s x).keyRef = s.keyRef ∧ (State.setCo s x).encJobs = s.encJobs ∧ (State.setCo s x).enc = s.enc ∧ (State.setCo s x).pair = s.pair ∧ (State.setCo s x).mem = s.mem ∧ (State.setCo s x).fault = s.fault ∧ (State.setCo s x).sec = s.sec ∧ (State.setCo s x).power = s.power ∧ (State.setCo s x).out = s.out ∧ (State.setCo s x).draw = s.draw := by
  simp [State.setCo]

@[simp] theorem State.setPart_frame (s : State) (x : RoomPart) :
    (State.setPart s x).pending = s.pending ∧ (State.setPart s x).time = s.time ∧ (State.setPart s x).ledger = s.ledger ∧ (State.setPart s x).mail = s.mail ∧ (State.setPart s x).sets = s.sets ∧ (State.setPart s x).src = s.src ∧ (State.setPart s x).comp = s.comp ∧ (State.setPart s x).heads = s.heads ∧ (State.setPart s x).panels = s.panels ∧ (State.setPart s x).panelInit = s.panelInit ∧ (State.setPart s x).keys = s.keys ∧ (State.setPart s x).keyRef = s.keyRef ∧ (State.setPart s x).encJobs = s.encJobs ∧ (State.setPart s x).enc = s.enc ∧ (State.setPart s x).pair = s.pair ∧ (State.setPart s x).mem = s.mem ∧ (State.setPart s x).fault = s.fault ∧ (State.setPart s x).sec = s.sec ∧ (State.setPart s x).power = s.power ∧ (State.setPart s x).out = s.out ∧ (State.setPart s x).draw = s.draw := by
  simp [State.setPart]

@[simp] theorem State.roomAbort_frame (s : State) (x : RoomCo) (fault : Nat) :
    (State.roomAbort s x fault).pending = s.pending ∧ (State.roomAbort s x fault).time = s.time ∧ (State.roomAbort s x fault).sets = s.sets ∧ (State.roomAbort s x fault).src = s.src ∧ (State.roomAbort s x fault).comp = s.comp ∧ (State.roomAbort s x fault).heads = s.heads ∧ (State.roomAbort s x fault).panels = s.panels ∧ (State.roomAbort s x fault).panelInit = s.panelInit ∧ (State.roomAbort s x fault).keys = s.keys ∧ (State.roomAbort s x fault).keyRef = s.keyRef ∧ (State.roomAbort s x fault).encJobs = s.encJobs ∧ (State.roomAbort s x fault).enc = s.enc ∧ (State.roomAbort s x fault).pair = s.pair ∧ (State.roomAbort s x fault).mem = s.mem ∧ (State.roomAbort s x fault).fault = s.fault ∧ (State.roomAbort s x fault).sec = s.sec ∧ (State.roomAbort s x fault).power = s.power ∧ (State.roomAbort s x fault).draw = s.draw := by
  simp [State.roomAbort]

@[simp] theorem State.roomComplete_frame (s : State) (x : RoomCo) :
    (State.roomComplete s x).pending = s.pending ∧ (State.roomComplete s x).time = s.time ∧ (State.roomComplete s x).sets = s.sets ∧ (State.roomComplete s x).src = s.src ∧ (State.roomComplete s x).comp = s.comp ∧ (State.roomComplete s x).heads = s.heads ∧ (State.roomComplete s x).panels = s.panels ∧ (State.roomComplete s x).panelInit = s.panelInit ∧ (State.roomComplete s x).keys = s.keys ∧ (State.roomComplete s x).keyRef = s.keyRef ∧ (State.roomComplete s x).encJobs = s.encJobs ∧ (State.roomComplete s x).enc = s.enc ∧ (State.roomComplete s x).pair = s.pair ∧ (State.roomComplete s x).mem = s.mem ∧ (State.roomComplete s x).fault = s.fault ∧ (State.roomComplete s x).sec = s.sec ∧ (State.roomComplete s x).power = s.power ∧ (State.roomComplete s x).draw = s.draw := by
  simp [State.roomComplete]

@[simp] theorem State.chooseTarget_frame (s : State) (x : RoomCo) :
    (State.chooseTarget s x).pending = s.pending ∧ (State.chooseTarget s x).time = s.time ∧ (State.chooseTarget s x).ledger = s.ledger ∧ (State.chooseTarget s x).mail = s.mail ∧ (State.chooseTarget s x).sets = s.sets ∧ (State.chooseTarget s x).src = s.src ∧ (State.chooseTarget s x).comp = s.comp ∧ (State.chooseTarget s x).heads = s.heads ∧ (State.chooseTarget s x).panels = s.panels ∧ (State.chooseTarget s x).panelInit = s.panelInit ∧ (State.chooseTarget s x).keys = s.keys ∧ (State.chooseTarget s x).keyRef = s.keyRef ∧ (State.chooseTarget s x).encJobs = s.encJobs ∧ (State.chooseTarget s x).enc = s.enc ∧ (State.chooseTarget s x).pair = s.pair ∧ (State.chooseTarget s x).mem = s.mem ∧ (State.chooseTarget s x).fault = s.fault ∧ (State.chooseTarget s x).sec = s.sec ∧ (State.chooseTarget s x).power = s.power ∧ (State.chooseTarget s x).draw = s.draw := by
  simp [State.chooseTarget]

@[simp] theorem State.roomDecide_frame (s : State) (x : RoomCo) (tf : Nat) :
    (State.roomDecide s x tf).pending = s.pending ∧ (State.roomDecide s x tf).panelInit = s.panelInit ∧ (State.roomDecide s x tf).keys = s.keys ∧ (State.roomDecide s x tf).keyRef = s.keyRef ∧ (State.roomDecide s x tf).encJobs = s.encJobs ∧ (State.roomDecide s x tf).sec = s.sec ∧ (State.roomDecide s x tf).draw = s.draw := by
  simp [State.roomDecide]

@[simp] theorem State.voteOwn_frame (s : State) :
    (State.voteOwn s).pending = s.pending ∧ (State.voteOwn s).time = s.time ∧ (State.voteOwn s).ledger = s.ledger ∧ (State.voteOwn s).mail = s.mail ∧ (State.voteOwn s).sets = s.sets ∧ (State.voteOwn s).src = s.src ∧ (State.voteOwn s).comp = s.comp ∧ (State.voteOwn s).heads = s.heads ∧ (State.voteOwn s).panels = s.panels ∧ (State.voteOwn s).panelInit = s.panelInit ∧ (State.voteOwn s).keys = s.keys ∧ (State.voteOwn s).keyRef = s.keyRef ∧ (State.voteOwn s).encJobs = s.encJobs ∧ (State.voteOwn s).enc = s.enc ∧ (State.voteOwn s).pair = s.pair ∧ (State.voteOwn s).mem = s.mem ∧ (State.voteOwn s).fault = s.fault ∧ (State.voteOwn s).sec = s.sec ∧ (State.voteOwn s).power = s.power ∧ (State.voteOwn s).out = s.out ∧ (State.voteOwn s).draw = s.draw := by
  unfold State.voteOwn; (try dsimp only); (repeat' split) <;> simp

@[simp] theorem State.votePart_frame (s : State) :
    (State.votePart s).pending = s.pending ∧ (State.votePart s).time = s.time ∧ (State.votePart s).ledger = s.ledger ∧ (State.votePart s).mail = s.mail ∧ (State.votePart s).sets = s.sets ∧ (State.votePart s).src = s.src ∧ (State.votePart s).comp = s.comp ∧ (State.votePart s).heads = s.heads ∧ (State.votePart s).panels = s.panels ∧ (State.votePart s).panelInit = s.panelInit ∧ (State.votePart s).keys = s.keys ∧ (State.votePart s).keyRef = s.keyRef ∧ (State.votePart s).encJobs = s.encJobs ∧ (State.votePart s).enc = s.enc ∧ (State.votePart s).pair = s.pair ∧ (State.votePart s).mem = s.mem ∧ (State.votePart s).fault = s.fault ∧ (State.votePart s).sec = s.sec ∧ (State.votePart s).power = s.power ∧ (State.votePart s).draw = s.draw := by
  unfold State.votePart; (try dsimp only); (repeat' split) <;> simp

@[simp] theorem State.ackPeer_frame (s : State) (lane seq result : Nat) :
    (State.ackPeer s lane seq result).pending = s.pending ∧ (State.ackPeer s lane seq result).time = s.time ∧ (State.ackPeer s lane seq result).ledger = s.ledger ∧ (State.ackPeer s lane seq result).mail = s.mail ∧ (State.ackPeer s lane seq result).sets = s.sets ∧ (State.ackPeer s lane seq result).src = s.src ∧ (State.ackPeer s lane seq result).comp = s.comp ∧ (State.ackPeer s lane seq result).heads = s.heads ∧ (State.ackPeer s lane seq result).panels = s.panels ∧ (State.ackPeer s lane seq result).panelInit = s.panelInit ∧ (State.ackPeer s lane seq result).keys = s.keys ∧ (State.ackPeer s lane seq result).keyRef = s.keyRef ∧ (State.ackPeer s lane seq result).encJobs = s.encJobs ∧ (State.ackPeer s lane seq result).enc = s.enc ∧ (State.ackPeer s lane seq result).links = s.links ∧ (State.ackPeer s lane seq result).pair = s.pair ∧ (State.ackPeer s lane seq result).mem = s.mem ∧ (State.ackPeer s lane seq result).fault = s.fault ∧ (State.ackPeer s lane seq result).sec = s.sec ∧ (State.ackPeer s lane seq result).power = s.power ∧ (State.ackPeer s lane seq result).draw = s.draw := by
  simp [State.ackPeer]

@[simp] theorem State.peerAcked_frame (s : State) (pp : Nat) (m : PeerTx) (result : Nat) :
    (State.peerAcked s pp m result).pending = s.pending ∧ (State.peerAcked s pp m result).time = s.time ∧ (State.peerAcked s pp m result).sets = s.sets ∧ (State.peerAcked s pp m result).src = s.src ∧ (State.peerAcked s pp m result).comp = s.comp ∧ (State.peerAcked s pp m result).heads = s.heads ∧ (State.peerAcked s pp m result).panels = s.panels ∧ (State.peerAcked s pp m result).panelInit = s.panelInit ∧ (State.peerAcked s pp m result).keys = s.keys ∧ (State.peerAcked s pp m result).keyRef = s.keyRef ∧ (State.peerAcked s pp m result).encJobs = s.encJobs ∧ (State.peerAcked s pp m result).enc = s.enc ∧ (State.peerAcked s pp m result).mem = s.mem ∧ (State.peerAcked s pp m result).fault = s.fault ∧ (State.peerAcked s pp m result).sec = s.sec ∧ (State.peerAcked s pp m result).draw = s.draw := by
  unfold State.peerAcked; (try dsimp only); (repeat' split) <;> simp

@[simp] theorem State.peerLost_frame (s : State) (pp : Nat) (m : PeerTx) :
    (State.peerLost s pp m).pending = s.pending ∧ (State.peerLost s pp m).time = s.time ∧ (State.peerLost s pp m).mail = s.mail ∧ (State.peerLost s pp m).sets = s.sets ∧ (State.peerLost s pp m).src = s.src ∧ (State.peerLost s pp m).comp = s.comp ∧ (State.peerLost s pp m).heads = s.heads ∧ (State.peerLost s pp m).panels = s.panels ∧ (State.peerLost s pp m).panelInit = s.panelInit ∧ (State.peerLost s pp m).keys = s.keys ∧ (State.peerLost s pp m).keyRef = s.keyRef ∧ (State.peerLost s pp m).encJobs = s.encJobs ∧ (State.peerLost s pp m).enc = s.enc ∧ (State.peerLost s pp m).mem = s.mem ∧ (State.peerLost s pp m).fault = s.fault ∧ (State.peerLost s pp m).sec = s.sec ∧ (State.peerLost s pp m).draw = s.draw := by
  simp [State.peerLost]

@[simp] theorem State.sendLedger_frame (s : State) :
    (State.sendLedger s).pending = s.pending ∧ (State.sendLedger s).time = s.time ∧ (State.sendLedger s).ledger = s.ledger ∧ (State.sendLedger s).mail = s.mail ∧ (State.sendLedger s).sets = s.sets ∧ (State.sendLedger s).src = s.src ∧ (State.sendLedger s).comp = s.comp ∧ (State.sendLedger s).heads = s.heads ∧ (State.sendLedger s).panels = s.panels ∧ (State.sendLedger s).panelInit = s.panelInit ∧ (State.sendLedger s).keys = s.keys ∧ (State.sendLedger s).keyRef = s.keyRef ∧ (State.sendLedger s).encJobs = s.encJobs ∧ (State.sendLedger s).enc = s.enc ∧ (State.sendLedger s).mem = s.mem ∧ (State.sendLedger s).fault = s.fault ∧ (State.sendLedger s).sec = s.sec ∧ (State.sendLedger s).power = s.power ∧ (State.sendLedger s).draw = s.draw := by
  simp [State.sendLedger]

@[simp] theorem State.requestSync_frame (s : State) :
    (State.requestSync s).pending = s.pending ∧ (State.requestSync s).time = s.time ∧ (State.requestSync s).ledger = s.ledger ∧ (State.requestSync s).mail = s.mail ∧ (State.requestSync s).sets = s.sets ∧ (State.requestSync s).src = s.src ∧ (State.requestSync s).comp = s.comp ∧ (State.requestSync s).heads = s.heads ∧ (State.requestSync s).panels = s.panels ∧ (State.requestSync s).panelInit = s.panelInit ∧ (State.requestSync s).keys = s.keys ∧ (State.requestSync s).keyRef = s.keyRef ∧ (State.requestSync s).encJobs = s.encJobs ∧ (State.requestSync s).enc = s.enc ∧ (State.requestSync s).pair = s.pair ∧ (State.requestSync s).mem = s.mem ∧ (State.requestSync s).fault = s.fault ∧ (State.requestSync s).sec = s.sec ∧ (State.requestSync s).power = s.power ∧ (State.requestSync s).draw = s.draw := by
  simp [State.requestSync]

@[simp] theorem State.catchUp_frame (s : State) :
    (State.catchUp s).pending = s.pending ∧ (State.catchUp s).sets = s.sets ∧ (State.catchUp s).panelInit = s.panelInit ∧ (State.catchUp s).keys = s.keys ∧ (State.catchUp s).keyRef = s.keyRef ∧ (State.catchUp s).encJobs = s.encJobs ∧ (State.catchUp s).sec = s.sec ∧ (State.catchUp s).draw = s.draw := by
  simp [State.catchUp]

@[simp] theorem State.heartbeatBack_frame (s : State) (failed : Bool) :
    (State.heartbeatBack s failed).pending = s.pending ∧ (State.heartbeatBack s failed).sets = s.sets ∧ (State.heartbeatBack s failed).panelInit = s.panelInit ∧ (State.heartbeatBack s failed).keys = s.keys ∧ (State.heartbeatBack s failed).keyRef = s.keyRef ∧ (State.heartbeatBack s failed).encJobs = s.encJobs ∧ (State.heartbeatBack s failed).sec = s.sec ∧ (State.heartbeatBack s failed).draw = s.draw := by
  simp [State.heartbeatBack]

@[simp] theorem State.dualActive_frame (s : State) (role : Nat) :
    (State.dualActive s role).pending = s.pending ∧ (State.dualActive s role).time = s.time ∧ (State.dualActive s role).sets = s.sets ∧ (State.dualActive s role).src = s.src ∧ (State.dualActive s role).comp = s.comp ∧ (State.dualActive s role).heads = s.heads ∧ (State.dualActive s role).panels = s.panels ∧ (State.dualActive s role).panelInit = s.panelInit ∧ (State.dualActive s role).keys = s.keys ∧ (State.dualActive s role).keyRef = s.keyRef ∧ (State.dualActive s role).encJobs = s.encJobs ∧ (State.dualActive s role).enc = s.enc ∧ (State.dualActive s role).links = s.links ∧ (State.dualActive s role).mem = s.mem ∧ (State.dualActive s role).fault = s.fault ∧ (State.dualActive s role).sec = s.sec ∧ (State.dualActive s role).power = s.power ∧ (State.dualActive s role).draw = s.draw := by
  simp [State.dualActive]

@[simp] theorem State.arbCheck_frame (s : State) (role : Nat) (low : Bool) :
    (State.arbCheck s role low).pending = s.pending ∧ (State.arbCheck s role low).time = s.time ∧ (State.arbCheck s role low).sets = s.sets ∧ (State.arbCheck s role low).src = s.src ∧ (State.arbCheck s role low).panelInit = s.panelInit ∧ (State.arbCheck s role low).keys = s.keys ∧ (State.arbCheck s role low).keyRef = s.keyRef ∧ (State.arbCheck s role low).encJobs = s.encJobs ∧ (State.arbCheck s role low).links = s.links ∧ (State.arbCheck s role low).sec = s.sec ∧ (State.arbCheck s role low).power = s.power ∧ (State.arbCheck s role low).draw = s.draw := by
  simp [State.arbCheck]

@[simp] theorem State.switchConfirmed_frame (s : State) (role : Nat) :
    (State.switchConfirmed s role).pending = s.pending ∧ (State.switchConfirmed s role).time = s.time ∧ (State.switchConfirmed s role).sets = s.sets ∧ (State.switchConfirmed s role).src = s.src ∧ (State.switchConfirmed s role).comp = s.comp ∧ (State.switchConfirmed s role).heads = s.heads ∧ (State.switchConfirmed s role).panels = s.panels ∧ (State.switchConfirmed s role).panelInit = s.panelInit ∧ (State.switchConfirmed s role).keys = s.keys ∧ (State.switchConfirmed s role).keyRef = s.keyRef ∧ (State.switchConfirmed s role).encJobs = s.encJobs ∧ (State.switchConfirmed s role).enc = s.enc ∧ (State.switchConfirmed s role).links = s.links ∧ (State.switchConfirmed s role).mem = s.mem ∧ (State.switchConfirmed s role).fault = s.fault ∧ (State.switchConfirmed s role).sec = s.sec ∧ (State.switchConfirmed s role).draw = s.draw := by
  unfold State.switchConfirmed; (try dsimp only); (repeat' split) <;> simp

@[simp] theorem State.storePair_frame (s : State) (r : Request) :
    (State.storePair s r).pending = s.pending ∧ (State.storePair s r).time = s.time ∧ (State.storePair s r).ledger = s.ledger ∧ (State.storePair s r).mail = s.mail ∧ (State.storePair s r).sets = s.sets ∧ (State.storePair s r).src = s.src ∧ (State.storePair s r).comp = s.comp ∧ (State.storePair s r).heads = s.heads ∧ (State.storePair s r).panels = s.panels ∧ (State.storePair s r).panelInit = s.panelInit ∧ (State.storePair s r).keys = s.keys ∧ (State.storePair s r).keyRef = s.keyRef ∧ (State.storePair s r).encJobs = s.encJobs ∧ (State.storePair s r).enc = s.enc ∧ (State.storePair s r).links = s.links ∧ (State.storePair s r).mem = s.mem ∧ (State.storePair s r).fault = s.fault ∧ (State.storePair s r).sec = s.sec ∧ (State.storePair s r).power = s.power ∧ (State.storePair s r).out = s.out ∧ (State.storePair s r).draw = s.draw := by
  simp [State.storePair]

@[simp] theorem State.becomeActive_frame (s : State) (cause : Nat) :
    (State.becomeActive s cause).pending = s.pending ∧ (State.becomeActive s cause).time = s.time ∧ (State.becomeActive s cause).sets = s.sets ∧ (State.becomeActive s cause).src = s.src ∧ (State.becomeActive s cause).comp = s.comp ∧ (State.becomeActive s cause).heads = s.heads ∧ (State.becomeActive s cause).panels = s.panels ∧ (State.becomeActive s cause).panelInit = s.panelInit ∧ (State.becomeActive s cause).keys = s.keys ∧ (State.becomeActive s cause).keyRef = s.keyRef ∧ (State.becomeActive s cause).encJobs = s.encJobs ∧ (State.becomeActive s cause).enc = s.enc ∧ (State.becomeActive s cause).mem = s.mem ∧ (State.becomeActive s cause).fault = s.fault ∧ (State.becomeActive s cause).sec = s.sec ∧ (State.becomeActive s cause).power = s.power ∧ (State.becomeActive s cause).draw = s.draw := by
  unfold State.becomeActive; simp (disch := (intros; first | rfl | ((try dsimp only); (repeat' split) <;> (try simp))))

@[simp] theorem State.promoteAfterSafe_frame (s : State) :
    (State.promoteAfterSafe s).pending = s.pending ∧ (State.promoteAfterSafe s).time = s.time ∧ (State.promoteAfterSafe s).sets = s.sets ∧ (State.promoteAfterSafe s).src = s.src ∧ (State.promoteAfterSafe s).comp = s.comp ∧ (State.promoteAfterSafe s).heads = s.heads ∧ (State.promoteAfterSafe s).panels = s.panels ∧ (State.promoteAfterSafe s).panelInit = s.panelInit ∧ (State.promoteAfterSafe s).keys = s.keys ∧ (State.promoteAfterSafe s).keyRef = s.keyRef ∧ (State.promoteAfterSafe s).encJobs = s.encJobs ∧ (State.promoteAfterSafe s).enc = s.enc ∧ (State.promoteAfterSafe s).mem = s.mem ∧ (State.promoteAfterSafe s).fault = s.fault ∧ (State.promoteAfterSafe s).sec = s.sec ∧ (State.promoteAfterSafe s).power = s.power ∧ (State.promoteAfterSafe s).draw = s.draw := by
  simp [State.promoteAfterSafe]

@[simp] theorem State.failSwitch_frame (s : State) (w : Switch) (cause : Nat) :
    (State.failSwitch s w cause).pending = s.pending ∧ (State.failSwitch s w cause).time = s.time ∧ (State.failSwitch s w cause).sets = s.sets ∧ (State.failSwitch s w cause).src = s.src ∧ (State.failSwitch s w cause).comp = s.comp ∧ (State.failSwitch s w cause).heads = s.heads ∧ (State.failSwitch s w cause).panels = s.panels ∧ (State.failSwitch s w cause).panelInit = s.panelInit ∧ (State.failSwitch s w cause).keys = s.keys ∧ (State.failSwitch s w cause).keyRef = s.keyRef ∧ (State.failSwitch s w cause).encJobs = s.encJobs ∧ (State.failSwitch s w cause).enc = s.enc ∧ (State.failSwitch s w cause).links = s.links ∧ (State.failSwitch s w cause).mem = s.mem ∧ (State.failSwitch s w cause).fault = s.fault ∧ (State.failSwitch s w cause).sec = s.sec ∧ (State.failSwitch s w cause).power = s.power ∧ (State.failSwitch s w cause).draw = s.draw := by
  simp [State.failSwitch]

@[simp] theorem State.mirrorKeyGroup_frame (s : State) (g : Nat) (b : Bytes) :
    (State.mirrorKeyGroup s g b).pending = s.pending ∧ (State.mirrorKeyGroup s g b).time = s.time ∧ (State.mirrorKeyGroup s g b).sets = s.sets ∧ (State.mirrorKeyGroup s g b).src = s.src ∧ (State.mirrorKeyGroup s g b).comp = s.comp ∧ (State.mirrorKeyGroup s g b).heads = s.heads ∧ (State.mirrorKeyGroup s g b).panels = s.panels ∧ (State.mirrorKeyGroup s g b).panelInit = s.panelInit ∧ (State.mirrorKeyGroup s g b).keyRef = s.keyRef ∧ (State.mirrorKeyGroup s g b).encJobs = s.encJobs ∧ (State.mirrorKeyGroup s g b).enc = s.enc ∧ (State.mirrorKeyGroup s g b).mem = s.mem ∧ (State.mirrorKeyGroup s g b).fault = s.fault ∧ (State.mirrorKeyGroup s g b).sec = s.sec ∧ (State.mirrorKeyGroup s g b).draw = s.draw := by
  unfold State.mirrorKeyGroup; (try dsimp only); (repeat' split) <;> simp

@[simp] theorem State.logMirrored_frame (s : State) (b : BitVec 256) :
    (State.logMirrored s b).pending = s.pending ∧ (State.logMirrored s b).time = s.time ∧ (State.logMirrored s b).mail = s.mail ∧ (State.logMirrored s b).sets = s.sets ∧ (State.logMirrored s b).src = s.src ∧ (State.logMirrored s b).comp = s.comp ∧ (State.logMirrored s b).heads = s.heads ∧ (State.logMirrored s b).panels = s.panels ∧ (State.logMirrored s b).panelInit = s.panelInit ∧ (State.logMirrored s b).keys = s.keys ∧ (State.logMirrored s b).keyRef = s.keyRef ∧ (State.logMirrored s b).encJobs = s.encJobs ∧ (State.logMirrored s b).enc = s.enc ∧ (State.logMirrored s b).links = s.links ∧ (State.logMirrored s b).pair = s.pair ∧ (State.logMirrored s b).mem = s.mem ∧ (State.logMirrored s b).fault = s.fault ∧ (State.logMirrored s b).sec = s.sec ∧ (State.logMirrored s b).power = s.power ∧ (State.logMirrored s b).out = s.out ∧ (State.logMirrored s b).draw = s.draw := by
  simp [State.logMirrored]

@[simp] theorem State.sendItems_frame (s : State) (set n : Nat) (c : ConfigSet) (k : SetKind) :
    (State.sendItems s set n c k).pending = s.pending ∧ (State.sendItems s set n c k).time = s.time ∧ (State.sendItems s set n c k).ledger = s.ledger ∧ (State.sendItems s set n c k).mail = s.mail ∧ (State.sendItems s set n c k).sets = s.sets ∧ (State.sendItems s set n c k).src = s.src ∧ (State.sendItems s set n c k).comp = s.comp ∧ (State.sendItems s set n c k).heads = s.heads ∧ (State.sendItems s set n c k).panels = s.panels ∧ (State.sendItems s set n c k).panelInit = s.panelInit ∧ (State.sendItems s set n c k).keys = s.keys ∧ (State.sendItems s set n c k).keyRef = s.keyRef ∧ (State.sendItems s set n c k).encJobs = s.encJobs ∧ (State.sendItems s set n c k).enc = s.enc ∧ (State.sendItems s set n c k).pair = s.pair ∧ (State.sendItems s set n c k).mem = s.mem ∧ (State.sendItems s set n c k).fault = s.fault ∧ (State.sendItems s set n c k).sec = s.sec ∧ (State.sendItems s set n c k).power = s.power ∧ (State.sendItems s set n c k).draw = s.draw := by
  simp [State.sendItems]

@[simp] theorem State.sendSnapshot_frame (s : State) :
    (State.sendSnapshot s).pending = s.pending ∧ (State.sendSnapshot s).time = s.time ∧ (State.sendSnapshot s).ledger = s.ledger ∧ (State.sendSnapshot s).mail = s.mail ∧ (State.sendSnapshot s).sets = s.sets ∧ (State.sendSnapshot s).src = s.src ∧ (State.sendSnapshot s).comp = s.comp ∧ (State.sendSnapshot s).heads = s.heads ∧ (State.sendSnapshot s).panels = s.panels ∧ (State.sendSnapshot s).panelInit = s.panelInit ∧ (State.sendSnapshot s).keys = s.keys ∧ (State.sendSnapshot s).keyRef = s.keyRef ∧ (State.sendSnapshot s).encJobs = s.encJobs ∧ (State.sendSnapshot s).enc = s.enc ∧ (State.sendSnapshot s).pair = s.pair ∧ (State.sendSnapshot s).mem = s.mem ∧ (State.sendSnapshot s).fault = s.fault ∧ (State.sendSnapshot s).sec = s.sec ∧ (State.sendSnapshot s).power = s.power ∧ (State.sendSnapshot s).draw = s.draw := by
  simp [State.sendSnapshot]

@[simp] theorem State.adopt_frame (s : State) (x : Snapshot) :
    (State.adopt s x).pending = s.pending ∧ (State.adopt s x).panelInit = s.panelInit ∧ (State.adopt s x).keys = s.keys ∧ (State.adopt s x).keyRef = s.keyRef ∧ (State.adopt s x).encJobs = s.encJobs ∧ (State.adopt s x).sec = s.sec ∧ (State.adopt s x).draw = s.draw := by
  unfold State.adopt; (try dsimp only); (repeat' split) <;> simp

@[simp] theorem State.setMem_frame (s : State) (m : MemSt) :
    (State.setMem s m).pending = s.pending ∧ (State.setMem s m).time = s.time ∧ (State.setMem s m).ledger = s.ledger ∧ (State.setMem s m).mail = s.mail ∧ (State.setMem s m).sets = s.sets ∧ (State.setMem s m).src = s.src ∧ (State.setMem s m).comp = s.comp ∧ (State.setMem s m).heads = s.heads ∧ (State.setMem s m).panels = s.panels ∧ (State.setMem s m).panelInit = s.panelInit ∧ (State.setMem s m).keys = s.keys ∧ (State.setMem s m).keyRef = s.keyRef ∧ (State.setMem s m).encJobs = s.encJobs ∧ (State.setMem s m).enc = s.enc ∧ (State.setMem s m).links = s.links ∧ (State.setMem s m).pair = s.pair ∧ (State.setMem s m).fault = s.fault ∧ (State.setMem s m).sec = s.sec ∧ (State.setMem s m).power = s.power ∧ (State.setMem s m).out = s.out ∧ (State.setMem s m).draw = s.draw := by
  simp [State.setMem]

@[simp] theorem State.refreshActs_frame (s : State) (c rank : Nat) (temp : Int) :
    (State.refreshActs s c rank temp).pending = s.pending ∧ (State.refreshActs s c rank temp).time = s.time ∧ (State.refreshActs s c rank temp).sets = s.sets ∧ (State.refreshActs s c rank temp).src = s.src ∧ (State.refreshActs s c rank temp).comp = s.comp ∧ (State.refreshActs s c rank temp).heads = s.heads ∧ (State.refreshActs s c rank temp).panels = s.panels ∧ (State.refreshActs s c rank temp).panelInit = s.panelInit ∧ (State.refreshActs s c rank temp).keys = s.keys ∧ (State.refreshActs s c rank temp).keyRef = s.keyRef ∧ (State.refreshActs s c rank temp).encJobs = s.encJobs ∧ (State.refreshActs s c rank temp).enc = s.enc ∧ (State.refreshActs s c rank temp).links = s.links ∧ (State.refreshActs s c rank temp).pair = s.pair ∧ (State.refreshActs s c rank temp).sec = s.sec ∧ (State.refreshActs s c rank temp).power = s.power ∧ (State.refreshActs s c rank temp).draw = s.draw := by
  simp [State.refreshActs]

@[simp] theorem State.retrainHeld_frame (s : State) (c : Nat) :
    (State.retrainHeld s c).pending = s.pending ∧ (State.retrainHeld s c).time = s.time ∧ (State.retrainHeld s c).sets = s.sets ∧ (State.retrainHeld s c).src = s.src ∧ (State.retrainHeld s c).comp = s.comp ∧ (State.retrainHeld s c).heads = s.heads ∧ (State.retrainHeld s c).panels = s.panels ∧ (State.retrainHeld s c).panelInit = s.panelInit ∧ (State.retrainHeld s c).keys = s.keys ∧ (State.retrainHeld s c).keyRef = s.keyRef ∧ (State.retrainHeld s c).encJobs = s.encJobs ∧ (State.retrainHeld s c).enc = s.enc ∧ (State.retrainHeld s c).links = s.links ∧ (State.retrainHeld s c).pair = s.pair ∧ (State.retrainHeld s c).mem = s.mem ∧ (State.retrainHeld s c).sec = s.sec ∧ (State.retrainHeld s c).power = s.power ∧ (State.retrainHeld s c).draw = s.draw := by
  simp [State.retrainHeld]

@[simp] theorem State.policyActs_frame (s : State) :
    (State.policyActs s).pending = s.pending ∧ (State.policyActs s).time = s.time ∧ (State.policyActs s).sets = s.sets ∧ (State.policyActs s).src = s.src ∧ (State.policyActs s).comp = s.comp ∧ (State.policyActs s).heads = s.heads ∧ (State.policyActs s).panels = s.panels ∧ (State.policyActs s).panelInit = s.panelInit ∧ (State.policyActs s).keys = s.keys ∧ (State.policyActs s).keyRef = s.keyRef ∧ (State.policyActs s).encJobs = s.encJobs ∧ (State.policyActs s).enc = s.enc ∧ (State.policyActs s).links = s.links ∧ (State.policyActs s).pair = s.pair ∧ (State.policyActs s).sec = s.sec ∧ (State.policyActs s).power = s.power ∧ (State.policyActs s).draw = s.draw := by
  simp [State.policyActs]

@[simp] theorem State.storeDelays_frame (s : State) (r : Request) :
    (State.storeDelays s r).pending = s.pending ∧ (State.storeDelays s r).time = s.time ∧ (State.storeDelays s r).ledger = s.ledger ∧ (State.storeDelays s r).mail = s.mail ∧ (State.storeDelays s r).sets = s.sets ∧ (State.storeDelays s r).src = s.src ∧ (State.storeDelays s r).comp = s.comp ∧ (State.storeDelays s r).heads = s.heads ∧ (State.storeDelays s r).panels = s.panels ∧ (State.storeDelays s r).panelInit = s.panelInit ∧ (State.storeDelays s r).keys = s.keys ∧ (State.storeDelays s r).keyRef = s.keyRef ∧ (State.storeDelays s r).encJobs = s.encJobs ∧ (State.storeDelays s r).enc = s.enc ∧ (State.storeDelays s r).links = s.links ∧ (State.storeDelays s r).pair = s.pair ∧ (State.storeDelays s r).fault = s.fault ∧ (State.storeDelays s r).sec = s.sec ∧ (State.storeDelays s r).power = s.power ∧ (State.storeDelays s r).out = s.out ∧ (State.storeDelays s r).draw = s.draw := by
  simp [State.storeDelays]

@[simp] theorem State.freeze_frame (s : State) (c cause addr : Nat) :
    (State.freeze s c cause addr).pending = s.pending ∧ (State.freeze s c cause addr).time = s.time ∧ (State.freeze s c cause addr).sets = s.sets ∧ (State.freeze s c cause addr).src = s.src ∧ (State.freeze s c cause addr).panelInit = s.panelInit ∧ (State.freeze s c cause addr).keys = s.keys ∧ (State.freeze s c cause addr).keyRef = s.keyRef ∧ (State.freeze s c cause addr).encJobs = s.encJobs ∧ (State.freeze s c cause addr).links = s.links ∧ (State.freeze s c cause addr).sec = s.sec ∧ (State.freeze s c cause addr).power = s.power ∧ (State.freeze s c cause addr).draw = s.draw := by
  simp [State.freeze]

@[simp] theorem State.memOutcome_frame (s : State) (c : Nat) (r : Requester) :
    (s.memOutcome c r).pending = s.pending ∧ (s.memOutcome c r).time = s.time ∧ (s.memOutcome c r).sets = s.sets ∧ (s.memOutcome c r).heads = s.heads ∧ (s.memOutcome c r).panels = s.panels ∧ (s.memOutcome c r).panelInit = s.panelInit ∧ (s.memOutcome c r).keys = s.keys ∧ (s.memOutcome c r).keyRef = s.keyRef ∧ (s.memOutcome c r).encJobs = s.encJobs ∧ (s.memOutcome c r).links = s.links ∧ (s.memOutcome c r).pair = s.pair ∧ (s.memOutcome c r).mem = s.mem ∧ (s.memOutcome c r).fault = s.fault ∧ (s.memOutcome c r).power = s.power ∧ (s.memOutcome c r).draw = s.draw := by
  unfold State.memOutcome; split <;> (try dsimp only) <;> (repeat' split) <;> simp

@[simp] theorem State.memUe_frame (s : State) (c addr : Nat) (asker : Requester) :
    (State.memUe s c addr asker).pending = s.pending ∧ (State.memUe s c addr asker).time = s.time ∧ (State.memUe s c addr asker).sets = s.sets ∧ (State.memUe s c addr asker).panelInit = s.panelInit ∧ (State.memUe s c addr asker).keys = s.keys ∧ (State.memUe s c addr asker).keyRef = s.keyRef ∧ (State.memUe s c addr asker).encJobs = s.encJobs ∧ (State.memUe s c addr asker).links = s.links ∧ (State.memUe s c addr asker).power = s.power ∧ (State.memUe s c addr asker).draw = s.draw := by
  simp [State.memUe]

@[simp] theorem State.freezeBy_frame (s : State) (c addr : Nat) (asker : Requester) :
    (State.freezeBy s c addr asker).pending = s.pending ∧ (State.freezeBy s c addr asker).time = s.time ∧ (State.freezeBy s c addr asker).sets = s.sets ∧ (State.freezeBy s c addr asker).panelInit = s.panelInit ∧ (State.freezeBy s c addr asker).keys = s.keys ∧ (State.freezeBy s c addr asker).keyRef = s.keyRef ∧ (State.freezeBy s c addr asker).encJobs = s.encJobs ∧ (State.freezeBy s c addr asker).links = s.links ∧ (State.freezeBy s c addr asker).power = s.power ∧ (State.freezeBy s c addr asker).draw = s.draw := by
  unfold State.freezeBy; (try dsimp only); (repeat' split) <;> simp

@[simp] theorem State.memReplay_frame (s : State) (c alerts : Nat) :
    (State.memReplay s c alerts).pending = s.pending ∧ (State.memReplay s c alerts).time = s.time ∧ (State.memReplay s c alerts).sets = s.sets ∧ (State.memReplay s c alerts).src = s.src ∧ (State.memReplay s c alerts).panelInit = s.panelInit ∧ (State.memReplay s c alerts).keys = s.keys ∧ (State.memReplay s c alerts).keyRef = s.keyRef ∧ (State.memReplay s c alerts).encJobs = s.encJobs ∧ (State.memReplay s c alerts).links = s.links ∧ (State.memReplay s c alerts).sec = s.sec ∧ (State.memReplay s c alerts).power = s.power ∧ (State.memReplay s c alerts).draw = s.draw := by
  simp [State.memReplay]

@[simp] theorem State.retireChannel_frame (s : State) (c : Nat) :
    (State.retireChannel s c).pending = s.pending ∧ (State.retireChannel s c).time = s.time ∧ (State.retireChannel s c).sets = s.sets ∧ (State.retireChannel s c).src = s.src ∧ (State.retireChannel s c).panelInit = s.panelInit ∧ (State.retireChannel s c).keys = s.keys ∧ (State.retireChannel s c).keyRef = s.keyRef ∧ (State.retireChannel s c).encJobs = s.encJobs ∧ (State.retireChannel s c).links = s.links ∧ (State.retireChannel s c).sec = s.sec ∧ (State.retireChannel s c).power = s.power ∧ (State.retireChannel s c).draw = s.draw := by
  simp [State.retireChannel]

@[simp] theorem State.zeroLines_frame (s : State) (lines : List Nat) :
    (State.zeroLines s lines).pending = s.pending ∧ (State.zeroLines s lines).time = s.time ∧ (State.zeroLines s lines).ledger = s.ledger ∧ (State.zeroLines s lines).mail = s.mail ∧ (State.zeroLines s lines).sets = s.sets ∧ (State.zeroLines s lines).src = s.src ∧ (State.zeroLines s lines).comp = s.comp ∧ (State.zeroLines s lines).heads = s.heads ∧ (State.zeroLines s lines).panels = s.panels ∧ (State.zeroLines s lines).panelInit = s.panelInit ∧ (State.zeroLines s lines).keys = s.keys ∧ (State.zeroLines s lines).keyRef = s.keyRef ∧ (State.zeroLines s lines).encJobs = s.encJobs ∧ (State.zeroLines s lines).enc = s.enc ∧ (State.zeroLines s lines).links = s.links ∧ (State.zeroLines s lines).pair = s.pair ∧ (State.zeroLines s lines).fault = s.fault ∧ (State.zeroLines s lines).sec = s.sec ∧ (State.zeroLines s lines).power = s.power ∧ (State.zeroLines s lines).out = s.out ∧ (State.zeroLines s lines).draw = s.draw := by
  simp [State.zeroLines]

@[simp] theorem State.dramLost_frame (s : State) (c : Nat) :
    (State.dramLost s c).pending = s.pending ∧ (State.dramLost s c).time = s.time ∧ (State.dramLost s c).heads = s.heads ∧ (State.dramLost s c).panels = s.panels ∧ (State.dramLost s c).panelInit = s.panelInit ∧ (State.dramLost s c).keys = s.keys ∧ (State.dramLost s c).keyRef = s.keyRef ∧ (State.dramLost s c).encJobs = s.encJobs ∧ (State.dramLost s c).links = s.links ∧ (State.dramLost s c).pair = s.pair ∧ (State.dramLost s c).fault = s.fault ∧ (State.dramLost s c).power = s.power ∧ (State.dramLost s c).draw = s.draw := by
  simp [State.dramLost]

@[simp] theorem State.vaultsMoved_frame (s : State) (old : Nat) :
    (State.vaultsMoved s old).pending = s.pending ∧ (State.vaultsMoved s old).time = s.time ∧ (State.vaultsMoved s old).ledger = s.ledger ∧ (State.vaultsMoved s old).mail = s.mail ∧ (State.vaultsMoved s old).sets = s.sets ∧ (State.vaultsMoved s old).src = s.src ∧ (State.vaultsMoved s old).comp = s.comp ∧ (State.vaultsMoved s old).heads = s.heads ∧ (State.vaultsMoved s old).panels = s.panels ∧ (State.vaultsMoved s old).panelInit = s.panelInit ∧ (State.vaultsMoved s old).keys = s.keys ∧ (State.vaultsMoved s old).keyRef = s.keyRef ∧ (State.vaultsMoved s old).encJobs = s.encJobs ∧ (State.vaultsMoved s old).enc = s.enc ∧ (State.vaultsMoved s old).links = s.links ∧ (State.vaultsMoved s old).pair = s.pair ∧ (State.vaultsMoved s old).mem = s.mem ∧ (State.vaultsMoved s old).fault = s.fault ∧ (State.vaultsMoved s old).power = s.power ∧ (State.vaultsMoved s old).out = s.out ∧ (State.vaultsMoved s old).draw = s.draw := by
  simp [State.vaultsMoved]

@[simp] theorem State.voidAllTiles_frame (s : State) :
    (State.voidAllTiles s).pending = s.pending ∧ (State.voidAllTiles s).time = s.time ∧ (State.voidAllTiles s).ledger = s.ledger ∧ (State.voidAllTiles s).mail = s.mail ∧ (State.voidAllTiles s).sets = s.sets ∧ (State.voidAllTiles s).src = s.src ∧ (State.voidAllTiles s).heads = s.heads ∧ (State.voidAllTiles s).panels = s.panels ∧ (State.voidAllTiles s).panelInit = s.panelInit ∧ (State.voidAllTiles s).keys = s.keys ∧ (State.voidAllTiles s).keyRef = s.keyRef ∧ (State.voidAllTiles s).encJobs = s.encJobs ∧ (State.voidAllTiles s).enc = s.enc ∧ (State.voidAllTiles s).links = s.links ∧ (State.voidAllTiles s).pair = s.pair ∧ (State.voidAllTiles s).mem = s.mem ∧ (State.voidAllTiles s).fault = s.fault ∧ (State.voidAllTiles s).sec = s.sec ∧ (State.voidAllTiles s).power = s.power ∧ (State.voidAllTiles s).out = s.out ∧ (State.voidAllTiles s).draw = s.draw := by
  simp [State.voidAllTiles]

@[simp] theorem State.remapMpu_frame (s : State) :
    (State.remapMpu s).pending = s.pending ∧ (State.remapMpu s).time = s.time ∧ (State.remapMpu s).ledger = s.ledger ∧ (State.remapMpu s).mail = s.mail ∧ (State.remapMpu s).sets = s.sets ∧ (State.remapMpu s).src = s.src ∧ (State.remapMpu s).comp = s.comp ∧ (State.remapMpu s).heads = s.heads ∧ (State.remapMpu s).panels = s.panels ∧ (State.remapMpu s).panelInit = s.panelInit ∧ (State.remapMpu s).keys = s.keys ∧ (State.remapMpu s).keyRef = s.keyRef ∧ (State.remapMpu s).encJobs = s.encJobs ∧ (State.remapMpu s).enc = s.enc ∧ (State.remapMpu s).links = s.links ∧ (State.remapMpu s).pair = s.pair ∧ (State.remapMpu s).mem = s.mem ∧ (State.remapMpu s).fault = s.fault ∧ (State.remapMpu s).power = s.power ∧ (State.remapMpu s).out = s.out ∧ (State.remapMpu s).draw = s.draw := by
  simp [State.remapMpu]

@[simp] theorem State.corrected_frame (s : State) (c rank bg bank row : Nat) :
    (State.corrected s c rank bg bank row).pending = s.pending ∧ (State.corrected s c rank bg bank row).time = s.time ∧ (State.corrected s c rank bg bank row).sets = s.sets ∧ (State.corrected s c rank bg bank row).src = s.src ∧ (State.corrected s c rank bg bank row).panelInit = s.panelInit ∧ (State.corrected s c rank bg bank row).keys = s.keys ∧ (State.corrected s c rank bg bank row).keyRef = s.keyRef ∧ (State.corrected s c rank bg bank row).encJobs = s.encJobs ∧ (State.corrected s c rank bg bank row).links = s.links ∧ (State.corrected s c rank bg bank row).sec = s.sec ∧ (State.corrected s c rank bg bank row).power = s.power ∧ (State.corrected s c rank bg bank row).draw = s.draw := by
  simp [State.corrected]

@[simp] theorem State.uncorrectableAt_frame (s : State) (c addr : Nat) :
    (State.uncorrectableAt s c addr).pending = s.pending ∧ (State.uncorrectableAt s c addr).time = s.time ∧ (State.uncorrectableAt s c addr).sets = s.sets ∧ (State.uncorrectableAt s c addr).panelInit = s.panelInit ∧ (State.uncorrectableAt s c addr).keys = s.keys ∧ (State.uncorrectableAt s c addr).keyRef = s.keyRef ∧ (State.uncorrectableAt s c addr).encJobs = s.encJobs ∧ (State.uncorrectableAt s c addr).links = s.links ∧ (State.uncorrectableAt s c addr).power = s.power ∧ (State.uncorrectableAt s c addr).draw = s.draw := by
  simp [State.uncorrectableAt]

@[simp] theorem State.trainChannel_frame (s : State) (res : TrainingResult) (size c : Nat) :
    (State.trainChannel s res size c).pending = s.pending ∧ (State.trainChannel s res size c).time = s.time ∧ (State.trainChannel s res size c).sets = s.sets ∧ (State.trainChannel s res size c).src = s.src ∧ (State.trainChannel s res size c).panelInit = s.panelInit ∧ (State.trainChannel s res size c).keys = s.keys ∧ (State.trainChannel s res size c).keyRef = s.keyRef ∧ (State.trainChannel s res size c).encJobs = s.encJobs ∧ (State.trainChannel s res size c).links = s.links ∧ (State.trainChannel s res size c).sec = s.sec ∧ (State.trainChannel s res size c).power = s.power ∧ (State.trainChannel s res size c).draw = s.draw := by
  simp [State.trainChannel]

@[simp] theorem State.startMpu_frame (s : State) :
    (State.startMpu s).pending = s.pending ∧ (State.startMpu s).time = s.time ∧ (State.startMpu s).ledger = s.ledger ∧ (State.startMpu s).mail = s.mail ∧ (State.startMpu s).sets = s.sets ∧ (State.startMpu s).src = s.src ∧ (State.startMpu s).comp = s.comp ∧ (State.startMpu s).heads = s.heads ∧ (State.startMpu s).panels = s.panels ∧ (State.startMpu s).panelInit = s.panelInit ∧ (State.startMpu s).keys = s.keys ∧ (State.startMpu s).keyRef = s.keyRef ∧ (State.startMpu s).encJobs = s.encJobs ∧ (State.startMpu s).enc = s.enc ∧ (State.startMpu s).links = s.links ∧ (State.startMpu s).pair = s.pair ∧ (State.startMpu s).mem = s.mem ∧ (State.startMpu s).fault = s.fault ∧ (State.startMpu s).power = s.power ∧ (State.startMpu s).out = s.out ∧ (State.startMpu s).draw = s.draw := by
  simp [State.startMpu]

@[simp] theorem State.dramKept_frame (s : State) (kept : Bool) :
    (State.dramKept s kept).pending = s.pending ∧ (State.dramKept s kept).time = s.time ∧ (State.dramKept s kept).ledger = s.ledger ∧ (State.dramKept s kept).mail = s.mail ∧ (State.dramKept s kept).sets = s.sets ∧ (State.dramKept s kept).src = s.src ∧ (State.dramKept s kept).comp = s.comp ∧ (State.dramKept s kept).heads = s.heads ∧ (State.dramKept s kept).panels = s.panels ∧ (State.dramKept s kept).panelInit = s.panelInit ∧ (State.dramKept s kept).keys = s.keys ∧ (State.dramKept s kept).keyRef = s.keyRef ∧ (State.dramKept s kept).encJobs = s.encJobs ∧ (State.dramKept s kept).enc = s.enc ∧ (State.dramKept s kept).links = s.links ∧ (State.dramKept s kept).pair = s.pair ∧ (State.dramKept s kept).fault = s.fault ∧ (State.dramKept s kept).sec = s.sec ∧ (State.dramKept s kept).power = s.power ∧ (State.dramKept s kept).out = s.out ∧ (State.dramKept s kept).draw = s.draw := by
  simp [State.dramKept]

@[simp] theorem State.queueError_frame (s : State) (h : Nat) :
    (State.queueError s h).pending = s.pending ∧ (State.queueError s h).time = s.time ∧ (State.queueError s h).sets = s.sets ∧ (State.queueError s h).src = s.src ∧ (State.queueError s h).panelInit = s.panelInit ∧ (State.queueError s h).keys = s.keys ∧ (State.queueError s h).keyRef = s.keyRef ∧ (State.queueError s h).encJobs = s.encJobs ∧ (State.queueError s h).links = s.links ∧ (State.queueError s h).sec = s.sec ∧ (State.queueError s h).power = s.power ∧ (State.queueError s h).draw = s.draw := by
  unfold State.queueError; (try dsimp only); (repeat' split) <;> simp

@[simp] theorem State.sramUse_frame (s : State) (block : SramBlock) (unit : Nat) :
    (State.sramUse s block unit).pending = s.pending ∧ (State.sramUse s block unit).time = s.time ∧ (State.sramUse s block unit).sets = s.sets ∧ (State.sramUse s block unit).src = s.src ∧ (State.sramUse s block unit).panelInit = s.panelInit ∧ (State.sramUse s block unit).keys = s.keys ∧ (State.sramUse s block unit).keyRef = s.keyRef ∧ (State.sramUse s block unit).encJobs = s.encJobs ∧ (State.sramUse s block unit).links = s.links ∧ (State.sramUse s block unit).sec = s.sec ∧ (State.sramUse s block unit).power = s.power ∧ (State.sramUse s block unit).draw = s.draw := by
  unfold State.sramUse; (try dsimp only); (repeat' split) <;> simp

@[simp] theorem State.setEnvelope_frame (s : State) (d v : Nat) :
    (State.setEnvelope s d v).pending = s.pending ∧ (State.setEnvelope s d v).time = s.time ∧ (State.setEnvelope s d v).ledger = s.ledger ∧ (State.setEnvelope s d v).mail = s.mail ∧ (State.setEnvelope s d v).sets = s.sets ∧ (State.setEnvelope s d v).src = s.src ∧ (State.setEnvelope s d v).comp = s.comp ∧ (State.setEnvelope s d v).heads = s.heads ∧ (State.setEnvelope s d v).panels = s.panels ∧ (State.setEnvelope s d v).panelInit = s.panelInit ∧ (State.setEnvelope s d v).keys = s.keys ∧ (State.setEnvelope s d v).keyRef = s.keyRef ∧ (State.setEnvelope s d v).encJobs = s.encJobs ∧ (State.setEnvelope s d v).enc = s.enc ∧ (State.setEnvelope s d v).links = s.links ∧ (State.setEnvelope s d v).pair = s.pair ∧ (State.setEnvelope s d v).mem = s.mem ∧ (State.setEnvelope s d v).fault = s.fault ∧ (State.setEnvelope s d v).sec = s.sec ∧ (State.setEnvelope s d v).out = s.out ∧ (State.setEnvelope s d v).draw = s.draw := by
  simp [State.setEnvelope]

@[simp] theorem State.throttle_frame (s : State) (d : Nat) (reading : Int) (clock : Nat) :
    (State.throttle s d reading clock).pending = s.pending ∧ (State.throttle s d reading clock).time = s.time ∧ (State.throttle s d reading clock).sets = s.sets ∧ (State.throttle s d reading clock).src = s.src ∧ (State.throttle s d reading clock).panelInit = s.panelInit ∧ (State.throttle s d reading clock).keys = s.keys ∧ (State.throttle s d reading clock).keyRef = s.keyRef ∧ (State.throttle s d reading clock).encJobs = s.encJobs ∧ (State.throttle s d reading clock).links = s.links ∧ (State.throttle s d reading clock).sec = s.sec ∧ (State.throttle s d reading clock).draw = s.draw := by
  simp [State.throttle]

@[simp] theorem State.thermalHeld_frame (s : State) (d : Nat) :
    (State.thermalHeld s d).pending = s.pending ∧ (State.thermalHeld s d).time = s.time ∧ (State.thermalHeld s d).sets = s.sets ∧ (State.thermalHeld s d).src = s.src ∧ (State.thermalHeld s d).comp = s.comp ∧ (State.thermalHeld s d).heads = s.heads ∧ (State.thermalHeld s d).panels = s.panels ∧ (State.thermalHeld s d).panelInit = s.panelInit ∧ (State.thermalHeld s d).keys = s.keys ∧ (State.thermalHeld s d).keyRef = s.keyRef ∧ (State.thermalHeld s d).encJobs = s.encJobs ∧ (State.thermalHeld s d).enc = s.enc ∧ (State.thermalHeld s d).links = s.links ∧ (State.thermalHeld s d).pair = s.pair ∧ (State.thermalHeld s d).mem = s.mem ∧ (State.thermalHeld s d).sec = s.sec ∧ (State.thermalHeld s d).power = s.power ∧ (State.thermalHeld s d).draw = s.draw := by
  simp [State.thermalHeld]

@[simp] theorem State.selfTests_frame (s : State) (d : Nat) (t : SelfTest) :
    (State.selfTests s d t).pending = s.pending ∧ (State.selfTests s d t).time = s.time ∧ (State.selfTests s d t).sets = s.sets ∧ (State.selfTests s d t).panelInit = s.panelInit ∧ (State.selfTests s d t).keys = s.keys ∧ (State.selfTests s d t).keyRef = s.keyRef ∧ (State.selfTests s d t).encJobs = s.encJobs ∧ (State.selfTests s d t).sec = s.sec ∧ (State.selfTests s d t).draw = s.draw := by
  unfold State.selfTests; (try dsimp only); (repeat' split) <;> simp

@[simp] theorem State.domainStops_frame (s : State) (d : Nat) :
    (State.domainStops s d).pending = s.pending ∧ (State.domainStops s d).sets = s.sets ∧ (State.domainStops s d).panelInit = s.panelInit ∧ (State.domainStops s d).keys = s.keys ∧ (State.domainStops s d).keyRef = s.keyRef ∧ (State.domainStops s d).encJobs = s.encJobs ∧ (State.domainStops s d).sec = s.sec ∧ (State.domainStops s d).draw = s.draw := by
  simp [State.domainStops]

@[simp] theorem State.stopScanout_frame (s : State) :
    (State.stopScanout s).pending = s.pending ∧ (State.stopScanout s).time = s.time ∧ (State.stopScanout s).sets = s.sets ∧ (State.stopScanout s).src = s.src ∧ (State.stopScanout s).panels = s.panels ∧ (State.stopScanout s).panelInit = s.panelInit ∧ (State.stopScanout s).keys = s.keys ∧ (State.stopScanout s).keyRef = s.keyRef ∧ (State.stopScanout s).encJobs = s.encJobs ∧ (State.stopScanout s).enc = s.enc ∧ (State.stopScanout s).links = s.links ∧ (State.stopScanout s).pair = s.pair ∧ (State.stopScanout s).fault = s.fault ∧ (State.stopScanout s).sec = s.sec ∧ (State.stopScanout s).power = s.power ∧ (State.stopScanout s).draw = s.draw := by
  unfold State.stopScanout
  refine ⟨?_, ?_, ?_, ?_, ?_, ?_, ?_, ?_, ?_, ?_, ?_, ?_, ?_, ?_, ?_, ?_⟩ <;>
    (refine each_same _ _ _ _ (fun s a => ?_); (try dsimp only); (repeat' split) <;> simp)

@[simp] theorem State.stopConsole_frame (s : State) :
    (State.stopConsole s).pending = s.pending ∧ (State.stopConsole s).time = s.time ∧ (State.stopConsole s).sets = s.sets ∧ (State.stopConsole s).src = s.src ∧ (State.stopConsole s).heads = s.heads ∧ (State.stopConsole s).panelInit = s.panelInit ∧ (State.stopConsole s).keys = s.keys ∧ (State.stopConsole s).keyRef = s.keyRef ∧ (State.stopConsole s).encJobs = s.encJobs ∧ (State.stopConsole s).enc = s.enc ∧ (State.stopConsole s).links = s.links ∧ (State.stopConsole s).pair = s.pair ∧ (State.stopConsole s).fault = s.fault ∧ (State.stopConsole s).sec = s.sec ∧ (State.stopConsole s).power = s.power ∧ (State.stopConsole s).draw = s.draw := by
  unfold State.stopConsole
  refine ⟨?_, ?_, ?_, ?_, ?_, ?_, ?_, ?_, ?_, ?_, ?_, ?_, ?_, ?_, ?_, ?_⟩ <;>
    (refine each_same _ _ _ _ (fun s a => ?_); (try dsimp only); (repeat' split) <;> simp)

@[simp] theorem State.stopCore_frame (s : State) (c : Nat) :
    (State.stopCore s c).pending = s.pending ∧ (State.stopCore s c).time = s.time ∧ (State.stopCore s c).sets = s.sets ∧ (State.stopCore s c).heads = s.heads ∧ (State.stopCore s c).panels = s.panels ∧ (State.stopCore s c).panelInit = s.panelInit ∧ (State.stopCore s c).keys = s.keys ∧ (State.stopCore s c).keyRef = s.keyRef ∧ (State.stopCore s c).encJobs = s.encJobs ∧ (State.stopCore s c).links = s.links ∧ (State.stopCore s c).pair = s.pair ∧ (State.stopCore s c).mem = s.mem ∧ (State.stopCore s c).fault = s.fault ∧ (State.stopCore s c).sec = s.sec ∧ (State.stopCore s c).power = s.power ∧ (State.stopCore s c).draw = s.draw := by
  unfold State.stopCore
  refine ⟨?_, ?_, ?_, ?_, ?_, ?_, ?_, ?_, ?_, ?_, ?_, ?_, ?_, ?_, ?_, ?_⟩ <;>
    (refine each_same _ _ _ _ (fun s a => ?_); (try dsimp only); (repeat' split) <;> simp)

@[simp] theorem State.stopEncoder_frame (s : State) :
    (State.stopEncoder s).pending = s.pending ∧ (State.stopEncoder s).time = s.time ∧ (State.stopEncoder s).mail = s.mail ∧ (State.stopEncoder s).sets = s.sets ∧ (State.stopEncoder s).src = s.src ∧ (State.stopEncoder s).comp = s.comp ∧ (State.stopEncoder s).heads = s.heads ∧ (State.stopEncoder s).panels = s.panels ∧ (State.stopEncoder s).panelInit = s.panelInit ∧ (State.stopEncoder s).keys = s.keys ∧ (State.stopEncoder s).keyRef = s.keyRef ∧ (State.stopEncoder s).encJobs = s.encJobs ∧ (State.stopEncoder s).links = s.links ∧ (State.stopEncoder s).pair = s.pair ∧ (State.stopEncoder s).mem = s.mem ∧ (State.stopEncoder s).fault = s.fault ∧ (State.stopEncoder s).sec = s.sec ∧ (State.stopEncoder s).power = s.power ∧ (State.stopEncoder s).draw = s.draw := by
  unfold State.stopEncoder
  refine ⟨?_, ?_, ?_, ?_, ?_, ?_, ?_, ?_, ?_, ?_, ?_, ?_, ?_, ?_, ?_, ?_, ?_, ?_, ?_⟩ <;>
    (refine each_same _ _ _ _ (fun s a => ?_); (try dsimp only); (repeat' split) <;> simp)

@[simp] theorem State.maskStops_frame (s : State) (d : Nat) :
    (State.maskStops s d).pending = s.pending ∧ (State.maskStops s d).sets = s.sets ∧ (State.maskStops s d).panelInit = s.panelInit ∧ (State.maskStops s d).keys = s.keys ∧ (State.maskStops s d).keyRef = s.keyRef ∧ (State.maskStops s d).encJobs = s.encJobs ∧ (State.maskStops s d).sec = s.sec ∧ (State.maskStops s d).draw = s.draw := by
  simp [State.maskStops]

@[simp] theorem State.unitsStart_frame (s : State) (d : Nat) :
    (State.unitsStart s d).pending = s.pending ∧ (State.unitsStart s d).time = s.time ∧ (State.unitsStart s d).sets = s.sets ∧ (State.unitsStart s d).src = s.src ∧ (State.unitsStart s d).panelInit = s.panelInit ∧ (State.unitsStart s d).keys = s.keys ∧ (State.unitsStart s d).keyRef = s.keyRef ∧ (State.unitsStart s d).encJobs = s.encJobs ∧ (State.unitsStart s d).sec = s.sec ∧ (State.unitsStart s d).draw = s.draw := by
  simp [State.unitsStart]

@[simp] theorem State.startConsole_frame (s : State) :
    (State.startConsole s).pending = s.pending ∧ (State.startConsole s).time = s.time ∧ (State.startConsole s).ledger = s.ledger ∧ (State.startConsole s).mail = s.mail ∧ (State.startConsole s).sets = s.sets ∧ (State.startConsole s).src = s.src ∧ (State.startConsole s).comp = s.comp ∧ (State.startConsole s).heads = s.heads ∧ (State.startConsole s).panelInit = s.panelInit ∧ (State.startConsole s).keys = s.keys ∧ (State.startConsole s).keyRef = s.keyRef ∧ (State.startConsole s).encJobs = s.encJobs ∧ (State.startConsole s).enc = s.enc ∧ (State.startConsole s).links = s.links ∧ (State.startConsole s).pair = s.pair ∧ (State.startConsole s).mem = s.mem ∧ (State.startConsole s).fault = s.fault ∧ (State.startConsole s).sec = s.sec ∧ (State.startConsole s).power = s.power ∧ (State.startConsole s).draw = s.draw := by
  unfold State.startConsole
  refine ⟨?_, ?_, ?_, ?_, ?_, ?_, ?_, ?_, ?_, ?_, ?_, ?_, ?_, ?_, ?_, ?_, ?_, ?_, ?_, ?_⟩ <;>
    (refine each_same _ _ _ _ (fun s a => ?_); (try dsimp only); (repeat' split) <;> simp)

@[simp] theorem State.dropTiles_frame (s : State) :
    (State.dropTiles s).pending = s.pending ∧ (State.dropTiles s).time = s.time ∧ (State.dropTiles s).sets = s.sets ∧ (State.dropTiles s).src = s.src ∧ (State.dropTiles s).panelInit = s.panelInit ∧ (State.dropTiles s).keys = s.keys ∧ (State.dropTiles s).keyRef = s.keyRef ∧ (State.dropTiles s).encJobs = s.encJobs ∧ (State.dropTiles s).links = s.links ∧ (State.dropTiles s).sec = s.sec ∧ (State.dropTiles s).power = s.power ∧ (State.dropTiles s).draw = s.draw := by
  simp [State.dropTiles]

@[simp] theorem State.dropFrames_frame (s : State) :
    (State.dropFrames s).pending = s.pending ∧ (State.dropFrames s).time = s.time ∧ (State.dropFrames s).ledger = s.ledger ∧ (State.dropFrames s).mail = s.mail ∧ (State.dropFrames s).sets = s.sets ∧ (State.dropFrames s).comp = s.comp ∧ (State.dropFrames s).heads = s.heads ∧ (State.dropFrames s).panels = s.panels ∧ (State.dropFrames s).panelInit = s.panelInit ∧ (State.dropFrames s).keys = s.keys ∧ (State.dropFrames s).keyRef = s.keyRef ∧ (State.dropFrames s).encJobs = s.encJobs ∧ (State.dropFrames s).enc = s.enc ∧ (State.dropFrames s).links = s.links ∧ (State.dropFrames s).pair = s.pair ∧ (State.dropFrames s).mem = s.mem ∧ (State.dropFrames s).fault = s.fault ∧ (State.dropFrames s).sec = s.sec ∧ (State.dropFrames s).power = s.power ∧ (State.dropFrames s).out = s.out ∧ (State.dropFrames s).draw = s.draw := by
  simp [State.dropFrames]

@[simp] theorem State.enterNight_frame (s : State) :
    (State.enterNight s).pending = s.pending ∧ (State.enterNight s).time = s.time ∧ (State.enterNight s).sets = s.sets ∧ (State.enterNight s).panelInit = s.panelInit ∧ (State.enterNight s).keyRef = s.keyRef ∧ (State.enterNight s).encJobs = s.encJobs ∧ (State.enterNight s).links = s.links ∧ (State.enterNight s).sec = s.sec ∧ (State.enterNight s).power = s.power ∧ (State.enterNight s).draw = s.draw := by
  simp [State.enterNight]

@[simp] theorem State.leaveNight_frame (s : State) :
    (State.leaveNight s).pending = s.pending ∧ (State.leaveNight s).sets = s.sets ∧ (State.leaveNight s).panelInit = s.panelInit ∧ (State.leaveNight s).keyRef = s.keyRef ∧ (State.leaveNight s).encJobs = s.encJobs ∧ (State.leaveNight s).sec = s.sec ∧ (State.leaveNight s).draw = s.draw := by
  simp [State.leaveNight]

@[simp] theorem State.enterOff_frame (s : State) :
    (State.enterOff s).pending = s.pending ∧ (State.enterOff s).time = s.time ∧ (State.enterOff s).sets = s.sets ∧ (State.enterOff s).src = s.src ∧ (State.enterOff s).panelInit = s.panelInit ∧ (State.enterOff s).keys = s.keys ∧ (State.enterOff s).keyRef = s.keyRef ∧ (State.enterOff s).encJobs = s.encJobs ∧ (State.enterOff s).links = s.links ∧ (State.enterOff s).sec = s.sec ∧ (State.enterOff s).draw = s.draw := by
  simp [State.enterOff]

@[simp] theorem State.later_frame (s : State) (code : Nat) (ps : List Nat) :
    (State.later s code ps).pending = s.pending ∧ (State.later s code ps).time = s.time ∧ (State.later s code ps).ledger = s.ledger ∧ (State.later s code ps).mail = s.mail ∧ (State.later s code ps).sets = s.sets ∧ (State.later s code ps).src = s.src ∧ (State.later s code ps).comp = s.comp ∧ (State.later s code ps).heads = s.heads ∧ (State.later s code ps).panels = s.panels ∧ (State.later s code ps).panelInit = s.panelInit ∧ (State.later s code ps).keys = s.keys ∧ (State.later s code ps).keyRef = s.keyRef ∧ (State.later s code ps).encJobs = s.encJobs ∧ (State.later s code ps).enc = s.enc ∧ (State.later s code ps).links = s.links ∧ (State.later s code ps).pair = s.pair ∧ (State.later s code ps).mem = s.mem ∧ (State.later s code ps).fault = s.fault ∧ (State.later s code ps).sec = s.sec ∧ (State.later s code ps).out = s.out ∧ (State.later s code ps).draw = s.draw := by
  simp [State.later]

@[simp] theorem State.laterFault_frame (s : State) (msg : Nat) :
    (State.laterFault s msg).pending = s.pending ∧ (State.laterFault s msg).time = s.time ∧ (State.laterFault s msg).ledger = s.ledger ∧ (State.laterFault s msg).mail = s.mail ∧ (State.laterFault s msg).sets = s.sets ∧ (State.laterFault s msg).src = s.src ∧ (State.laterFault s msg).comp = s.comp ∧ (State.laterFault s msg).heads = s.heads ∧ (State.laterFault s msg).panels = s.panels ∧ (State.laterFault s msg).panelInit = s.panelInit ∧ (State.laterFault s msg).keys = s.keys ∧ (State.laterFault s msg).keyRef = s.keyRef ∧ (State.laterFault s msg).encJobs = s.encJobs ∧ (State.laterFault s msg).enc = s.enc ∧ (State.laterFault s msg).links = s.links ∧ (State.laterFault s msg).pair = s.pair ∧ (State.laterFault s msg).mem = s.mem ∧ (State.laterFault s msg).fault = s.fault ∧ (State.laterFault s msg).sec = s.sec ∧ (State.laterFault s msg).out = s.out ∧ (State.laterFault s msg).draw = s.draw := by
  simp [State.laterFault]

@[simp] theorem State.endSessions_frame (s : State) :
    (State.endSessions s).pending = s.pending ∧ (State.endSessions s).time = s.time ∧ (State.endSessions s).ledger = s.ledger ∧ (State.endSessions s).sets = s.sets ∧ (State.endSessions s).src = s.src ∧ (State.endSessions s).comp = s.comp ∧ (State.endSessions s).heads = s.heads ∧ (State.endSessions s).panels = s.panels ∧ (State.endSessions s).panelInit = s.panelInit ∧ (State.endSessions s).keys = s.keys ∧ (State.endSessions s).keyRef = s.keyRef ∧ (State.endSessions s).encJobs = s.encJobs ∧ (State.endSessions s).enc = s.enc ∧ (State.endSessions s).links = s.links ∧ (State.endSessions s).pair = s.pair ∧ (State.endSessions s).mem = s.mem ∧ (State.endSessions s).fault = s.fault ∧ (State.endSessions s).sec = s.sec ∧ (State.endSessions s).out = s.out ∧ (State.endSessions s).draw = s.draw := by
  simp [State.endSessions]

@[simp] theorem State.endSubscriptions_frame (s : State) :
    (State.endSubscriptions s).pending = s.pending ∧ (State.endSubscriptions s).time = s.time ∧ (State.endSubscriptions s).ledger = s.ledger ∧ (State.endSubscriptions s).mail = s.mail ∧ (State.endSubscriptions s).sets = s.sets ∧ (State.endSubscriptions s).src = s.src ∧ (State.endSubscriptions s).comp = s.comp ∧ (State.endSubscriptions s).heads = s.heads ∧ (State.endSubscriptions s).panels = s.panels ∧ (State.endSubscriptions s).panelInit = s.panelInit ∧ (State.endSubscriptions s).keys = s.keys ∧ (State.endSubscriptions s).keyRef = s.keyRef ∧ (State.endSubscriptions s).encJobs = s.encJobs ∧ (State.endSubscriptions s).enc = s.enc ∧ (State.endSubscriptions s).links = s.links ∧ (State.endSubscriptions s).pair = s.pair ∧ (State.endSubscriptions s).mem = s.mem ∧ (State.endSubscriptions s).fault = s.fault ∧ (State.endSubscriptions s).sec = s.sec ∧ (State.endSubscriptions s).out = s.out ∧ (State.endSubscriptions s).draw = s.draw := by
  simp [State.endSubscriptions]

@[simp] theorem State.endDebug_frame (s : State) :
    (State.endDebug s).pending = s.pending ∧ (State.endDebug s).time = s.time ∧ (State.endDebug s).ledger = s.ledger ∧ (State.endDebug s).mail = s.mail ∧ (State.endDebug s).sets = s.sets ∧ (State.endDebug s).src = s.src ∧ (State.endDebug s).comp = s.comp ∧ (State.endDebug s).heads = s.heads ∧ (State.endDebug s).panels = s.panels ∧ (State.endDebug s).panelInit = s.panelInit ∧ (State.endDebug s).keys = s.keys ∧ (State.endDebug s).keyRef = s.keyRef ∧ (State.endDebug s).encJobs = s.encJobs ∧ (State.endDebug s).enc = s.enc ∧ (State.endDebug s).links = s.links ∧ (State.endDebug s).pair = s.pair ∧ (State.endDebug s).mem = s.mem ∧ (State.endDebug s).fault = s.fault ∧ (State.endDebug s).out = s.out ∧ (State.endDebug s).draw = s.draw := by
  unfold State.endDebug; (try dsimp only); (repeat' split) <;> simp

@[simp] theorem State.endAll_frame (s : State) (kind : Nat) :
    (State.endAll s kind).pending = s.pending ∧ (State.endAll s kind).time = s.time ∧ (State.endAll s kind).ledger = s.ledger ∧ (State.endAll s kind).src = s.src ∧ (State.endAll s kind).heads = s.heads ∧ (State.endAll s kind).panels = s.panels ∧ (State.endAll s kind).panelInit = s.panelInit ∧ (State.endAll s kind).keys = s.keys ∧ (State.endAll s kind).keyRef = s.keyRef ∧ (State.endAll s kind).encJobs = s.encJobs ∧ (State.endAll s kind).enc = s.enc ∧ (State.endAll s kind).mem = s.mem ∧ (State.endAll s kind).fault = s.fault ∧ (State.endAll s kind).draw = s.draw := by
  simp [State.endAll]

@[simp] theorem State.resetSets_frame (s : State) :
    (State.resetSets s).pending = s.pending ∧ (State.resetSets s).time = s.time ∧ (State.resetSets s).ledger = s.ledger ∧ (State.resetSets s).mail = s.mail ∧ (State.resetSets s).src = s.src ∧ (State.resetSets s).comp = s.comp ∧ (State.resetSets s).heads = s.heads ∧ (State.resetSets s).panels = s.panels ∧ (State.resetSets s).panelInit = s.panelInit ∧ (State.resetSets s).keys = s.keys ∧ (State.resetSets s).keyRef = s.keyRef ∧ (State.resetSets s).encJobs = s.encJobs ∧ (State.resetSets s).enc = s.enc ∧ (State.resetSets s).links = s.links ∧ (State.resetSets s).pair = s.pair ∧ (State.resetSets s).mem = s.mem ∧ (State.resetSets s).fault = s.fault ∧ (State.resetSets s).sec = s.sec ∧ (State.resetSets s).power = s.power ∧ (State.resetSets s).out = s.out ∧ (State.resetSets s).draw = s.draw := by
  simp [State.resetSets]

@[simp] theorem State.resetTime_frame (s : State) (k : ResetKind) :
    (State.resetTime s k).pending = s.pending ∧ (State.resetTime s k).ledger = s.ledger ∧ (State.resetTime s k).mail = s.mail ∧ (State.resetTime s k).sets = s.sets ∧ (State.resetTime s k).src = s.src ∧ (State.resetTime s k).comp = s.comp ∧ (State.resetTime s k).heads = s.heads ∧ (State.resetTime s k).panels = s.panels ∧ (State.resetTime s k).panelInit = s.panelInit ∧ (State.resetTime s k).keys = s.keys ∧ (State.resetTime s k).keyRef = s.keyRef ∧ (State.resetTime s k).encJobs = s.encJobs ∧ (State.resetTime s k).enc = s.enc ∧ (State.resetTime s k).links = s.links ∧ (State.resetTime s k).pair = s.pair ∧ (State.resetTime s k).mem = s.mem ∧ (State.resetTime s k).fault = s.fault ∧ (State.resetTime s k).sec = s.sec ∧ (State.resetTime s k).out = s.out ∧ (State.resetTime s k).draw = s.draw := by
  unfold State.resetTime; (try dsimp only); (repeat' split) <;> simp

@[simp] theorem State.resetOutputs_frame (s : State) (k : ResetKind) :
    (State.resetOutputs s k).pending = s.pending ∧ (State.resetOutputs s k).time = s.time ∧ (State.resetOutputs s k).ledger = s.ledger ∧ (State.resetOutputs s k).mail = s.mail ∧ (State.resetOutputs s k).sets = s.sets ∧ (State.resetOutputs s k).src = s.src ∧ (State.resetOutputs s k).comp = s.comp ∧ (State.resetOutputs s k).panelInit = s.panelInit ∧ (State.resetOutputs s k).keyRef = s.keyRef ∧ (State.resetOutputs s k).encJobs = s.encJobs ∧ (State.resetOutputs s k).links = s.links ∧ (State.resetOutputs s k).pair = s.pair ∧ (State.resetOutputs s k).mem = s.mem ∧ (State.resetOutputs s k).fault = s.fault ∧ (State.resetOutputs s k).sec = s.sec ∧ (State.resetOutputs s k).power = s.power ∧ (State.resetOutputs s k).out = s.out ∧ (State.resetOutputs s k).draw = s.draw := by
  simp [State.resetOutputs]

@[simp] theorem State.resetCompose_frame (s : State) :
    (State.resetCompose s).pending = s.pending ∧ (State.resetCompose s).time = s.time ∧ (State.resetCompose s).ledger = s.ledger ∧ (State.resetCompose s).mail = s.mail ∧ (State.resetCompose s).sets = s.sets ∧ (State.resetCompose s).src = s.src ∧ (State.resetCompose s).heads = s.heads ∧ (State.resetCompose s).panels = s.panels ∧ (State.resetCompose s).panelInit = s.panelInit ∧ (State.resetCompose s).keys = s.keys ∧ (State.resetCompose s).keyRef = s.keyRef ∧ (State.resetCompose s).encJobs = s.encJobs ∧ (State.resetCompose s).enc = s.enc ∧ (State.resetCompose s).links = s.links ∧ (State.resetCompose s).pair = s.pair ∧ (State.resetCompose s).mem = s.mem ∧ (State.resetCompose s).fault = s.fault ∧ (State.resetCompose s).sec = s.sec ∧ (State.resetCompose s).power = s.power ∧ (State.resetCompose s).out = s.out ∧ (State.resetCompose s).draw = s.draw := by
  simp [State.resetCompose]

@[simp] theorem State.resetLinks_frame (s : State) (k : ResetKind) :
    (State.resetLinks s k).pending = s.pending ∧ (State.resetLinks s k).time = s.time ∧ (State.resetLinks s k).ledger = s.ledger ∧ (State.resetLinks s k).mail = s.mail ∧ (State.resetLinks s k).sets = s.sets ∧ (State.resetLinks s k).src = s.src ∧ (State.resetLinks s k).comp = s.comp ∧ (State.resetLinks s k).heads = s.heads ∧ (State.resetLinks s k).panels = s.panels ∧ (State.resetLinks s k).panelInit = s.panelInit ∧ (State.resetLinks s k).keys = s.keys ∧ (State.resetLinks s k).keyRef = s.keyRef ∧ (State.resetLinks s k).encJobs = s.encJobs ∧ (State.resetLinks s k).enc = s.enc ∧ (State.resetLinks s k).pair = s.pair ∧ (State.resetLinks s k).mem = s.mem ∧ (State.resetLinks s k).fault = s.fault ∧ (State.resetLinks s k).sec = s.sec ∧ (State.resetLinks s k).power = s.power ∧ (State.resetLinks s k).out = s.out ∧ (State.resetLinks s k).draw = s.draw := by
  simp [State.resetLinks]

@[simp] theorem State.resetPair_frame (s : State) (k : ResetKind) :
    (State.resetPair s k).pending = s.pending ∧ (State.resetPair s k).time = s.time ∧ (State.resetPair s k).ledger = s.ledger ∧ (State.resetPair s k).mail = s.mail ∧ (State.resetPair s k).sets = s.sets ∧ (State.resetPair s k).src = s.src ∧ (State.resetPair s k).comp = s.comp ∧ (State.resetPair s k).heads = s.heads ∧ (State.resetPair s k).panels = s.panels ∧ (State.resetPair s k).panelInit = s.panelInit ∧ (State.resetPair s k).keys = s.keys ∧ (State.resetPair s k).keyRef = s.keyRef ∧ (State.resetPair s k).encJobs = s.encJobs ∧ (State.resetPair s k).enc = s.enc ∧ (State.resetPair s k).links = s.links ∧ (State.resetPair s k).mem = s.mem ∧ (State.resetPair s k).fault = s.fault ∧ (State.resetPair s k).sec = s.sec ∧ (State.resetPair s k).power = s.power ∧ (State.resetPair s k).out = s.out ∧ (State.resetPair s k).draw = s.draw := by
  simp [State.resetPair]

@[simp] theorem State.resetMem_frame (s : State) (k : ResetKind) :
    (State.resetMem s k).pending = s.pending ∧ (State.resetMem s k).time = s.time ∧ (State.resetMem s k).ledger = s.ledger ∧ (State.resetMem s k).mail = s.mail ∧ (State.resetMem s k).sets = s.sets ∧ (State.resetMem s k).src = s.src ∧ (State.resetMem s k).comp = s.comp ∧ (State.resetMem s k).heads = s.heads ∧ (State.resetMem s k).panels = s.panels ∧ (State.resetMem s k).panelInit = s.panelInit ∧ (State.resetMem s k).keys = s.keys ∧ (State.resetMem s k).keyRef = s.keyRef ∧ (State.resetMem s k).encJobs = s.encJobs ∧ (State.resetMem s k).enc = s.enc ∧ (State.resetMem s k).links = s.links ∧ (State.resetMem s k).pair = s.pair ∧ (State.resetMem s k).fault = s.fault ∧ (State.resetMem s k).power = s.power ∧ (State.resetMem s k).out = s.out ∧ (State.resetMem s k).draw = s.draw := by
  simp [State.resetMem]

@[simp] theorem State.resetFaults_frame (s : State) (k : ResetKind) :
    (State.resetFaults s k).pending = s.pending ∧ (State.resetFaults s k).time = s.time ∧ (State.resetFaults s k).mail = s.mail ∧ (State.resetFaults s k).sets = s.sets ∧ (State.resetFaults s k).src = s.src ∧ (State.resetFaults s k).comp = s.comp ∧ (State.resetFaults s k).heads = s.heads ∧ (State.resetFaults s k).panels = s.panels ∧ (State.resetFaults s k).panelInit = s.panelInit ∧ (State.resetFaults s k).keys = s.keys ∧ (State.resetFaults s k).keyRef = s.keyRef ∧ (State.resetFaults s k).encJobs = s.encJobs ∧ (State.resetFaults s k).enc = s.enc ∧ (State.resetFaults s k).links = s.links ∧ (State.resetFaults s k).pair = s.pair ∧ (State.resetFaults s k).mem = s.mem ∧ (State.resetFaults s k).sec = s.sec ∧ (State.resetFaults s k).power = s.power ∧ (State.resetFaults s k).out = s.out ∧ (State.resetFaults s k).draw = s.draw := by
  simp [State.resetFaults]

@[simp] theorem State.resetSec_frame (s : State) (k : ResetKind) :
    (State.resetSec s k).pending = s.pending ∧ (State.resetSec s k).time = s.time ∧ (State.resetSec s k).ledger = s.ledger ∧ (State.resetSec s k).mail = s.mail ∧ (State.resetSec s k).sets = s.sets ∧ (State.resetSec s k).src = s.src ∧ (State.resetSec s k).comp = s.comp ∧ (State.resetSec s k).heads = s.heads ∧ (State.resetSec s k).panels = s.panels ∧ (State.resetSec s k).panelInit = s.panelInit ∧ (State.resetSec s k).keys = s.keys ∧ (State.resetSec s k).keyRef = s.keyRef ∧ (State.resetSec s k).encJobs = s.encJobs ∧ (State.resetSec s k).enc = s.enc ∧ (State.resetSec s k).links = s.links ∧ (State.resetSec s k).pair = s.pair ∧ (State.resetSec s k).mem = s.mem ∧ (State.resetSec s k).fault = s.fault ∧ (State.resetSec s k).power = s.power ∧ (State.resetSec s k).out = s.out ∧ (State.resetSec s k).draw = s.draw := by
  simp [State.resetSec]

@[simp] theorem State.resetLedger_frame (s : State) (k : ResetKind) :
    (State.resetLedger s k).pending = s.pending ∧ (State.resetLedger s k).time = s.time ∧ (State.resetLedger s k).mail = s.mail ∧ (State.resetLedger s k).sets = s.sets ∧ (State.resetLedger s k).src = s.src ∧ (State.resetLedger s k).comp = s.comp ∧ (State.resetLedger s k).heads = s.heads ∧ (State.resetLedger s k).panels = s.panels ∧ (State.resetLedger s k).panelInit = s.panelInit ∧ (State.resetLedger s k).keys = s.keys ∧ (State.resetLedger s k).keyRef = s.keyRef ∧ (State.resetLedger s k).encJobs = s.encJobs ∧ (State.resetLedger s k).enc = s.enc ∧ (State.resetLedger s k).links = s.links ∧ (State.resetLedger s k).pair = s.pair ∧ (State.resetLedger s k).mem = s.mem ∧ (State.resetLedger s k).fault = s.fault ∧ (State.resetLedger s k).sec = s.sec ∧ (State.resetLedger s k).power = s.power ∧ (State.resetLedger s k).out = s.out ∧ (State.resetLedger s k).draw = s.draw := by
  simp [State.resetLedger]

@[simp] theorem State.resetCounter_frame (s : State) (k : ResetKind) :
    (State.resetCounter s k).pending = s.pending ∧ (State.resetCounter s k).time = s.time ∧ (State.resetCounter s k).ledger = s.ledger ∧ (State.resetCounter s k).sets = s.sets ∧ (State.resetCounter s k).src = s.src ∧ (State.resetCounter s k).comp = s.comp ∧ (State.resetCounter s k).heads = s.heads ∧ (State.resetCounter s k).panels = s.panels ∧ (State.resetCounter s k).panelInit = s.panelInit ∧ (State.resetCounter s k).keys = s.keys ∧ (State.resetCounter s k).keyRef = s.keyRef ∧ (State.resetCounter s k).encJobs = s.encJobs ∧ (State.resetCounter s k).enc = s.enc ∧ (State.resetCounter s k).links = s.links ∧ (State.resetCounter s k).pair = s.pair ∧ (State.resetCounter s k).mem = s.mem ∧ (State.resetCounter s k).fault = s.fault ∧ (State.resetCounter s k).sec = s.sec ∧ (State.resetCounter s k).power = s.power ∧ (State.resetCounter s k).out = s.out ∧ (State.resetCounter s k).draw = s.draw := by
  simp [State.resetCounter]

@[simp] theorem State.resetPower_frame (s : State) (k : ResetKind) (detail : Nat) :
    (State.resetPower s k detail).pending = s.pending ∧ (State.resetPower s k detail).time = s.time ∧ (State.resetPower s k detail).ledger = s.ledger ∧ (State.resetPower s k detail).mail = s.mail ∧ (State.resetPower s k detail).sets = s.sets ∧ (State.resetPower s k detail).src = s.src ∧ (State.resetPower s k detail).comp = s.comp ∧ (State.resetPower s k detail).heads = s.heads ∧ (State.resetPower s k detail).panels = s.panels ∧ (State.resetPower s k detail).panelInit = s.panelInit ∧ (State.resetPower s k detail).keys = s.keys ∧ (State.resetPower s k detail).keyRef = s.keyRef ∧ (State.resetPower s k detail).encJobs = s.encJobs ∧ (State.resetPower s k detail).enc = s.enc ∧ (State.resetPower s k detail).links = s.links ∧ (State.resetPower s k detail).pair = s.pair ∧ (State.resetPower s k detail).mem = s.mem ∧ (State.resetPower s k detail).fault = s.fault ∧ (State.resetPower s k detail).sec = s.sec ∧ (State.resetPower s k detail).out = s.out ∧ (State.resetPower s k detail).draw = s.draw := by
  simp [State.resetPower]

@[simp] theorem State.applyLifecycle_frame (s : State) :
    (State.applyLifecycle s).pending = s.pending ∧ (State.applyLifecycle s).time = s.time ∧ (State.applyLifecycle s).ledger = s.ledger ∧ (State.applyLifecycle s).mail = s.mail ∧ (State.applyLifecycle s).sets = s.sets ∧ (State.applyLifecycle s).src = s.src ∧ (State.applyLifecycle s).comp = s.comp ∧ (State.applyLifecycle s).heads = s.heads ∧ (State.applyLifecycle s).panels = s.panels ∧ (State.applyLifecycle s).panelInit = s.panelInit ∧ (State.applyLifecycle s).keys = s.keys ∧ (State.applyLifecycle s).keyRef = s.keyRef ∧ (State.applyLifecycle s).encJobs = s.encJobs ∧ (State.applyLifecycle s).enc = s.enc ∧ (State.applyLifecycle s).links = s.links ∧ (State.applyLifecycle s).pair = s.pair ∧ (State.applyLifecycle s).mem = s.mem ∧ (State.applyLifecycle s).fault = s.fault ∧ (State.applyLifecycle s).out = s.out ∧ (State.applyLifecycle s).draw = s.draw := by
  unfold State.applyLifecycle; (try dsimp only); (repeat' split) <;> simp

@[simp] theorem State.boot_frame (s : State) :
    (State.boot s).pending = s.pending ∧ (State.boot s).time = s.time ∧ (State.boot s).ledger = s.ledger ∧ (State.boot s).mail = s.mail ∧ (State.boot s).sets = s.sets ∧ (State.boot s).src = s.src ∧ (State.boot s).comp = s.comp ∧ (State.boot s).heads = s.heads ∧ (State.boot s).panels = s.panels ∧ (State.boot s).panelInit = s.panelInit ∧ (State.boot s).keys = s.keys ∧ (State.boot s).keyRef = s.keyRef ∧ (State.boot s).encJobs = s.encJobs ∧ (State.boot s).enc = s.enc ∧ (State.boot s).links = s.links ∧ (State.boot s).pair = s.pair ∧ (State.boot s).mem = s.mem ∧ (State.boot s).out = s.out ∧ (State.boot s).draw = s.draw := by
  unfold State.boot; (try dsimp only); (repeat' split) <;> simp

@[simp] theorem State.reset'_frame (s : State) (k : ResetKind) (detail : Nat) :
    (State.reset' s k detail).pending = s.pending ∧ (State.reset' s k detail).keyRef = s.keyRef ∧ (State.reset' s k detail).draw = s.draw := by
  simp [State.reset']

@[simp] theorem State.auditorReset_frame (s : State) (detail msg : Nat) :
    (State.auditorReset s detail msg).pending = s.pending ∧ (State.auditorReset s detail msg).keyRef = s.keyRef ∧ (State.auditorReset s detail msg).draw = s.draw := by
  simp [State.auditorReset]

@[simp] theorem State.tampered_frame (s : State) (m : Nat) :
    (State.tampered s m).pending = s.pending ∧ (State.tampered s m).time = s.time ∧ (State.tampered s m).ledger = s.ledger ∧ (State.tampered s m).mail = s.mail ∧ (State.tampered s m).sets = s.sets ∧ (State.tampered s m).src = s.src ∧ (State.tampered s m).comp = s.comp ∧ (State.tampered s m).heads = s.heads ∧ (State.tampered s m).panels = s.panels ∧ (State.tampered s m).panelInit = s.panelInit ∧ (State.tampered s m).keys = s.keys ∧ (State.tampered s m).keyRef = s.keyRef ∧ (State.tampered s m).encJobs = s.encJobs ∧ (State.tampered s m).enc = s.enc ∧ (State.tampered s m).links = s.links ∧ (State.tampered s m).pair = s.pair ∧ (State.tampered s m).mem = s.mem ∧ (State.tampered s m).out = s.out ∧ (State.tampered s m).draw = s.draw := by
  simp [State.tampered]

@[simp] theorem State.released_frame (s : State) :
    (State.released s).pending = s.pending ∧ (State.released s).time = s.time ∧ (State.released s).ledger = s.ledger ∧ (State.released s).mail = s.mail ∧ (State.released s).sets = s.sets ∧ (State.released s).src = s.src ∧ (State.released s).comp = s.comp ∧ (State.released s).heads = s.heads ∧ (State.released s).panels = s.panels ∧ (State.released s).panelInit = s.panelInit ∧ (State.released s).keys = s.keys ∧ (State.released s).keyRef = s.keyRef ∧ (State.released s).encJobs = s.encJobs ∧ (State.released s).enc = s.enc ∧ (State.released s).links = s.links ∧ (State.released s).pair = s.pair ∧ (State.released s).mem = s.mem ∧ (State.released s).fault = s.fault ∧ (State.released s).sec = s.sec ∧ (State.released s).out = s.out ∧ (State.released s).draw = s.draw := by
  simp [State.released]

@[simp] theorem State.testCore_frame (s : State) (c : Nat) :
    (State.testCore s c).pending = s.pending ∧ (State.testCore s c).time = s.time ∧ (State.testCore s c).sets = s.sets ∧ (State.testCore s c).panelInit = s.panelInit ∧ (State.testCore s c).keys = s.keys ∧ (State.testCore s c).keyRef = s.keyRef ∧ (State.testCore s c).encJobs = s.encJobs ∧ (State.testCore s c).links = s.links ∧ (State.testCore s c).sec = s.sec ∧ (State.testCore s c).draw = s.draw := by
  simp [State.testCore]

@[simp] theorem State.reexamineCauses_frame (s : State) :
    (State.reexamineCauses s).pending = s.pending ∧ (State.reexamineCauses s).time = s.time ∧ (State.reexamineCauses s).mail = s.mail ∧ (State.reexamineCauses s).sets = s.sets ∧ (State.reexamineCauses s).src = s.src ∧ (State.reexamineCauses s).comp = s.comp ∧ (State.reexamineCauses s).heads = s.heads ∧ (State.reexamineCauses s).panels = s.panels ∧ (State.reexamineCauses s).panelInit = s.panelInit ∧ (State.reexamineCauses s).keys = s.keys ∧ (State.reexamineCauses s).keyRef = s.keyRef ∧ (State.reexamineCauses s).encJobs = s.encJobs ∧ (State.reexamineCauses s).enc = s.enc ∧ (State.reexamineCauses s).links = s.links ∧ (State.reexamineCauses s).pair = s.pair ∧ (State.reexamineCauses s).mem = s.mem ∧ (State.reexamineCauses s).sec = s.sec ∧ (State.reexamineCauses s).out = s.out ∧ (State.reexamineCauses s).draw = s.draw := by
  simp [State.reexamineCauses]

@[simp] theorem State.stillRetired_frame (s : State) :
    (State.stillRetired s).pending = s.pending ∧ (State.stillRetired s).time = s.time ∧ (State.stillRetired s).sets = s.sets ∧ (State.stillRetired s).src = s.src ∧ (State.stillRetired s).panelInit = s.panelInit ∧ (State.stillRetired s).keys = s.keys ∧ (State.stillRetired s).keyRef = s.keyRef ∧ (State.stillRetired s).encJobs = s.encJobs ∧ (State.stillRetired s).links = s.links ∧ (State.stillRetired s).sec = s.sec ∧ (State.stillRetired s).power = s.power ∧ (State.stillRetired s).draw = s.draw := by
  simp [State.stillRetired]

@[simp] theorem State.flashDone_frame (s : State) (j : FlashJob) :
    (State.flashDone s j).pending = s.pending ∧ (State.flashDone s j).time = s.time ∧ (State.flashDone s j).sets = s.sets ∧ (State.flashDone s j).src = s.src ∧ (State.flashDone s j).comp = s.comp ∧ (State.flashDone s j).heads = s.heads ∧ (State.flashDone s j).panels = s.panels ∧ (State.flashDone s j).panelInit = s.panelInit ∧ (State.flashDone s j).keys = s.keys ∧ (State.flashDone s j).encJobs = s.encJobs ∧ (State.flashDone s j).enc = s.enc ∧ (State.flashDone s j).fault = s.fault ∧ (State.flashDone s j).draw = s.draw := by
  unfold State.flashDone; (try dsimp only); (repeat' split) <;> simp

@[simp] theorem State.performStepBack_frame (s : State) :
    (State.performStepBack s).pending = s.pending ∧ (State.performStepBack s).heads = s.heads ∧ (State.performStepBack s).panels = s.panels ∧ (State.performStepBack s).panelInit = s.panelInit ∧ (State.performStepBack s).keys = s.keys ∧ (State.performStepBack s).keyRef = s.keyRef ∧ (State.performStepBack s).encJobs = s.encJobs ∧ (State.performStepBack s).enc = s.enc ∧ (State.performStepBack s).links = s.links ∧ (State.performStepBack s).pair = s.pair ∧ (State.performStepBack s).mem = s.mem ∧ (State.performStepBack s).sec = s.sec ∧ (State.performStepBack s).power = s.power ∧ (State.performStepBack s).draw = s.draw := by
  unfold State.performStepBack; (try dsimp only); (repeat' split) <;> simp

@[simp] theorem State.changeClock_frame (s : State) :
    (State.changeClock s).pending = s.pending ∧ (State.changeClock s).ledger = s.ledger ∧ (State.changeClock s).mail = s.mail ∧ (State.changeClock s).sets = s.sets ∧ (State.changeClock s).src = s.src ∧ (State.changeClock s).comp = s.comp ∧ (State.changeClock s).panels = s.panels ∧ (State.changeClock s).panelInit = s.panelInit ∧ (State.changeClock s).keys = s.keys ∧ (State.changeClock s).keyRef = s.keyRef ∧ (State.changeClock s).encJobs = s.encJobs ∧ (State.changeClock s).links = s.links ∧ (State.changeClock s).pair = s.pair ∧ (State.changeClock s).mem = s.mem ∧ (State.changeClock s).fault = s.fault ∧ (State.changeClock s).sec = s.sec ∧ (State.changeClock s).power = s.power ∧ (State.changeClock s).out = s.out ∧ (State.changeClock s).draw = s.draw := by
  unfold State.changeClock; (try dsimp only); (repeat' split) <;> simp

@[simp] theorem State.holdHeads_frame (s : State) :
    (State.holdHeads s).pending = s.pending ∧ (State.holdHeads s).time = s.time ∧ (State.holdHeads s).ledger = s.ledger ∧ (State.holdHeads s).mail = s.mail ∧ (State.holdHeads s).sets = s.sets ∧ (State.holdHeads s).src = s.src ∧ (State.holdHeads s).comp = s.comp ∧ (State.holdHeads s).panels = s.panels ∧ (State.holdHeads s).panelInit = s.panelInit ∧ (State.holdHeads s).keys = s.keys ∧ (State.holdHeads s).keyRef = s.keyRef ∧ (State.holdHeads s).encJobs = s.encJobs ∧ (State.holdHeads s).enc = s.enc ∧ (State.holdHeads s).links = s.links ∧ (State.holdHeads s).pair = s.pair ∧ (State.holdHeads s).mem = s.mem ∧ (State.holdHeads s).fault = s.fault ∧ (State.holdHeads s).sec = s.sec ∧ (State.holdHeads s).power = s.power ∧ (State.holdHeads s).out = s.out ∧ (State.holdHeads s).draw = s.draw := by
  unfold State.holdHeads
  refine ⟨?_, ?_, ?_, ?_, ?_, ?_, ?_, ?_, ?_, ?_, ?_, ?_, ?_, ?_, ?_, ?_, ?_, ?_, ?_, ?_, ?_⟩ <;>
    (refine each_same _ _ _ _ (fun s a => ?_); (try dsimp only); (repeat' split) <;> simp)

@[simp] theorem State.lockHeads_frame (s : State) :
    (State.lockHeads s).pending = s.pending ∧ (State.lockHeads s).time = s.time ∧ (State.lockHeads s).sets = s.sets ∧ (State.lockHeads s).src = s.src ∧ (State.lockHeads s).panelInit = s.panelInit ∧ (State.lockHeads s).keys = s.keys ∧ (State.lockHeads s).keyRef = s.keyRef ∧ (State.lockHeads s).encJobs = s.encJobs ∧ (State.lockHeads s).links = s.links ∧ (State.lockHeads s).sec = s.sec ∧ (State.lockHeads s).power = s.power ∧ (State.lockHeads s).draw = s.draw := by
  unfold State.lockHeads
  refine ⟨?_, ?_, ?_, ?_, ?_, ?_, ?_, ?_, ?_, ?_, ?_, ?_⟩ <;>
    (refine each_same _ _ _ _ (fun s a => ?_); (try dsimp only); (repeat' split) <;> simp)

@[simp] theorem State.restoreOutputs_frame (s : State) :
    (State.restoreOutputs s).pending = s.pending ∧ (State.restoreOutputs s).time = s.time ∧ (State.restoreOutputs s).sets = s.sets ∧ (State.restoreOutputs s).src = s.src ∧ (State.restoreOutputs s).panelInit = s.panelInit ∧ (State.restoreOutputs s).keys = s.keys ∧ (State.restoreOutputs s).keyRef = s.keyRef ∧ (State.restoreOutputs s).encJobs = s.encJobs ∧ (State.restoreOutputs s).links = s.links ∧ (State.restoreOutputs s).sec = s.sec ∧ (State.restoreOutputs s).power = s.power ∧ (State.restoreOutputs s).draw = s.draw := by
  simp [State.restoreOutputs]

@[simp] theorem State.restartJobs_frame (s : State) :
    (State.restartJobs s).pending = s.pending ∧ (State.restartJobs s).time = s.time ∧ (State.restartJobs s).sets = s.sets ∧ (State.restartJobs s).src = s.src ∧ (State.restartJobs s).panelInit = s.panelInit ∧ (State.restartJobs s).keys = s.keys ∧ (State.restartJobs s).keyRef = s.keyRef ∧ (State.restartJobs s).encJobs = s.encJobs ∧ (State.restartJobs s).sec = s.sec ∧ (State.restartJobs s).draw = s.draw := by
  simp [State.restartJobs]

@[simp] theorem State.restoreSet_frame (s : State) :
    (State.restoreSet s).pending = s.pending ∧ (State.restoreSet s).panelInit = s.panelInit ∧ (State.restoreSet s).keys = s.keys ∧ (State.restoreSet s).keyRef = s.keyRef ∧ (State.restoreSet s).encJobs = s.encJobs ∧ (State.restoreSet s).sec = s.sec ∧ (State.restoreSet s).draw = s.draw := by
  simp [State.restoreSet]

@[simp] theorem State.effectAtRoom_frame (s : State) :
    (State.effectAtRoom s).pending = s.pending ∧ (State.effectAtRoom s).time = s.time ∧ (State.effectAtRoom s).src = s.src ∧ (State.effectAtRoom s).heads = s.heads ∧ (State.effectAtRoom s).panels = s.panels ∧ (State.effectAtRoom s).panelInit = s.panelInit ∧ (State.effectAtRoom s).keys = s.keys ∧ (State.effectAtRoom s).keyRef = s.keyRef ∧ (State.effectAtRoom s).encJobs = s.encJobs ∧ (State.effectAtRoom s).enc = s.enc ∧ (State.effectAtRoom s).pair = s.pair ∧ (State.effectAtRoom s).mem = s.mem ∧ (State.effectAtRoom s).fault = s.fault ∧ (State.effectAtRoom s).sec = s.sec ∧ (State.effectAtRoom s).power = s.power ∧ (State.effectAtRoom s).draw = s.draw := by
  unfold State.effectAtRoom; (try dsimp only); (repeat' split) <;> simp

end Sys2Proof.Machine
end

