-- ==== Sys2Proof/Safety.lean ====
section
/-!
DEFINITION. What counts as a safe run, in the terms claims use: a run that stops nowhere; and the few words that claims
about commands share: a request in hand, the state a message starts from, the parts of the state a command may touch.
-/
namespace Sys2Proof

/-- The run of `k` steps from `s` ends in a state: no fault and no refusal on the way. -/
def Safe (k : Nat) (s : Machine.State) : Prop := ∃ t, Host.Core.run core k s = .next t

namespace Machine

/-- The port has a request for an opcode in hand, and Teller firmware can carry it out (R276). -/
structure InHand (s : State) (p op : Nat) (r : Request) : Prop where
  held : (s.port p).inHand = some r
  opcode : r.opcode = op
  up : s.tellerUp = true

/-- The state a message is carried out on: time has passed, and its request is out of hand. -/
def State.begun (s : State) (dt p : Nat) : State :=
  (s.elapse dt).setPort p { (s.elapse dt).port p with inHand := none }

/-- The parts of the state. -/
inductive Part where
  | time | ledger | mail | sets | src | comp | heads | panels | panelInit | keys | keyRef | encJobs | enc | links | pair
  | mem | fault | sec | power
  deriving DecidableEq, Repr

/-- A part is the same in two states. -/
def Part.same (p : Part) (s t : State) : Prop :=
  match p with
  | .time => t.time = s.time | .ledger => t.ledger = s.ledger | .mail => t.mail = s.mail | .sets => t.sets = s.sets
  | .src => t.src = s.src | .comp => t.comp = s.comp | .heads => t.heads = s.heads | .panels => t.panels = s.panels
  | .panelInit => t.panelInit = s.panelInit | .keys => t.keys = s.keys | .keyRef => t.keyRef = s.keyRef
  | .encJobs => t.encJobs = s.encJobs | .enc => t.enc = s.enc | .links => t.links = s.links | .pair => t.pair = s.pair
  | .mem => t.mem = s.mem | .fault => t.fault = s.fault | .sec => t.sec = s.sec | .power => t.power = s.power

/-- Of two states, nothing differs but the parts listed and what was sent. -/
def Only (l : List Part) (s t : State) : Prop :=
  t.pending = s.pending ∧ t.draw = s.draw ∧ ∀ p : Part, p ∉ l → p.same s t

/-- What every reset of ranks 1 to 6 leaves of a state (R275, R379, Table 17-4): a start begins again at step 0, every
session, commit and debug session has ended, heads are off, no fault is active and safe state is over. -/
structure Restarted (rank : Nat) (s t : State) : Prop where
  step : t.power.step = 0
  started : t.power.started = false
  run : t.power.state = .run
  kind : s.power.started = true → t.power.resetKind = rank
  sessions : ∀ p, (t.port p).session = 0 ∧ (t.port p).held = [] ∧ (t.port p).evEnable = 0 ∧ (t.port p).inHand = none
  commit : t.sets.pending = none
  debug : t.sec.dbg.openSince = none
  heads : ∀ h, (t.head h).state = .off
  faults : t.fault.active = []
  safe : t.fault.safe = none
  ring : t.ledger.flash = s.ledger.flash

end Machine

end Sys2Proof
end

