-- ==== Sys2Proof/Laws/Ops.lean ====
section
/-!
SUPPORT. What carrying out a message comes to: a request in hand, the state it starts from, and the parts of the state
that answering, logging, posting and sending leave alone.
-/
namespace Sys2Proof.Machine

@[simp] theorem elapse_tellerUp (s : State) (dt : Nat) : (s.elapse dt).tellerUp = s.tellerUp := rfl
@[simp] theorem elapse_windowUp (s : State) (dt : Nat) : (s.elapse dt).windowUp = s.windowUp := rfl
@[simp] theorem elapse_port (s : State) (dt p : Nat) : (s.elapse dt).port p = s.port p := rfl

/-- A message whose request is in hand is carried out on `begun`. -/
theorem serve_inHand {s : State} {p : Fin 4} {op : Nat} {r : Request} (h : InHand s p op r) (dt : Nat)
    (f : State → Request → State) : s.serve dt p op f = f (s.begun dt p) r := by
  obtain ⟨hr, ho, hu⟩ := h
  simp [State.serve, State.begun, hr, ho, hu]

/-- A message with a flash write is carried out on `begun` while no other flash write is in progress. -/
theorem serveFlash_inHand {s : State} {p : Fin 4} {op : Nat} {r : Request} (h : InHand s p op r)
    (hf : s.power.flash = none) (dt : Nat) (f : State → Request → State) :
    s.serveFlash dt p op f = f (s.begun dt p) r := by
  simp [State.serveFlash, hf, serve_inHand h]

/-- A message with nothing in hand on its port has no effect but the passing of time. -/
theorem serve_idle {s : State} {p : Fin 4} (h : (s.port p).inHand = none) (dt op : Nat)
    (f : State → Request → State) : s.serve dt p op f = s.elapse dt := by
  simp [State.serve, h]

theorem begun_port_self (s : State) (dt p : Nat) :
    (s.begun dt p).port p = { s.port p with inHand := none } := by
  simp [State.begun]

theorem begun_port_other (s : State) (dt : Nat) {p q : Nat} (h : q ≠ p) : (s.begun dt p).port q = s.port q := by
  simp [State.begun, State.port_setPort_other, h]

theorem Only.refl (l : List Part) (s : State) : Only l s s :=
  ⟨rfl, rfl, fun p _ => by cases p <;> rfl⟩

theorem Only.trans {l : List Part} {s t u : State} (h : Only l s t) (k : Only l t u) : Only l s u :=
  ⟨k.1.trans h.1, k.2.1.trans h.2.1, fun p hp => by
    have a := h.2.2 p hp; have b := k.2.2 p hp
    cases p <;> exact Eq.trans b a⟩

theorem Only.mono {l m : List Part} {s t : State} (h : Only l s t) (k : ∀ p ∈ l, p ∈ m) : Only m s t :=
  ⟨h.1, h.2.1, fun p hp => h.2.2 p (fun a => hp (k p a))⟩

/-- A message starts by taking its request out of hand, and nothing else but time. -/
theorem begun_only (s : State) (dt p : Nat) : Only [.mail] (s.elapse dt) (s.begun dt p) :=
  ⟨rfl, rfl, fun q hq => by cases q <;> first | rfl | exact absurd (by simp) hq⟩

end Sys2Proof.Machine
end

