-- ==== Sys2Proof/Certificates/Slice0/Obligations.lean ====
section
/-!
DEFINITION. The statements for the provers: what the rules of the spec say the commands do.
A result clause has the form: with the request in hand (or the condition holding), `exec` answers a next state, and what
that state is or holds. `s.begun dt p` is the state a message starts from; `Only l s t` says that `t` differs from `s` in
the parts `l` and in what was sent alone.
-/
open Sys2Proof Sys2Proof.Machine

/-! ## The block as a whole -/

/-- A step carries out the command at the front of the queue, on the state with the rest of the queue. -/
def Obligations.StepRunsFront : Prop :=
  ∀ (c : Instr) (rest : List Instr) (s : State), step { s with pending := c :: rest } = exec c { s with pending := rest }

/-- On an empty queue the block idles: the model's choice, log entry 4.

A step takes one command off the queue and adds none.

No command stops the block: from every state, every run ends in a state. -/
def Obligations.RunsNeverStop : Prop :=
  (∀ s : State, s.pending = [] → step s = .next s) ∧
  (∀ (c : Instr) (rest : List Instr) (s t : State), s.pending = c :: rest → step s = .next t → t.pending = rest) ∧
  (∀ (k : Nat) (s : State), Safe k s)

/-- Reset values the spec gives: room time unset under FREE with the default frame clock, heads OFF, `RESET_KIND` 1, no
start step, no session, an empty ledger ring, first session number 1, release of ARB, no safe state. -/
def Obligations.ResetValues : Prop :=
  State.reset.time.state = .unset ∧ State.reset.time.disc = .free ∧ State.reset.time.clock = ⟨60, 1, 0, false⟩
    ∧ (∀ h : Fin 24, (State.reset.head h).state = .off) ∧ (∀ p : Fin 4, (State.reset.port p).session = 0)
    ∧ State.reset.power.resetKind = 1 ∧ State.reset.power.step = 0 ∧ State.reset.power.started = false
    ∧ State.reset.ledger.ring = [] ∧ State.reset.mail.nextSession = 1 ∧ State.reset.pair.driveLow = false
    ∧ State.reset.fault.safe = none ∧ State.reset.pending = []

/-- At reset the invariants that steps keep hold: memory in its canonical form, and the lowest lifecycle state.

Readings of the model are in it: log entries 12 and 13. -/
def Obligations.ResetMeetsInvariants : Prop :=
  Memory.wf State.reset.mem.dram = true ∧ lifeCode State.reset.sec.lifecycle = 0

/-- Every step keeps memory in its canonical form. -/
def Obligations.StepKeepsMemoryForm : Prop :=
  ∀ s t : State, Memory.wf s.mem.dram = true → step s = .next t → Memory.wf t.mem.dram = true

/-- The lifecycle state never goes back, whatever step is taken (R349).

An image-key hash, once in OTP, is never changed by a step (R350). -/
def Obligations.WhatNeverGoesBack : Prop :=
  (∀ s t : State, step s = .next t → lifeCode s.sec.lifecycle ≤ lifeCode t.sec.lifecycle) ∧
  (∀ (s t : State) (f : Fin 2) (v : Nat), Tbl.find s.sec.otp f = some v → step s = .next t →
     Tbl.find t.sec.otp f = some v)

/-! ## Mailboxes and the register window (11, 18) -/

/-- A write of the request doorbell rings the bits written: each newly rung slot waits behind those that rang before and
latches room time in `REQ_TIME`; a slot that rang already keeps its time. Nothing else changes (R262, R394).

A write of the response doorbell clears the bits written; the vector is sent again, or left pending while masked,
exactly when a bit stays set on a host port (R264).

A response takes the lowest free slot and sets its bit, and waits behind the others while no slot is free or others
wait (R264); one whose payload goes to device memory waits until that is written (R268).

`RESPONSE_POSTED`: the oldest waiting response takes the slot that became free (R264); one that goes to device memory
writes its payload there, and changes no other byte, where the host's set allows every line of it (R268).

It says that these commands complete: `reqBell`, `respBell`, `responsePosted`.

Readings of the model are in it: log entries 10 and 58. -/
def Obligations.DoorbellsAndResponses : Prop :=
  (∀ (s : State) (dt : Nat) (p : Fin 4) (bits : BitVec 8), s.windowUp = true →
     ∃ t, exec (.reqBell dt p bits) s = .next t ∧ Only [.mail] (s.elapse dt) t ∧
       (∀ q : Nat, q ≠ p → t.port q = s.port q) ∧ t.mail.turn = s.mail.turn ∧
       (t.port p).reqBell = (s.port p).reqBell ||| bits ∧
       (∀ i : Fin 8, (t.port p).ring.count i.val = (s.port p).ring.count i.val +
         (if bits.getLsbD i ∧ (s.port p).reqBell.getLsbD i = false then 1 else 0)) ∧
       (∀ i : Fin 8, Tbl.get (t.port p).reqTime 0 i =
         if bits.getLsbD i ∧ (s.port p).reqBell.getLsbD i = false then (s.elapse dt).time.room
         else Tbl.get (s.port p).reqTime 0 i)) ∧
  (∀ (s : State) (dt : Nat) (p : Fin 4) (bits : BitVec 8), s.windowUp = true →
     ∃ t, exec (.respBell dt p bits) s = .next t ∧ Only [.mail] (s.elapse dt) t ∧
       (t.port p).respBell = (s.port p).respBell &&& ~~~bits ∧ (t.port p).resp = (s.port p).resp ∧
       t.out = (if (t.port p).respBell ≠ 0 ∧ p.val < 2 ∧ msixMasked (s.port p) 0 = false then [Tx.msix p 0] else []) ∧
       (t.port p).msixPending = (s.port p).msixPending |||
         (if (t.port p).respBell ≠ 0 ∧ p.val < 2 ∧ msixMasked (s.port p) 0 = true then 1 else 0)) ∧
  (∀ (s : State) (p : Fin 4) (x : Response),
     (∀ i : Fin 8, (s.port p).waiting = [] → x.toDevice = none → (s.port p).respBell.getLsbD i = false →
       (∀ j : Fin 8, j < i → (s.port p).respBell.getLsbD j = true) →
       Tbl.find ((s.postResponse p x).port p).resp i = some x ∧
       ((s.postResponse p x).port p).respBell = (s.port p).respBell ||| BitVec.ofNat 8 (1 <<< i.val) ∧
       ((s.postResponse p x).port p).waiting = []) ∧
     ((s.port p).respBell = 0xFF ∨ (s.port p).waiting ≠ [] ∨ x.toDevice.isSome = true →
       ((s.postResponse p x).port p).waiting = (s.port p).waiting ++ [x] ∧
       ((s.postResponse p x).port p).resp = (s.port p).resp ∧
       ((s.postResponse p x).port p).respBell = (s.port p).respBell)) ∧
  (∀ (s : State) (dt : Nat) (p : Fin 4) (x : Response) (rest : List Response) (i : Fin 8),
     (s.port p).waiting = x :: rest → (s.port p).respBell.getLsbD i = false →
     (∀ j : Fin 8, j < i → (s.port p).respBell.getLsbD j = true) →
     let w := ((s.elapse dt).setPort p { s.port p with waiting := rest }).writePayload p x
     ∃ t, exec (.responsePosted dt p) s = .next t ∧ t = w.1.fillSlot p w.2 ∧
       (x.toDevice = none ∨ (∃ a, x.toDevice = some a ∧ s.deviceOk p true a x.payload.len = true) →
         (t.port p).waiting = rest ∧ Tbl.find (t.port p).resp i = some x ∧ (t.port p).respBell.getLsbD i = true) ∧
       (x.toDevice = none → Only [.mail] (s.elapse dt) t) ∧
       (∀ a, x.toDevice = some a → s.deviceOk p true a x.payload.len = true →
         ∀ b, Memory.read t.mem.dram b =
           if a ≤ b ∧ b < a + x.payload.len then BitVec.ofNat 8 (x.payload.val / 2 ^ (8 * (b - a)))
           else Memory.read s.mem.dram b))

/-- `REQUEST_TAKEN` takes the oldest request of the port whose turn it is, clears its bit, moves the turn past the port,
reads a request buffer in device memory, and either puts the request in hand or answers the status of the first check it
fails (R263, R268, R269). A request without such a buffer is read as it stands in its slot.

The ports are served round robin in port order: the next is the first, from the turn on, that may be taken from. The slots
rung by one write wait in ascending order behind those that rang before (R263).

The checks of a request in their order (R269): a descriptor on the supervisor or debug port, a length too great, a
session that is not the open one, another version, an opcode the version does not carry, a port that may not send it.

A request whose opcode the catalogue does not list is answered NOT_SUPPORTED (R282).

It says that these commands complete: `requestTaken`, `reqBell`, `unknownOpcode`. -/
def Obligations.RequestsAreTakenAndChecked : Prop :=
  (∀ (s : State) (dt : Nat) (desc : Option DescRead) (p i : Nat) (rest : List Nat),
     s.tellerUp = true → 4 ≤ s.power.step → s.nextPort = some p → (s.port p).ring = i :: rest →
     let r := parseRequest p (Tbl.get (s.port p).slots 0 i) (Tbl.get (s.port p).reqTime 0 i) desc
     let q := { s.port p with ring := rest, reqBell := (s.port p).reqBell &&& ~~~(BitVec.ofNat 8 (1 <<< i)) }
     let u := (s.elapse dt).setPort p q
     let v := { u with mail := { u.mail with turn := (p + 1) % 4 } }
     let w := v.readPayload p r
     exec (.requestTaken dt desc) s = .next (match w.1.requestCheck p w.2 desc with
       | some st => w.1.answer p w.2 st Bytes.none
       | none => w.1.setPort p { w.1.port p with inHand := some w.2 }) ∧
     (r.reqDevice = none → w = (v, r)) ∧ w.1.mem.dram = s.mem.dram ∧ (w.1.port p).ring = rest ∧
     w.1.mail.turn = (p + 1) % 4) ∧
  (∀ (s : State) (dt : Nat) (p : Fin 4),
     (∀ k : Fin 4, s.mayTake ((s.mail.turn + k) % 4) = true → (∀ j : Fin 4, j < k → s.mayTake ((s.mail.turn + j) % 4) = false) →
       s.nextPort = some ((s.mail.turn + k) % 4)) ∧
     (∀ bits : BitVec 8, s.windowUp = true → ∃ t new, exec (.reqBell dt p bits) s = .next t ∧
       (t.port p).ring = (s.port p).ring ++ new ∧ new.Pairwise (· < ·) ∧ (t.port p).slots = (s.port p).slots ∧
       ∀ i : Fin 8, i.val ∈ new ↔ (bits.getLsbD i = true ∧ (s.port p).reqBell.getLsbD i = false))) ∧
  (∀ (s : State) (p : Fin 4) (r : Request) (desc : Option DescRead), r.opcode ≠ 1 →
     (r.respCap.isSome = true → 2 ≤ p.val → s.requestCheck p r desc = some stNotSupported) ∧
     (r.respCap = none → 240 < r.length → s.requestCheck p r desc = some stBadLength) ∧
     (p.val < 2 → r.respCap.isSome = true → 16777216 < r.length → s.requestCheck p r desc = some stBadLength) ∧
     (r.respCap = none → r.length ≤ 240 → (r.session = 0 ∨ r.session ≠ (s.port p).session) →
       s.requestCheck p r desc = some stStale) ∧
     (r.respCap = none → r.length ≤ 240 → r.session ≠ 0 → r.session = (s.port p).session →
       (r.major ≠ (s.port p).major ∨ r.minor ≠ (s.port p).minor) → s.requestCheck p r desc = some stVersion) ∧
     (∀ row : OpRow, r.respCap = none → r.length ≤ 240 → r.session ≠ 0 → r.session = (s.port p).session →
       r.major = (s.port p).major → r.minor = (s.port p).minor → opRow r.opcode = some row →
       (row.carriedAt r.major r.minor = false → s.requestCheck p r desc = some stNotSupported) ∧
       (row.carriedAt r.major r.minor = true → row.ports.testBit p = false → s.requestCheck p r desc = some stDenied))) ∧
  (∀ (s : State) (dt : Nat) (p : Fin 4) (r : Request), (s.port p).inHand = some r → opRow r.opcode = none →
     exec (.unknownOpcode dt p) s = .next ((s.begun dt p).answer p r stNotSupported Bytes.none))

/-- Sessions: opening one at a common major closes the one before, takes the next session number (never 0), clears the
event queue and the enables, and writes `SESSION_OPENED`; closing one answers OK, discards what is held and writes
`SESSION_CLOSED`; with no common major the request is answered VERSION_MISMATCH and the open session stays (R271 to
R274).

It says that these commands complete: `sessionOpen`, `sessionClose`. -/
def Obligations.SessionsOpenAndClose : Prop :=
  ∀ (s : State) (dt : Nat) (p : Fin 4) (r : Request),
    (∀ m, InHand s p 0x0001 r → agreedMajor (r.u8 2) (r.u8 0) = some m →
      ∃ t, exec (.sessionOpen dt p) s = .next t ∧ (t.port p).session = s.mail.nextSession ∧
        (t.port p).major = m ∧ (t.port p).minor = agreedMinor m (r.u8 0) (r.u8 1) ∧
        (t.port p).held = [] ∧ (t.port p).evRd = (t.port p).evWr ∧ (t.port p).evEnable = 0 ∧ (t.port p).evSeq = 0 ∧
        t.mail.nextSession = (if 65535 ≤ s.mail.nextSession then 1 else s.mail.nextSession + 1)) ∧
    (InHand s p 0x0001 r → agreedMajor (r.u8 2) (r.u8 0) = none →
      ∃ t, exec (.sessionOpen dt p) s = .next t ∧ (t.port p).session = (s.port p).session ∧
        t.mail.nextSession = s.mail.nextSession) ∧
    (InHand s p 0x0002 r → (s.port p).session ≠ 0 →
      ∃ t, exec (.sessionClose dt p) s = .next t ∧ (t.port p).session = 0 ∧ (t.port p).held = [] ∧
        (t.port p).evEnable = 0 ∧ evUsed (t.port p) = 0 ∧ (p = 3 → t.sec.dbg.openSince = none) ∧
        (p ≠ 3 → t.ledger = (((s.begun dt p).answer p r stOk Bytes.none).log 0xC002
          [p, (s.port p).session, 1, (((s.begun dt p).answer p r stOk Bytes.none).port p).served]).ledger))

/-- An event takes the next place of the queue with the session's next event sequence; when all 1,023 places are taken it is
discarded and counted, and still consumes its sequence; a port without a session gets none (R279, R280, R281).

A write of `EVQ_RD` within the records that wait moves the index; one outside changes nothing; one that frees two
records after events were lost posts `EVENTS_LOST` with their count, the first sequence and its time (R279, R281, R394).

It says that this command completes: `evqRd`. -/
def Obligations.EventsQueueInOrder : Prop :=
  (∀ (s : State) (p : Fin 4) (ev : Nat) (ps : List Nat),
     ((s.port p).session = 0 → s.postEvent p ev ps = s) ∧
     ((s.port p).session ≠ 0 → evUsed (s.port p) < 1023 → (s.port p).evLost = none →
       ((s.postEvent p ev ps).port p).evWr = ((s.port p).evWr + 1) % 1024 ∧
       ((s.postEvent p ev ps).port p).evSeq = ((s.port p).evSeq + 1) % 2 ^ 32 ∧
       ∃ x, Tbl.find ((s.postEvent p ev ps).port p).evq (s.port p).evWr = some x ∧ x.event = ev ∧
         x.seq = (s.port p).evSeq ∧ x.time = s.time.room ∧ x.p0 = ps.getD 0 0 % 2 ^ 32) ∧
     ((s.port p).session ≠ 0 → evUsed (s.port p) = 1023 → (s.port p).evLost = none →
       ((s.postEvent p ev ps).port p).evWr = (s.port p).evWr ∧ ((s.postEvent p ev ps).port p).evq = (s.port p).evq ∧
       ((s.postEvent p ev ps).port p).evSeq = ((s.port p).evSeq + 1) % 2 ^ 32 ∧
       ((s.postEvent p ev ps).port p).evLost = some (1, (s.port p).evSeq, s.time.room))) ∧
  (∀ (s : State) (dt : Nat) (p : Fin 4) (i : BitVec 10), s.windowUp = true →
     ((i.toNat + 1024 - (s.port p).evRd) % 1024 ≤ evUsed (s.port p) →
       ∃ t, exec (.evqRd dt p i) s = .next t ∧ (t.port p).evRd = i.toNat ∧
         ((s.port p).evLost = none → (t.port p).evWr = (s.port p).evWr ∧ Only [.mail] (s.elapse dt) t)) ∧
     (evUsed (s.port p) < (i.toNat + 1024 - (s.port p).evRd) % 1024 →
       exec (.evqRd dt p i) s = .next (s.elapse dt)) ∧
     (∀ n first at_, (s.port p).evLost = some (n, first, at_) →
       (i.toNat + 1024 - (s.port p).evRd) % 1024 ≤ evUsed (s.port p) →
       ((s.port p).evWr + 1024 - i.toNat) % 1024 + 2 ≤ 1023 →
       ∃ t x, exec (.evqRd dt p i) s = .next t ∧ (t.port p).evLost = none ∧
         (t.port p).evWr = ((s.port p).evWr + 1) % 1024 ∧ Tbl.find (t.port p).evq (s.port p).evWr = some x ∧
         x.event = 2 ∧ x.seq = (s.port p).evSeq ∧ x.p0 = n % 2 ^ 32 ∧ x.p1 = first % 2 ^ 32 ∧ x.p2 = at_ % 2 ^ 32))

/-- A read of the window returns its word; a read of `ROOM_TIME` latches the high half, which is what a later read of
`ROOM_TIME_HI` returns whatever room time has become (R390).

A register write: an aligned word to `LEDGER_PAGE` sets its four bits; one to a read-only or reserved register of the
blocks changes nothing; bytes written to the request slots read back, and no other byte of the slots changes (R389).

An SPI transaction of an unknown command or a misaligned offset is ignored, with SPI_MISO low (R399).

It says that these commands complete: `latchingRead`, `registerWrite`, `spiInvalidTransaction`.

Readings of the model are in it: log entries 8 and 9. -/
def Obligations.RegisterWindow : Prop :=
  (∀ (s : State) (dt : Nat) (p : Fin 4) (off : BitVec 16), s.windowUp = true →
     (∃ t, exec (.latchingRead dt p off) s = .next t ∧ Only [.mail] (s.elapse dt) t ∧
       t.out = [.readData p ((s.elapse dt).windowWord p off.toNat) false]) ∧
     (∃ t, exec (.latchingRead dt p 0x200) s = .next t ∧ t.windowWord p 0x204 = hi32 (s.elapse dt).time.room ∧
       t.out = [.readData p ((s.elapse dt).time.room % 2 ^ 32) false] ∧
       ∀ d : Nat, ∃ u, exec (.latchingRead d p 0x204) t = .next u ∧
         u.out = [.readData p (hi32 (s.elapse dt).time.room) false])) ∧
  (∀ (s : State) (dt : Nat) (p : Fin 4) (data : Bytes), s.windowUp = true →
     (data.len = 4 →
       exec (.registerWrite dt p 0x50C data) s =
         .next ((s.elapse dt).setPort p { s.port p with ledgerPage := data.val % 16 }) ∧
       ∀ off ∈ [0x000, 0x008, 0x100, 0x10C, 0x200, 0x204, 0x208, 0x300, 0x400, 0x500, 0x508, 0x600],
         exec (.registerWrite dt p (BitVec.ofNat 16 off) data) s = .next (s.elapse dt)) ∧
     (∀ off : BitVec 16, 0x1000 ≤ off.toNat → off.toNat + data.len ≤ 0x1800 →
       ∃ t, exec (.registerWrite dt p off data) s = .next t ∧ Only [.mail] (s.elapse dt) t ∧
         ∀ a, 0x1000 ≤ a → a < 0x1800 → t.areaByte p a =
           if off.toNat ≤ a ∧ a < off.toNat + data.len then data.byte (a - off.toNat) else s.areaByte p a)) ∧
  (∀ (s : State) (dt : Nat) (cmd : Byte) (off : BitVec 16), ¬((cmd = 0x02 ∨ cmd = 0x0B) ∧ off.toNat % 4 = 0) →
     exec (.spiInvalidTransaction dt cmd off) s = .next ((s.elapse dt).send (.readData 2 0 false)))

/-! ## Protection and secrets (16) -/

/-- JTAG: an OTP field is written once and only in MANUFACTURE; a read returns the two image-key hashes and the security
version counter alone; boundary and internal test work in MANUFACTURE and DEVELOP only; the others always (R350, R367).

Debug: an access to a Vault slot or an OTP key, or to memory the live debug set denies, is an error that reads zero
and writes nothing; one allowed reads or writes its bytes; Teller is halted only under the open set (R356, R367, R369).

It says that these commands complete: `otpProgram`, `otpRead`, `extest`, `intest`, `bypass`, `idcode`, `sample`,
`debugMemoryAccess`, `tellerHaltRequest`.

Readings of the model are in it: log entries 8 and 33. -/
def Obligations.DebugPort : Prop :=
  (∀ (s : State) (dt : Nat),
     (∀ (f : OtpField) (v : Nat), ∃ t, exec (.otpProgram dt f v) s = .next t ∧ Only [.sec] (s.elapse dt) t ∧
       (s.sec.lifecycle = .manufacture → Tbl.find s.sec.otp (otpIndex f) = none →
         t.otpField f = v % 2 ^ otpBits f) ∧
       (s.sec.lifecycle ≠ .manufacture ∨ (Tbl.find s.sec.otp (otpIndex f)).isSome → t.sec.otp = s.sec.otp) ∧
       ∀ g : OtpField, g ≠ f → t.otpField g = s.otpField g) ∧
     (∃ t, exec (.otpRead dt) s = .next t ∧ t.sec.otp = s.sec.otp ∧ t.out = [.jtag
       (s.otpField .prodHash + s.otpField .devHash * 2 ^ 384 + s.otpField .secVersion * 2 ^ 768)]) ∧
     (s.sec.lifecycle = .field ∨ s.sec.lifecycle = .retired →
       exec (.extest dt) s = .next (s.elapse dt) ∧ exec (.intest dt) s = .next (s.elapse dt)) ∧
     (s.sec.lifecycle = .manufacture ∨ s.sec.lifecycle = .develop →
       (∃ t v, exec (.extest dt) s = .next t ∧ t.sec.jtag = 3 ∧ t.out = [.jtag v] ∧ Only [.sec] (s.elapse dt) t) ∧
       (∃ t v, exec (.intest dt) s = .next t ∧ t.sec.jtag = 4 ∧ t.out = [.jtag v] ∧ Only [.sec] (s.elapse dt) t)) ∧
     (∃ t, exec (.bypass dt) s = .next t ∧ t.sec.jtag = 0 ∧ t.out = [.jtag 0] ∧ Only [.sec] (s.elapse dt) t) ∧
     (∃ t, exec (.idcode dt) s = .next t ∧ t.sec.jtag = 1 ∧ t.out = [.jtag Config.idcode] ∧ Only [.sec] (s.elapse dt) t) ∧
     (∃ t v, exec (.sample dt) s = .next t ∧ t.sec.jtag = 2 ∧ t.out = [.jtag v] ∧ Only [.sec] (s.elapse dt) t)) ∧
  (∀ (s : State) (dt : Nat), s.windowUp = true →
     (∀ (target : DebugTarget) (acc : MemAccess) (l : Nat), l ∈ linesOf acc.addr acc.len →
       s.debugAllowed target acc.write l = false →
       ∃ t o, exec (.debugMemoryAccess dt target acc) s = .next t ∧ t.mem.dram = s.mem.dram ∧
         t.out = o ++ [.readData 3 0 true]) ∧
     (∀ l, s.debugAllowed .vaultSlot false l = false ∧ s.debugAllowed .otpKey false l = false) ∧
     (∀ acc : MemAccess, (∀ l ∈ linesOf acc.addr acc.len, s.mpuAllows 3 acc.write l = true ∧ s.dramAnswers l = true) →
       ∃ t v, exec (.debugMemoryAccess dt .memory acc) s = .next t ∧ t.out = [.readData 3 v false] ∧
         (∀ a, Memory.read t.mem.dram a =
           if acc.write = true ∧ acc.addr ≤ a ∧ a < acc.addr + acc.len then
             BitVec.ofNat 8 (acc.data / 2 ^ (8 * (a - acc.addr)))
           else Memory.read s.mem.dram a) ∧
         (acc.write = false → ∀ i, i < acc.len →
           BitVec.ofNat 8 (v / 2 ^ (8 * i)) = Memory.read s.mem.dram (acc.addr + i))) ∧
     (s.debugSet = 0 → ∃ t, exec (.tellerHaltRequest dt) s = .next t ∧ Only [.sec] (s.elapse dt) t ∧
       t.sec = { s.sec with halted := some (s.sec.halted.getD (s.time.now + dt)) }) ∧
     (s.debugSet = 1 → ∃ t, exec (.tellerHaltRequest dt) s = .next t ∧ t.sec.halted = s.sec.halted))

/-- `FIRMWARE_STAGE`: an image longer than 4 MiB is answered BAD_LENGTH, one that fails its check or is not authentic
NOT_SUPPORTED; otherwise the flash write begins, and its end stores the image and answers OK; length 0 removes the staged
image (R289, R351). `FIRMWARE_STATUS_GET` returns versions and the last status.

Flash writes: the end of a write that fails answers FLASH_FAILED and raises `FLASH_ERROR` (R289, R324).

Status records of firmware, lifecycle and the device information (Table 12-13), which change nothing.

It says that these commands complete: `firmwareStage`, `flashWriteComplete`, `firmwareStatusGet`, `lifecycleGet`,
`deviceInfoGet`.

Readings of the model are in it: log entries 10, 15 and 32. -/
def Obligations.FirmwareImagesAreStaged : Prop :=
  (∀ (s : State) (dt : Nat) (p : Fin 4) (r : Request), InHand s p 0x0103 r → s.power.flash = none →
     (4194304 < r.length → exec (.firmwareStage dt p) s = .next
       (({ s.begun dt p with sec := { s.sec with stageStatus := stBadLength } } : State).answer p r stBadLength
         Bytes.none)) ∧
     (0 < r.length → r.length ≤ 4194304 → exec (.firmwareStage dt p) s = .next
       (if Config.imageTallyOk r.payload.len r.payload.val = true ∧ s.imageFault (imageOf r.payload) = none then
         { s.begun dt p with power := { s.power with flash := some ⟨p, r, some (imageOf r.payload)⟩ } }
       else ({ s.begun dt p with sec := { s.sec with stageStatus := stNotSupported } } : State).answer p r stNotSupported
         Bytes.none)) ∧
     (r.length = 0 → ∃ t, exec (.firmwareStage dt p) s = .next t ∧ t.power.flash = some ⟨p, r, none⟩ ∧
       ∀ d, ∃ u, exec (.flashWriteComplete d true) t = .next u ∧ u.power.flash = none ∧ u.sec.staged = none ∧
         u.sec.stageStatus = stOk)) ∧
  (∀ (s : State) (dt : Nat) (j : FlashJob), s.tellerUp = true → s.power.flash = some j →
     (∃ t, exec (.flashWriteComplete dt true) s = .next t ∧ t.power.flash = none) ∧
     (∃ t, exec (.flashWriteComplete dt false) s = .next t ∧ t.power.flash = none ∧ t.ledger.flashFailing = true ∧
       t.sec.stageStatus = (if j.req.opcode = 0x0103 then stFlashFailed else s.sec.stageStatus) ∧
       t.sec.staged = s.sec.staged)) ∧
  (∀ (s : State) (dt : Nat) (p : Fin 4) (r : Request),
     (InHand s p 0x0104 r → exec (.firmwareStatusGet dt p) s = .next ((s.begun dt p).answer p r stOk
       (wordsLE [s.sec.running.version, (s.sec.staged.getD {}).version, (s.sec.staged.getD {}).crc,
         s.sec.stageStatus]))) ∧
     (InHand s p 0x0F01 r → exec (.lifecycleGet dt p) s = .next ((s.begun dt p).answer p r stOk
       (wordsLE [lifeCode s.sec.lifecycle, b2n s.sec.dbg.openSince.isSome, s.sec.slots.length]))) ∧
     (InHand s p 0x0101 r → ∃ x, exec (.deviceInfoGet dt p) s = .next ((s.begun dt p).answer p r stOk x) ∧ x.len = 48))

/-- `LIFECYCLE_SET`: a state before the present one is DENIED, one that no code names or whose power-cycle count is wrong
NOT_SUPPORTED; otherwise the flash write begins. When it ends, RETIRED is entered at once, with the keys destroyed, the
slots cleared and a WARM reset asked for; another state waits for the next reset (R349).

`DEBUG_UNLOCK`: step 0 gives a challenge; step 1 opens the session when the answer is the challenge's HMAC under the
debug key and counts a failure otherwise; after three failures, everything is DENIED (R368).

The Vault: a key is unwrapped into a slot or the message refused; regions are set when their geometry is legal, their
bursts being rewritten until that is done; a refused list sets none (R353, R355, R358).

It says that these commands complete: `lifecycleSet`, `flashWriteComplete`, `debugUnlock`, `vaultKeyLoad`,
`vaultRegionSet`, `vaultRegionRewriteDone`.

Readings of the model are in it: log entries 10, 32 and 33. -/
def Obligations.LifecycleAndVault : Prop :=
  (∀ (s : State) (dt : Nat) (p : Fin 4) (r : Request), InHand s p 0x0F02 r → s.power.flash = none →
     (lifeOfCode (r.u8 0) = none → exec (.lifecycleSet dt p) s = .next ((s.begun dt p).answer p r stNotSupported Bytes.none)) ∧
     (∀ t, lifeOfCode (r.u8 0) = some t → lifeCode t < lifeCode s.sec.lifecycle →
       exec (.lifecycleSet dt p) s = .next ((s.begun dt p).answer p r stDenied Bytes.none)) ∧
     (∀ t, lifeOfCode (r.u8 0) = some t → lifeCode s.sec.lifecycle ≤ lifeCode t → r.u32 4 ≠ s.ledger.powerCycle →
       exec (.lifecycleSet dt p) s = .next ((s.begun dt p).answer p r stNotSupported Bytes.none)) ∧
     (∀ t, lifeOfCode (r.u8 0) = some t → lifeCode s.sec.lifecycle < lifeCode t → r.u32 4 = s.ledger.powerCycle →
       ∃ u, exec (.lifecycleSet dt p) s = .next u ∧ u.power.flash = some ⟨p, r, none⟩ ∧
         ∀ d, ∃ v, exec (.flashWriteComplete d true) u = .next v ∧ v.power.flash = none ∧
           (t = .retired → v.sec.lifecycle = .retired ∧ v.sec.keysDestroyed = true ∧ v.sec.slots = [] ∧
             v.otpField .provKey = 2 ^ 256 - 1 ∧ v.otpField .debugKey = 2 ^ 256 - 1 ∧ v.power.warmDue = some p.val) ∧
           (t ≠ .retired → v.sec.lifecycle = s.sec.lifecycle ∧ v.sec.lifecycleNext = some (t, p.val)))) ∧
  (∀ (s : State) (dt : Nat) (p : Fin 4) (r : Request), InHand s p 0x0F08 r →
     (3 ≤ s.sec.dbg.failures →
       exec (.debugUnlock dt p) s = .next ((s.begun dt p).answer p r stDenied Bytes.none)) ∧
     (s.sec.dbg.failures < 3 → r.u8 0 = 0 → ∃ t c, exec (.debugUnlock dt p) s = .next t ∧
       t.sec.dbg = { s.sec.dbg with challenge := some c, openSince := none }) ∧
     (∀ c, s.sec.dbg.failures < 3 → r.u8 0 = 1 → s.sec.dbg.challenge = some c → ∃ t, exec (.debugUnlock dt p) s = .next t ∧
       t.sec.dbg = (if Bytes.at r.payload 4 32 = Config.hmac (s.otpField .debugKey) c % 2 ^ 256 then
         { s.sec.dbg with challenge := none, openSince := some (s.time.now + dt) }
       else { s.sec.dbg with challenge := none, failures := s.sec.dbg.failures + 1 })) ∧
     (s.sec.dbg.failures < 3 → r.u8 0 = 1 → s.sec.dbg.challenge = none → ∃ t, exec (.debugUnlock dt p) s = .next t ∧
       t.sec.dbg = { s.sec.dbg with failures := s.sec.dbg.failures + 1 })) ∧
  (∀ (s : State) (dt : Nat) (p : Fin 4) (r : Request),
     (InHand s p 0x0F03 r →
       (63 < r.u8 0 ∨ r.u8 1 ≠ 1 ∨ s.sec.vaultLocked = true ∨ s.sec.keysDestroyed = true ∨ s.sec.lifecycle = .retired →
         exec (.vaultKeyLoad dt p) s = .next ((s.begun dt p).answer p r stNotSupported Bytes.none)) ∧
       (r.u8 0 ≤ 63 → r.u8 1 = 1 → s.sec.vaultLocked = false → s.sec.keysDestroyed = false → s.sec.lifecycle ≠ .retired →
         ∃ t, exec (.vaultKeyLoad dt p) s = .next t ∧
           t.sec.slots = (match Config.unwrap (s.otpField .provKey) (Bytes.at r.payload 4 40) with
             | some key => Tbl.put s.sec.slots (r.u8 0) key
             | none => s.sec.slots))) ∧
     (InHand s p 0x0F04 r → ∀ (first : Nat) (x : Nat), itemList r 20 7 = .inr (first, [x]) →
       let d := BitVec.ofNat 160 x
       (vaultOn d = true → s.mem.vaultLegal (vaultBase d) (vaultSize d) = false →
         exec (.vaultRegionSet dt p) s = .next ((s.begun dt p).answer p r stNotSupported Bytes.none)) ∧
       (vaultOn d = false ∨ s.mem.vaultLegal (vaultBase d) (vaultSize d) = true →
         ∃ t, exec (.vaultRegionSet dt p) s = .next t ∧ Tbl.get t.sec.vault 0 first = d ∧ first ∈ t.sec.rewriting ∧
           ∀ k, k ≠ first → Tbl.get t.sec.vault 0 k = Tbl.get s.sec.vault 0 k)) ∧
     (∃ t, exec (.vaultRegionRewriteDone dt) s = .next t ∧ t.sec.rewriting = [] ∧ t.sec.vault = s.sec.vault ∧
       t.mem = s.mem ∧ Only [.sec] (s.elapse dt) t))

/-- A host write through BAR 2 stores its bytes line by line where the live set of the host's group allows it and DRAM
answers; a line it denies keeps its content, and no byte outside the access changes (R360, R364).

A host read returns its bytes when every line is allowed and answers, and completes with an error when one is not; it
changes no byte of memory (R360, R391).

No host access reaches a line of the key area or of an enabled vault region: it changes no byte, and a read of it
returns zero and an error (R356).

It says that this command completes: `hostMemoryAccess`.

A reading of the model is in it: log entry 13. -/
def Obligations.HostAccesses : Prop :=
  (∀ (s : State) (dt : Nat) (h : Fin 2) (acc : MemAccess), s.windowUp = true → acc.write = true →
     ∃ t, exec (.hostMemoryAccess dt h acc) s = .next t ∧
       (∀ a, a < acc.addr ∨ acc.addr + acc.len ≤ a → Memory.read t.mem.dram a = Memory.read s.mem.dram a) ∧
       (∀ a, acc.addr ≤ a → a < acc.addr + acc.len → Memory.read t.mem.dram a =
         if s.dramAsleep = false ∧ s.mpuAllows h true (a / 64 * 64) = true ∧ s.dramAnswers (a / 64 * 64) = true then
           BitVec.ofNat 8 (acc.data / 2 ^ (8 * (a - acc.addr)))
         else Memory.read s.mem.dram a)) ∧
  (∀ (s : State) (dt : Nat) (h : Fin 2) (acc : MemAccess), s.windowUp = true → acc.write = false →
     ((∀ l ∈ linesOf acc.addr acc.len, s.mpuAllows h false l = true ∧ s.dramAnswers l = true) →
       ∃ t v, exec (.hostMemoryAccess dt h acc) s = .next t ∧ t.out = [.readData h v false] ∧
         t.mem.dram = s.mem.dram ∧
         ∀ i, i < acc.len → BitVec.ofNat 8 (v / 2 ^ (8 * i)) = Memory.read s.mem.dram (acc.addr + i)) ∧
     ((∃ l ∈ linesOf acc.addr acc.len, s.mpuAllows h false l = false ∨ s.dramAnswers l = false) →
       ∃ t l v, exec (.hostMemoryAccess dt h acc) s = .next t ∧ t.out = l ++ [.readData h v true] ∧
         t.mem.dram = s.mem.dram)) ∧
  (∀ (s : State) (dt : Nat) (h : Fin 2) (acc : MemAccess), s.windowUp = true → 0 < acc.len →
     (∀ l ∈ linesOf acc.addr acc.len, s.vaulted l = true) →
     ∃ t, exec (.hostMemoryAccess dt h acc) s = .next t ∧ t.mem.dram = s.mem.dram ∧
       (acc.write = false → ∃ l, t.out = l ++ [.readData h 0 true]))

/-- MPU sets: a host writes regions only of its own group's set that is not live, and a list that is refused writes none;
a swap makes the other set live and advances the epoch, which has drained once told so; a notice closes 1 ms after it
opened (R359, R364, R365).

It says that these commands complete: `mpuSetWrite`, `mpuSwap`, `mpuStatusGet`, `epochDrained`, `mpuNoticeClose`. -/
def Obligations.MpuSetsAndSwaps : Prop :=
  ∀ (s : State) (dt : Nat) (p : Fin 4) (r : Request),
    (InHand s p 0x0F05 r → r.length = 20 → r.u8 3 = 1 →
      (r.u8 0 ≠ p → exec (.mpuSetWrite dt p) s = .next ((s.begun dt p).answer p r stDenied Bytes.none)) ∧
      (r.u8 0 = p → r.u8 1 ≤ 1 → r.u8 2 ≤ 31 → r.u8 1 = (s.mpu p).live →
        exec (.mpuSetWrite dt p) s = .next ((s.begun dt p).answer p r stDenied Bytes.none)) ∧
      (r.u8 0 = p → r.u8 1 ≤ 1 → r.u8 2 ≤ 31 → r.u8 1 ≠ (s.mpu p).live →
        let x := BitVec.ofNat 128 (Bytes.at r.payload 4 16)
        (regionLegal x = false →
          exec (.mpuSetWrite dt p) s = .next ((s.begun dt p).answer p r stNotSupported Bytes.none)) ∧
        (regionLegal x = true → s.mem.writesReservation x = true →
          exec (.mpuSetWrite dt p) s = .next ((s.begun dt p).answer p r stDenied Bytes.none)) ∧
        (regionLegal x = true → s.mem.writesReservation x = false →
          ∃ t, exec (.mpuSetWrite dt p) s = .next t ∧ Only [.mail, .sec] (s.elapse dt) t ∧
            Tbl.get (t.mpu p).regions 0 (32 * r.u8 1 + r.u8 2) = x ∧
            (∀ k, k ≠ 32 * r.u8 1 + r.u8 2 → Tbl.get (t.mpu p).regions 0 k = Tbl.get (s.mpu p).regions 0 k) ∧
            (t.mpu p).live = (s.mpu p).live ∧ ∀ g : Nat, g ≠ p → t.mpu g = s.mpu g))) ∧
    (InHand s p 0x0F06 r →
      (r.u8 0 ≠ p → exec (.mpuSwap dt p) s = .next ((s.begun dt p).answer p r stDenied Bytes.none)) ∧
      (r.u8 0 = p → ∃ t, exec (.mpuSwap dt p) s = .next t ∧ t.mpu p = { s.mpu p with
        live := 1 - (s.mpu p).live, epoch := ((s.mpu p).epoch + 1) % 2 ^ 32, drained := false })) ∧
    (InHand s p 0x0F07 r →
      (8 < r.u8 0 → exec (.mpuStatusGet dt p) s = .next ((s.begun dt p).answer p r stNotSupported Bytes.none)) ∧
      (r.u8 0 ≤ 8 → exec (.mpuStatusGet dt p) s = .next ((s.begun dt p).answer p r stOk
        (wordsLE [r.u8 0, s.liveSet (r.u8 0), (s.mpu (r.u8 0)).epoch, b2n (s.mpu (r.u8 0)).drained,
          (s.mpu (r.u8 0)).spec, (s.mpu (r.u8 0)).notices, w32 (s.mpu (r.u8 0)).lastNotice.window,
          hi32 (s.mpu (r.u8 0)).lastNotice.window])))) ∧
    (∀ g : Fin 9, ∃ t, exec (.epochDrained dt g) s = .next t ∧ t.mpu g = { s.mpu g with drained := true } ∧
      Only [.sec] (s.elapse dt) t) ∧
    (∀ (g : Fin 9) (n : Notice), (s.mpu g).noticeOpen = some n → n.openedAt + 1000000 ≤ s.time.now + dt →
      ∃ t, exec (.mpuNoticeClose dt g) s = .next t ∧ (t.mpu g).noticeOpen = none ∧ (t.mpu g).lastNotice = n ∧
        (t.mpu g).regions = (s.mpu g).regions)

/-! ## Power, clocks and reset (17) -/

/-- POR: everything restarts; room time counts from zero and is unset, the configuration returns to its defaults, DRAM is
lost, the power-cycle count rises and the Vault's XTS key is new; the records in flash survive (R320, R354, R380). PIN does
the same to the configuration and to DRAM, and keeps the count of room time and the power cycle.

The resets of ranks 3 to 6 keep the configuration sets, the ledger and the count of room time; of these, WARM alone
keeps DRAM. Each is performed only where its condition holds (R291, R304, R380, R382).

It says that these commands complete: `powerOnReset`, `pinReset`, `watchdogReset`, `pairReset`, `warmReset`,
`auditorReset`, `deviceReset`.

Readings of the model are in it: log entries 8, 13, 26 and 27. -/
def Obligations.Resets : Prop :=
  (∀ (s : State) (dt : Nat),
     (∃ t, exec (.powerOnReset dt) s = .next t ∧ Restarted 1 s t ∧ t.time.room = 0 ∧ t.time.state = .unset ∧
       t.sets.active = {} ∧ t.sets.shadow = {} ∧ t.mem.dram = [] ∧ t.power.resetDetail = 0 ∧
       t.ledger.powerCycle = (if s.ledger.flash = [] then 1 else (s.ledger.powerCycle + 1) % 2 ^ 32) ∧
       t.ledger.ring = [] ∧
       t.sec.xtsKey = s.sec.xtsKey + 1 ∧ t.sec.slots = [] ∧ t.fault.log = [] ∧ t.keys = []) ∧
     (∃ t, exec (.pinReset dt) s = .next t ∧ Restarted 2 s t ∧ t.time.room = (s.elapse dt).time.room ∧
       t.sets.active = {} ∧ t.sets.shadow = {} ∧ t.mem.dram = [] ∧ t.ledger.powerCycle = s.ledger.powerCycle ∧
       t.ledger.ring = s.ledger.ring ∧ t.ledger.next = s.ledger.next ∧ t.sec.xtsKey = s.sec.xtsKey ∧ t.sec.slots = [] ∧
       t.fault.log = [])) ∧
  (∀ (s : State) (dt : Nat),
     (s.tellerUp = true → 3 ≤ s.power.step → ∃ t, exec (.watchdogReset dt) s = .next t ∧ Restarted 5 s t ∧
       t.sets.active = s.sets.active ∧ t.mem.dram = [] ∧ t.ledger.ring = s.ledger.ring ∧
       t.time.room = (s.elapse dt).time.room ∧ t.sec.slots = s.sec.slots) ∧
     (s.windowUp = true → s.pair.enabled = true → s.pair.role = .standby →
       3 ≤ (s.pair.arbPulses.filter (fun x => decide (s.time.now + dt ≤ x + 4000000))).length →
       ∃ t, exec (.pairReset dt) s = .next t ∧
       Restarted 4 s t ∧ t.sets.active = s.sets.active ∧ t.mem.dram = [] ∧ t.ledger.ring = s.ledger.ring ∧
       t.time.room = (s.elapse dt).time.room ∧ t.pair.role = .standby) ∧
     (∀ p, s.tellerUp = true → s.power.warmDue = some p → ∃ t, exec (.warmReset dt) s = .next t ∧ Restarted 6 s t ∧
       t.sets.active = s.sets.active ∧ t.mem.dram = s.mem.dram ∧ t.mem.selfRefresh = true ∧
       t.ledger.ring = s.ledger.ring ∧ t.time.room = (s.elapse dt).time.room ∧ t.power.warmDue = none) ∧
     (s.power.warmDue = none → exec (.warmReset dt) s = .next (s.elapse dt)) ∧
     (∀ at' msg, s.fault.dead = false → s.power.state ≠ .off → s.fault.resetDue = some (at', msg) → at' ≤ s.time.now + dt →
       ∃ t, exec (.auditorReset dt) s = .next t ∧ Restarted 3 s t ∧ t.sets.active = s.sets.active ∧ t.mem.dram = [] ∧
         t.fault.resetDue = none ∧ t.power.auditorTimes.getLast? = some (s.time.now + dt) ∧
         (msg % 256 = 9 → t.fault.thermalHold = true)) ∧
     (∀ p : Fin 4, ∀ r, InHand s p 0x0102 r →
       (r.u8 0 = 1 → ∃ t, exec (.deviceReset dt p) s = .next t ∧ t.power = { s.power with warmDue := some p.val }) ∧
       (r.u8 0 ≠ 1 → exec (.deviceReset dt p) s = .next ((s.begun dt p).answer p r stNotSupported Bytes.none))))

/-- A tamper monitor resets the device, clears the Vault slots and holds the device in reset until the hold is released; the
third AUDITOR reset within 10 minutes makes the next start a start in safe state (R304, R357, R358).

A domain reset turns the domain off and on, withdraws the pending commit and leaves sessions; it sets `RESET_KIND` 7
once the device has started (R379, R381). A decoder core whose self-test then fails is switched off again (R88).

It says that these commands complete: `tamperTrip`, `tamperHoldRelease`, `thermalTripHoldRelease`, `domainReset`.

Readings of the model are in it: log entries 8, 29 and 30. -/
def Obligations.TamperHoldsAndDomainResets : Prop :=
  (∀ (s : State) (dt : Nat),
     (∀ m : Fin 4, s.power.state ≠ .off → ∃ t, exec (.tamperTrip dt m) s = .next t ∧ Restarted 3 s t ∧
       t.sec.slots = [] ∧ t.fault.tamperHold = some m.val ∧ t.heldInReset = true ∧
       t.sec.tamperCount = s.sec.tamperCount + 1 ∧
       (2 ≤ (s.elapse dt).auditorRecent.length → t.power.startInSafe = some (faultMsg 0x080 2 m))) ∧
     (s.fault.tamperHold.isSome = true → s.power.resetAt + 1000000 ≤ s.time.now + dt →
       ∃ t, exec (.tamperHoldRelease dt) s = .next t ∧ t.fault.tamperHold = none ∧
       t.power.resetAt = s.time.now + dt ∧ Only [.fault, .power] (s.elapse dt) t) ∧
     (s.fault.thermalHold = true → ∃ t, exec (.thermalTripHoldRelease dt) s = .next t ∧ t.fault.thermalHold = false ∧
       t.power.resetAt = s.time.now + dt ∧ Only [.fault, .power] (s.elapse dt) t) ∧
     (s.fault.tamperHold = none ∨ s.time.now + dt < s.power.resetAt + 1000000 →
       exec (.tamperHoldRelease dt) s = .next (s.elapse dt)) ∧
     (s.fault.thermalHold = false → exec (.thermalTripHoldRelease dt) s = .next (s.elapse dt))) ∧
  (∀ (s : State) (dt : Nat) (d : Fin 26), s.tellerUp = true → 4 ≤ d.val → (s.domain d).on = true →
     let test := Config.selfTest (s.elapse dt).draw d
     ∃ t, exec (.domainReset dt d) s = .next t ∧
       (8 ≤ d.val ∨ (test.failedUnits = [] ∧ test.exhausted = none) → (t.domain d).on = true ∧ (t.domain d).clock = 8) ∧
       t.sets.pending = none ∧ t.power.started = s.power.started ∧
       (s.power.started = true → t.power.resetKind = 7) ∧
       (s.power.started = false → t.power.resetKind = s.power.resetKind) ∧
       (∀ p, (t.port p).session = (s.port p).session))

/-- A start completes (R383): the device is started at step 7, ALIVE begins unless the device starts in safe state, and
`LEDGER_START` has been written; a PERST# that rises is noted.

Switching: a domain that is off, needed and allowed comes up at full clock; one that is on and not needed goes down; a
transition ends in its state; a wake source that fires in NIGHT starts the way back, and aborts an entry into NIGHT
(R371, R375 to R378).

It says that these commands complete: `startComplete`, `perstRise`, `domainPowerUp`, `domainPowerDown`,
`powerTransitionDone`, `wakeEvent`.

Readings of the model are in it: log entries 8, 30 and 50. -/
def Obligations.StartsAndTransitions : Prop :=
  (∀ (s : State) (dt : Nat),
     (s.tellerUp = true → s.power.started = false → s.power.step ≤ 7 → ∃ t, exec (.startComplete dt) s = .next t ∧
       t.power.started = true ∧ t.power.step = 7 ∧ t.ledger.lastAnchor.isSome = true ∧ t.links.applyDue = false ∧
       t.fault.alive = !t.inSafe) ∧
     (s.power.started = true → exec (.startComplete dt) s = .next (s.elapse dt)) ∧
     (∀ h : Fin 2, ∃ t, exec (.perstRise dt h) s = .next t ∧ t.power.perst.getLsbD h = true ∧
       t.power = { s.power with perst := t.power.perst } ∧ Only [.power] (s.elapse dt) t)) ∧
  (∀ (s : State) (dt : Nat), s.tellerUp = true →
     (∀ d : Fin 26, 4 ≤ s.power.step →
       let u := if 18 ≤ d.val ∧ d.val < 24 then (s.elapse dt).applyTable else s.elapse dt
       (u.domain d).on = false → u.needs d = true → u.allows d = true →
       ∃ t, exec (.domainPowerUp dt d ⟨false, [], none, none, false⟩) s = .next t ∧ (t.domain d).on = true ∧
         (t.domain d).clock = 8) ∧
     (∀ d : Fin 26, (s.domain d).on = true → (s.needs d = false ∨ s.allows d = false) →
       ∃ t, exec (.domainPowerDown dt d) s = .next t ∧ (t.domain d).on = false) ∧
     (∀ x, s.power.transition = some x → s.power.started = true → (s.elapse dt).memoryBack x = true →
       ∃ t, exec (.powerTransitionDone dt) s = .next t ∧ t.power.state = x.target ∧ t.power.transition = none ∧
         (x.target = .off → t.fault.alive = false ∧ ∀ d, (t.domain d).on = false)) ∧
     (∀ w : Fin 7, (s.elapse dt).wakeFires w = true →
       (s.power.transition = none → s.power.state = .night → ∃ t, exec (.wakeEvent dt w) s = .next t ∧
         Only [.power] (s.elapse dt) t ∧
         t.power = { s.power with transition := some ⟨s.power.back, s.power.backMask, w, 0⟩ }) ∧
       (∀ x, s.power.transition = some x → x.target = .night → ∃ t, exec (.wakeEvent dt w) s = .next t ∧
         Only [.power, .ledger] (s.elapse dt) t ∧ t.power = { s.power with transition := none })))

/-- `POWER_STATE_SET`: a mask outside DIM is NOT_SUPPORTED, a mask that cannot be taken and NIGHT or OFF of a paired unit
DENIED, NIGHT or OFF with a commit pending BUSY; otherwise the change begins, or a change in progress ends where the state
asked for is in force (R375, R376). `WAKE_SOURCES_SET` and `POWER_STATUS_GET` (R377).

The envelopes of a domain's loops: one item sets them and nothing else, unless it is refused; a step of the voltage loop
moves the voltage by at most 2.5 mV within the effective window, and a step of the thermal loop takes the reading and the
clock of `stepClock`, which is at least a quarter (R314, R372 to R374).

It says that these commands complete: `powerStateSet`, `wakeSourcesSet`, `powerStatusGet`, `loopEnvelopeSet`,
`voltageLoopStep`, `thermalLoopStep`.

A reading of the model is in it: log entry 50. -/
def Obligations.PowerMessagesAndLoops : Prop :=
  (∀ (s : State) (dt : Nat) (p : Fin 4) (r : Request),
     (∀ st, InHand s p 0x0B01 r → powerOfCode (r.u8 0) = some st →
       (st ≠ .dim → r.u32 4 ≠ 0 →
         exec (.powerStateSet dt p) s = .next ((s.begun dt p).answer p r stNotSupported Bytes.none)) ∧
       (st = .dim → s.maskDenied (r.u32 4) = true →
         exec (.powerStateSet dt p) s = .next ((s.begun dt p).answer p r stDenied Bytes.none)) ∧
       (st = .night ∨ st = .off → r.u32 4 = 0 → s.pair.enabled = true →
         exec (.powerStateSet dt p) s = .next ((s.begun dt p).answer p r stDenied Bytes.none)) ∧
       (st = .night ∨ st = .off → r.u32 4 = 0 → s.pair.enabled = false → s.sets.pending.isSome = true →
         exec (.powerStateSet dt p) s = .next ((s.begun dt p).answer p r stBusy Bytes.none)) ∧
       ((st = .run ∧ r.u32 4 = 0) ∨ (st = .dim ∧ s.maskDenied (r.u32 4) = false) ∨
           ((st = .night ∨ st = .off) ∧ r.u32 4 = 0 ∧ s.pair.enabled = false ∧ s.sets.pending = none) →
         ∃ t, exec (.powerStateSet dt p) s = .next t ∧ Only [.mail, .power] (s.elapse dt) t ∧
           t.power = { s.power with transition :=
             if s.power.state = st ∧ s.power.mask = r.u32 4 then none else some ⟨st, r.u32 4, 0xFF, 0⟩ })) ∧
     (InHand s p 0x0B01 r → powerOfCode (r.u8 0) = none →
       exec (.powerStateSet dt p) s = .next ((s.begun dt p).answer p r stNotSupported Bytes.none)) ∧
     (InHand s p 0x0B04 r → ∃ t, exec (.wakeSourcesSet dt p) s = .next t ∧ Only [.mail, .power] (s.elapse dt) t ∧
       t.power = { s.power with wakeMask := r.u8 0 % 128, alarm := r.u64 8 }) ∧
     (InHand s p 0x0B02 r → ∃ x, exec (.powerStatusGet dt p) s = .next ((s.begun dt p).answer p r stOk x) ∧ x.len = 24 ∧
       Bytes.at x 0 4 = powerCode s.power.state ∧ (Bytes.at x 4 4).testBit 0 = true)) ∧
  (∀ (s : State) (dt : Nat),
     (∀ (p : Fin 4) (r : Request) (d v : Nat), InHand s p 0x0B03 r → itemList r 8 25 = .inr (d, [v]) →
       (loopItemBad d v = true →
         exec (.loopEnvelopeSet dt p) s = .next ((s.begun dt p).answer p r stNotSupported Bytes.none)) ∧
       (loopItemBad d v = false → ∃ t, exec (.loopEnvelopeSet dt p) s = .next t ∧ Only [.mail, .power] (s.elapse dt) t ∧
         (∀ e, e ≠ d → t.domain e = s.domain e) ∧
         (v % 256 = 0 → t.domain d = { s.domain d with loMv := (v / 2 ^ 32) % 65536, hiMv := (v / 2 ^ 48) % 65536 }) ∧
         (v % 256 ≠ 0 → t.domain d = { s.domain d with loC := (v / 2 ^ 32) % 65536, hiC := (v / 2 ^ 48) % 65536 }))) ∧
     (∀ (d : Fin 26) (slack : ReplicaReading), s.windowUp = true → d ≠ 0 → (s.domain d).on = true →
       ∃ t, exec (.voltageLoopStep dt d slack) s = .next t ∧ t.power.state = s.power.state ∧
         2 * (s.voltWindow d).1 ≤ (t.domain d).hmv ∧
         ((s.voltWindow d).1 ≤ (s.voltWindow d).2.1 → (t.domain d).hmv ≤ 2 * (s.voltWindow d).2.1) ∧
         (2 * (s.voltWindow d).1 ≤ (s.domain d).hmv → (s.domain d).hmv ≤ 2 * (s.voltWindow d).2.1 →
           (t.domain d).hmv ≤ (s.domain d).hmv + 5 ∧ (s.domain d).hmv ≤ (t.domain d).hmv + 5) ∧
         (t.domain d).heldLimit = (s.voltWindow d).2.2) ∧
     (∀ (d : Fin 26) (reading : Int), s.tellerUp = true → 2 ≤ d.val → d.val ≤ 12 → (s.domain d).on = true →
       ∃ t, exec (.thermalLoopStep dt d reading) s = .next t ∧ (t.domain d).temp = reading ∧
         (t.domain d).clock = (s.domain d).stepClock reading (s.time.now + dt) ∧
         ((s.domain d).hiC ≤ 105 → ((s.domain d).hiC : Int) < reading → (t.domain d).clock = max 2 ((s.domain d).clock - 1)) ∧
         (105 < reading → (t.domain d).clock = max 2 ((s.domain d).clock - 1))))

/-! ## Ledger and Tally (14) -/

/-- A job of at most 64 KiB that may be read gives the CRC of its bytes, counts a mismatch with the value expected and
answers OK; one that may not leaves the engine idle with its result as it was; an illegal configuration is NOT_SUPPORTED
and a busy engine BUSY; a longer job is held (R290, R328, R330).

A running job ends: its result when every read succeeded, DENIED when not. A saved context is that of a job that has
read part of its bytes, and a context restored runs on (R330, R332); the status record changes nothing.

It says that these commands complete: `tallyRun`, `tallyJobDone`, `tallyStatusGet`, `tallyContextSave`,
`tallyContextRestore`.

Readings of the model are in it: log entries 10 and 34. -/
def Obligations.TallyJobs : Prop :=
  (∀ (s : State) (dt : Nat) (p : Fin 4) (r : Request), InHand s p 0x1001 r →
     let c := tallyJob r
     (1 < r.u8 0 ∨ tallyLegal c = false →
       exec (.tallyRun dt p) s = .next ((s.begun dt p).answer p r stNotSupported Bytes.none)) ∧
     (r.u8 0 ≤ 1 → tallyLegal c = true → (s.tally (r.u8 0)).state = 1 →
       exec (.tallyRun dt p) s = .next ((s.begun dt p).answer p r stBusy Bytes.none)) ∧
     (r.u8 0 ≤ 1 → tallyLegal c = true → (s.tally (r.u8 0)).state ≠ 1 → c.remaining ≤ 65536 →
       s.tallyReadable p c.addr c.remaining = true →
       ∃ t, exec (.tallyRun dt p) s = .next t ∧ (t.tally (r.u8 0)).state = 2 ∧
         (t.tally (r.u8 0)).result = crcFinal c.width c.refOut c.xorOut
           (crcFeed c.width c.poly c.refIn c.reg
             ((upTo c.remaining).map (fun i => (Memory.read s.mem.dram (c.addr + i)).toNat)) % 2 ^ c.width) ∧
         (t.tally (r.u8 0)).mismatches = (s.tally (r.u8 0)).mismatches +
           (if c.compare = true ∧ (t.tally (r.u8 0)).result ≠ c.expected then 1 else 0)) ∧
     (r.u8 0 ≤ 1 → tallyLegal c = true → (s.tally (r.u8 0)).state ≠ 1 → c.remaining ≤ 65536 →
       s.tallyReadable p c.addr c.remaining = false →
       ∃ t, exec (.tallyRun dt p) s = .next t ∧ (t.tally (r.u8 0)).state = 2 ∧
         (t.tally (r.u8 0)).result = (s.tally (r.u8 0)).result ∧
         (t.tally (r.u8 0)).mismatches = (s.tally (r.u8 0)).mismatches) ∧
     (r.u8 0 ≤ 1 → tallyLegal c = true → (s.tally (r.u8 0)).state ≠ 1 → 65536 < c.remaining → s.canHold p = true →
       ∃ t, exec (.tallyRun dt p) s = .next t ∧ (t.tally (r.u8 0)).state = 1 ∧ (t.tally (r.u8 0)).ctx = c ∧
         (t.port p).held = (s.port p).held ++ [r])) ∧
  (∀ (s : State) (dt : Nat) (p : Fin 4) (r : Request),
     (∀ e : Fin 2, (s.tally e).state = 1 →
       (s.tallyReadable (s.tally e).port (s.tally e).ctx.addr (s.tally e).ctx.remaining = true →
         ∃ t, exec (.tallyJobDone dt e true) s = .next t ∧ (t.tally e).state = 2 ∧ (t.tally e).ctx.remaining = 0 ∧
           (t.tally e).result = ((s.tally e).ctx.advance s.mem.dram (s.tally e).ctx.remaining).result) ∧
       (∃ t, exec (.tallyJobDone dt e false) s = .next t ∧ (t.tally e).state = 2 ∧
         (t.tally e).result = (s.tally e).result ∧
         (s.tallyReadable (s.tally e).port (s.tally e).ctx.addr (s.tally e).ctx.remaining = true →
           Only [.sec, .mail] (s.elapse dt) t))) ∧
     (InHand s p 0x1002 r → ∃ x, exec (.tallyStatusGet dt p) s = .next ((s.begun dt p).answer p r stOk x) ∧ x.len = 32) ∧
     (InHand s p 0x1003 r → r.u8 0 ≤ 1 → (s.tally (r.u8 0)).state = 1 →
       ∃ t n, exec (.tallyContextSave dt p) s = .next t ∧ (t.tally (r.u8 0)).state = 0 ∧
         n ≤ (s.tally (r.u8 0)).ctx.remaining ∧
         (t.tally (r.u8 0)).ctx = (s.tally (r.u8 0)).ctx.advance s.mem.dram n ∧
         ((t.tally (r.u8 0)).ctx.addr % 64 = 0 ∨ (t.tally (r.u8 0)).ctx.remaining = 0)) ∧
     (InHand s p 0x1004 r → r.u8 0 ≤ 1 → (s.tally (r.u8 0)).state ≠ 1 →
       (tallyContext (Bytes.slice r.payload 4 32) = none →
         exec (.tallyContextRestore dt p) s = .next ((s.begun dt p).answer p r stNotSupported Bytes.none)) ∧
       (∀ c, tallyContext (Bytes.slice r.payload 4 32) = some c →
         ∃ t, exec (.tallyContextRestore dt p) s = .next t ∧ (t.tally (r.u8 0)).state = 1 ∧
           (t.tally (r.u8 0)).ctx = c ∧ Only [.sec, .mail] (s.elapse dt) t)))

/-- A job of length zero reads nothing: its result is the final transform of the initial value, which is 0 under the CRC
of R115, and it is compared all the same (R329).

A job read in two parts gives what it gives read at once, which is what R332 rests on.

It says that this command completes: `tallyRun`. -/
def Obligations.TallyJobsMayBeSplit : Prop :=
  (∀ (s : State) (dt : Nat) (p : Fin 4) (r : Request), InHand s p 0x1001 r →
    let c := tallyJob r
    (r.u8 0 ≤ 1 → tallyLegal c = true → (s.tally (r.u8 0)).state ≠ 1 → c.remaining = 0 →
      ∃ t, exec (.tallyRun dt p) s = .next t ∧ Only [.sec, .ledger, .mail, .mem] (s.elapse dt) t ∧
        t.mem.dram = s.mem.dram ∧
        (t.tally (r.u8 0)).state = 2 ∧ (t.tally (r.u8 0)).result = crcFinal c.width c.refOut c.xorOut c.reg ∧
        (t.tally (r.u8 0)).mismatches = (s.tally (r.u8 0)).mismatches +
          (if c.compare = true ∧ (t.tally (r.u8 0)).result ≠ c.expected then 1 else 0) ∧
        (c.width = 32 → c.refOut = true → c.xorOut = true → c.reg = 0xFFFFFFFF → (t.tally (r.u8 0)).result = 0))) ∧
  (∀ (c : TallyCtx) (m : List Host.Cell) (a b : Nat), c.width = 16 ∨ c.width = 32 →
    c.advance m (a + b) = (c.advance m a).advance m b)

/-- A context written to its 32 bytes and read from them is the same context: the layout of Table 14-6 loses no field,
and its check holds.

A ledger record written to its 32 bytes and read from them is the same record (Table 14-1). -/
def Obligations.RecordsRoundTrip : Prop :=
  (∀ c : TallyCtx, c.width < 256 → c.poly < 2 ^ 32 → c.addr < 2 ^ 64 → c.remaining < 2 ^ 32 → c.reg < 2 ^ 32 →
     c.expected < 2 ^ 32 → c.bytes.len = 32 ∧ tallyContext c.bytes = some c) ∧
  (∀ x : LedgerRec, x.code < 2 ^ 16 → x.inst < 2 ^ 8 → x.origin < 2 ^ 4 → x.powerCycle < 2 ^ 32 → x.optime < 2 ^ 48 →
     x.p0 < 2 ^ 32 → x.p1 < 2 ^ 32 → x.p2 < 2 ^ 32 → x.p3 < 2 ^ 32 →
     x.bytes.len = 32 ∧ LedgerRec.ofBits (x.bytes.bits 256) = { x with seq := x.seq % 65536 })

/-- Every record takes the next sequence number and its slot of the ring, stamped with the power cycle, the operating time
and the safe and debug flags (R319, R322).

The messages of the ledger: its pointers, its valid records from a sequence on, and host notes, of which a port writes
at most 100 in a second (R295, R319, R321).

The ledger spills its oldest waiting record to the next place in flash when a page of them waits or one has waited
100 ms, and not before; a failed write changes no record and raises `FLASH_ERROR`; operating time is marked and spilled at
once, no oftener than the 60 s allow; a configuration set whose CRC fails is noted and raised as `TELLER_ASSERT` (R320,
R323, R324, R331).

It says that these commands complete: `ledgerInfoGet`, `ledgerRead`, `ledgerNote`, `ledgerSpill`, `optimeMark`,
`configScrub`.

Readings of the model are in it: log entries 8 and 35. -/
def Obligations.LedgerRecordsAndMessages : Prop :=
  (∀ (s : State) (code : Nat) (ps : List Nat),
     let g := s.ledgerStart.ledger
     ∃ x, Tbl.find (s.log code ps).ledger.ring (g.next % 8192) = some x ∧ x.code = code ∧ x.seq = g.next ∧
       x.origin = 0 ∧ x.inst = 0 ∧ x.powerCycle = s.ledger.powerCycle ∧ x.optime = s.optime ∧ x.safe = s.inSafe ∧
       x.debug = s.sec.dbg.openSince.isSome ∧ x.p0 = ps.getD 0 0 % 2 ^ 32 ∧ x.p3 = ps.getD 3 0 % 2 ^ 32 ∧
       Only [.ledger] s (s.log code ps)) ∧
  (∀ (s : State) (dt : Nat) (p : Fin 4) (r : Request),
     (InHand s p 0x0901 r → exec (.ledgerInfoGet dt p) s = .next ((s.begun dt p).answer p r stOk
       (Bytes.join [wordsLE [s.ledgerOldest, s.ledger.next, s.ringOldest, s.ledger.powerCycle],
         leBytes 6 (s.elapse dt).optime, leBytes 2 0]))) ∧
     (InHand s p 0x0902 r →
       let l := (s.recordsFrom (r.u32 0)).take (min (r.u32 4) ((r.room - 8) / 32))
       ∃ first, exec (.ledgerRead dt p) s = .next ((s.begun dt p).answer p r stOk
           (Bytes.cat (wordsLE [first, l.length]) (Bytes.join (l.map (fun e => e.2.bytes))))) ∧
         first = (((s.recordsFrom (r.u32 0)).head?).map (·.1)).getD (r.u32 0)) ∧
     (InHand s p 0x0903 r → 100 ≤ ((s.elapse dt).recentNotes p).length →
       exec (.ledgerNote dt p) s = .next ((s.begun dt p).answer p r stBusy Bytes.none)) ∧
     (InHand s p 0x0903 r → ((s.elapse dt).recentNotes p).length < 100 →
       ∃ t x, exec (.ledgerNote dt p) s = .next t ∧
         Tbl.find t.ledger.ring ((s.elapse dt).ledgerStart.ledger.next % 8192) = some x ∧ x.code = 0xC020 ∧
         x.origin = 2 ∧ x.inst = p ∧ x.p0 = r.u32 0 ∧ x.p1 = r.u32 4 ∧ x.p2 = r.u32 8 ∧ x.p3 = r.u32 12 ∧
         Only [.mail, .ledger] (s.elapse dt) t)) ∧
  (∀ (s : State) (dt : Nat), s.tellerUp = true →
     (∀ x, (s.elapse dt).pageDue = true → Tbl.find s.ledger.ring (s.ledger.spilled % 8192) = some x →
       ∃ t, exec (.ledgerSpill dt true) s = .next t ∧ t.ledger.flashFailing = false ∧
         Tbl.find t.ledger.flash s.ledger.flashPos = some x) ∧
     ((s.elapse dt).pageDue = true → ∃ t, exec (.ledgerSpill dt false) s = .next t ∧
       t.ledger.flashFailing = true ∧ t.ledger.flash = s.ledger.flash ∧ t.ledger.flashPos = s.ledger.flashPos) ∧
     ((s.elapse dt).pageDue = false → ∀ ok, exec (.ledgerSpill dt ok) s = .next (s.elapse dt)) ∧
     (s.time.now + dt < s.ledger.markAt.getD s.ledger.porAt + 59900000000 →
       exec (.optimeMark dt) s = .next (s.elapse dt)) ∧
     (∀ u, s.ledger.markAt.getD s.ledger.porAt + 59900000000 ≤ s.time.now + dt →
       u = ({ s.elapse dt with ledger := { s.ledger with markAt := some (s.time.now + dt) } } : State).log 0x0F02 [(s.elapse dt).time.room % 2 ^ 32, (s.elapse dt).time.room / 2 ^ 32 % 2 ^ 32,
         rtCode s.time.state, b2n s.time.traceable] →
       exec (.optimeMark dt) s = .next (if s.ledger.flashFailing = true then u.flashError else u.spillNow)) ∧
     (exec (.configScrub dt true) s = .next (s.elapse dt)) ∧
     (∃ t, exec (.configScrub dt false) s = .next t ∧ t.sets = { s.sets with crcOk := false } ∧
       ∃ x ∈ t.fault.log, x.msg = faultMsg 0x071 2 1 ∧ x.time = (s.elapse dt).time.room))

/-! ## Commit and sets (05) -/

/-- The item-list writes of the five kinds: refused with the status of a bad list; with no commit pending they change the
shadow set alone, item by item in order; with one pending they are held, and BUSY beyond 4,096 held writes (R127, R129,
R285). Tone profile 0 cannot be written (R108).

One item written with `SOURCE_SET`, `LAYER_SET`, `TONE_PROFILE_SET`, `OUTPUT_SET` or `FRESH_POLICY_SET` while no commit is
pending changes that item of the shadow set alone, and the message is answered OK (R127, R285).

An item written to a set reads back with its reserved bits zero, and no other item of its kind changes (R127, R4).

It says that these commands complete: `sourceSet`, `layerSet`, `toneProfileSet`, `outputSet`, `freshPolicySet`.

Readings of the model are in it: log entries 9, 11 and 39. -/
def Obligations.ItemsAreWrittenAndReadBack : Prop :=
  (∀ (s : State) (dt : Nat) (p : Fin 4) (r : Request),
     ∀ x ∈ [(SetKind.source, 0x0201, Instr.sourceSet dt p), (SetKind.layer, 0x0301, Instr.layerSet dt p),
         (SetKind.tone, 0x0304, Instr.toneProfileSet dt p), (SetKind.output, 0x0401, Instr.outputSet dt p),
         (SetKind.fresh, 0x0601, Instr.freshPolicySet dt p)], InHand s p x.2.1 r →
       (∀ st, itemList r (kindSize x.1) (kindLast x.1) = .inl st →
         exec x.2.2 s = .next ((s.begun dt p).answer p r st Bytes.none)) ∧
       (∀ items, x.1 = .tone → items ≠ [] → itemList r (kindSize x.1) (kindLast x.1) = .inr (0, items) →
         exec x.2.2 s = .next ((s.begun dt p).answer p r stDenied Bytes.none)) ∧
       (∀ first items, itemList r (kindSize x.1) (kindLast x.1) = .inr (first, items) → items ≠ [] →
         (x.1 = .tone → first ≠ 0) →
         (s.sets.pending = none → ∃ t, exec x.2.2 s = .next t ∧ t.sets = { s.sets with
           shadow := (items.zip (from' first items.length)).foldl (fun c e => c.write x.1 e.2 e.1) s.sets.shadow }) ∧
         (s.sets.pending.isSome = true → s.sets.held.length + items.length ≤ 4096 →
           ∃ t, exec x.2.2 s = .next t ∧ Only [.mail, .sets] (s.elapse dt) t ∧ t.sets = { s.sets with
             held := s.sets.held ++ (items.zip (from' first items.length)).map (fun e => ⟨x.1, e.2, e.1⟩) }) ∧
         (s.sets.pending.isSome = true → 4096 < s.sets.held.length + items.length →
           exec x.2.2 s = .next ((s.begun dt p).answer p r stBusy Bytes.none)))) ∧
  (∀ (s : State) (dt : Nat) (p : Fin 4) (r : Request) (i v : Nat), s.sets.pending = none →
     (InHand s p 0x0201 r → itemList r (kindSize .source) (kindLast .source) = .inr (i, [v]) →
       ∃ t, exec (.sourceSet dt p) s = .next t ∧ t.sets = { s.sets with shadow := s.sets.shadow.write .source i v }) ∧
     (InHand s p 0x0301 r → itemList r (kindSize .layer) (kindLast .layer) = .inr (i, [v]) →
       ∃ t, exec (.layerSet dt p) s = .next t ∧ t.sets = { s.sets with shadow := s.sets.shadow.write .layer i v }) ∧
     (InHand s p 0x0304 r → itemList r (kindSize .tone) (kindLast .tone) = .inr (i, [v]) → i ≠ 0 →
       ∃ t, exec (.toneProfileSet dt p) s = .next t ∧ t.sets = { s.sets with shadow := s.sets.shadow.write .tone i v }) ∧
     (InHand s p 0x0401 r → itemList r (kindSize .output) (kindLast .output) = .inr (i, [v]) →
       ∃ t, exec (.outputSet dt p) s = .next t ∧ t.sets = { s.sets with shadow := s.sets.shadow.write .output i v }) ∧
     (InHand s p 0x0601 r → itemList r (kindSize .fresh) (kindLast .fresh) = .inr (i, [v]) →
       ∃ t, exec (.freshPolicySet dt p) s = .next t ∧ t.sets = { s.sets with shadow := s.sets.shadow.write .fresh i v })) ∧
  (∀ (c : ConfigSet) (k : SetKind) (i j v : Nat), v < 2 ^ (8 * kindSize k) →
     (c.write k i v).read k i = v - (v &&& reservedBits k i) ∧
     (j ≠ i → (c.write k i v).read k j = c.read k j) ∧
     (∀ k', k' ≠ k → (c.write k i v).read k' j = c.read k' j))

/-- `SET_COPY` and `LAYER_STRIPE` are BUSY while a commit is pending; a copy makes the shadow set the active one;
`SET_READ` returns the items asked for, and changes nothing (R127, R129, R294).

`COMMIT_GROUP_SET` is BUSY while a commit is pending, refused with the status its checks give, and otherwise sets the
group alone (R130).

It says that these commands complete: `setCopy`, `setRead`, `layerStripe`, `commitGroupSet`.

Readings of the model are in it: log entries 11, 39 and 58. -/
def Obligations.SetAndGroupMessages : Prop :=
  (∀ (s : State) (dt : Nat) (p : Fin 4) (r : Request),
     (InHand s p 0x0506 r →
       (s.sets.pending.isSome = true → exec (.setCopy dt p) s = .next ((s.begun dt p).answer p r stBusy Bytes.none)) ∧
       (s.sets.pending = none → ∃ t, exec (.setCopy dt p) s = .next t ∧
         t.sets = { s.sets with shadow := s.sets.active })) ∧
     (InHand s p 0x0507 r → ∀ k, kindOfCode (r.u8 1) = some k → r.u8 0 ≤ 1 →
       (∀ l, cutList (r.u16 4) (r.u16 6) (kindLast k + 1) (kindSize k) r.room = some l →
         exec (.setRead dt p) s = .next ((s.begun dt p).answer p r stOk (listPayload (l.map (fun i =>
           leBytes (kindSize k) ((if r.u8 0 = 0 then s.sets.active else s.sets.shadow).read k i)))))) ∧
       (cutList (r.u16 4) (r.u16 6) (kindLast k + 1) (kindSize k) r.room = none →
         exec (.setRead dt p) s = .next ((s.begun dt p).answer p r stNotSupported Bytes.none))) ∧
     (InHand s p 0x0303 r →
       (s.sets.pending.isSome = true → exec (.layerStripe dt p) s = .next ((s.begun dt p).answer p r stBusy Bytes.none)) ∧
       (s.sets.pending = none → r.u16 0 ≤ 1023 → 2 ≤ r.u8 2 → r.u8 2 ≤ 4 →
         layEnable (s.sets.shadow.layer (r.u16 0)) = true → layStriped (s.sets.shadow.layer (r.u16 0)) = false →
         let d := s.sets.shadow.layer (r.u16 0)
         let idx := r.u16 0 :: ((upTo 1024).filter (fun i => !layEnable (s.sets.shadow.layer i))).take (r.u8 2 - 1)
         idx.length = r.u8 2 → (∀ i, i < r.u8 2 → layCropW (stripeOf d (r.u8 2) i (r.u16 0)) ≤ 4096) →
         ∃ t, exec (.layerStripe dt p) s = .next t ∧ t.sets.active = s.sets.active ∧
           (∀ i, i < r.u8 2 → (t.sets.shadow.layer (idx.getD i 0)).toNat =
             itemKept .layer (idx.getD i 0) (stripeOf d (r.u8 2) i (r.u16 0)).toNat) ∧
           (∀ j, j ∉ idx → t.sets.shadow.layer j = s.sets.shadow.layer j)))) ∧
  (∀ (s : State) (dt : Nat) (p : Fin 4) (r : Request), InHand s p 0x0504 r →
     (s.sets.pending.isSome = true →
       exec (.commitGroupSet dt p) s = .next ((s.begun dt p).answer p r stBusy Bytes.none)) ∧
     (s.sets.pending = none → 15 < r.u8 0 →
       exec (.commitGroupSet dt p) s = .next ((s.begun dt p).answer p r stNotSupported Bytes.none)) ∧
     (s.sets.pending = none → r.u8 0 ≤ 15 →
       let x := groupKept (Bytes.at r.payload 4 16)
       (∀ st, s.groupCheck (r.u8 0) x = some st →
         exec (.commitGroupSet dt p) s = .next ((s.begun dt p).answer p r st Bytes.none)) ∧
       (s.groupCheck (r.u8 0) x = none → ∃ t, exec (.commitGroupSet dt p) s = .next t ∧ t.group (r.u8 0) = x ∧
         (∀ g, g ≠ r.u8 0 → t.group g = s.group g) ∧ t.sets.active = s.sets.active ∧ t.sets.shadow = s.sets.shadow)))

/-- `COMMIT` is BUSY while one is pending, and otherwise begins clearing with the next commit sequence number (R134);
clearing gives a rejection, which ends it, or makes it eligible, staging begun (R134 to R136).

At the settlement line of the pending commit's group: staging not complete defers it; an open fence defers it while
the group's limit allows; otherwise it settles, and the shadow set becomes the active set at once (R123, R139, R140).

`STAGING_COMPLETE` marks the commit staged; a cancel of a pending commit ends it and applies the held writes, and the
status record tells the pending commit, or the last one; a cancel rung after a settlement was sampled is DENIED until that is
reported (R123, R129, R137, R141).

It says that these commands complete: `commit`, `clearingComplete`, `settlementLine`, `stagingComplete`,
`commitStatusGet`, `commitCancel`.

Readings of the model are in it: log entries 39 and 58. -/
def Obligations.CommitsClearAndSettle : Prop :=
  (∀ (s : State) (dt : Nat),
     (∀ (p : Fin 4) (r : Request), InHand s p 0x0501 r →
       (s.sets.pending.isSome = true → exec (.commit dt p) s = .next ((s.begun dt p).answer p r stBusy Bytes.none)) ∧
       (s.sets.pending = none → 15 < r.u8 0 →
         exec (.commit dt p) s = .next ((s.begun dt p).answer p r stNotSupported Bytes.none)) ∧
       (s.sets.pending = none → r.u8 0 ≤ 15 → ((r.u8 1).testBit 1 = true → s.canHold p = true) →
         ∃ t c, exec (.commit dt p) s = .next t ∧ Only [.mail, .sets] (s.elapse dt) t ∧ t.sets.pending = some c ∧
           c.seq = s.sets.seq ∧ c.group = r.u8 0 ∧ c.swap = (r.u8 1).testBit 0 ∧ c.waitSettle = (r.u8 1).testBit 1 ∧
           c.state = .clearing ∧ c.req = some r ∧ t.sets.seq = (s.sets.seq + 1) % 2 ^ 32 ∧
           t.sets.active = s.sets.active ∧ t.sets.shadow = s.sets.shadow)) ∧
     (∀ c, s.sets.pending = some c → c.state = .clearing → s.tellerUp = true →
       (∀ f, (s.elapse dt).clear s.sets.shadow = some f → ∃ t, exec (.clearingComplete dt) s = .next t ∧
         t.sets.pending = none ∧ t.sets.active = s.sets.active ∧
         (t.sets.last.map (·.state)) = some .rejected) ∧
       ((s.elapse dt).clear s.sets.shadow = none → ∃ t c', exec (.clearingComplete dt) s = .next t ∧
         t.sets.pending = some c' ∧ c'.state = .staging ∧ c'.eligibleAt = some (s.time.now + dt) ∧ c'.seq = c.seq ∧
         t.sets.active = s.sets.active ∧ t.sets.shadow = s.sets.shadow))) ∧
  (∀ (s : State) (dt : Nat) (g : Fin 16) (c : Commit) (r : Request) (e : Nat),
     isHead (grpMaster (s.group g)) = true → s.sets.pending = some c → c.group = g → c.room = none →
     c.req = some r → c.eligibleAt = some e → e < s.time.now + dt →
     (c.stagingDone = false → ∃ t c', exec (.settlementLine dt g) s = .next t ∧ t.sets.pending = some c' ∧
       c'.state = .deferred ∧ c'.stageDefers = c.stageDefers + 1 ∧ c'.defers = c.defers ∧
       t.sets.active = s.sets.active) ∧
     (c.stagingDone = true → s.waitingFences ≠ [] → c.defers < grpDeferLimit (s.group g) →
       ∃ t c', exec (.settlementLine dt g) s = .next t ∧ t.sets.pending = some c' ∧ c'.state = .deferred ∧
         c'.defers = c.defers + 1 ∧ t.sets.active = s.sets.active) ∧
     (c.stagingDone = true → (s.waitingFences = [] ∨ grpDeferLimit (s.group g) ≤ c.defers) →
       ∃ t, exec (.settlementLine dt g) s = .next t ∧ t.sets.pending = none ∧ t.sets.active = s.sets.shadow ∧
         (c.swap = false → t.sets.shadow = s.sets.shadow ∧ t.sets.held = []) ∧
         (c.swap = true → s.sets.held = [] → t.sets.shadow = s.sets.active) ∧
         (t.sets.last.map (·.state)) = some .settled)) ∧
  (∀ (s : State) (dt : Nat) (p : Fin 4) (r : Request),
     (∀ c, s.sets.pending = some c → c.eligibleAt.isSome = true → c.stagingDone = false → s.sets.effect = none →
       s.composeOff = false → ∃ t c', exec (.stagingComplete dt) s = .next t ∧ t.sets.pending = some c' ∧
         c'.stagingDone = true ∧ c'.state = (if c.state = .staging then .waiting else c.state) ∧
         Only [.sets, .comp, .mem] (s.elapse dt) t) ∧
     (∀ c, InHand s p 0x0502 r → s.sets.pending.or s.sets.last = some c →
       exec (.commitStatusGet dt p) s = .next ((s.begun dt p).answer p r stOk (wordsLE [c.seq, commitCode c.state, c.group,
         c.defers, c.stageDefers, c.groupFrame, c.frameTime % 2 ^ 32, c.frameTime / 2 ^ 32 % 2 ^ 32, c.status]))) ∧
     (∀ c, InHand s p 0x0503 r → s.sets.pending = some c → ∃ t, exec (.commitCancel dt p) s = .next t ∧
       t.sets.pending = none ∧ t.sets.held = [] ∧ t.sets.active = s.sets.active ∧
       (t.sets.last.map (·.state)) = some .cancelled ∧ (t.sets.last.map (·.seq)) = some c.seq) ∧
     (InHand s p 0x0503 r → s.sets.pending = none → s.sets.effect = none →
       exec (.commitCancel dt p) s = .next ((s.begun dt p).answer p r stOk (leBytes 4 0))) ∧
     (∀ c outs, InHand s p 0x0503 r → s.sets.pending = none → s.sets.effect = some (c, outs) →
       (c.reported = true ∨ r.time ≤ c.sampledAt →
         exec (.commitCancel dt p) s = .next ((s.begun dt p).answer p r stOk (leBytes 4 0))) ∧
       (c.reported = false → c.sampledAt < r.time → ∃ frame,
         exec (.commitCancel dt p) s = .next ((s.begun dt p).answer p r stDenied (leBytes 4 frame)))))

/-! ## Sources and decoding (02, 03) -/

/-- A mint takes the source's next `SEQUENCE`, becomes its newest frame, and its capture time never lies past its arrival:
one that would is set to the arrival and counted (R12, R63, R75).

Host surfaces: a description that is refused changes nothing; one taken is kept, with nothing published and every fence
unsignalled; a publish makes its buffer the newest, signals its fence, marks it in use and mints a frame of the source that
shows the surface; a buffer in use that is neither newest, named by a layer nor read is released (R72, R138, R292).

It says that these commands complete: `surfaceSet`, `surfacePublish`, `surfaceReleased`.

Readings of the model are in it: log entries 17, 18, 36 and 58. -/
def Obligations.MintsAndSurfaces : Prop :=
  (∀ (s : State) (i : Nat) (f : Frame),
     let t := s.mint i f
     ∃ g, (t.srcRun i).lastMint = some g ∧ (t.srcRun i).frame = some g ∧ g.source = i ∧ g.seq = (s.srcRun i).nextSeq ∧
       g.capture = (if f.late = 0 then f.capture else f.arrival) ∧
       (g.relayed = true ∨ g.evidence = 2 → g.capture ≤ g.arrival) ∧ g.relayed = f.relayed ∧ g.arrival = f.arrival ∧ g.evidence = f.evidence ∧
       (t.srcRun i).nextSeq = ((s.srcRun i).nextSeq + 1) % 2 ^ 32 ∧ (t.srcRun i).minted = (s.srcRun i).minted + 1 ∧
       (t.srcRun i).cClamp = (s.srcRun i).cClamp + (if f.late = 0 then 0 else 1) ∧ (t.srcRun i).lost = none ∧
       (∀ j, j ≠ i → t.srcRun j = s.srcRun j) ∧ t.sets = s.sets ∧ t.mem = s.mem) ∧
  (∀ (s : State) (dt : Nat) (p : Fin 4) (r : Request),
     (InHand s p 0x0204 r →
       (∀ st, s.surfaceCheck (r.u8 0) (r.payload.bits 320) = some st →
         exec (.surfaceSet dt p) s = .next ((s.begun dt p).answer p r st Bytes.none)) ∧
       (s.surfaceCheck (r.u8 0) (r.payload.bits 320) = none → ∃ t, exec (.surfaceSet dt p) s = .next t ∧
         (t.surface (r.u8 0)).desc = some (r.payload.bits 320) ∧ (t.surface (r.u8 0)).newest = none ∧
         (t.surface (r.u8 0)).fence = 0 ∧ (∀ k, k ≠ r.u8 0 → t.surface k = s.surface k))) ∧
     (∀ d, InHand s p 0x0205 r → r.u8 0 ≤ 127 → r.u8 1 ≤ 2 → (s.surface (r.u8 0)).desc = some d →
       (surfBuffer d (r.u8 1) = 0 ∨ s.bufferInside d (r.u8 1) = false →
         exec (.surfacePublish dt p) s = .next ((s.begun dt p).answer p r stDenied Bytes.none)) ∧
       (surfBuffer d (r.u8 1) ≠ 0 → s.bufferInside d (r.u8 1) = true → ∃ t, exec (.surfacePublish dt p) s = .next t ∧
         (t.surface (r.u8 0)).newest = some (r.u8 1) ∧ (t.surface (r.u8 0)).fence.getLsbD (r.u8 1) = true ∧
         (t.surface (r.u8 0)).inUse.getLsbD (r.u8 1) = true ∧ (t.surface (r.u8 0)).desc = some d ∧
         ∀ i, s.surfaceSource (r.u8 0) = some i → (t.srcRun i).minted = (s.srcRun i).minted + 1)) ∧
     (∀ (k : Fin 128) (b : Fin 3), s.tellerUp = true → (s.surface k).inUse.getLsbD b = true →
       (s.surface k).newest ≠ some b.val → s.bufferNamed k b = false → (s.elapse dt).bufferRead k b = false →
       ∃ t, exec (.surfaceReleased dt k b) s = .next t ∧ (t.surface k).inUse.getLsbD b = false ∧
         (t.surface k).fence.getLsbD b = false ∧ (t.surface k).newest = (s.surface k).newest))

/-- Source messages: status lists of the descriptors asked for; held parameter sets are kept, cleared or refused; a host
restart permits a stopped RTP stream to start again (R63, R82, R95, R97).

It says that these commands complete: `sourceStatusGet`, `decodeStatusGet`, `sourceParamsSet`, `decodeRestart`.

Readings of the model are in it: log entries 11, 36 and 37. -/
def Obligations.SourceMessages : Prop :=
  ∀ (s : State) (dt : Nat) (p : Fin 4) (r : Request),
    (∀ l, InHand s p 0x0202 r → cutList (r.u16 0) (r.u16 2) 256 60 r.room = some l →
      exec (.sourceStatusGet dt p) s = .next ((s.begun dt p).answer p r stOk
        (listPayload (l.map (fun i => wordsLE ((s.begun dt p).sourceRecord i)))))) ∧
    (∀ l, InHand s p 0x020B r → cutList (r.u16 0) (r.u16 2) 256 40 r.room = some l →
      exec (.decodeStatusGet dt p) s = .next ((s.begun dt p).answer p r stOk
        (listPayload (l.map (fun i => wordsLE [i, decCode (s.decRun i).state, (s.decRun i).core.getD 0xFF,
          (s.decRun i).cost / 1000, (s.decRun i).profile * 256 + (s.decRun i).level, (s.decRun i).lastClass,
          twos 32 (s.decRun i).lastPoc, (s.decRun i).discarded, (s.decRun i).stops, (s.decRun i).restarts]))))) ∧
    (InHand s p 0x0206 r →
      (r.length = 0 → ∃ t, exec (.sourceParamsSet dt p) s = .next t ∧ t.src = { s.src with params := [] }) ∧
      ((0 < r.length ∧ r.length < 4) ∨ 4100 < r.length →
        exec (.sourceParamsSet dt p) s = .next ((s.begun dt p).answer p r stBadLength Bytes.none)) ∧
      (∀ l, 4 < r.length → r.length ≤ 4100 →
        let body := Bytes.slice r.payload 4 (r.length - 4)
        nalUnits body body.len = some l → (∀ n ∈ l, s.paramAllowed (r.u8 0) n = true) →
        ∃ t, exec (.sourceParamsSet dt p) s = .next t ∧ Tbl.find t.src.params (r.u8 0) = some body ∧
          ((s.decRun (r.u8 0)).state = .stopped → (t.decRun (r.u8 0)).heldAfter = true) ∧
          ∀ j, j ≠ r.u8 0 → Tbl.find t.src.params j = Tbl.find s.src.params j) ∧
      (r.length = 4 → ∃ t, exec (.sourceParamsSet dt p) s = .next t ∧ Tbl.find t.src.params (r.u8 0) = none)) ∧
    (InHand s p 0x0207 r →
      (srcKind (s.srcDesc (r.u8 0)) = kindKinik ∨ srcKind (s.srcDesc (r.u8 0)) = kindHost →
        exec (.decodeRestart dt p) s = .next ((s.begun dt p).answer p r stNotSupported Bytes.none)) ∧
      (kindIsRtp (srcKind (s.srcDesc (r.u8 0))) = true → (s.srcRun (r.u8 0)).subscribed = true →
        ∃ t, exec (.decodeRestart dt p) s = .next t ∧ t.decRun (r.u8 0) = { s.decRun (r.u8 0) with
          restartOk := (s.decRun (r.u8 0)).restartOk || decide ((s.decRun (r.u8 0)).state = .stopped) }))

/-- A frame on an enabled port that is `UP`: one it may not take is dropped and counted; an answer is sent to a request for
the port's own address; a packet in turn of the locked SSRC is held where the jitter regulator has room for it and counted
lost where it has none, a second one with its number is counted (R64, R69, R259).

Timers of a source: the second membership report, receiver reports, the deadline that releases an access unit
incomplete and moves the position past it, the change of SSRC, and the declaration of loss (R65, R68, R69, R78).

It says that these commands complete: `ethPacketReceived`, `membershipReportRepeat`, `rtcpRrSend`, `jitterDeadline`,
`ssrcChanged`, `sourceLossTimeout`.

Readings of the model are in it: log entries 8, 36 and 58. -/
def Obligations.PacketsAndTimers : Prop :=
  (∀ (s : State) (dt : Nat) (port : Fin 8) (k : EthPacket) (d : EthDesc), s.windowUp = true →
     (s.eth port).setting = some d → ethOn d = true → (s.eth port).up = true →
     (frameAllowed d k = false → ∃ t, exec (.ethPacketReceived dt port k) s = .next t ∧ Only [.links] (s.elapse dt) t ∧
       (t.eth port).dropped = (s.eth port).dropped + 1) ∧
     (∀ a, frameAllowed d k = true → k.body = .arpRequest a → a ≠ 0 → a = mapped4 (ethNet d 16 4) →
       exec (.ethPacketReceived dt port k) s = .next ((s.elapse dt).send (.eth port (ethVlan d) (.reply 1 k.src)))) ∧
     (∀ (pkt : RtpPacket) (i p l : Nat), frameAllowed d k = true → k.body = .rtp pkt →
       s.deliverTo port k (fun i => srcUdpPort (s.srcDesc i) == k.udpDst) = some i →
       pkt.payloadType = srcPayloadType (s.srcDesc i) →
       srcSrtp (s.srcDesc i) = 0 → pkt.unsupported = false → srcSsrcMatch (s.srcDesc i) = false →
       (s.srcRun i).ssrc = some l → l = pkt.ssrc → (s.srcRun i).pos = some p → pkt.seq < 65536 →
       (pkt.seq = (p + 1) % 65536 → (s.srcRun i).packets = [] → (s.srcRun i).lastTs ≠ some pkt.ts → pkt.marker = false →
         pkt.size ≤ 9216 → s.frozenChans = [] → (s.elapse dt).jitterLevel + pkt.size ≤ 1200000 →
         ∃ t x, exec (.ethPacketReceived dt port k) s = .next t ∧ Only [.src, .mem, .ledger] (s.elapse dt) t ∧
           t.mem.dram = s.mem.dram ∧ (t.srcRun i).packets = [x] ∧ x.ext = p + 1 ∧ x.arrival = (s.elapse dt).time.room ∧
           x.pkt = pkt ∧ (t.srcRun i).pos = some p ∧
           (t.srcRun i).lastRtpSeq = pkt.seq ∧ (t.srcRun i).cDup = (s.srcRun i).cDup) ∧
       (pkt.seq = (p + 1) % 65536 → (s.srcRun i).packets = [] → (s.srcRun i).lastTs ≠ some pkt.ts → s.frozenChans = [] →
         1200000 < (s.elapse dt).jitterLevel + pkt.size →
         ∃ t, exec (.ethPacketReceived dt port k) s = .next t ∧ Only [.src] (s.elapse dt) t ∧
           (t.srcRun i).packets = [] ∧ (t.srcRun i).cLost = (s.srcRun i).cLost + 1) ∧
       (pkt.seq = p % 65536 → ∃ t, exec (.ethPacketReceived dt port k) s = .next t ∧ Only [.src] (s.elapse dt) t ∧
         (t.srcRun i).packets = (s.srcRun i).packets ∧ (t.srcRun i).cDup = (s.srcRun i).cDup + 1))) ∧
  (∀ (s : State) (dt : Nat) (i : Fin 256),
     (∀ j d, (s.srcRun i).joined = some j → (s.srcRun i).reportDue = true → (s.eth j.port).setting = some d →
       ethOn d = true → (s.eth j.port).up = true →
       ∃ t m, exec (.membershipReportRepeat dt i) s = .next t ∧ t.srcRun i = { s.srcRun i with reportDue := false } ∧
         t.out = [.eth j.port (ethVlan d) (.membership j.group m)] ∧ Only [.src] (s.elapse dt) t) ∧
     (∀ a u, (s.srcRun i).rrTo = some (a, u) → (s.srcRun i).subscribed = true → kindIsRtp (srcKind (s.srcDesc i)) = true →
       srcRtcpRr (s.srcDesc i) = true →
       exec (.rtcpRrSend dt i) s = .next ((s.elapse dt).ethSendTo (srcPort (s.srcDesc i)) a (.rtcpRr i a u)) ∧
       ∀ d, (s.eth (srcPort (s.srcDesc i))).setting = some d → s.routed (srcPort (s.srcDesc i)) a = true →
         (ethOn d = true → (s.eth (srcPort (s.srcDesc i))).up = true →
           exec (.rtcpRrSend dt i) s = .next ((s.elapse dt).send (.eth (srcPort (s.srcDesc i)) (ethVlan d) (.rtcpRr i a u)))) ∧
         (ethOn d = false → exec (.rtcpRrSend dt i) s = .next (s.elapse dt))) ∧
     (∀ p x, (s.srcRun i).pos = some p → (s.srcRun i).packets = [x] →
       x.arrival + srcJitter (s.srcDesc i) * 1000000 ≤ (s.elapse dt).time.room →
       ∃ t, exec (.jitterDeadline dt i) s = .next t ∧ (t.srcRun i).packets = [] ∧ (t.srcRun i).pos = some x.ext ∧
         (t.srcRun i).lastTs = some x.pkt.ts ∧ (t.srcRun i).cLost = (s.srcRun i).cLost + (x.ext - p - 1)) ∧
     (∀ n, (s.srcRun i).otherSsrc = some n → (s.elapse dt).ssrcSilent i = true →
       ∃ t, exec (.ssrcChanged dt i) s = .next t ∧ (t.srcRun i).ssrc = some n ∧ (t.srcRun i).otherSsrc = none ∧
         (t.srcRun i).packets = [] ∧ (t.srcRun i).pos = none ∧ (t.srcRun i).ssrcAt = s.time.now + dt) ∧
     ((s.srcRun i).subscribed = true → (s.srcRun i).lost = none → srcKind (s.srcDesc i) ≠ kindHost →
       (s.srcRun i).lastArrival + srcLossTimeout (s.srcDesc i) * 1000000 < (s.elapse dt).time.room →
       ∃ t, exec (.sourceLossTimeout dt i) s = .next t ∧ (t.srcRun i).lost = some (1, s.time.now + dt) ∧
         Only [.src, .ledger] (s.elapse dt) t))

/-- An access unit that falls due: incomplete, it stops the stream as damage, with every later one discarded; a sound IDR
picture of the stream's parameter set is decoded and the stream runs on (R91 to R95).

Windows, summaries and cores: a 1 s window above nine eighths of the admitted rate stops the stream as OVERRATE and
any other begins anew; a summary period and the end of summarising; a core that fails is marked, its domain goes down and
its running streams stop (R87, R88, R94).

It says that these commands complete: `decodePictureDone`, `decodeRateWindow`, `damageSummaryPeriod`, `summaryEnd`,
`decoderCoreFault`.

Readings of the model are in it: log entries 5, 37 and 58. -/
def Obligations.PicturesAndDecoders : Prop :=
  (∀ (s : State) (dt : Nat) (i : Fin 256) (a : AuUnit) (rest : List AuUnit), (s.decRun i).queue = a :: rest →
     (s.decRun i).window = none →
     (a.incomplete = true → (∀ u, a.info = some u → u.kind ≠ .rasl) →
       ∃ t, exec (.decodePictureDone dt i) s = .next t ∧ (t.decRun i).state = .stopped ∧ (t.decRun i).queue = [] ∧
         (t.decRun i).dpb = [] ∧ (t.decRun i).lastClass = 0x2010 ∧ (t.decRun i).stops = (s.decRun i).stops + 1 ∧
         (t.decRun i).discarded = (s.decRun i).discarded + rest.length + 1) ∧
     (∀ (u : AuInfo) (p : Sps) (q : Active), a.incomplete = false → a.info = some u → u.kind = .idr → u.refs = [] →
       u.syntaxBad = none → u.coverageBad = none → u.hashBad = none → u.refReadBad = none →
       activeSets (srcKind (s.srcDesc i) == kindH265) (replaceSets (s.decRun i).sets u.sets) u.pps = .inr q →
       q.unsupported (srcKind (s.srcDesc i) == kindH265) u.tool = none → (s.decRun i).sps = some p →
       p.width = q.sps.width → p.height = q.sps.height → (s.decRun i).core.isSome = true → (s.decRun i).state = .running →
       (s.decRun i).recoverTo = none →
       ∃ t, exec (.decodePictureDone dt i) s = .next t ∧ (t.decRun i).state = .running ∧
         (t.decRun i).queue.map (fun x => { x with parsed := true }) = rest.map (fun x => { x with parsed := true }) ∧
         (t.decRun i).sps = some q.sps ∧ (t.decRun i).stops = (s.decRun i).stops ∧
         (t.decRun i).window = some ((s.elapse dt).time.room, q.sps.width * q.sps.height))) ∧
  (∀ (s : State) (dt : Nat) (i : Fin 256),
     (∀ w n, (s.decRun i).window = some (w, n) → w + 1000000000 ≤ (s.elapse dt).time.room →
       (9 * (s.decRun i).cost < 8 * n → ∃ t, exec (.decodeRateWindow dt i) s = .next t ∧ (t.decRun i).state = .stopped ∧
         (t.decRun i).lastClass = 0x2019 ∧ (t.decRun i).window = none) ∧
       (8 * n ≤ 9 * (s.decRun i).cost → ∃ t b, exec (.decodeRateWindow dt i) s = .next t ∧
         t.decRun i = { s.decRun i with window := some (b, 0) } ∧ b ≤ (s.elapse dt).time.room ∧
         (s.elapse dt).time.room < b + 1000000000 ∧ Only [.src] (s.elapse dt) t)) ∧
     (∀ b n c poc, (s.decRun i).summary = some (b, n, c, poc) → b + 10000000000 ≤ s.time.now + dt →
       ∃ t, exec (.damageSummaryPeriod dt i) s = .next t ∧
         t.decRun i = { s.decRun i with summary := some (b + 10000000000, 0, c, poc) } ∧
         (n = 0 → Only [.src] (s.elapse dt) t) ∧ Only [.src, .ledger] (s.elapse dt) t) ∧
     ((s.decRun i).summary.isSome = true → (s.decRun i).stopTimes.getLast?.getD 0 + 60000000000 ≤ s.time.now + dt →
       ∃ t, exec (.summaryEnd dt i) s = .next t ∧ t.decRun i = { s.decRun i with summary := none, resumed := none } ∧
         Only [.src, .ledger] (s.elapse dt) t) ∧
     (∀ c : Fin 4, (s.domain (4 + c.val)).on = true → (Tbl.get s.src.cores {} c).failed = false →
       ∃ t, exec (.decoderCoreFault dt c) s = .next t ∧ (Tbl.get t.src.cores {} c).failed = true ∧
         (t.domain (4 + c.val)).on = false ∧
         ((s.decRun i).core = some c.val → (s.decRun i).state = .running → (t.decRun i).state = .stopped ∧
           (t.decRun i).core = none ∧ (t.decRun i).lastClass = 0x201A)))

/-! ## Composition, the assay and wall heads (01, 04, 06) -/

/-- A stamp is the capture time in whole milliseconds modulo 2^16. Its age at t_eval is the difference of milliseconds modulo
2^16: 60,000 ms are told from 60,001; past that `AGED` is written back and the age reads 60,001 from then on, whatever the
difference (log entry 58: R16 over the pseudocode's order); without it a difference from 61,440 on is a stamp in the future,
age 0. An age never understates the true age, and overstates it by less than 2 ms (R15).

A reading of the model is in it: log entry 58. -/
def Obligations.StampAges : Prop :=
  (∀ (tEval past : Nat), past ≤ ceilDiv tEval 1000000 →
    let stamp := (ceilDiv tEval 1000000 - past) % 65536
    (past ≤ 60000 → stampAge tEval stamp false = (past, false)) ∧
    (60000 < past → past < 61440 → stampAge tEval stamp false = (past, true)) ∧
    (past < 65536 → stampAge tEval stamp true = (60001, true)) ∧
    (61440 ≤ past → past < 65536 → stampAge tEval stamp false = (0, false)) ∧
    (∀ ahead, 0 < ahead → ahead ≤ 4096 →
      stampAge tEval ((ceilDiv tEval 1000000 + ahead) % 65536) false = (0, false) ∧
      stampAge tEval ((ceilDiv tEval 1000000 + ahead) % 65536) true = (60001, true))) ∧
  (∀ (tEval capture : Nat), stampOf capture = capture / 1000000 % 65536 ∧
    (capture ≤ tEval → ceilDiv tEval 1000000 - capture / 1000000 ≤ 60000 →
      tEval - capture ≤ (stampAge tEval (stampOf capture) false).1 * 1000000 ∧
      (stampAge tEval (stampOf capture) false).1 * 1000000 < tEval - capture + 2000000))

/-- The bits of a tile record say what it holds: the CRC, the tag, the slot, the sectors; each live rectangle with its
layer, bounds in pixels of the tile, stamp, `AGED` and state; the dense form's stamp, state and layers (R116, Tables 4-5 to
4-7).

The tile composition writes: 2,048 words of 30 bits, those outside the active area zero, those under no layer the
background; its CRC is that of the words. A layer without a frame, or with A = 0, adds nothing to a pixel and, with A = 0, is
visible nowhere; an OPAQUE layer with A = 1 hides what lies beneath (R111 to R116).

The scaler's two taps lie within the crop, beside each other, with a weight below 64; a crop shown at its own size is read
sample by sample, and is what is shown (R102).

A value of light is rounded to one of the binary16 codes beside it, and nothing stays nothing; the EOTF gives a finite code and
no light of a signal that has none; the OETF gives a code of 10 bits, 0 for no light (R107, R113).

Readings of the model are in it: log entries 53 and 54. -/
def Obligations.TileRecordBits : Prop :=
  (∀ (r : TileRec), r.tag < 256 → r.slot < 4 → r.sectors < 64 → r.crc < 2 ^ 32 →
     let w := r.word.toNat
     ((r.rects.length ≤ 4 ∧ ∀ x ∈ r.rects, x.state < 4) ∨ (∃ d, r.dense = some d ∧ d.state < 4 ∧ d.layers ≠ []) →
       w / 2 ^ 224 = r.crc ∧ w / 2 ^ 20 % 256 = r.tag ∧ w / 2 ^ 12 % 4 = r.slot ∧ w / 2 ^ 14 % 64 = r.sectors) ∧
     (r.dense = none → r.rects.length ≤ 4 →
       w % 8 = r.rects.length ∧ w / 8 % 2 = 0 ∧
       ∀ (i : Nat) (x : LiveRect), r.rects[i]? = some x → x.layer < 1024 → x.rect.x0 < 64 → x.rect.x1 < 64 →
         x.rect.y0 < 32 → x.rect.y1 < 32 → x.stamp < 65536 → x.state < 4 →
         let v := w / 2 ^ (28 + 49 * i) % 2 ^ 49
         v % 1024 = x.layer ∧ v / 2 ^ 10 % 64 = x.rect.x0 ∧ v / 2 ^ 16 % 64 = x.rect.x1 ∧ v / 2 ^ 22 % 32 = x.rect.y0 ∧
           v / 2 ^ 27 % 32 = x.rect.y1 ∧ v / 2 ^ 32 % 65536 = x.stamp ∧ v / 2 ^ 48 = b2n x.aged ∧
           w / 2 ^ (4 + 2 * i) % 4 = x.state) ∧
     (∀ d, r.dense = some d → d.layers ≠ [] → d.layers.length ≤ 16 → d.stamp < 65536 → d.state < 4 →
       w / 8 % 2 = 1 ∧ w / 16 % 4 = d.state ∧ w / 2 ^ 28 % 65536 = d.stamp ∧ w / 2 ^ 44 % 2 = b2n d.aged ∧
         w / 2 ^ 45 % 16 = d.layers.length - 1 ∧
         ∀ (i : Nat) (l : Nat), d.layers[i]? = some l → l < 1024 → w / 2 ^ (49 + 10 * i) % 1024 = l)) ∧
  (∀ (s : State) (c : ConfigSet),
     (∀ (frames : List Frame) (wait : List Nat) (o t tag : Nat) (named : List Nat),
       let r := s.composeTile c frames wait o t tag named
       let tr := tileRect (outW o (c.output o)) (outH o (c.output o)) t
       r.tag = tag ∧ r.pix.length = 2048 ∧ r.crc = crcOver (pixelBytes r.pix) ∧
       ∀ i < 2048, ∃ w, r.pix[i]? = some w ∧ w < 2 ^ 30 ∧ (tr.x1 < tr.x0 + i % 64 ∨ tr.y1 < tr.y0 + i / 64 → w = 0) ∧
         (tr.x0 + i % 64 ≤ tr.x1 → tr.y0 + i / 64 ≤ tr.y1 → s.overs c frames wait o t = [] →
           w = encodePixel (c.output o) (outBackground (c.output o)))) ∧
     (∀ (d : OutDesc) (l m : List Over) (x : Over) (px py : Nat),
       ((∃ st, x.input = .inl st) ∨ layAlpha (c.layer x.layer) = 0 ∧ layBlend (c.layer x.layer) ≤ 2 →
         s.pixelAt c d (l ++ x :: m) px py = s.pixelAt c d (l ++ m) px py) ∧
       (layAlpha (c.layer x.layer) = 0 → s.visibleRect c x m = none) ∧
       (∀ f, x.input = .inr f → layBlend (c.layer x.layer) = 1 → layAlpha (c.layer x.layer) = 65535 → x.rect.holds px py = true →
         s.pixelAt c d (l ++ [x]) px py = encodePixel d (s.colourAt c d x.layer f px py)))) ∧
  (∀ (crop0 n : Nat) (phase : Int) (step x : Nat), 0 < n →
     crop0 ≤ (scaleTaps crop0 n phase step x).1 ∧
     (scaleTaps crop0 n phase step x).1 ≤ (scaleTaps crop0 n phase step x).2.1 ∧
     (scaleTaps crop0 n phase step x).2.1 ≤ (scaleTaps crop0 n phase step x).1 + 1 ∧
     (scaleTaps crop0 n phase step x).2.1 < crop0 + n ∧ (scaleTaps crop0 n phase step x).2.2 < 64 ∧
     (x < n → (scaleTaps crop0 n 0 (scaleStep false 0 n n) x).1 = crop0 + x ∧
       (scaleTaps crop0 n 0 (scaleStep false 0 n n) x).2.2 = 0) ∧
     (∀ (bits : Nat) (get : Nat → Nat → Nat) (a b c d : Nat), bits ≤ 16 →
       scaleSample false bits get (a, b, 0) (c, d, 0) = get a c)) ∧
  ((∀ (op : Nat) (x : Rat), (0 < x → x ≤ 65504 → halfDown x ≤ rounded op x ∧ rounded op x ≤ halfUp x) ∧
     (x ≤ 0 → rounded op x = 0)) ∧
   (∀ (transfer k : Nat) (t : Light), eotf transfer t k ≤ 0x7BFF ∧ (eotfExact transfer t k ≤ 0 → eotf transfer t k = 0)) ∧
   (∀ (colour k : Nat) (t : Light), oetf colour t k ≤ 1023 ∧ (part t k ≤ 0 → oetf colour t k = 0)))

/-- What a tile record makes the assay void: a tile nothing has written, a tile with a fault, a rectangle in a state other
than normal, and one that is older than its layer's bound; and it voids nothing where every rectangle is normal, no older
than its bound and of a source that is not frozen (R21 to R27).

Readings of the model are in it: log entries 38 and 58. -/
def Obligations.StaleRectanglesAreVoided : Prop :=
  ∀ (s : State) (o t tEval : Nat), let x := s.tile o t
    let whole := tileRect (outW o (s.outSet o)) (outH o (s.outSet o)) t
    let found := (s.evalTile o t tEval).1
    (x.written = false → found = [⟨none, 1, none, t, whole⟩]) ∧
    (x.written = true → x.record.dense = none →
      (s.tileFault o t = true → found ≠ [] ∧ ∀ a ∈ found, a.reason = 1 ∧ a.rect = whole) ∧
      (s.tileFault o t = false →
        (∀ r ∈ x.record.rects, r.state = 2 → ∃ a ∈ found, a.layer = some (s.sets.active.leadOf r.layer) ∧ a.reason = 2) ∧
        (∀ r ∈ x.record.rects, r.state = 1 → ∃ a ∈ found, a.layer = some (s.sets.active.leadOf r.layer) ∧ a.reason = 3) ∧
        (∀ r ∈ x.record.rects, r.state = 0 → s.sets.active.bound r.layer < (stampAge tEval r.stamp r.aged).1 →
          ∃ a ∈ found, a.layer = some (s.sets.active.leadOf r.layer) ∧ a.age = some (stampAge tEval r.stamp r.aged).1 ∧
            a.rect = r.rect.shift whole.x0 whole.y0 ∧ (a.reason = 2 ∨ a.reason = 4 ∨ a.reason = 5)) ∧
        ((∀ r ∈ x.record.rects, r.state = 0 ∧ (stampAge tEval r.stamp r.aged).1 ≤ s.sets.active.bound r.layer ∧
            s.frozen (laySource (s.sets.active.layer r.layer)) = false) → found = [])))

/-- Rounds: a round that is outstanding is composed, unless every composition group is off, and its tiles are then done;
the messages that read rounds and tile records list what was asked for (R116, R120, R121).

The messages about outputs: a status read resets the lowest fill of each head it lists; the events asked for are those
of the session from then on, unless a line is none of its head's (R154, R155).

It says that these commands complete: `roundComplete`, `composeStatusGet`, `tileRecordGet`, `outputStatusGet`,
`outputEventsSet`.

Readings of the model are in it: log entries 8 and 38. -/
def Obligations.RoundsAndOutputMessages : Prop :=
  (∀ (s : State) (dt : Nat),
     (∀ (o : Fin 32) (r : Round), (s.outComp o).round = some r → r.done = false →
       (s.composeOff = false → ∃ t r', exec (.roundComplete dt o) s = .next t ∧ (t.outComp o).round = some r' ∧
         r'.done = true ∧ r'.tiles = r.tiles ∧ r'.frames = r.frames ∧ Only [.comp, .mem] (s.elapse dt) t) ∧
       (s.composeOff = true → exec (.roundComplete dt o) s = .next (s.elapse dt))) ∧
     (∀ (p : Fin 4) (r : Request) (l : List Nat),
       (InHand s p 0x0305 r → cutList (r.u16 0) (r.u16 2) 32 20 r.room = some l →
         exec (.composeStatusGet dt p) s = .next ((s.begun dt p).answer p r stOk (listPayload (l.map (fun o =>
           wordsLE [o, (s.outComp o).rounds, (s.outComp o).lateRounds, (s.outComp o).lateMax, s.stagingState o]))))) ∧
       (InHand s p 0x0306 r → r.u8 0 ≤ 31 → s.sets.active.shows (r.u8 0) = true →
         cutList (r.u16 2) (r.u16 4) (outTiles (r.u8 0) (s.outSet (r.u8 0))) 32 r.room = some l →
         outTiles (r.u8 0) (s.outSet (r.u8 0)) ≠ 0 →
         exec (.tileRecordGet dt p) s = .next ((s.begun dt p).answer p r stOk (listPayload (l.map (fun t =>
           bytesOf (if (s.tile (r.u8 0) t).written then (s.tile (r.u8 0) t).record.word else 0))))))) ∧
     (∀ (p : Fin 4) (r : Request), InHand s p 0x0306 r → 31 < r.u8 0 ∨ s.sets.active.shows (r.u8 0) = false →
       exec (.tileRecordGet dt p) s = .next ((s.begun dt p).answer p r stNotSupported Bytes.none))) ∧
  (∀ (s : State) (dt : Nat) (p : Fin 4) (r : Request),
     (∀ l, InHand s p 0x0402 r → cutList (r.u16 0) (r.u16 2) 32 64 r.room = some l →
       ∃ t, exec (.outputStatusGet dt p) s = .next t ∧ Only [.heads, .panels, .mail] (s.elapse dt) t ∧
         (∀ h, h < 24 → t.head h = if h ∈ l then { s.head h with lowFill := 8 } else s.head h) ∧
         (∀ k, k < 8 → t.panel k = if 24 + k ∈ l then { s.panel k with largest := 0 } else s.panel k)) ∧
     (InHand s p 0x0403 r →
       ((∃ h : Fin 24, headVTotal (s.sets.active.output h) ≤ Bytes.at (bytesOf (r.payload.bits 544)) (20 + 2 * h) 2) →
         exec (.outputEventsSet dt p) s = .next ((s.begun dt p).answer p r stNotSupported Bytes.none)) ∧
       ((∀ h : Fin 24, Bytes.at (bytesOf (r.payload.bits 544)) (20 + 2 * h) 2 < headVTotal (s.sets.active.output h)) →
         ∃ t, exec (.outputEventsSet dt p) s = .next t ∧ Only [.mail] (s.elapse dt) t ∧
           (t.port p).evEnable = r.payload.bits 544)))

/-- The frame start of a scanning head begins its next frame at line 0; a head in `LOCKING` that has held twice begins at
frame 0; one that is to stop stops. Each line that starts is followed by the next of the frame, takes the fill of its queue
into the lowest fill (of each lane's own queue, when bonded: R150) and keeps the CRC of a tile row that begins (R42, R154 to
R156).

Pixels after the assay: a voided pixel is the hatch of the void colours, one that nothing voids the composed word, and in
safe state every line is the renderer's (R29, R30, R307). On the wire full-range codes are sent as they are and limited-range
ones lie in 64 to 940; a segment's blocks hold its pixels at 30 bits each, then zeros; a panel's rows have three bytes a pixel
(R159, R177).

It says that these commands complete: `headFrameStart`, `headLineStart`.

Readings of the model are in it: log entries 20 and 53. -/
def Obligations.HeadsScanFramesAndLines : Prop :=
  (∀ (s : State) (dt : Nat) (h : Fin 24), s.windowUp = true →
     ((s.head h).state = .scanning → (s.head h).stopNext = none →
       ∃ t, exec (.headFrameStart dt h) s = .next t ∧ (t.head h).state = .scanning ∧
         (t.head h).frame = ((s.head h).frame + 1) % 2 ^ 32 ∧ (t.head h).line = some 0 ∧
         (t.head h).standbyHeld = (s.pair.enabled && decide (s.pair.role = .standby)) ∧
         (∀ k ∈ (t.head h).kept, subMod 32 (t.head h).frame k.frame ≤ 2)) ∧
     (∀ reason, (s.head h).state = .scanning → (s.head h).stopNext = some reason →
       ∃ t, exec (.headFrameStart dt h) s = .next t ∧ (t.head h).line = none ∧
         (t.head h).state = (if s.sets.active.shows h then .locking else .off)) ∧
     ((s.head h).state = .locking → 2 ≤ (s.head h).held → (s.head h).safeStopped = false →
       s.sets.active.shows h = true → ∃ t, exec (.headFrameStart dt h) s = .next t ∧ (t.head h).state = .scanning ∧
         (t.head h).frame = 0 ∧ (t.head h).line = some 0 ∧ (t.head h).skew = 0 ∧ (t.head h).kept = []) ∧
     (∀ (k : Nat) (fill up : Fin 9), (s.head h).state = .scanning → (s.head h).line = some k →
       ∃ t, exec (.headLineStart dt h ⟨fill, up⟩) s = .next t ∧
         (t.head h).line = (if k + 1 < headVTotal (s.outSet h) then some (k + 1) else none) ∧
         (t.head h).lowFill = min (s.head h).lowFill fill ∧ (fill.val < 2 → (t.head h).panic = true) ∧
         (3 ≤ fill.val → (t.head h).panic = false) ∧ (fill.val = 2 → (t.head h).panic = (s.head h).panic) ∧
         (headBond (s.outSet h) = true → (t.head (h + 1)).lowFill = min (s.head (h + 1)).lowFill up ∧
           (t.head (h + 1)).panic = (decide (up.val < 2) || ((s.head (h + 1)).panic && decide (up.val < 3)))) ∧
         (k % 32 = 0 → k < headVActive (s.outSet h) → (s.head h).standbyHeld = false →
           ∃ rows, (t.head h).kept = (s.head h).kept ++ rows ∧ rows.length = (s.headSplit h).length ∧
             ∀ x ∈ rows, x.frame = (s.head h).frame ∧ x.row = k / 32 ∧ x.verdict = none ∧
               ∃ lane cols codes, Tx.line lane k ((segmentsOf cols codes).map segmentBytes) ∈ t.out ∧
                 x.crc = crcOver (pixelBytes codes)))) ∧
  ((∀ (s : State) (o x y : Nat) (areas : List VoidArea),
     let d := s.outSet o
     (∀ a ∈ areas, a.rect.holds x y = true → s.emitPixel o areas [] x y = hatch (pairCodes d (s.voidPair o)) x y) ∧
     ((∀ a ∈ areas, a.rect.holds x y = false) → (s.tile o (tileAt o d x y)).written = true →
       s.tileFault o (tileAt o d x y) = false →
       s.emitPixel o areas [] x y = (s.tile o (tileAt o d x y)).record.pix.getD (y % 32 * 64 + x % 64) 0) ∧
     (s.inSafe = true → ∀ h k x0 n cut, s.lineCodes h k x0 n cut =
       (upTo n).map (fun i => wireCode (s.outSet h) (renderPixel h (s.outSet h) (x0 + i) k)))) ∧
   (∀ v : Nat, v < 1024 → wireComponent false v = v ∧ 64 ≤ wireComponent true v ∧ wireComponent true v ≤ 940 ∧
     panelComponent v ≤ 255) ∧
   (∀ l : List Nat, (∀ w ∈ l, w < 2 ^ 30) → (segmentBytes l).len = 8 * ceilDiv (30 * l.length) 64 ∧
     (segmentBytes l).val < 2 ^ (30 * l.length) ∧
     ∀ (i w : Nat), l[i]? = some w → (segmentBytes l).val / 2 ^ (30 * i) % 2 ^ 30 = w) ∧
   (∀ (s : State) (p : Nat) (legends : List Legend) (r : Rect), (s.pushRows p legends r).length = r.height ∧
     ∀ b ∈ s.pushRows p legends r, b.len = 3 * r.width))

/-- What scan-out and pushes find wrong: an underrun voids the rest of the tile row on its lane, once a row; a tile read whose
CRC differs from its record is voided and marked for composition, on a panel as on a head, and one whose CRC agrees is not; a
head's verdict comes no earlier than 8 lines before the tile's last line leaves; a head more than one line off unlocks (R22,
R154, R157, R158).

The presentation echo: an echo decides the row it names, once; one that differs or is dropped decides its frame, once
every frame before it is decided, and where no other frame is open it adds one to the consecutive mismatched frames; one that
completes a frame whose echoes all match makes them zero; one for no kept row is discarded and counted; at the deadline no
row that is due stays undecided (R42 to R45, R162). An echo below link version 2.0, or on a lane of no head, is an unknown
block of a locked lane (R221, R227).

It says that these commands complete: `scanoutUnderrun`, `tileCrcVerdict`, `headUnlocked`, `echo`, `echoDeadline`.

Readings of the model are in it: log entries 8, 38 and 40. -/
def Obligations.ScanoutFaultsAndEchoes : Prop :=
  ((∀ (s : State) (dt : Nat) (h : Fin 24), s.windowUp = true → (s.head h).state = .scanning →
     (∀ (upper : Bool) (pixel k lane first cols : Nat), s.inSafe = false → (s.head h).line = some (k + 1) →
       k < headVActive (s.outSet h) →
       (s.headSplit h).find? (fun e => e.2.1 == upper) = some (lane, upper, first, cols) →
       pixel < lanePixels (outW h (s.outSet h)) first cols →
       (upper, k / 32) ∉ (s.head h).underrunRows →
       ∃ t, exec (.scanoutUnderrun dt h upper pixel) s = .next t ∧
         (t.head h).underruns = ((s.head h).underruns + 1) % 2 ^ 32 ∧ (t.head (h + b2n upper)).panic = true ∧
         (t.head (h + b2n upper)).lowFill = 0 ∧ (upper, k / 32) ∈ (t.head h).underrunRows ∧
         ((s.head h).standbyHeld = false → Tx.voidRect h ⟨64 * first + pixel, k,
           64 * first + lanePixels (outW h (s.outSet h)) first cols - 1, k⟩ 1 ∈ t.out)) ∧
     (∀ (o : Fin 32) (tile : Nat) (crc : Word), o.val = h.val → s.inSafe = false → tile < outTiles h (s.outSet h) →
       (s.tile h tile).written = true →
       let last := min (32 * (tile / outCols h (s.outSet h)) + 31) (outH h (s.outSet h) - 1)
       (∀ line, (s.head h).line = some line → line + 7 < last → exec (.tileCrcVerdict dt o tile crc) s = .next (s.elapse dt)) ∧
       (∀ line, crc.toNat ≠ (s.tile h tile).record.crc % 2 ^ 32 → (s.head h).line = some line → last ≤ line + 7 →
         line ≤ last + 1 →
         (∀ e ∈ s.headSplit h, e.2.2.1 ≤ tile % outCols h (s.outSet h) →
           tile % outCols h (s.outSet h) < e.2.2.1 + e.2.2.2 →
           (e.2.1, tile / outCols h (s.outSet h)) ∉ (s.head h).underrunRows) →
         ∃ t, exec (.tileCrcVerdict dt o tile crc) s = .next t ∧ (t.tile h tile).fault = true ∧
           tile ∈ (t.outComp h).marks ∧ (t.head h).crcMismatches = ((s.head h).crcMismatches + 1) % 2 ^ 32) ∧
       (crc.toNat = (s.tile h tile).record.crc % 2 ^ 32 →
         exec (.tileCrcVerdict dt o tile crc) s = .next (s.elapse dt))) ∧
     (∀ skew : Int, (16 < skew.natAbs → ∃ t, exec (.headUnlocked dt h skew) s = .next t ∧
         (t.head h).state = (if s.sets.active.shows h then .unlocked else .off) ∧ (t.head h).skew = skew ∧
         (t.head h).line = none) ∧
       (skew.natAbs ≤ 16 → exec (.headUnlocked dt h skew) s = .next (s.elapse dt)))) ∧
   (∀ (s : State) (dt : Nat) (o : Fin 32) (k : Push) (tile : Nat) (crc : Word), s.windowUp = true → s.inSafe = false →
     24 ≤ o.val → (s.panel (o - 24)).push = some k → tile < outTiles o (s.outSet o) → (s.tile o tile).written = true →
     (∃ r ∈ k.rects, r.meets (tileRect (outW o (s.outSet o)) (outH o (s.outSet o)) tile) = true) →
     crc.toNat ≠ (s.tile o tile).record.crc % 2 ^ 32 →
     ∃ t, exec (.tileCrcVerdict dt o tile crc) s = .next t ∧ (t.tile o tile).fault = true ∧ tile ∈ (t.outComp o).marks)) ∧
  (∀ (s : State) (dt : Nat), s.windowUp = true →
     (∀ (lane : Fin 48) (blk : EchoBlock) (h : Nat) (upper : Bool), s.headOfLane lane = some (h, upper) →
       (s.links.lane lane).state = .up → 0x20 ≤ (s.links.lane lane).version →
       let found := (s.head h).kept.find? (fun k => k.frame % 4096 == blk.frameLow % 4096 && k.upper == upper
         && blk.upper == upper && k.row == blk.row % 128 && k.verdict.isNone)
       let others (k : KeptRow) := ∀ y ∈ (s.head h).kept, y.frame = k.frame ∨ y.frame ∈ (s.head h).decided
       (∀ k, found = some k → (s.head h).proven = true → (s.head h).standbyHeld = false →
         let ok := !blk.dropped && blk.crc == k.crc
         ∃ t, exec (.echo dt lane blk) s = .next t ∧
           { k with verdict := some ok, cause := if ok then 0 else if blk.dropped then 3 else 1 } ∈ (t.head h).kept) ∧
       (∀ k, found = some k → (s.head h).proven = true → (s.head h).standbyHeld = false →
         (blk.dropped = true ∨ blk.crc ≠ k.crc) → k.frame ∉ (s.head h).decided →
         (∀ y ∈ (s.head h).kept.takeWhile (fun y => y.frame != k.frame), y.frame ∈ (s.head h).decided) →
         ∃ t, exec (.echo dt lane blk) s = .next t ∧ k.frame ∈ (t.head h).decided) ∧
       (∀ k, found = some k → (s.head h).proven = true → (s.head h).standbyHeld = false →
         (blk.dropped = true ∨ blk.crc ≠ k.crc) → k.frame ∉ (s.head h).decided → others k →
         ∃ t, exec (.echo dt lane blk) s = .next t ∧ (t.head h).missRun = (s.head h).missRun + 1) ∧
       (∀ k, found = some k → (s.head h).proven = true → (s.head h).standbyHeld = false →
         blk.dropped = false → blk.crc = k.crc → k.frame ∉ (s.head h).decided → others k →
         (∀ y ∈ (s.head h).kept, y.frame = k.frame → y = k ∨ y.verdict = some true) →
         ((s.head h).kept.filter (fun y => y.frame == k.frame)).length =
           outRows h (s.outSet h) * (s.headLanes h).length →
         ∃ t, exec (.echo dt lane blk) s = .next t ∧ (t.head h).missRun = 0) ∧
       (found = none ∨ (s.head h).proven = false ∨ (s.head h).standbyHeld = true →
         ∃ t, exec (.echo dt lane blk) s = .next t ∧ Only [.heads] (s.elapse dt) t ∧
           t.head h = { s.head h with echoDiscarded := (s.head h).echoDiscarded + 1 })) ∧
     (∀ (lane : Fin 48) (blk : EchoBlock), s.kinikLocked lane = true →
       s.headOfLane lane = none ∨ (s.links.lane lane).state = .up ∧ (s.links.lane lane).version < 0x20 →
       ∃ t, exec (.echo dt lane blk) s = .next t ∧ Only [.links] (s.elapse dt) t ∧
         (t.links.lane lane).unknown = ((s.links.lane lane).unknown + 1) % 2 ^ 32) ∧
     (∀ h : Fin 24, (s.head h).state = .scanning → (s.head h).proven = true → (s.head h).standbyHeld = false →
       ∃ t, exec (.echoDeadline dt h) s = .next t ∧
         ∀ k ∈ (t.head h).kept, (if (s.head h).line = none then 2 else 3) ≤ subMod 32 (s.head h).frame k.frame →
           k.verdict.isSome = true))

/-- The assay's messages: the status of an output says its echo state and how many layers are voided; a proof test is DENIED
in safe state, BUSY while one runs, NOT_SUPPORTED for a region that leaves an output that shows, and otherwise its response
is held while an output emits; an episode ends 1 s after its layer came out of void (R46 to R51).

It says that these commands complete: `freshStatusGet`, `freshProofRun`, `voidEpisodeEnd`.

Readings of the model are in it: log entries 8, 10 and 36. -/
def Obligations.AssayMessagesAndEpisodes : Prop :=
  ∀ (s : State) (dt : Nat),
    (∀ (p : Fin 4) (r : Request), InHand s p 0x0602 r → r.u8 0 ≤ 31 →
      (r.u16 2 = 0 ∨ r.u16 2 < (s.voidedLayers (r.u8 0)).length) →
      ∃ x, exec (.freshStatusGet dt p) s = .next ((s.begun dt p).answer p r stOk x) ∧ Bytes.at x 0 1 = r.u8 0 ∧
        (r.u8 0 < 24 → Bytes.at x 1 1 = s.echoState (r.u8 0)) ∧
        Bytes.at x 4 2 = (s.voidedLayers (r.u8 0)).length % 65536) ∧
    (∀ (p : Fin 4) (r : Request), InHand s p 0x0603 r →
      let fits (o : Nat) : Prop := (r.u16 4 + 4) * 64 ≤ outW o (s.outSet o) ∧ (r.u16 6 + 2) * 32 ≤ outH o (s.outSet o)
      (s.inSafe = true → exec (.freshProofRun dt p) s = .next ((s.begun dt p).answer p r stDenied Bytes.none)) ∧
      (s.inSafe = false → s.comp.proof.isSome = true ∨ 8 ≤ (s.port p).held.length →
        exec (.freshProofRun dt p) s = .next ((s.begun dt p).answer p r stBusy Bytes.none)) ∧
      (s.inSafe = false → s.comp.proof = none → (s.port p).held.length < 8 →
        ((∃ o ∈ maskBits 32 (r.u32 0), s.sets.active.shows o = true ∧ ¬ fits o) →
          exec (.freshProofRun dt p) s = .next ((s.begun dt p).answer p r stNotSupported Bytes.none)) ∧
        ((∀ o ∈ maskBits 32 (r.u32 0), s.sets.active.shows o = true → fits o) →
          ∃ t, exec (.freshProofRun dt p) s = .next t ∧
            ((∃ o ∈ maskBits 32 (r.u32 0), s.emitting o = true) → r ∈ (t.port p).held ∧
              ∃ pr, t.comp.proof = some pr ∧ pr.port = p ∧ pr.tag = r.tag ∧ pr.mask = r.u32 0 ∧ pr.col = r.u16 4 ∧
                pr.row = r.u16 6 ∧ pr.first = []) ∧
            ((∀ o ∈ maskBits 32 (r.u32 0), s.emitting o = false) → t.comp.proof = none)))) ∧
    (∀ (o : Fin 32) (l : Fin 1024) (e : Episode) (c : Nat), s.episode o l = some e → e.clearSince = some c →
      (c + 1000000000 ≤ (s.elapse dt).time.room → ∃ t u, exec (.voidEpisodeEnd dt o l) s = .next t ∧
        t = u.log 0x4101 [voidWord l o false e.reason, (c - e.begunAt) / 1000000, e.p2, e.p3] ∧
        u.episode o l = none ∧ Only [.comp] (s.elapse dt) u) ∧
      ((s.elapse dt).time.room < c + 1000000000 → exec (.voidEpisodeEnd dt o l) s = .next (s.elapse dt)))

/-! ## Console positions (07) -/

/-- A push that completes counts, ends the run of failures, and, when it was a full one, lets a dark panel run again; one
that is abandoned, by the end of its window, an error report, a turnaround without an answer or a contention, counts under
that cause, and its rectangles are owed (R177, R179, R180, R183, R186).

TE: an edge within half a period of the last TE is ignored and counted; another is counted as a TE; after three periods
without one TE is lost, the push ends with its rectangles owed and a running panel goes dark (R173, R174).

It says that these commands complete: `pushComplete`, `pushWindowExpiry`, `panelAckReceived`, `btaTimeout`,
`lpContention`, `teTaken`, `teLost`.

Readings of the model are in it: log entries 8 and 21. -/
def Obligations.PushesAndTearingEffect : Prop :=
  (∀ (s : State) (dt : Nat) (pn : Fin 8) (k : Push), s.windowUp = true → (s.panel pn).push = some k →
     let done (t : State) : Prop := (t.panel pn).push = none ∧ (t.panel pn).pushes = (s.panel pn).pushes + 1 ∧
       (t.panel pn).failRun = 0 ∧
       (t.panel pn).largest = max (s.panel pn).largest ((s.time.now + dt - k.startedAt) / 1000) ∧
       (k.full = true → (t.panel pn).lastFull = some (s.time.now + dt) ∧ (t.panel pn).voidDue = false ∧
         (t.panel pn).fullPushes = (s.panel pn).fullPushes + 1 ∧
         ((s.panel pn).state = .dark → (s.panel pn).teLost = false → (t.panel pn).state = .running))
     let gone (cause : Nat) (t : State) : Prop := (t.panel pn).push = none ∧
       (t.panel pn).failRun = (s.panel pn).failRun + 1 ∧ (t.panel pn).redo = (s.panel pn).redo ++ k.rects ∧
       (t.panel pn).pushes = (s.panel pn).pushes ∧
       (∀ c, Tbl.get (t.panel pn).abandons 0 c = Tbl.get (s.panel pn).abandons 0 c + (if c = cause then 1 else 0)) ∧
       (panelFailLimit (s.outSet (24 + pn)) ≤ (s.panel pn).failRun + 1 → (s.panel pn).failRaised = false →
         (s.panel pn).state = .running → (t.panel pn).state = .dark ∧ (t.panel pn).keep = false)
     (∃ t, exec (.pushComplete dt pn) s = .next t ∧ done t) ∧
     (k.startedAt + 1000 * panelWindow (s.outSet (24 + pn)) ≤ s.time.now + dt →
       ∃ t, exec (.pushWindowExpiry dt pn) s = .next t ∧ gone 1 t) ∧
     (s.time.now + dt < k.startedAt + 1000 * panelWindow (s.outSet (24 + pn)) →
       exec (.pushWindowExpiry dt pn) s = .next (s.elapse dt)) ∧
     (panelBtaAck (s.outSet (24 + pn)) = true →
       (∃ t, exec (.panelAckReceived dt pn 0) s = .next t ∧ done t) ∧
       (∀ report, report ≠ 0 → ∃ t, exec (.panelAckReceived dt pn report) s = .next t ∧ gone 2 t) ∧
       (∃ t, exec (.btaTimeout dt pn) s = .next t ∧ gone 3 t)) ∧
     (∃ t, exec (.lpContention dt pn) s = .next t ∧ gone 4 t)) ∧
  (∀ (s : State) (dt : Nat) (pn : Fin 8), s.windowUp = true →
     ((s.panel pn).state = .running ∨ (s.panel pn).state = .dark ∨
         ((s.panel pn).state = .starting ∧ 6 ≤ (s.panel pn).step) →
       (∀ t0, (s.panel pn).lastTe = some t0 →
         2 * (s.time.now + dt - t0) < 1000 * panelTePeriod (s.outSet (24 + pn)) →
         exec (.teTaken dt pn) s = .next ((s.elapse dt).setPanel pn { s.panel pn with
           teIgnored := (s.panel pn).teIgnored + 1 })) ∧
       ((∀ t0, (s.panel pn).lastTe = some t0 →
           1000 * panelTePeriod (s.outSet (24 + pn)) ≤ 2 * (s.time.now + dt - t0)) →
         ∃ t, exec (.teTaken dt pn) s = .next t ∧ (t.panel pn).teCount = ((s.panel pn).teCount + 1) % 2 ^ 32 ∧
           (t.panel pn).teIgnored = (s.panel pn).teIgnored ∧
           (s.sets.pending = none → (t.panel pn).lastTe = some (s.time.now + dt)))) ∧
     (∀ t0, (s.panel pn).lastTe = some t0 → (s.panel pn).teLost = false →
       t0 + 3000 * panelTePeriod (s.outSet (24 + pn)) ≤ s.time.now + dt →
       ∃ t, exec (.teLost dt pn) s = .next t ∧ (t.panel pn).teLost = true ∧ (t.panel pn).teGood = 0 ∧
         (t.panel pn).push = none ∧
         (∀ k, (s.panel pn).push = some k → (t.panel pn).redo = (s.panel pn).redo ++ k.rects) ∧
         ((s.panel pn).state = .running → (t.panel pn).state = .dark ∧ (t.panel pn).keep = false)) ∧
     (∀ t0, (s.panel pn).lastTe = some t0 → s.time.now + dt < t0 + 3000 * panelTePeriod (s.outSet (24 + pn)) →
       exec (.teLost dt pn) s = .next (s.elapse dt)))

/-- The sequences of a panel: reset is released after its wait, sleep is left 10 ms later, and a stop turns the display off
before its reset; a start that takes 2 s begins again; the entries of a start are those set last, and a list with an
entry the device sends itself is refused (R185, R293).

It says that these commands complete: `panelSequenceWait`, `panelStartRetry`, `panelInitSet`.

Readings of the model are in it: log entries 8 and 41. -/
def Obligations.PanelsStartAndStop : Prop :=
  ∀ (s : State) (dt : Nat),
    (∀ pn : Fin 8, s.windowUp = true → (s.panel pn).waitUntil ≤ s.time.now + dt →
      ((s.panel pn).state = .starting → (s.panel pn).step = 1 → ∃ t, exec (.panelSequenceWait dt pn) s = .next t ∧
        (t.panel pn).step = 2 ∧ (t.panel pn).waitUntil = s.time.now + dt + 10000000 ∧ t.out = [Tx.dsiReset pn true] ∧
        Only [.panels] (s.elapse dt) t) ∧
      ((s.panel pn).state = .starting → (s.panel pn).step = 2 → ∃ t, exec (.panelSequenceWait dt pn) s = .next t ∧
        (t.panel pn).step = 3 ∧
        t.out = (if 1500 < panelMbps (s.outSet (24 + pn)) then [Tx.dsiDeskew pn] else []) ++ [Tx.dcs pn 0x11 Bytes.none] ∧
        (t.panel pn).waitUntil = s.time.now + dt + 1000000 * panelSleepOut (s.outSet (24 + pn)) ∧
        Only [.panels] (s.elapse dt) t) ∧
      ((s.panel pn).state = .starting → (s.panel pn).step = 3 → (s.panel pn).entries.len < 20 →
        ∃ t, exec (.panelSequenceWait dt pn) s = .next t ∧ (t.panel pn).step = 6 ∧
          t.out = [Tx.dcs pn 0x3A (leBytes 1 0x77), Tx.dcs pn 0x36 (leBytes 1 (panelAddrMode (s.outSet (24 + pn)))),
            Tx.dcs pn 0x35 (leBytes 1 0)]) ∧
      ((s.panel pn).state = .stopping → (s.panel pn).step = 1 → ∃ t, exec (.panelSequenceWait dt pn) s = .next t ∧
        (t.panel pn).step = 4 ∧ t.out = [Tx.dcs pn 0x28 Bytes.none, Tx.dcs pn 0x10 Bytes.none] ∧
        Only [.panels] (s.elapse dt) t) ∧
      ((s.panel pn).state = .stopping → (s.panel pn).step = 4 → ∃ t, exec (.panelSequenceWait dt pn) s = .next t ∧
        (t.panel pn).state = if (s.panel pn).restart then .starting else .off)) ∧
    (∀ pn : Fin 8, s.time.now + dt < (s.panel pn).waitUntil →
      exec (.panelSequenceWait dt pn) s = .next (s.elapse dt)) ∧
    (∀ pn : Fin 8, s.windowUp = true → (s.panel pn).state = .starting →
      (s.panel pn).startedAt + 2000000000 ≤ s.time.now + dt → ∃ t, exec (.panelStartRetry dt pn) s = .next t ∧
        (t.panel pn).state = .starting ∧ (t.panel pn).step = 1 ∧ (t.panel pn).retries = (s.panel pn).retries + 1 ∧
        (t.panel pn).startedAt = s.time.now + dt ∧ (t.panel pn).entries = Tbl.get s.panelInit ⟨0, 0⟩ pn ∧
        t.out = [Tx.dsiReset pn false] ∧ Only [.panels] (s.elapse dt) t) ∧
    (∀ (p : Fin 4) (r : Request), InHand s p 0x0404 r →
      (r.length = 0 → ∃ t, exec (.panelInitSet dt p) s = .next t ∧ t.panelInit = []) ∧
      ((0 < r.length ∧ r.length < 4) ∨ 4100 < r.length ∨ (r.length ≠ 0 ∧ r.length ≠ 4 + 20 * r.u8 1) →
        exec (.panelInitSet dt p) s = .next ((s.begun dt p).answer p r stBadLength Bytes.none)) ∧
      (r.length = 4 + 20 * r.u8 1 → r.u8 0 ≤ 7 → r.u8 1 ≤ 32 →
        (∀ st, entriesCheck (Bytes.drop r.payload 4) (r.u8 1) = some st →
          exec (.panelInitSet dt p) s = .next ((s.begun dt p).answer p r st Bytes.none)) ∧
        (entriesCheck (Bytes.drop r.payload 4) (r.u8 1) = none → ∃ t, exec (.panelInitSet dt p) s = .next t ∧
          Only [.panelInit, .mail] (s.elapse dt) t ∧
          Tbl.get t.panelInit ⟨0, 0⟩ (r.u8 0) = ⟨20 * r.u8 1, Bytes.at (Bytes.drop r.payload 4) 0 (20 * r.u8 1)⟩ ∧
          ∀ j, j ≠ r.u8 0 → Tbl.get t.panelInit ⟨0, 0⟩ j = Tbl.get s.panelInit ⟨0, 0⟩ j)))

/-- Key settings are checked whole before any is taken, and act at the next scan; a scan measures every channel, with T where an
enabled key has a T phase; one that finds a formed key over its press threshold in F, and in ratio, for as many scans as the
debounce asks presses it (R188 to R190, R192).

It says that these commands complete: `keyGroupSet`, `keyScan`.

A reading of the model is in it: log entry 41. -/
def Obligations.KeysPressAfterTheirDebounce : Prop :=
  ∀ (s : State) (dt : Nat),
    (∀ (p : Fin 4) (r : Request), InHand s p 0x0801 r → ∀ first items, itemList r 112 7 = .inr (first, items) →
      (∀ st, items.findSome? (fun v => keyCheck (BitVec.ofNat 896 v)) = some st →
        exec (.keyGroupSet dt p) s = .next ((s.begun dt p).answer p r st Bytes.none)) ∧
      (items.findSome? (fun v => keyCheck (BitVec.ofNat 896 v)) = none →
        ∃ t, exec (.keyGroupSet dt p) s = .next t ∧
          (∀ i v, items[i]? = some v → (t.keyGroup (first + i)).nextSetting =
            some (BitVec.ofNat 896 (v - (v &&& keyReserved)))) ∧
          (∀ g, (t.keyGroup g).keys = (s.keyGroup g).keys ∧ (t.keyGroup g).setting = (s.keyGroup g).setting) ∧
          (∀ g, g < first ∨ first + items.length ≤ g → t.keyGroup g = s.keyGroup g))) ∧
    (∀ (g : Fin 8) (raws : List KeySample), s.windowUp = true → s.maskedOff 24 = false →
      let d := ((s.keyGroup g).takeSetting (s.time.now + dt)).set
      (keyGrpEnable d = false → ∃ t, exec (.keyScan dt g raws) s = .next t ∧ Only [.keys] (s.elapse dt) t ∧
        (t.keyGroup g).keys = (s.keyGroup g).keys) ∧
      (keyGrpEnable d = true → ∃ t, exec (.keyScan dt g raws) s = .next t ∧
        Only [.keys, .ledger, .mail, .links, .pair] (s.elapse dt) t ∧ (t.keyGroup g).set = d ∧
        (t.keyGroup g).nextSetting = none ∧ (t.keyGroup g).lastScan = some (s.time.now + dt) ∧
        (∀ k : Nat, k < 24 → keyEnable d k = false → ((t.keyGroup g).key k).raw = (raws.getD k ⟨0, 0⟩).rawF ∧
          ((t.keyGroup g).key k).pressed = ((s.keyGroup g).key k).pressed) ∧
        ∀ (k : Nat) (b : Nat), k < 24 → keyEnable d k = true → ((s.keyGroup g).key k).base = some b →
          let x := (s.keyGroup g).key k
          let y := (t.keyGroup g).key k
          let smp := raws.getD k ⟨0, 0⟩
          y.raw = smp.rawF ∧ y.dF = (smp.rawF : Int) - (b / 1000000000 : Nat) ∧
          (hasTPhase d = true → y.dT = (smp.rawT : Int) - (b / 1000000000 : Nat)) ∧
          (x.pressed = false → (pressThreshold d k : Int) ≤ y.dF → y.dT * 16 ≤ keyWaterK d * y.dF →
            (keyDebounce d ≤ x.count + 1 → y.pressed = true ∧ y.pressedAt = s.time.now + dt ∧ y.base = some b) ∧
            (x.count + 1 < keyDebounce d → y.pressed = false ∧ y.count = x.count + 1)) ∧
          (x.pressed = false → y.dF < (pressThreshold d k : Int) → 0 < keyDebounce d →
            y.pressed = false ∧ y.count = 0) ∧
          (x.pressed = true → y.dF < (releaseThreshold d k : Int) → y.dT < (releaseThreshold d k : Int) →
            keyDebounce d ≤ x.count + 1 → y.pressed = false ∧ y.held = false ∧ y.stuck = false)))

/-- Keys in time: a key pressed as long as its limit is `HELD`, and later `STUCK`; the scan rate of a group without activity
falls to the code of its idle time, within the group's own limits (R192, R195).

The messages about keys: states are withheld in safe state; raw values are not; a factory reference is stored only
before the device is in the field, and the write is answered when flash has ended (R193, R196, R289).

It says that these commands complete: `keyHeld`, `keyStuck`, `keyRateStep`, `keyStateGet`, `keyRawGet`,
`keyReferenceStore`.

Readings of the model are in it: log entries 8, 10, 22 and 41. -/
def Obligations.KeysInTimeAndMessages : Prop :=
  (∀ (s : State) (dt : Nat) (g : Fin 8) (k : Fin 24), s.windowUp = true → keyGrpEnable (s.keyGroup g).set = true →
     let x := s.keyGroup g
     (keyEnable x.set k = true → (x.key k).pressed = true →
       ((x.key k).held = false → (x.key k).pressedAt + keyHoldLimit x.set * 1000000000 ≤ s.time.now + dt →
         ∃ t, exec (.keyHeld dt g k) s = .next t ∧ (t.keyGroup g).key k = { x.key k with held := true } ∧
           Only [.keys, .ledger, .links, .pair] (s.elapse dt) t) ∧
       ((x.key k).stuck = false → (x.key k).pressedAt + keyStuckLimit x.set * 1000000000 ≤ s.time.now + dt →
         ∃ t, exec (.keyStuck dt g k) s = .next t ∧ (t.keyGroup g).key k = { x.key k with stuck := true } ∧
           Only [.keys, .ledger, .mail, .links, .pair] (s.elapse dt) t) ∧
       (s.time.now + dt < (x.key k).pressedAt + keyHoldLimit x.set * 1000000000 →
         exec (.keyHeld dt g k) s = .next (s.elapse dt)) ∧
       (s.time.now + dt < (x.key k).pressedAt + keyStuckLimit x.set * 1000000000 →
         exec (.keyStuck dt g k) s = .next (s.elapse dt))) ∧
     (∃ t, exec (.keyRateStep dt g) s = .next t ∧ Only [.keys] (s.elapse dt) t ∧ ∃ code : Nat,
       (t.keyGroup g) = { x with rate := max (keyScanHigh x.set) (min (keyScanFloor x.set) (max code x.rate)) } ∧
       (s.time.now + dt < x.activeAt + 1000000000 → code = 0) ∧
       (x.activeAt + 1000000000 ≤ s.time.now + dt → s.time.now + dt < x.activeAt + 10000000000 → code = 1) ∧
       (x.activeAt + 10000000000 ≤ s.time.now + dt → s.time.now + dt < x.activeAt + 120000000000 → code = 2) ∧
       (x.activeAt + 120000000000 ≤ s.time.now + dt → code = 3))) ∧
  (∀ (s : State) (dt : Nat) (p : Fin 4) (r : Request),
     (InHand s p 0x0802 r →
       (s.inSafe = true → exec (.keyStateGet dt p) s = .next ((s.begun dt p).answer p r stDenied Bytes.none)) ∧
       (s.inSafe = false → r.u8 0 ≤ 7 → ∃ x, exec (.keyStateGet dt p) s = .next ((s.begun dt p).answer p r stOk x) ∧
         x.len = 200 ∧ Bytes.at x 0 1 = r.u8 0 ∧ ∀ k : Fin 24,
           ((Bytes.at x (8 + 8 * k) 4).testBit 31 = ((s.keyGroup (r.u8 0)).key k).pressed) ∧
           ((Bytes.at x (8 + 8 * k) 4).testBit 2 = ((s.keyGroup (r.u8 0)).key k).stuck))) ∧
     (InHand s p 0x0804 r →
       (r.u8 0 ≤ 7 → ∃ x, exec (.keyRawGet dt p) s = .next ((s.begun dt p).answer p r stOk x) ∧ x.len = 196 ∧
         Bytes.at x 0 1 = r.u8 0 ∧
         ∀ k : Fin 24, Bytes.at x (4 + 8 * k) 2 = ((s.keyGroup (r.u8 0)).key k).raw % 65536) ∧
       (7 < r.u8 0 → exec (.keyRawGet dt p) s = .next ((s.begun dt p).answer p r stNotSupported Bytes.none))) ∧
     (InHand s p 0x0803 r → s.power.flash = none →
       (s.sec.lifecycle = .field ∨ s.sec.lifecycle = .retired →
         exec (.keyReferenceStore dt p) s = .next ((s.begun dt p).answer p r stDenied Bytes.none)) ∧
       (s.sec.lifecycle = .manufacture ∨ s.sec.lifecycle = .develop → r.u8 0 ≤ 7 →
         ∃ t, exec (.keyReferenceStore dt p) s = .next t ∧ (∃ j, t.power.flash = some j ∧ j.req = r ∧ j.port = p) ∧
           t.keyRef = s.keyRef)))

/-! ## Encoding (08) -/

/-- `ENCODE_SET`: a job that fails its checks changes nothing; one that no core holds or can hold is refused; one taken is placed,
and its stream begins with an IDR picture unless the device is in safe state; one disabled stops and leaves its core; a change
of the quantisers and caps alone leaves the stream, where no other job waits for a core (R198, R199, R211 to R213).

The other commands of a job: a refresh asks a running job for an IDR picture; its status is read in lists; the oldest
capture that is not complete becomes so, its tiles of a copied CRC that mismatches voided, or is dropped while a channel is
frozen; packets leave in order under consecutive sequence numbers, protected under SRTP, or are lost where the job cannot
send; a sender report gives the wallclock only of traceable time (R199, R202, R205, R210, R252).

It says that these commands complete: `encodeSet`, `encodeRefresh`, `encodeStatusGet`, `encodeCaptureComplete`,
`encodePacketSend`, `encodeSrSend`.

Readings of the model are in it: log entries 42 and 58. -/
def Obligations.EncodeJobs : Prop :=
  (∀ (s : State) (dt : Nat) (p : Fin 4) (r : Request), InHand s p 0x0701 r → r.u8 0 ≤ 15 →
     let d : EncDesc := BitVec.ofNat 512 (Bytes.at r.payload 4 64 - (Bytes.at r.payload 4 64 &&& encReserved))
     let old := s.encJob (r.u8 0)
     (∀ st, s.encCheck d = some st →
       exec (.encodeSet dt p) s = .next ((s.begun dt p).answer p r st Bytes.none)) ∧
     (s.encCheck d = none → encEnable d = true → s.encPlace (r.u8 0) d = none →
       encSoft old d ≠ d ∨ encEnable old = false ∨ (s.encRun (r.u8 0)).core = none →
       exec (.encodeSet dt p) s = .next ((s.begun dt p).answer p r stNoResource Bytes.none)) ∧
     (∀ c, s.encCheck d = none → encEnable d = true → encEnable old = false → s.encPlace (r.u8 0) d = some c →
       ∃ t, exec (.encodeSet dt p) s = .next t ∧ t.encJob (r.u8 0) = d ∧ ((s.domain 8).on = true →
         (t.encRun (r.u8 0)).core = some c ∧ (t.encRun (r.u8 0)).cost = s.encCost d ∧ (t.encRun (r.u8 0)).needIdr = true ∧
         (t.encRun (r.u8 0)).state = (if s.inSafe then .stopped else .running))) ∧
     (s.encCheck d = none → encEnable d = false → encEnable old = true →
       ∃ t, exec (.encodeSet dt p) s = .next t ∧ t.encJob (r.u8 0) = d ∧ (t.encRun (r.u8 0)).state = .off ∧
         (t.encRun (r.u8 0)).core = none) ∧
     (s.encCheck d = none → encEnable d = true → encEnable old = true → encSoft old d = d →
       (∀ j, encEnable (s.encJob j) = true → (s.encRun j).core.isSome = true) →
       ∃ t, exec (.encodeSet dt p) s = .next t ∧ Only [.encJobs, .enc, .mail] (s.elapse dt) t ∧
         t.encJob (r.u8 0) = d ∧ (t.encRun (r.u8 0)) = { s.encRun (r.u8 0) with level := (t.encRun (r.u8 0)).level })) ∧
  (∀ (s : State) (dt : Nat),
     (∀ (p : Fin 4) (r : Request), InHand s p 0x0703 r →
       (r.u8 0 ≤ 15 → (s.encRun (r.u8 0)).state = .running → ∃ t, exec (.encodeRefresh dt p) s = .next t ∧
         Only [.enc, .mail] (s.elapse dt) t ∧ t.encRun (r.u8 0) = { s.encRun (r.u8 0) with needIdr := true }) ∧
       (15 < r.u8 0 → exec (.encodeRefresh dt p) s = .next ((s.begun dt p).answer p r stNotSupported Bytes.none))) ∧
     (∀ (p : Fin 4) (r : Request) (l : List Nat), InHand s p 0x0702 r →
       cutList (r.u16 0) (r.u16 2) 16 44 r.room = some l → ∃ x, exec (.encodeStatusGet dt p) s =
         .next ((s.begun dt p).answer p r stOk x) ∧ x.len = 4 + 44 * l.length ∧ Bytes.at x 0 4 = l.length ∧
         ∀ i j, l[i]? = some j → Bytes.at x (4 + 44 * i) 4 = j ∧
           Bytes.at x (4 + 44 * i + 24) 4 = (s.encRun j).capDropped % 2 ^ 32) ∧
     (∀ (j : Fin 16) (c : Capture) (before after : List Capture) (bad : List Nat), (s.encRun j).ring = before ++ c :: after →
       (∀ b ∈ before, b.done = true) → c.done = false →
       (s.frozenChans = [] → ∃ t c', exec (.encodeCaptureComplete dt ⟨j, bad⟩) s = .next t ∧ Only [.enc] (s.elapse dt) t ∧
         t.encRun j = { s.encRun j with ring := before ++ c' :: after } ∧ c'.done = true ∧ c'.time = c.time ∧
         c'.tiles.length = c.tiles.length ∧ ∀ i x, c.tiles[i]? = some x → ∃ y, c'.tiles[i]? = some y ∧ y.record = x.record ∧
           y.areas = (if i ∈ bad then x.broken else x.areas)) ∧
       (s.frozenChans ≠ [] → ∃ t, exec (.encodeCaptureComplete dt ⟨j, bad⟩) s = .next t ∧
         Only [.enc, .ledger] (s.elapse dt) t ∧ (t.encRun j).capDropped = ((s.encRun j).capDropped + 1) % 2 ^ 32 ∧
         ∀ b ∈ (t.encRun j).ring, b.done = true)) ∧
     (∀ (j : Fin 16) (k : EncPacket) (rest : List EncPacket), (s.encRun j).packets = k :: rest →
       (s.encRun j).state = .running →
       (∀ e, s.encSends j = true → (s.eth (encPort (s.encJob j))).setting = some e → ∃ t payload,
         exec (.encodePacketSend dt j) s = .next t ∧ Only [.enc] (s.elapse dt) t ∧
         (t.encRun j).packets = rest ∧ (t.encRun j).rtpSeq = ((s.encRun j).rtpSeq + 1) % 65536 ∧
         t.out.head? = some (Tx.eth (encPort (s.encJob j)) (ethVlan e)
           (.rtp j (s.encRun j).rtpSeq k.ts k.marker payload)) ∧
         (encSrtp (s.encJob j) = 0 → payload = k.payload)) ∧
       (s.encSends j = false → ∃ t, exec (.encodePacketSend dt j) s = .next t ∧ Only [.enc] (s.elapse dt) t ∧
         t.encRun j = { s.encRun j with packets := rest } ∧ t.out = [])) ∧
     (∀ (j : Fin 16) (e : EthDesc), (s.encRun j).state = .running → s.encSends j = true →
       (s.eth (encPort (s.encJob j))).setting = some e →
       ∃ t w i, exec (.encodeSrSend dt j) s = .next t ∧ Only [.enc] (s.elapse dt) t ∧
         t.out = [Tx.eth (encPort (s.encJob j)) (ethVlan e) (.rtcpSr j w (encMedia (s.encJob j) (s.elapse dt).time.room)
           (s.encRun j).sentPackets (s.encRun j).sentBytes i)] ∧
         (encSrtp (s.encJob j) = 0 → i = none ∧ t.encRun j = s.encRun j) ∧
         (encSrtp (s.encJob j) ≠ 0 → i = some (s.encRun j).srtcp) ∧
         (s.time.traceable = false ∨ s.time.utcOffset = none → w = none) ∧
         (∀ utc, s.time.traceable = true → s.time.utcOffset = some utc → w = some (roomNtp (s.elapse dt).time.room utc))))

/-- A coded picture never exceeds its caps: the access unit with its carried rows fits the picture's cap and what the last
second leaves of the second's, where the coder's reserve covers the bytes that emulation prevention adds to the annex, at most one in two; a picture
whose floor does not fit is dropped; every row has a mint, carried or its own (R204 to R208).

It says that this command completes: `encodePictureCoded`.

Readings of the model are in it: log entries 5, 42 and 58. -/
def Obligations.PicturesKeepTheirBudget : Prop :=
  ∀ (s : State) (dt : Nat) (j : Fin 16) (c : Capture) (rest : List Capture) (costs : RowCosts),
    (s.encRun j).ring = c :: rest → c.done = true → (s.encRun j).state = .running → 0 < encRows (s.encJob j) →
    let d := s.encJob j
    let spent := sumOf (((s.encRun j).window c.time).map (·.2))
    let x := s.encRun j
    let cycle := if x.needIdr = true ∨ x.carriedFrom.isSome = true then 0 else x.cycle
    let floor := nalBytes (leadingNals costs x.needIdr cycle) + annexRoom d + costs.reserve + 16 * encRows d
    (floor ≤ encCapPicture d → floor + spent ≤ encCapSecond d * 125 →
      ∃ t n, exec (.encodePictureCoded dt j costs) s = .next t ∧ Only [.enc, .ledger] (s.elapse dt) t ∧
        (t.encRun j).ring = rest ∧ (t.encRun j).pictures = (s.encRun j).pictures + 1 ∧
        (t.encRun j).needIdr = false ∧ (t.encRun j).rowMints.length = encRows d ∧
        (t.encRun j).sent = (s.encRun j).window c.time ++ [(c.time, n)] ∧
        (annexRoom d ≤ 2 * costs.reserve → n ≤ encCapPicture d ∧ n + spent ≤ encCapSecond d * 125) ∧ (∀ i, i ≠ j.val → t.encRun i = s.encRun i)) ∧
    (encCapPicture d < floor ∨ encCapSecond d * 125 < floor + spent →
      ∃ t, exec (.encodePictureCoded dt j costs) s = .next t ∧ Only [.enc] (s.elapse dt) t ∧
        t.encRun j = { s.encRun j with ring := rest, picDropped := (s.encRun j).picDropped + 1 })

/-! ## The room: commits, time and frames (02, 05) -/

/-- A coordinator: it holds `ROOM_COMMIT` and asks every participant; one that cannot is a room abort, and so is one that does
not answer in 2 ms; when all are prepared it chooses a frame of the formula at least its lead ahead; it completes when every
participant is done, or 200 ms after the frame (R143, R144, R146).

A participant: its answer says whether it is prepared; a request for its vote sets the frame; it votes at its own lead; it
takes the decision, late where less than 20 µs are left; in doubt it queries, and 100 ms later its commit is withdrawn
(R143, R145).

It says that these commands complete: `roomCommit`, `roomPrepared`, `roomPrepareTimeout`, `roomVote`, `roomDone`,
`roomDoneWaitExpiry`, `roomPrepare`, `roomVoteReq`, `roomVotePoint`, `roomDecide`, `roomQuery`, `roomInDoubtTimeout`.

Readings of the model are in it: log entries 8, 10 and 47. -/
def Obligations.RoomWideCommits : Prop :=
  (∀ (s : State) (dt : Nat),
     (∀ (p : Fin 4) (r : Request) (c : Commit), InHand s p 0x0505 r →
       (s.links.roomCo.isSome = true ∨ 8 ≤ (s.port p).held.length →
         exec (.roomCommit dt p) s = .next ((s.begun dt p).answer p r stBusy Bytes.none)) ∧
       (s.links.roomCo = none → (s.port p).held.length < 8 → r.u8 3 ≤ 15 → s.roomCommit (r.u16 0) = none →
         exec (.roomCommit dt p) s = .next ((s.begun dt p).answer p r stDenied Bytes.none)) ∧
       (s.links.roomCo = none → (s.port p).held.length < 8 → r.u8 3 ≤ 15 → s.roomCommit (r.u16 0) = some c →
         c.group = r.u8 3 → ∃ t x, exec (.roomCommit dt p) s = .next t ∧ t.links.roomCo = some x ∧
           r ∈ (t.port p).held ∧ x.roomId = r.u16 0 ∧ x.mask = r.u8 2 % 16 ∧ x.group = r.u8 3 ∧ x.port = p ∧
           x.tag = r.tag ∧ x.startedAt = s.time.now + dt ∧ x.decided = none ∧
           (r.u8 2 % 16 ≠ 0 → x.tf = none) ∧ (r.u8 2 % 16 = 0 → x.tf.isSome = true))) ∧
     (∀ (x : RoomCo), s.links.roomCo = some x → s.tellerUp = true →
       (∀ (pp : Fin 4) (seq result : Nat), s.peerRoom pp = true → x.tf = none → x.mask.testBit pp = true → seq < 2 ^ 32 →
         (result ≠ 0 → ∃ t, exec (.roomPrepared dt pp x.roomId result seq) s = .next t ∧ t.links.roomCo = none) ∧
         (result = 0 → maskOf (insertNat x.prepared pp) ≠ x.mask →
           ∃ t, exec (.roomPrepared dt pp x.roomId result seq) s = .next t ∧ Only [.links] (s.elapse dt) t ∧
             t.links.roomCo = some { x with prepared := insertNat x.prepared pp }) ∧
         (result = 0 → maskOf (insertNat x.prepared pp) = x.mask → ∃ t y tf,
           exec (.roomPrepared dt pp x.roomId result seq) s = .next t ∧ t.links.roomCo = some y ∧ y.tf = some tf ∧
             tf = s.time.clock.after ((s.elapse dt).time.room + grpLead (s.group x.group) * 1000 + 200000 - 1) ∧
             y.votes = [] ∧ y.own = none ∧ Only [.links] (s.elapse dt) t)) ∧
       (x.tf = none → x.startedAt + 2000000 ≤ s.time.now + dt →
         ∃ t, exec (.roomPrepareTimeout dt) s = .next t ∧ t.links.roomCo = none) ∧
       (x.tf = none → s.time.now + dt < x.startedAt + 2000000 →
         exec (.roomPrepareTimeout dt) s = .next (s.elapse dt)) ∧
       (∀ (pp : Fin 4) (vote : Vote) (tf : Nat), s.peerRoom pp = true → x.tf = some tf → x.mask.testBit pp = true →
         x.decided.any decisionSettles = false → ∃ t, exec (.roomVote dt pp x.roomId vote tf) s = .next t ∧
           Only [.links] (s.elapse dt) t ∧ t.links.roomCo = some { x with votes := Tbl.put x.votes pp vote }) ∧
       (∀ (pp : Fin 4) (time seq : Nat), s.peerRoom pp = true → x.decided.any decisionSettles = true →
         x.mask.testBit pp = true → seq < 2 ^ 32 →
         ((maskBits 4 x.mask).all (fun q => Tbl.has (Tbl.put x.doneTimes pp time) q) = true →
           ∃ t, exec (.roomDone dt pp x.roomId time seq) s = .next t ∧ t.links.roomCo = none) ∧
         ((maskBits 4 x.mask).all (fun q => Tbl.has (Tbl.put x.doneTimes pp time) q) = false →
           ∃ t, exec (.roomDone dt pp x.roomId time seq) s = .next t ∧
             t.links.roomCo = some { x with doneTimes := Tbl.put x.doneTimes pp time })) ∧
       (x.decided.any decisionSettles = true → x.tf.getD 0 + 200000000 ≤ (s.elapse dt).time.room →
         ∃ t, exec (.roomDoneWaitExpiry dt) s = .next t ∧ t.links.roomCo = none))) ∧
  (∀ (s : State) (dt : Nat), s.tellerUp = true →
     (∀ (pp : Fin 4) (id : Nat) (g : Fin 16) (num den phase : Nat), s.peerRoom pp = true →
       let k := s.time.clock
       let result := if s.roomCommit id = none then 1
         else if s.time.state ≠ .locked ∧ s.time.state ≠ .holdover then 2
         else if k.genlockIn = true ∨ k.num ≠ num ∨ k.den ≠ den ∨ k.phase ≠ phase then 3 else 0
       ∃ t b, exec (.roomPrepare dt pp id g num den phase) s = .next t ∧ Only [.links] (s.elapse dt) t ∧
         t.links.roomPart = (if result = 0 then some { roomId := id, coord := pp } else s.links.roomPart) ∧
         Bytes.at b 0 2 = id % 65536 ∧ Bytes.at b 2 1 = result ∧
         t.peer pp = (((s.elapse dt).sendPeer pp 0x0002 b).peer pp)) ∧
     (∀ (x : RoomPart), s.links.roomPart = some x →
       (∀ (pp : Fin 4) (tf : Nat), s.peerRoom pp = true → x.coord = pp → x.decided = none →
         ∃ t, exec (.roomVoteReq dt pp x.roomId tf) s = .next t ∧ Only [.links] (s.elapse dt) t ∧
           t.links.roomPart = some { x with tf := some tf, vote := none, doubtSince := none }) ∧
       (∀ (c : Commit) (tf : Nat), s.links.roomCo = none → s.roomCommit x.roomId = some c → x.tf = some tf →
         x.vote = none → x.decided = none → tf ≤ (s.elapse dt).time.room + grpLead (s.group c.group) * 1000 →
         ∃ t, exec (.roomVotePoint dt) s = .next t ∧ Only [.links] (s.elapse dt) t ∧ t.links.roomPart =
           some { x with vote := some (if c.stagingDone = false then .staging
             else if s.waitingFences = [] then .ready else .fence) }) ∧
       (∀ (pp : Fin 4) (dec : Decision) (defers tf : Nat), s.peerRoom pp = true → x.coord = pp → x.decided = none →
         (s.roomCommit x.roomId = none → ∃ t, exec (.roomDecide dt pp x.roomId dec defers tf) s = .next t ∧
           Only [.links] (s.elapse dt) t ∧ t.links.roomPart = none) ∧
         (s.roomCommit x.roomId ≠ none → decisionSettles dec = true → ∃ t u,
           exec (.roomDecide dt pp x.roomId dec defers tf) s = .next t ∧ Only [.links] (s.elapse dt) u ∧
           u.links.roomPart = some { x with
             decided := some dec, tf := some tf, settleLate := decide (tf < (s.elapse dt).time.room + 20000) } ∧
           t = u.roomSettle x.roomId defers) ∧
         (s.roomCommit x.roomId ≠ none → decisionSettles dec = false → ∃ t,
           exec (.roomDecide dt pp x.roomId dec defers tf) s = .next t ∧
           Only [.links, .sets, .mail, .ledger] (s.elapse dt) t ∧ t.links.roomPart = some { x with tf := some tf, vote := none, doubtSince := none } ∧
           ∃ c, t.sets.pending = some c ∧ c.state = .deferred)) ∧
       (∀ tf tf', x.vote = some .ready → x.decided = none → x.tf = some tf → tf ≤ (s.elapse dt).time.room →
         (∃ t, exec (.roomQuery dt none x.roomId tf') s = .next t ∧ Only [.links] (s.elapse dt) t ∧
           t.links.roomPart = some { x with doubtSince := some (x.doubtSince.getD (s.time.now + dt)) }) ∧
         (∀ since c, x.doubtSince = some since → s.roomCommit x.roomId = some c →
           (since + 100000000 ≤ s.time.now + dt → ∃ t, exec (.roomInDoubtTimeout dt) s = .next t ∧
             t.links.roomPart = none ∧ t.sets.pending = none ∧ t.sets.active = s.sets.active) ∧
           (s.time.now + dt < since + 100000000 → exec (.roomInDoubtTimeout dt) s = .next (s.elapse dt))))))

/-- The decision: READY from all settles; a vote STAGING defers uncounted; otherwise it defers counted, and settles all the
same once every vote is in and the group's limit is reached. At its point the coordinator makes it, sends it and takes it
itself (R143, R144).

It says that this command completes: `roomDecisionPoint`.

Readings of the model are in it: log entries 8 and 47. -/
def Obligations.DecisionsFollowVotes : Prop :=
  (∀ (x : RoomCo) (limit : Nat),
    (x.own = some .ready → (∀ pp ∈ maskBits 4 x.mask, Tbl.find x.votes pp = some .ready) → x.decide' limit = .settle) ∧
    ((x.own = some .staging ∨ ∃ pp ∈ maskBits 4 x.mask, Tbl.find x.votes pp = some .staging) →
      x.decide' limit = .deferUncounted) ∧
    ((x.own ≠ some .staging ∧ ∀ pp ∈ maskBits 4 x.mask, Tbl.find x.votes pp ≠ some .staging) →
      (x.own ≠ some .ready ∨ ∃ pp ∈ maskBits 4 x.mask, Tbl.find x.votes pp ≠ some .ready) →
      (x.own ≠ none → (∀ pp ∈ maskBits 4 x.mask, Tbl.find x.votes pp ≠ none) → limit ≤ x.defers →
        x.decide' limit = .settleForced) ∧
      ((x.own = none ∨ (∃ pp ∈ maskBits 4 x.mask, Tbl.find x.votes pp = none) ∨ x.defers < limit) →
        x.decide' limit = .deferCounted))) ∧
  (∀ (s : State) (dt : Nat) (x : RoomCo) (tf : Nat), s.tellerUp = true → s.links.roomCo = some x → x.tf = some tf →
    x.decided.any decisionSettles = false →
    let d := x.decide' (grpDeferLimit (s.group x.group))
    let defers := if d = Decision.deferCounted then x.defers + 1 else x.defers
    (tf ≤ (s.elapse dt).time.room + grpLead (s.group x.group) * 500 → x.missing < 2 →
      ∃ t u y, exec (.roomDecisionPoint dt) s = .next t ∧ Only [.links] (s.elapse dt) u ∧ u.links.roomCo = some y ∧
        y.decided = some d ∧ y.defers = defers ∧ y.decisions = x.decisions + 1 ∧
        y.tf = some (if decisionSettles d then tf else s.time.clock.after tf) ∧
        t = (if decisionSettles d then u.roomSettle x.roomId defers
          else u.roomDefer x.roomId defers (d == Decision.deferCounted))) ∧
    ((s.elapse dt).time.room + grpLead (s.group x.group) * 500 < tf →
      exec (.roomDecisionPoint dt) s = .next (s.elapse dt)))

/-- Following a source: an offset within 1 ms is slewed, a greater lag is stepped forward, a greater lead is slewed as
`ROOM_TIME_AHEAD`; a slew is towards the source and within 500 ppm; the state becomes `LOCKED` (R53, R54, R425). PTP follows the
selected master alone, over the transport and in the domain configured, and holds over after 3 s without a Sync; an Announce
gives the offset to UTC alone (R56).

GENLOCK_IN: the eighth spacing in a row within 0.1 % of the period locks, another starts over; a lock is lost once three
expected edges have failed, and a frame clock on the input then runs on; each edge starts a frame of a clock on the input that
does not (R57, R58).

It says that these commands complete: `ptpMessageReceived`, `ptpSyncTimeout`, `timeSync`, `timeSyncSend`,
`genlockInEdge`, `genlockLoss`.

Readings of the model are in it: log entries 8 and 48. -/
def Obligations.RoomTimeAndGenlock : Prop :=
  (∀ (s : State) (dt : Nat), s.tellerUp = true →
     (∀ (port : Fin 8) (m : PtpMessage) (off : Int), s.time.disc = .ptp → s.time.discPort = port →
       s.time.ptpDomain = m.domain → s.time.ptpTransport = m.transport → (s.eth port).up = true → m.offset = some off →
       m.kind ≠ .announce → ∃ t, exec (.ptpMessageReceived dt port m) s = .next t ∧ t.time.state = .locked ∧ t.time.traceable = true ∧
         (1000000 < off → (t.time.room : Int) = (((s.elapse dt).time.room : Int) + off) % 2 ^ 64 ∧ t.time.ahead = false) ∧
         (-1000000 ≤ off → off ≤ 1000000 → t.time.room = (s.elapse dt).time.room ∧ t.time.offset = off ∧
           t.time.ahead = false) ∧
         (off < -1000000 → t.time.room = (s.elapse dt).time.room ∧ t.time.offset = off ∧ t.time.ahead = true) ∧
         (0 < off → 0 < t.time.rate) ∧ (off < 0 → t.time.rate < 0) ∧ (off ≠ 0 → t.time.rate.natAbs ≤ 500000) ∧
         t.time.utcOffset = s.time.utcOffset ∧
         (m.kind = .sync → t.time.lastSync = some (s.time.now + dt)) ∧
         (m.kind ≠ .sync → t.time.lastSync = s.time.lastSync)) ∧
     (∀ (port : Fin 8) (m : PtpMessage), s.time.disc = .ptp → s.time.discPort = port → s.time.ptpDomain = m.domain →
       s.time.ptpTransport = m.transport → (s.eth port).up = true → m.kind = .announce →
       exec (.ptpMessageReceived dt port m) s = .next { s.elapse dt with
         time := { (s.elapse dt).time with utcOffset := m.utcOffset } }) ∧
     (∀ (port : Fin 8) (m : PtpMessage), s.time.disc ≠ .ptp ∨ s.time.discPort ≠ port ∨ s.time.ptpDomain ≠ m.domain ∨
         s.time.ptpTransport ≠ m.transport ∨ (s.eth port).up = false →
       exec (.ptpMessageReceived dt port m) s = .next (s.elapse dt)) ∧
     (∀ t0, s.time.lastSync = some t0 → s.time.disc = .ptp → s.time.state = .locked →
       (t0 + 3000000000 ≤ s.time.now + dt → ∃ t, exec (.ptpSyncTimeout dt) s = .next t ∧ t.time.state = .holdover ∧
         Only [.time, .ledger, .mail] (s.elapse dt) t) ∧
       (s.time.now + dt < t0 + 3000000000 → exec (.ptpSyncTimeout dt) s = .next (s.elapse dt))) ∧
     (∀ (pp : Fin 4) (m : TimeSyncMsg), s.peerUp pp = true →
       (m.response = false → ∃ t b, exec (.timeSync dt pp m) s = .next t ∧ Only [.links] (s.elapse dt) t ∧
         t = (s.elapse dt).sendPeer pp 0x0010 b ∧ Bytes.at b 8 8 = m.t1 % 2 ^ 64 ∧
         Bytes.at b 16 8 = (s.elapse dt).time.room % 2 ^ 64) ∧
       (m.response = true → s.time.disc = .peer → s.time.discPort = pp → s.time.syncT1 = some m.t1 →
         ∃ t, exec (.timeSync dt pp m) s = .next t ∧ t.time.state = .locked ∧ t.time.traceable = m.traceable ∧
           t.time.syncT1 = none ∧
           let off := Int.tdiv (((m.t2 : Int) - m.t1) + ((m.t3 : Int) - (s.elapse dt).time.room)) 2
           (-1000000 ≤ off → off ≤ 1000000 → t.time.offset = off))) ∧
     (s.time.disc = .peer → s.peerUp s.time.discPort = true → ∃ t, exec (.timeSyncSend dt) s = .next t ∧
       Only [.time, .links] (s.elapse dt) t ∧ t.time.syncT1 = some (s.elapse dt).time.room)) ∧
  (∀ (s : State) (dt : Nat), s.tellerUp = true →
     (∀ last, s.time.glLock = false → s.time.glLast = some last → s.time.clock.genlockIn = false →
       let spacing := s.time.now + dt - last
       (nearPeriod s.time.clock spacing 1000 = true → ∃ t, exec (.genlockInEdge dt) s = .next t ∧
         t.time.glEdges = s.time.glEdges + 1 ∧ t.time.glPeriod = spacing ∧ t.time.glLast = some (s.time.now + dt) ∧
         t.time.glLock = decide (7 ≤ s.time.glEdges) ∧ t.time.frameN = s.time.frameN) ∧
       (nearPeriod s.time.clock spacing 1000 = false → ∃ t, exec (.genlockInEdge dt) s = .next t ∧
         Only [.time] (s.elapse dt) t ∧ t.time.glEdges = 0 ∧ t.time.glLock = false ∧
         t.time.glLast = some (s.time.now + dt))) ∧
     (s.time.clock.genlockIn = true → s.time.glRunOn = false →
       ∃ t, exec (.genlockInEdge dt) s = .next t ∧ t.time.frameN = (s.time.frameN + 1) % 2 ^ 32) ∧
     (∀ last, s.time.glLock = true → s.time.glLast = some last →
       (last + 3 * s.time.glPeriod + s.time.glPeriod / 100 ≤ s.time.now + dt →
         ∃ t, exec (.genlockLoss dt) s = .next t ∧ t.time.glLock = false ∧
           t.time.glRunOn = true ∧
           (s.time.glRunOn = false → t.time.glNext = last + 4 * s.time.glPeriod) ∧
           (s.time.disc = .genlock → s.time.state = .locked → t.time.state = .holdover)) ∧
       (s.time.now + dt < last + 3 * s.time.glPeriod + s.time.glPeriod / 100 →
         exec (.genlockLoss dt) s = .next (s.elapse dt))))

/-- A room frame starts at each formula time, once; there a changed frame clock comes into force and every scanning head is to
stop, and an accepted exit ends safe state (R57, R60, R154, R310, R424).

The messages about room time: the status; a backward step, accepted while `ROOM_TIME_AHEAD`; the configuration, refused
where it fails a check, moves room time back or would change the frame clock under a pending commit or an impossible head,
and otherwise in force at once but for the frame clock, which waits for the next frame start (R54, R55, R57, R60, R425).

It says that these commands complete: `roomFrameStart`, `roomTimeStatus`, `roomTimeStepBack`, `roomTimeConfig`.

Readings of the model are in it: log entries 8, 25, 31 and 48. -/
def Obligations.RoomFramesAndMessages : Prop :=
  (∀ (s : State) (dt f : Nat), s.power.state ≠ .off → s.time.clock.genlockIn = false →
     s.time.clock.upTo (s.elapse dt).time.room = some f →
     (f ≤ s.time.framePast → exec (.roomFrameStart dt) s = .next (s.elapse dt)) ∧
     (s.time.framePast < f → ∃ t, exec (.roomFrameStart dt) s = .next t ∧
       t.time.frameN = (s.time.frameN + 1) % 2 ^ 32 ∧ t.time.frameT = f ∧
       (s.time.stepBack = none → t.time.framePast = f) ∧
       (∀ k, s.tellerUp = true → s.power.started = true → s.time.clockNext = some k → t.time.clock = k ∧
         t.time.clockNext = none ∧ (s.sets.restorePending = false → ∀ h : Fin 24, (s.head h).state = .scanning →
           (s.head h).safeStopped = false → (t.head h).stopNext.isSome = true)) ∧
       (s.tellerUp = true → s.power.started = true → s.time.stepBack = none → s.sets.restorePending = false →
         (s.inSafe = true → s.fault.exit.isSome = true → t.inSafe = false ∧ t.fault.exit = none ∧ t.fault.alive = true) ∧
         (s.inSafe = true → s.fault.exit = none → t.inSafe = true)))) ∧
  (∀ (s : State) (dt : Nat) (p : Fin 4) (r : Request),
     (InHand s p 0x0209 r → ∃ x, exec (.roomTimeStatus dt p) s = .next ((s.begun dt p).answer p r stOk x) ∧ x.len = 32 ∧
       Bytes.at x 0 4 = rtCode s.time.state ∧ Bytes.at x 4 4 = discCode s.time.disc ∧ Bytes.at x 8 4 = b2n s.time.traceable ∧
       Bytes.at x 12 4 = b2n s.time.glLock ∧ Bytes.at x 16 8 = (s.elapse dt).time.room % 2 ^ 64) ∧
     (InHand s p 0x020A r →
       (s.time.ahead = false →
         exec (.roomTimeStepBack dt p) s = .next ((s.begun dt p).answer p r stDenied Bytes.none)) ∧
       (s.time.ahead = true → ∃ t, exec (.roomTimeStepBack dt p) s = .next t ∧ Only [.time, .mail] (s.elapse dt) t ∧
         t.time = { (s.elapse dt).time with stepBack := some s.time.offset.natAbs })) ∧
     (InHand s p 0x0208 r → let k := configClock r
       (∀ st, configCheck r = some st →
         exec (.roomTimeConfig dt p) s = .next ((s.begun dt p).answer p r st Bytes.none)) ∧
       (∀ d, configCheck r = none → discOfCode (r.u8 0) = some d →
         (k ≠ s.rate → s.sets.pending.isSome = true →
           exec (.roomTimeConfig dt p) s = .next ((s.begun dt p).answer p r stBusy Bytes.none)) ∧
         (k ≠ s.rate → s.sets.pending = none → s.headsFail k = true →
           exec (.roomTimeConfig dt p) s = .next ((s.begun dt p).answer p r stNotSupported Bytes.none)) ∧
         (k = s.rate → (r.u8 9).testBit 0 = true → r.u64 24 < (s.elapse dt).time.room →
           exec (.roomTimeConfig dt p) s = .next ((s.begun dt p).answer p r stDenied Bytes.none)) ∧
         ((k = s.rate ∨ (s.sets.pending = none ∧ s.headsFail k = false)) →
           ((r.u8 9).testBit 0 = false ∨ (s.elapse dt).time.room ≤ r.u64 24) →
           ∃ t, exec (.roomTimeConfig dt p) s = .next t ∧ t.time.disc = d ∧ t.time.discPort = r.u8 1 ∧
             t.time.clock = s.time.clock ∧ t.rate = k ∧ t.sets = s.sets ∧ t.heads = s.heads ∧
             ((r.u8 9).testBit 0 = true → t.time.room = r.u64 24) ∧
             ((r.u8 9).testBit 0 = false → t.time.room = (s.elapse dt).time.room)))))

/-! ## Faults and safe state (13) -/

/-- What the Auditor does with a coded message: it is logged; a condition becomes active, and `CLEARED` ends it; from severity
2 on a service cause is set, from 3 on the device is in safe state, from 4 on an AUDITOR reset is due 10 ms later; the heads
stop for the faults of R308 alone (R300 to R306, R308, R313).

It says that this command completes: `faultMessageReceived`.

A reading of the model is in it: log entry 49. -/
def Obligations.TheAuditorReacts : Prop :=
  ∀ (s : State) (dt : Nat) (msg : Word), s.fault.dead = false → s.power.state ≠ .off →
    let src := msg.toNat % 256
    let kind := bitsOf msg.toNat 15 10
    let param := bitsOf msg.toNat 31 16
    let sev := s.severityOf src param
    ∃ t, exec (.faultMessageReceived dt msg) s = .next t ∧
      t.fault.log.getLast? = some ⟨msg.toNat, sev, (s.elapse dt).time.room⟩ ∧
      t.fault.log.length = min (s.fault.log.length + 1) 1024 ∧
      (kind = 1 → (∀ a ∈ t.fault.active, a.source = src → a.param ≠ param) ∧ t.fault.safe = s.fault.safe ∧
        t.heads = s.heads ∧ t.fault.service = s.fault.service) ∧
      (kind ≠ 1 → kind ≠ 2 → ∃ a ∈ t.fault.active, a.source = src ∧ a.param = param ∧ sev ≤ a.severity) ∧
      (kind ≠ 1 → (∀ b, 2 ≤ sev → serviceCause src = some b → t.fault.service.getLsbD b = true) ∧
        (sev < 2 → t.fault.service = s.fault.service) ∧
        (3 ≤ sev → t.inSafe = true ∧ t.fault.exit = (if s.inSafe = true then none else s.fault.exit)) ∧
        (3 ≤ sev → s.inSafe = false → t.fault.alive = false) ∧
        (sev < 3 → t.inSafe = s.inSafe ∧ t.heads = s.heads ∧ t.enc = s.enc ∧
          (src ≠ 0x006 → src ≠ 0x008 → t.panels = s.panels)) ∧
        (4 ≤ sev → t.fault.resetDue = some (s.fault.resetDue.getD (s.time.now + dt + 10000000, msg.toNat))) ∧
        (sev < 4 → t.fault.resetDue = s.fault.resetDue) ∧
        (3 ≤ sev → stopsHeads src = true → ∀ h : Fin 24, (s.head h).state = .scanning →
          (t.head h).state = .off ∧ (t.head h).safeStopped = true) ∧
        (stopsHeads src = false → t.heads = s.heads))

/-- The two rails of a source: a reading that becomes a fault makes it active, under the unit it names; a healthy one starts its
second, and ends the source once that has passed; a summary covers a burst for 10 s (R299, R301).

The messages about faults: the health words; severities, of which those of dual-rail sources stay at least 3; the fault
log; an exit from safe state, DENIED unless 1 s has passed, no fault of severity 3 or more or of a rail is active and the
Auditor is sound (R301, R302, R310).

It says that these commands complete: `dualRailChange`, `dualRailHealthyExpiry`, `faultSummaryTimer`, `healthGet`,
`faultSeveritySet`, `faultLogGet`, `safeExit`.

Readings of the model are in it: log entries 8 and 49. -/
def Obligations.RailsAndFaultMessages : Prop :=
  (∀ (s : State) (dt : Nat), s.fault.dead = false → s.power.state ≠ .off →
     (∀ (id : Fin 16) (a b : Bool) (k : Nat) (unit : BitVec 16), railReading id (a, b) = some k →
       railReading id (Tbl.get s.fault.rails (false, true) id) ≠ some k →
       ∃ t, exec (.dualRailChange dt ⟨id, unit⟩ a b) s = .next t ∧ Tbl.get t.fault.rails (false, true) id = (a, b) ∧
         ∃ x ∈ t.fault.active, x.source = id ∧ x.param = unit.toNat) ∧
     (∀ (id : Fin 16) (unit : BitVec 16), railReading id (Tbl.get s.fault.rails (false, true) id) ≠ none →
       ∃ t, exec (.dualRailChange dt ⟨id, unit⟩ false true) s = .next t ∧ Only [.fault] (s.elapse dt) t ∧
         t.fault.active = s.fault.active ∧ Tbl.get t.fault.healthySince 0 id = s.time.now + dt) ∧
     (∀ id : Fin 16, railReading id (Tbl.get s.fault.rails (false, true) id) = none →
       (Tbl.get s.fault.healthySince 0 id + 1000000000 ≤ s.time.now + dt →
         ∃ t, exec (.dualRailHealthyExpiry dt id) s = .next t ∧
           ∀ x ∈ t.fault.active, x.source ≠ id.val) ∧
       (s.time.now + dt < Tbl.get s.fault.healthySince 0 id + 1000000000 →
         exec (.dualRailHealthyExpiry dt id) s = .next (s.elapse dt))) ∧
     (∀ (src : Fin 256) (t0 : Nat), s.tellerUp = true →
       (Tbl.get s.ledger.limits {} (limitKey 0x8003 src)).lastAt = some t0 →
       let l := Tbl.get s.ledger.limits {} (limitKey 0x8003 src)
       (t0 + 10000000000 ≤ s.time.now + dt → ∃ t u, exec (.faultSummaryTimer dt src) s = .next t ∧
         t = u.log 0x8003 [src, l.count, l.aux / 2 ^ 32, l.aux % 2 ^ 32] ∧ Only [.ledger] (s.elapse dt) u ∧
         (Tbl.get u.ledger.limits {} (limitKey 0x8003 src)).lastAt = none) ∧
       (s.time.now + dt < t0 + 10000000000 → exec (.faultSummaryTimer dt src) s = .next (s.elapse dt)))) ∧
  (∀ (s : State) (dt : Nat) (p : Fin 4) (r : Request),
     (InHand s p 0x0A01 r → exec (.healthGet dt p) s =
       .next ((s.begun dt p).answer p r stOk (wordsLE s.healthWords))) ∧
     (∀ first items, InHand s p 0x0A02 r → itemList r 1 255 = .inr (first, items) →
       ((∃ v ∈ items, 4 < v) →
         exec (.faultSeveritySet dt p) s = .next ((s.begun dt p).answer p r stNotSupported Bytes.none)) ∧
       ((∀ v ∈ items, v ≤ 4) → (∃ i v, items[i]? = some v ∧ first + i < 0x10 ∧ v < 3) →
         exec (.faultSeveritySet dt p) s = .next ((s.begun dt p).answer p r stDenied Bytes.none)) ∧
       ((∀ v ∈ items, v ≤ 4) → (∀ i v, items[i]? = some v → first + i < 0x10 → 3 ≤ v) →
         ∃ t, exec (.faultSeveritySet dt p) s = .next t ∧ Only [.fault, .ledger, .mail] (s.elapse dt) t ∧
           (∀ i v, items[i]? = some v →
             Tbl.get t.fault.severity (defaultSeverity (first + i)) (first + i) = v) ∧
           (∀ n, n < first ∨ first + items.length ≤ n →
             Tbl.get t.fault.severity (defaultSeverity n) n = Tbl.get s.fault.severity (defaultSeverity n) n))) ∧
     (∀ l, InHand s p 0x0A03 r → cutList (r.u16 0) (r.u16 2) s.fault.log.length 16 r.room = some l →
       ∃ x, exec (.faultLogGet dt p) s = .next ((s.begun dt p).answer p r stOk x) ∧ Bytes.at x 0 4 = l.length ∧
         ∀ i f, i < l.length → s.fault.log[r.u16 0 + i]? = some f →
           Bytes.at x (4 + 16 * i) 4 = f.msg % 2 ^ 32) ∧
     (InHand s p 0x0A04 r →
       (∀ x, s.fault.safe = some x → x.since + 1000000000 ≤ s.time.now + dt → s.fault.auditorBad = false →
         (∀ a ∈ s.fault.active, isDualRail a.source = false ∧ a.severity < 3) →
         ∃ t, exec (.safeExit dt p) s = .next t ∧ Only [.fault, .mail] (s.elapse dt) t ∧
           t.fault = { s.fault with exit := some (p.val, (s.port p).session) }) ∧
       ((s.fault.safe = none ∨ s.fault.auditorBad = true ∨ (∃ a ∈ s.fault.active, isDualRail a.source = true) ∨
           (∃ a ∈ s.fault.active, 3 ≤ a.severity) ∨
           ∃ x, s.fault.safe = some x ∧ s.time.now + dt < x.since + 1000000000) →
         exec (.safeExit dt p) s = .next ((s.begun dt p).answer p r stDenied Bytes.none))))

/-! ## Lanes and links (09) -/

/-- The capability exchange: block lock begins it with the eight `CAP` blocks, which are sent again until the link is `UP`;
a sound record of a common version and mode is answered with OK and brings the link `UP` once the partner's OK for the same
version stands; one of none leaves the lane incompatible; a lost lock hunts again; blocks of a bad header or an unlisted type,
and those that meet a full elastic buffer, are counted (R221, R223 to R226).

Lanes out of use: a quad whose reference is bad has its lanes `OFF` and its fault active, and they hunt again once it is
good and their domain on; a lane that fails its self-test twice in a row is retired (R215, R238).

It says that these commands complete: `blockLockGained`, `huntTimeout`, `capResend`, `blockLockLost`,
`kinikUnknownBlock`, `cap`, `capAck`, `quadRefFault`, `laneSelftestDone`.

Readings of the model are in it: log entries 8 and 43. -/
def Obligations.CapabilitiesAndLanes : Prop :=
  (∀ (s : State) (dt : Nat) (l : Fin 48), s.windowUp = true → s.links.role l ≠ 4 →
     let x := s.links.lane l
     (x.state = .hunting →
       (∃ t, exec (.blockLockGained dt l) s = .next t ∧ (t.links.lane l).state = .exchange ∧
         (t.links.lane l).ackSent = false ∧ (t.links.lane l).ackRcvd = false ∧ t.out.length = 8 ∧
         Only [.links] (s.elapse dt) t) ∧
       (∃ t, exec (.huntTimeout dt l) s = .next t ∧ Only [.links] (s.elapse dt) t ∧
         t.links.lane l = { x with crResets := (x.crResets + 1) % 2 ^ 32 })) ∧
     (x.state = .exchange ∨ x.state = .incompatible → ∃ t, exec (.capResend dt l) s = .next t ∧ t.out.length = 8 ∧
       Only [] (s.elapse dt) t) ∧
     (x.state = .exchange ∨ x.state = .up ∨ x.state = .incompatible →
       (∃ t, exec (.blockLockLost dt l) s = .next t ∧ (t.links.lane l).state = .hunting ∧
         (t.links.lane l).lockLosses = (x.lockLosses + 1) % 2 ^ 32) ∧
       (∀ type, ∃ t, exec (.kinikUnknownBlock dt l .header type) s = .next t ∧ Only [.links] (s.elapse dt) t ∧
         t.links.lane l = { x with badHeaders := (x.badHeaders + 1) % 2 ^ 32 }) ∧
       (∀ type, ∃ t, exec (.kinikUnknownBlock dt l .overflow type) s = .next t ∧ Only [.links, .src, .ledger] (s.elapse dt) t ∧
         t.links.lane l = { x with overflows := (x.overflows + 1) % 2 ^ 32 } ∧ Tbl.find t.src.kinik l = none) ∧
       (∀ type : Byte, type ≠ 0 → ∃ t, exec (.kinikUnknownBlock dt l .type type) s = .next t ∧
         Only [.links] (s.elapse dt) t ∧ t.links.lane l = { x with unknown := (x.unknown + 1) % 2 ^ 32 }) ∧
       (∀ rec, capSound rec = false → exec (.cap dt l rec) s = .next (s.elapse dt))) ∧
     (∀ rec, x.state = .exchange → capSound rec = true →
       let r := Bytes.slice rec 0 (min rec.len (capLen rec))
       let v := min (capVersionMax r) 0x20
       ((v < capVersionMin r ∨ v < 0x12) ∨ capMode r ≠ roleMode (s.links.role l) ∨
           (s.links.role l ≠ 3 ∧ capSide r = 0) →
         ∃ t, exec (.cap dt l rec) s = .next t ∧ (t.links.lane l).state = .incompatible ∧
           (t.links.lane l).partner = some r) ∧
       (capVersionMin r ≤ v → 0x12 ≤ v → capMode r = roleMode (s.links.role l) →
         (s.links.role l = 3 ∨ capSide r ≠ 0) →
         ∃ t, exec (.cap dt l rec) s = .next t ∧ (t.links.lane l).partner = some r ∧ (t.links.lane l).version = v ∧
           (t.links.lane l).ackSent = true ∧
           (t.links.lane l).state = (if x.ackRcvd = true ∧ x.version = v then .up else .exchange))) ∧
     (∀ (version result : Byte) (crc : Word), x.state = .exchange → crc.toNat = capCrc (s.ownRecord l) →
       (result = 0 → x.ackSent = true → x.version = version.toNat →
         ∃ t, exec (.capAck dt l version result crc) s = .next t ∧ (t.links.lane l).state = .up) ∧
       (result = 0 → x.ackSent = false → ∃ t, exec (.capAck dt l version result crc) s = .next t ∧
         Only [.links] (s.elapse dt) t ∧ t.links.lane l = { x with ackRcvd := true, version := version.toNat }) ∧
       (∀ r, result ≠ 0 → x.partner = some r → ∃ t, exec (.capAck dt l version result crc) s = .next t ∧
         (t.links.lane l).state = .incompatible)) ∧
     (∀ (version result : Byte) (crc : Word), crc.toNat ≠ capCrc (s.ownRecord l) →
       exec (.capAck dt l version result crc) s = .next (s.elapse dt))) ∧
  (∀ (s : State) (dt : Nat),
     (∀ q : Fin 12, s.windowUp = true → s.links.refBad.getLsbD q = false →
       ∃ t, exec (.quadRefFault dt q false) s = .next t ∧ t.links.refBad.getLsbD q = true ∧
         (∀ i : Fin 4, (s.links.lane (4 * q + i)).state ≠ .retired → (t.links.lane (4 * q + i)).state = .off) ∧
         ∃ a ∈ t.fault.active, a.source = 0x030 ∧ a.param = q) ∧
     (∀ q : Fin 12, s.windowUp = true → s.links.refBad.getLsbD q = true →
       ∃ t, exec (.quadRefFault dt q true) s = .next t ∧ t.links.refBad.getLsbD q = false ∧
         ∀ i : Fin 4, (s.links.lane (4 * q + i)).state ≠ .retired → s.links.role (4 * q + i) ≠ 0 →
           (s.domain (laneDomain (4 * q + i))).on = true → (t.links.lane (4 * q + i)).state = .hunting) ∧
     (∀ l : Fin 48, s.tellerUp = true → (s.links.lane l).state = .selftest →
       (∃ t, exec (.laneSelftestDone dt l 0) s = .next t ∧ (t.links.lane l).state = .hunting) ∧
       (∀ n, n ≠ 0 → (s.links.lane l).testFails = 0 → ∃ t, exec (.laneSelftestDone dt l n) s = .next t ∧
         (t.links.lane l).state = .selftest ∧ (t.links.lane l).testFails = 1) ∧
       (∀ n, n ≠ 0 → 1 ≤ (s.links.lane l).testFails → ∃ t, exec (.laneSelftestDone dt l n) s = .next t ∧
         (t.links.lane l).state = .retired ∧ ∃ a ∈ t.fault.active, a.source = 0x031 ∧ a.param = l)))

/-- The messages about lanes: a table that fails its checks is refused and otherwise waits for flash; the tables are read, their
reserved fields zero (R4); a
tuning that is out of range is refused, and one taken changes the words of its lane in force; a board test of a lane in use is
DENIED and its response otherwise held until it ends (R216 to R218, R224, R238).

Ethernet ports: a port's lane follows its link; a setting of a port the table does not have is NO_RESOURCE, one with an
address the port cannot have NOT_SUPPORTED, and another is kept, its membership reports sent again where an address or the
VLAN changed (R65, R236, R237).

It says that these commands complete: `laneTableLoad`, `laneTableGet`, `laneTune`, `laneStatusGet`, `lanePrbs`,
`lanePrbsDone`, `ethPortLink`, `ethPortSet`.

Readings of the model are in it: log entries 10 and 43. -/
def Obligations.LaneAndPortMessages : Prop :=
  (∀ (s : State) (dt : Nat) (p : Fin 4) (r : Request),
     (InHand s p 0x0D01 r → s.power.flash = none →
       (tableFits r.payload = false →
         exec (.laneTableLoad dt p) s = .next ((s.begun dt p).answer p r stNotSupported Bytes.none)) ∧
       (tableFits r.payload = true → ∃ t j, exec (.laneTableLoad dt p) s = .next t ∧ Only [.power, .mail] (s.elapse dt) t ∧
         t.power.flash = some j ∧ j.req = r)) ∧
     (InHand s p 0x0D02 r → ∃ x, exec (.laneTableGet dt p) s = .next ((s.begun dt p).answer p r stOk x) ∧ x.len = 1676 ∧
       Bytes.at x 4 836 = s.links.inForce.toNat - (s.links.inForce.toNat &&& laneTableReserved) ∧
       Bytes.at x 0 4 = b2n (s.links.waiting && s.links.stored.isSome)) ∧
     (InHand s p 0x0D04 r →
       (47 < r.u8 0 ∨ tuneBad (r.u32 4 % 2 ^ 24) = true →
         exec (.laneTune dt p) s = .next ((s.begun dt p).answer p r stNotSupported Bytes.none)) ∧
       (r.u8 0 ≤ 47 → tuneBad (r.u32 4 % 2 ^ 24) = false → ∃ t, exec (.laneTune dt p) s = .next t ∧
         tabWord t.links.inForce (r.u8 0) 1 = r.u32 4 % 2 ^ 24 ∧ tabWord t.links.inForce (r.u8 0) 2 = r.u32 8 % 2 ^ 8 ∧
         tabWord t.links.inForce (r.u8 0) 3 = r.u32 12 % 2 ^ 30 ∧
         (∀ k i, k < 48 → k ≠ r.u8 0 → 1 ≤ i → i ≤ 3 → tabWord t.links.inForce k i = tabWord s.links.inForce k i))) ∧
     (∀ l, InHand s p 0x0D03 r → cutList (r.u16 0) (r.u16 2) 48 96 r.room = some l →
       ∃ t x, exec (.laneStatusGet dt p) s = .next t ∧ Only [.links, .mail] (s.elapse dt) t ∧ x.len = 4 + 96 * l.length ∧
         t.mail = ((s.begun dt p).answer p r stOk x).mail ∧
         ∀ i k, l[i]? = some k → Bytes.at x (4 + 96 * i) 4 = k ∧
           Bytes.at x (4 + 96 * i + 4) 4 = laneCode (s.links.lane k).state) ∧
     (InHand s p 0x0D06 r → r.u8 0 ≤ 47 →
       (s.links.role (r.u8 0) ≠ 0 →
         exec (.lanePrbs dt p) s = .next ((s.begun dt p).answer p r stDenied Bytes.none)) ∧
       (s.links.role (r.u8 0) = 0 → r.u32 4 = 0 →
         exec (.lanePrbs dt p) s = .next ((s.begun dt p).answer p r stOk (leBytes 16 0))) ∧
       (s.links.role (r.u8 0) = 0 → r.u32 4 ≠ 0 → (s.links.lane (r.u8 0)).prbs = none → (s.port p).held.length < 8 →
         ∃ t, exec (.lanePrbs dt p) s = .next t ∧ (t.links.lane (r.u8 0)).prbs = some (p.val, r.tag) ∧
           r ∈ (t.port p).held)) ∧
     (∀ (l : Fin 48) (errors checked : Nat) (q : Nat × Nat), (s.links.lane l).prbs = some q →
       ∃ t u, exec (.lanePrbsDone dt l errors checked) s = .next t ∧ Only [.links] (s.elapse dt) u ∧
         u.links.lane l = { s.links.lane l with prbs := none } ∧
         t = u.release q.1 0x0D06 q.2 stOk (Bytes.cat (leBytes 8 errors) (leBytes 8 checked)))) ∧
  (∀ (s : State) (dt : Nat),
     (∀ (port : Fin 8) (l : Nat), s.windowUp = true → s.links.laneOf 4 port = some l →
       ((s.links.lane l).state = .hunting → ∃ t, exec (.ethPortLink dt port true) s = .next t ∧
         (t.links.lane l).state = .up) ∧
       ((s.links.lane l).state = .up → ∃ t, exec (.ethPortLink dt port false) s = .next t ∧
         (t.links.lane l).state = .hunting ∧ (t.links.lane l).lockLosses = ((s.links.lane l).lockLosses + 1) % 2 ^ 32)) ∧
     (∀ (p : Fin 4) (r : Request), InHand s p 0x0D05 r →
       let v := Bytes.at r.payload 0 72
       let d : EthDesc := BitVec.ofNat 576 (v - (v &&& ethReserved))
       (7 < ethPort d ∨ (s.links.lanesOf 4).length ≤ ethPort d →
         exec (.ethPortSet dt p) s = .next ((s.begun dt p).answer p r stNoResource Bytes.none)) ∧
       (ethPort d ≤ 7 → ethPort d < (s.links.lanesOf 4).length → ethBad d = true →
         exec (.ethPortSet dt p) s = .next ((s.begun dt p).answer p r stNotSupported Bytes.none)) ∧
       (ethPort d ≤ 7 → ethPort d < (s.links.lanesOf 4).length → ethBad d = false →
         ∃ t, exec (.ethPortSet dt p) s = .next t ∧ Only [.links, .src, .mail] (s.elapse dt) t ∧
           t.eth (ethPort d) = { s.eth (ethPort d) with setting := some d } ∧
           ((s.eth (ethPort d)).setting = some d → t.src = s.src))))

/-- Source mode of the Kinik link: a time pair carries the room time under the next tag; a frame is opened, given its time,
its tiles and their CRCs; a tile that is wrong in any way discards the frame; a complete frame is minted for each admitted
source of the lane (R71, R229 to R231).

It says that these commands complete: `timePairSend`, `srcFrameStart`, `srcFrameTime`, `srcTile`, `srcTileCrc`,
`srcFrameEnd`.

A reading of the model is in it: log entry 51. -/
def Obligations.KinikFramesAreAssembled : Prop :=
  ∀ (s : State) (dt : Nat) (l : Fin 48), s.sourceLane l = true →
    (∃ t, exec (.timePairSend dt l) s = .next t ∧ Only [.links] (s.elapse dt) t ∧
      (t.links.lane l).tag = ((s.links.lane l).tag % 256 + 1) % 256 ∧
      (t.links.lane l).pairs.head? = some ((s.links.lane l).tag % 256, (s.elapse dt).time.room) ∧
      (t.links.lane l).pairs.length ≤ 16 ∧ t.out.length = 2) ∧
    (∀ (num : Word) (locked follows : Bool), ∃ t, exec (.srcFrameStart dt l num locked follows) s = .next t ∧
      Only [.src, .ledger] (s.elapse dt) t ∧
      Tbl.find t.src.kinik l = some { num := num.toNat, locked := locked, follows := follows }) ∧
    (∀ (k : KinikFrame) (r : Bytes), Tbl.find s.src.kinik l = some k → (s.links.lane l).partner = some r →
      (∀ (tag : Byte) (offset : Int), k.follows = true →
        (∀ e, (s.links.lane l).pairs.find? (fun e => e.1 == tag.toNat) = some e →
          ∃ t, exec (.srcFrameTime dt l tag offset) s = .next t ∧ Only [.src] (s.elapse dt) t ∧
            Tbl.find t.src.kinik l = some { k with capture := some (twos 64 ((e.2 : Int) + offset)), badTag := false }) ∧
        ((s.links.lane l).pairs.find? (fun e => e.1 == tag.toNat) = none →
          ∃ t, exec (.srcFrameTime dt l tag offset) s = .next t ∧ Only [.src] (s.elapse dt) t ∧
            Tbl.find t.src.kinik l = some { k with capture := none, badTag := true })) ∧
      (∀ (m : SrcTileMsg), let n := tileBlocks (capFormat r)
        let good := m.overflow = false ∧ m.announced = n ∧ m.received = n ∧ m.col < kinikCols r ∧
          m.row < ceilDiv (capHeight r) 32 ∧ m.frameLow = k.num % 256 ∧ k.openTile = none ∧
          (∀ e ∈ k.tiles, e.1 ≠ m.row * kinikCols r + m.col)
        (good → ∃ t, exec (.srcTile dt l m) s = .next t ∧ Only [.src, .mem] (s.elapse dt) t ∧
          Tbl.find t.src.kinik l = some { k with
            tiles := (m.row * kinikCols r + m.col, Bytes.slice m.data 0 (8 * n)) :: k.tiles
            openTile := if 0x20 ≤ (s.links.lane l).version then some (m.row * kinikCols r + m.col) else none }) ∧
        (¬ good → ∃ t, exec (.srcTile dt l m) s = .next t ∧ Tbl.find t.src.kinik l = none)) ∧
      (∀ (i j : Nat) (data : Bytes) (rest : List (Nat × Bytes)) (crc : Word) (frameLow : Byte),
        0x20 ≤ (s.links.lane l).version → k.openTile = some i → k.tiles = (j, data) :: rest →
        (crc32 data = crc.toNat → frameLow.toNat = k.num % 256 →
          ∃ t, exec (.srcTileCrc dt l crc frameLow) s = .next t ∧ Only [.src] (s.elapse dt) t ∧
            Tbl.find t.src.kinik l = some { k with openTile := none }) ∧
        (crc32 data ≠ crc.toNat ∨ frameLow.toNat ≠ k.num % 256 →
          ∃ t, exec (.srcTileCrc dt l crc frameLow) s = .next t ∧ Tbl.find t.src.kinik l = none)) ∧
      (∀ (num : Word) (tiles : Nat), ∃ t, exec (.srcFrameEnd dt l num tiles) s = .next t ∧
        Tbl.find t.src.kinik l = none ∧
        (s.frozenChans = [] → num.toNat = k.num → tiles = kinikTiles r → k.tiles.length = kinikTiles r →
          k.openTile = none → ∀ i ∈ s.kinikSources l, (s.srcRun i).notAdmitted = false →
          (s.kinikSources l).count i = 1 → (t.srcRun i).minted = (s.srcRun i).minted + 1) ∧
        ((s.frozenChans ≠ [] ∨ num.toNat ≠ k.num ∨ tiles ≠ kinikTiles r ∨ k.tiles.length ≠ kinikTiles r ∨
            k.openTile.isSome = true) → t.src.run = s.src.run)))

/-- Delivery between peers: a message received is acknowledged by what it is, and delivered once and in sequence order, one from
behind restarting the sequence (log entry 58); one sent is resent every 100 µs without an answer and lost after three; an acknowledged one leaves, and one that waited goes out in its place; heartbeats
count (R227, R232, R233).

It says that these commands complete: `peerStatusGet`, `peerMsgEnd`, `peerAck`, `peerMsgResend`, `heartbeatSend`.

Readings of the model are in it: log entries 8, 44 and 58. -/
def Obligations.PeersDeliverOnce : Prop :=
  ∀ (s : State) (dt : Nat) (pp : Fin 4),
    (∀ (p : Fin 4) (r : Request) (l : List Nat), InHand s p 0x0C04 r → cutList (r.u16 0) (r.u16 2) 4 32 r.room = some l →
      exec (.peerStatusGet dt p) s = .next ((s.begun dt p).answer p r stOk (listPayload (l.map s.peerRecord)))) ∧
    (∀ (m : PeerMsgIn) (l : Nat), s.peerLane pp = some l → s.peerUp pp = true →
      let q := m.seq % 65536
      (peerSound m = false → exec (.peerMsgEnd dt pp m) s = .next ((s.elapse dt).ackPeer l m.seq 2)) ∧
      (peerSound m = true → ∃ t, exec (.peerMsgEnd dt pp m) s = .next t ∧ Only [.links] (s.elapse dt) t ∧
        t.out = ((s.elapse dt).ackPeer l m.seq (if peerTypeKnown (s.links.lane l).version m.type then 0 else 1)).out ∧
        (q ∈ (s.peer pp).delivered → t.peer pp = s.peer pp) ∧
        (q ∉ (s.peer pp).delivered → (s.peer pp).waiting = [] →
          (∀ n, (s.peer pp).next = some n → n = q ∨ 32768 ≤ subMod 16 q n) →
          t.peer pp = { s.peer pp with
            delivered := (q :: (s.peer pp).delivered).take 64, next := some ((q + 1) % 65536) }) ∧
        (∀ n, q ∉ (s.peer pp).delivered → (s.peer pp).waiting = [] → (s.peer pp).next = some n → n ≠ q → n < 65536 →
          subMod 16 q n < 32768 → t.peer pp = { s.peer pp with waiting := [(q, s.time.now + dt)] }))) ∧
    (∀ (seq : BitVec 16) (result : Byte) (m : PeerTx), s.peerUp pp = true →
      (s.peer pp).outstanding.find? (fun m => m.seq == seq.toNat) = some m →
      (result.toNat < 2 → m.type ≠ 1 → (s.peer pp).queue = [] → ∃ t, exec (.peerAck dt pp seq result) s = .next t ∧
          (t.peer pp).outstanding = (s.peer pp).outstanding.filter (fun n => n.seq != seq.toNat)) ∧
      (2 ≤ result.toNat → exec (.peerAck dt pp seq result) s = .next (s.elapse dt))) ∧
    (∀ (m : PeerTx), s.tellerUp = true →
      (s.peer pp).outstanding.find? (fun m => decide (m.sentAt + 100000 ≤ s.time.now + dt)) = some m →
      (m.resends < 3 → ∃ t, exec (.peerMsgResend dt pp) s = .next t ∧ Only [.links] (s.elapse dt) t ∧
        { m with sentAt := s.time.now + dt, resends := m.resends + 1 } ∈ (t.peer pp).outstanding ∧
        (s.peerUp pp = true → t.out = [Tx.peer pp m.type m.seq m.payload])) ∧
      (3 ≤ m.resends → (s.peer pp).queue = [] → ∃ t, exec (.peerMsgResend dt pp) s = .next t ∧
        (t.peer pp).lost = ((s.peer pp).lost + 1) % 2 ^ 32 ∧
        (t.peer pp).outstanding = (s.peer pp).outstanding.filter (fun n => n.seq != m.seq))) ∧
    (∀ l, s.peerLane pp = some l → s.peerUp pp = true → ∃ t, exec (.heartbeatSend dt pp) s = .next t ∧
      (t.peer pp).hbCount = ((s.peer pp).hbCount + 1) % 2 ^ 32 ∧
      t.out.head? = some (Tx.block l 0x68 (Bytes.join [leBytes 4 (s.peer pp).hbCount,
        leBytes 1 (roleCode s.pair.role), leBytes 1 s.pair.id, leBytes 1 (b2n !s.pair.arbHigh)])))

/-! ## Redundant pairs (15) -/

/-- ARB and the active role: a standby that may drive takes the role once ARB has been high for its take time, 10 ms for a
unit 1 that has not seen it low and 2 ms otherwise, and drives ARB low; a change of level starts the time anew (R335,
R336), and a high of 0.5 ms is a pulse of a reset (R345). The messages about a pair: the configuration waits for flash, the status reads what is in force (R334, R342).

Heartbeats: one on the twin port restores the pair; 8 ms without one is a failure, and mirroring stops; three in a row
from another active unit make unit 1 yield; the active unit pulses ARB three times for a twin that has not been in step for
10 s (R337, R339, R342, R345).

It says that these commands complete: `pairPromote`, `arbLevelChange`, `pairConfigSet`, `pairStatusGet`, `heartbeat`,
`heartbeatFail`, `pairResetSend`.

Readings of the model are in it: log entries 8 and 45. -/
def Obligations.RolesAndHeartbeats : Prop :=
  (∀ (s : State) (dt : Nat),
     (s.tellerUp = true → s.pair.enabled = true → s.pair.role = .standby → s.fault.alive = true → s.inSafe = false →
       let take := if s.pair.id = 1 ∧ s.pair.seenLow = false then 10000000 else 2000000
       (s.pair.arbHigh = true → s.pair.arbSince + take ≤ s.time.now + dt → s.pair.holdOff ≤ s.time.now + dt →
         ∃ t, exec (.pairPromote dt) s = .next t ∧ Only [.pair, .mail, .ledger, .links] (s.elapse dt) t ∧
           t.pair.role = .active ∧ t.pair.driveLow = true ∧ t.pair.takeAt = none) ∧
       (s.pair.arbHigh = false ∨ s.time.now + dt < s.pair.arbSince + take ∨ s.time.now + dt < s.pair.holdOff →
         exec (.pairPromote dt) s = .next (s.elapse dt))) ∧
     (∀ high,
       (s.pair.arbHigh ≠ high → ∃ t, exec (.arbLevelChange dt high) s = .next t ∧ Only [.pair] (s.elapse dt) t ∧
         t.pair.arbHigh = high ∧ t.pair.arbSince = s.time.now + dt ∧ t.pair.role = s.pair.role ∧
         t.pair.driveLow = s.pair.driveLow ∧ (s.pair.enabled = false → t.pair.seenLow = s.pair.seenLow) ∧
         (s.pair.enabled = true → high = false ∨ (s.pair.driveLow = false ∧ s.pair.arbSince + 10000 < s.time.now + dt) →
           t.pair.seenLow = true) ∧
         (s.pair.arbHigh = true → s.pair.arbSince + 450000 ≤ s.time.now + dt → s.time.now + dt ≤ s.pair.arbSince + 550000 →
           s.pair.arbSince ∈ t.pair.arbPulses)) ∧
       (s.pair.arbHigh = high → exec (.arbLevelChange dt high) s = .next (s.elapse dt))) ∧
     (∀ (p : Fin 4) (r : Request),
       (InHand s p 0x0C01 r → s.power.flash = none →
         (1 < r.u8 0 ∨ 3 < r.u8 1 →
           exec (.pairConfigSet dt p) s = .next ((s.begun dt p).answer p r stNotSupported Bytes.none)) ∧
         (r.u8 0 ≤ 1 → r.u8 1 ≤ 3 → ∃ t j, exec (.pairConfigSet dt p) s = .next t ∧ t.power.flash = some j ∧ j.req = r ∧
           t.pair = s.pair)) ∧
       (InHand s p 0x0C02 r → exec (.pairStatusGet dt p) s = .next ((s.begun dt p).answer p r stOk (wordsLE [s.pair.id,
         roleCode s.pair.role, s.pair.port, b2n !s.pair.arbHigh, b2n s.pair.hbFailed, mirrorCode s.pair.mirror]))))) ∧
  (∀ (s : State) (dt : Nat), s.tellerUp = true → s.pair.enabled = true →
     (∀ (pp : Fin 4) (hb : HeartbeatBlock), s.peerUp pp = true → s.pair.port = pp →
       ∃ t, exec (.heartbeat dt pp hb) s = .next t ∧ t.pair.hbLast = some (s.time.now + dt) ∧ t.pair.hbFailed = false ∧
         t.pair.hbCount = hb.count % 2 ^ 32 ∧
         (s.pair.hbLast.isSome = true → s.pair.hbFailed = false → s.pair.role = .active → hb.role = 1 →
           2 ≤ s.pair.dualRun → s.pair.id = 1 → t.pair.role = .standby ∧ t.pair.driveLow = false) ∧
         (s.pair.hbLast.isSome = true → s.pair.hbFailed = false → s.pair.role = .active → hb.role = 1 →
           s.pair.dualRun < 2 ∨ s.pair.id ≠ 1 → t.pair.role = .active ∧ t.pair.dualRun = s.pair.dualRun + 1)) ∧
     (∀ (pp : Fin 4) (hb : HeartbeatBlock), s.pair.port ≠ pp → exec (.heartbeat dt pp hb) s = .next (s.elapse dt)) ∧
     (s.power.started = true → s.pair.hbFailed = false →
       (s.pair.hbLast.getD s.power.resetAt + 8000000 ≤ s.time.now + dt → ∃ t, exec (.heartbeatFail dt) s = .next t ∧
         t.pair.hbFailed = true ∧ t.pair.hbFailedAt = s.time.now + dt ∧ t.pair.mirror = .stopped ∧ t.pair.dualRun = 0 ∧
         (s.pair.role = .active ∨ s.pair.arbHigh = false → ∃ a ∈ t.fault.active, a.source = 0x032)) ∧
       (s.time.now + dt < s.pair.hbLast.getD s.power.resetAt + 8000000 →
         exec (.heartbeatFail dt) s = .next (s.elapse dt))) ∧
     (s.pair.role = .active → s.pair.hbLast.isSome = true → s.pair.hbFailed = false → s.pair.mirror ≠ .inStep →
       (max s.pair.mirrorSince (s.pair.pulsesAt.getD 0) + 10000000000 ≤ s.time.now + dt →
         ∃ t, exec (.pairResetSend dt) s = .next t ∧ t.out = [Tx.arbPulse, Tx.arbPulse, Tx.arbPulse] ∧
           t.pair = { s.pair with pulsesAt := some (s.time.now + dt) } ∧ Only [.pair, .ledger] (s.elapse dt) t) ∧
       (s.time.now + dt < max s.pair.mirrorSince (s.pair.pulsesAt.getD 0) + 10000000000 →
         exec (.pairResetSend dt) s = .next (s.elapse dt))))

/-- The manual switch: it is asked of the active unit of a pair in step; the twin answers what it can do; the active unit
releases ARB 200 µs before the frame and holds off for 100 ms; the twin takes it 100 µs before the frame if it reads high; a
refusal, 2 ms without an answer, or 100 ms without the twin active, ends it (R344).

It says that these commands complete: `pairSwitch`, `pairHandover`, `pairHandoverAck`, `pairHandoverTimeout`,
`pairHandoverRelease`, `pairSwitchConfirmExpiry`, `pairHandoverTake`.

Readings of the model are in it: log entries 8, 10 and 45. -/
def Obligations.TheSwitchIsHandedOver : Prop :=
  ∀ (s : State) (dt : Nat),
    (∀ (p : Fin 4) (r : Request), InHand s p 0x0C03 r →
      (s.pair.switch.isSome = true ∨ 8 ≤ (s.port p).held.length →
        exec (.pairSwitch dt p) s = .next ((s.begun dt p).answer p r stBusy Bytes.none)) ∧
      (s.pair.switch = none → (s.port p).held.length < 8 → r.u8 0 = 1 →
        (s.pair.enabled = false ∨ s.pair.role ≠ .active ∨ s.pair.mirror ≠ .inStep →
          exec (.pairSwitch dt p) s = .next ((s.begun dt p).answer p r stDenied Bytes.none)) ∧
        (s.pair.enabled = true → s.pair.role = .active → s.pair.mirror = .inStep →
          ∃ t, exec (.pairSwitch dt p) s = .next t ∧ r ∈ (t.port p).held ∧ t.pair = { s.pair with switch := some {
            tf := s.time.clock.after ((s.elapse dt).time.room + 9999999) % 2 ^ 64, startedAt := s.time.now + dt,
            port := p, tag := r.tag } }))) ∧
    (∀ tf mseq, s.twinTalks = true →
      let ready := s.pair.role = .standby ∧ s.pair.mirror = .inStep ∧ s.pair.mseq = mseq % 2 ^ 32 ∧ s.inSafe = false
      ∃ t res, exec (.pairHandover dt tf mseq) s = .next t ∧ Only [.pair, .links] (s.elapse dt) t ∧
        (ready → res = 0 ∧ t.pair = { s.pair with takeAt := some (tf % 2 ^ 64) }) ∧
        (¬ ready → res ≠ 0 ∧ t.pair = s.pair) ∧
        t.links = ((s.elapse dt).sendPeer s.pair.port 0x0029 (Bytes.join [leBytes 8 tf, leBytes 1 res])).links) ∧
    (∀ w : Switch, s.pair.switch = some w →
      (s.twinTalks = true → w.ready = false →
        (exec (.pairHandoverAck dt w.tf 0) s =
          .next { s.elapse dt with pair := { s.pair with switch := some { w with ready := true } } }) ∧
        (∀ res, res ≠ 0 → ∃ t, exec (.pairHandoverAck dt w.tf res) s = .next t ∧
          t.pair = { s.pair with switch := none })) ∧
      (s.tellerUp = true → w.ready = false → w.startedAt + 2000000 ≤ s.time.now + dt →
        ∃ t, exec (.pairHandoverTimeout dt) s = .next t ∧ t.pair = { s.pair with switch := none }) ∧
      (s.time.now + dt < w.startedAt + 2000000 → exec (.pairHandoverTimeout dt) s = .next (s.elapse dt)) ∧
      (s.tellerUp = true → w.ready = true → w.released = false → s.pair.role = .active →
        w.tf ≤ (s.elapse dt).time.room + 200000 → ∃ t, exec (.pairHandoverRelease dt) s = .next t ∧
          t.pair.role = .standby ∧ t.pair.driveLow = false ∧ t.pair.switch = some { w with released := true } ∧
          t.pair.holdOff = s.time.now + dt + 100000000) ∧
      (s.tellerUp = true → w.ready = true → w.tf + 100000000 ≤ (s.elapse dt).time.room →
        ∃ t, exec (.pairSwitchConfirmExpiry dt) s = .next t ∧ t.pair = { s.pair with switch := none }) ∧
      ((s.elapse dt).time.room < w.tf + 100000000 →
        exec (.pairSwitchConfirmExpiry dt) s = .next (s.elapse dt))) ∧
    (∀ tf, s.pair.takeAt = some tf →
      (tf ≤ (s.elapse dt).time.room + 100000 → s.mayDrive = true → s.pair.arbHigh = true →
        ∃ t, exec (.pairHandoverTake dt) s = .next t ∧ t.pair.role = .active ∧ t.pair.driveLow = true) ∧
      (tf ≤ (s.elapse dt).time.room + 100000 → s.mayDrive = false ∨ s.pair.arbHigh = false →
        exec (.pairHandoverTake dt) s = .next { s.elapse dt with pair := { s.pair with takeAt := none } }) ∧
      ((s.elapse dt).time.room + 100000 < tf → exec (.pairHandoverTake dt) s = .next (s.elapse dt)))

/-- Mirroring on a standby in step: the next mirror sequence is applied, in the order sent, one already applied is passed
over, and a gap makes it catch up; a write of several messages takes effect at its last; what comes while a mirrored commit is
pending waits behind it (R340 to R343).

Catching up: the active unit answers a request with a snapshot; the standby collects the items of one mirror sequence, and
at its end is in step where the CRC of both sets holds, and asks again where it does not (R342).

It says that these commands complete: `mirrorWrite`, `mirrorSettle`, `mirrorSetting`, `mirrorKeys`, `mirrorLedger`,
`mirrorSyncReq`, `mirrorSnapshot`, `mirrorSnapshotEnd`.

Readings of the model are in it: log entries 8 and 46. -/
def Obligations.MirroringKeepsPairsInStep : Prop :=
  (∀ (s : State) (dt : Nat), s.mirrorHere = true → s.pair.mirror = .inStep →
     let n := (s.pair.mseq + 1) % 2 ^ 32
     (∀ (k : SetKind) (first count : Nat) (b : Bytes), itemsExist k first count b = true →
       let items := (upTo count).map (fun i => Bytes.at b (i * kindSize k) (kindSize k))
       (∃ t, exec (.mirrorWrite dt k first count n true b) s = .next t ∧ Only [.pair] (s.elapse dt) t ∧
         t.pair.mseq = n ∧ t.pair.parts.length = s.pair.parts.length + count) ∧
       (s.sets.pending = none → s.pair.later = [] → s.pair.parts = [] →
         ∃ t, exec (.mirrorWrite dt k first count n false b) s = .next t ∧ t.pair.mseq = n ∧
           t.sets = { s.sets with
             shadow := each ((upTo count).zip items) s.sets.shadow (fun c e => c.write k (first + e.1) e.2) }) ∧
       (s.sets.pending.isSome = true → s.pair.parts = [] →
         ∃ t, exec (.mirrorWrite dt k first count n false b) s = .next t ∧ t.sets = s.sets ∧
           t.pair.later.length = s.pair.later.length + count) ∧
       (∀ m more, m < 2 ^ 32 → m ≠ n → subMod 32 s.pair.mseq m < 2 ^ 31 →
         exec (.mirrorWrite dt k first count m more b) s = .next (s.elapse dt)) ∧
       (∀ m more, m < 2 ^ 32 → m ≠ n → 2 ^ 31 ≤ subMod 32 s.pair.mseq m → s.pair.incompatible = false →
         ∃ t, exec (.mirrorWrite dt k first count m more b) s = .next t ∧ t.pair.mirror = .catchingUp ∧
           t.sets = s.sets)) ∧
     (∀ (seq : Nat) (g : Fin 16) (swap : Bool) (frameTime : Nat), s.sets.pending = none → s.pair.later = [] →
       let u := { s.elapse dt with pair := { s.pair with mseq := n } }
       (u.clear s.sets.shadow = none → ∃ t c, exec (.mirrorSettle dt seq g swap n frameTime) s = .next t ∧
         Only [.sets, .pair] (s.elapse dt) t ∧ t.sets.pending = some c ∧ c.seq = seq % 2 ^ 32 ∧ c.group = g ∧
         c.swap = swap ∧ c.req = none ∧ t.sets.active = s.sets.active) ∧
       (u.clear s.sets.shadow ≠ none → ∃ t, exec (.mirrorSettle dt seq g swap n frameTime) s = .next t ∧
         t.pair.mirror = .stopped ∧ t.sets = s.sets)) ∧
     (∃ t, exec (.mirrorSetting dt 2 0 n Bytes.none) s = .next t ∧ t.pair.mseq = n ∧
       (s.sets.pending = none → s.pair.later = [] → t.sets = { s.sets with shadow := s.sets.active })) ∧
     (∀ (g : Fin 16) (b : Bytes), s.sets.pending = none → s.pair.later = [] →
       s.groupCheck g (groupKept (Bytes.at b 0 16)) = none →
       ∃ t, exec (.mirrorSetting dt 0 g n b) s = .next t ∧ t.group g = groupKept (Bytes.at b 0 16)) ∧
     (∀ (g : Fin 8) (b : Bytes), keyCheck (b.bits 896) = none → ∃ t, exec (.mirrorSetting dt 1 g n b) s = .next t ∧
       (t.keyGroup g).nextSetting = some (BitVec.ofNat 896 (b.val - (b.val &&& keyReserved)))) ∧
     (∀ (g : Fin 8) (multi : Bool) (field : BitVec 128), ∃ t, exec (.mirrorKeys dt g multi n field) s = .next t ∧
       Only [.pair] (s.elapse dt) t ∧ Tbl.find t.pair.keys g = some (field, multi) ∧ t.pair.mseq = n) ∧
     (∀ b : BitVec 256, ∃ t, exec (.mirrorLedger dt [b]) s = .next t ∧ Only [.ledger] (s.elapse dt) t ∧
       ∃ e ∈ t.ledger.ring, e.2.mirrored = true ∧ e.2.code = (LedgerRec.ofBits b).code ∧ e.2.origin = 3)) ∧
  (∀ (s : State) (dt : Nat),
     (∀ last, s.twinTalks = true → s.pair.role = .active → s.pair.incompatible = false →
       ∃ t, exec (.mirrorSyncReq dt last) s = .next t ∧ t.pair.mirror = .catchingUp ∧ t.sets = s.sets) ∧
     (s.mirrorHere = true → s.pair.mirror = .catchingUp →
       (∀ (shadow : Bool) (k : SetKind) (first count mseq : Nat) (b : Bytes), itemsExist k first count b = true →
         mseq < 2 ^ 32 → ∃ t y, exec (.mirrorSnapshot dt shadow k first count mseq b) s = .next t ∧
           Only [.pair] (s.elapse dt) t ∧ t.pair = { s.pair with snapshot := some y } ∧ y.mseq = mseq ∧
           (∀ x, s.pair.snapshot = some x → x.mseq = mseq →
             (shadow = true → y.active = x.active) ∧ (shadow = false → y.shadow = x.shadow))) ∧
       (∀ (x : Snapshot) (crc : Word), s.pair.snapshot = some x → x.mseq < 2 ^ 32 →
         (crc32 (snapshotBytes x.active x.shadow) = crc.toNat → s.sets.pending = none → x.active = s.sets.active →
           ∃ t, exec (.mirrorSnapshotEnd dt x.mseq crc) s = .next t ∧ t.pair.mirror = .inStep ∧ t.pair.mseq = x.mseq ∧
             t.sets = { s.sets with shadow := x.shadow }) ∧
         (crc32 (snapshotBytes x.active x.shadow) ≠ crc.toNat → ∃ t, exec (.mirrorSnapshotEnd dt x.mseq crc) s = .next t ∧
           t.pair.mirror = .catchingUp ∧ t.pair.snapshot = none ∧ t.sets = s.sets))))

/-! ## The memory system (10) -/

/-- Refresh is postponed in panic for four intervals and no more; a readout above 85 °C doubles a rank's refresh, also against
a pin at 1×; a retraining pause is deferred in panic for at most 500 ms; the requests that wait are each served once, one beyond
its bound in the class above, none before one of a class ahead that may go, and those of a master to a line in their order (R243
to R247). Panic is as the queues and the push buffers stand at that time.

Self-refresh: the channels in use enter it once every consumer tolerates it, and leave it unless the power state holds
memory off; training brings every populated channel that passes into service at the smallest geometry, and retires one that
fails; the content of DRAM is kept while the map is the one by which it was laid (R240, R249, R250; log entry 58).

It says that these commands complete: `refreshDue`, `mr4Readout`, `retrainPause`, `requestPromotion`,
`selfRefreshEntry`, `selfRefreshExit`, `memTrainingDone`.

Readings of the model are in it: log entries 8, 51 and 58. -/
def Obligations.RefreshTrainingAndSleep : Prop :=
  (∀ (s : State) (dt : Nat) (c : Fin 8), let x := s.chan c
     let u := (s.elapse dt).lookPushes
     (∀ rank : Fin 2, s.windowUp = true → x.uses rank = true →
       let k : RankSt := Tbl.get x.ranks {} rank
       ∃ t, exec (.refreshDue dt c rank) s = .next t ∧ Only [.mem, .panels] (s.elapse dt) t ∧
         (u.mem.panicFrom.isSome = true → k.postponed < 4 →
           (Tbl.get (t.chan c).ranks {} rank).postponed = k.postponed + 1 ∧ (t.chan c).compat = x.compat) ∧
         (u.mem.panicFrom = none → (Tbl.get (t.chan c).ranks {} rank).postponed = 0 ∧
           (x.state = .run → (t.chan c).compat = (memCompat s.mem.pol).testBit c)) ∧
         (u.mem.panicFrom.isSome = true → 4 ≤ k.postponed →
           (Tbl.get (t.chan c).ranks {} rank).postponed = k.postponed)) ∧
     (∀ (rank : Fin 2) (temp : Int), s.windowUp = true → x.uses rank = true →
       ∃ t, exec (.mr4Readout dt c rank temp) s = .next t ∧ (Tbl.get (t.chan c).ranks {} rank).temp = temp ∧
         (85 < temp → (Tbl.get (t.chan c).ranks {} rank).doubled = true) ∧
         (memRefreshHi s.mem.pol = 1 → memRefreshLo s.mem.pol ≠ 2 → temp ≤ 85 →
           (Tbl.get (t.chan c).ranks {} rank).doubled = false)) ∧
     (s.windowUp = true → x.state = .run → x.fixed = false →
       (x.pauseDue = true ∨ x.lastPause + x.interval * 1000000 ≤ s.time.now + dt →
         (u.mem.panicFrom.isSome = true → s.time.now + dt < x.lastPause + 500000000 →
           exec (.retrainPause dt c) s = .next (u.setChan c { x with pauseDue := true })) ∧
         (u.mem.panicFrom = none ∨ x.lastPause + 500000000 ≤ s.time.now + dt →
           ∃ t, exec (.retrainPause dt c) s = .next t ∧ (t.chan c).pauses = (x.pauses + 1) % 2 ^ 32 ∧
             (t.chan c).lastPause = s.time.now + dt ∧ (t.chan c).pauseDue = false ∧
             (memRetrainLo s.mem.pol ≤ memRetrainHi s.mem.pol → (t.chan c).interval ≤ 500))) ∧
       (x.pauseDue = false → s.time.now + dt < x.lastPause + x.interval * 1000000 →
         exec (.retrainPause dt c) s = .next u)) ∧
     (∀ reqs : List MemReq, s.windowUp = true → x.state = .run →
       let panic := u.mem.panicFrom.isSome
       let due := if panic then reqs else reqs.map promoteReq
       let plain (q : MemReq) : MemReq := { q with passed := 0 }
       ∃ t, exec (.requestPromotion dt c reqs) s = .next t ∧ Only [.mem, .panels] (s.elapse dt) t ∧
         ((t.chan c).queue.map plain).Perm (due.map plain) ∧
         (∀ y rest, (t.chan c).queue = y :: rest → ∀ q ∈ due, reqFollows due q = false → reqRank panic y ≤ reqRank panic q) ∧
         (∀ before y between z after, (t.chan c).queue = before ++ y :: between ++ z :: after → y.master = z.master →
           y.line = z.line → z.age ≤ y.age)) ∧
     (∀ q : MemReq, q.promoted = false →
       ((promoteReq q).promoted = true ↔ (q.master.cls = .iso ∧ 2000 < q.age) ∨ (q.master.cls = .be ∧ 20000 < q.age)) ∧
       (q.master.cls = .rt → reqRank false q = 0) ∧ (q.master.cls = .iso → reqRank false q = 2 ∧
         reqRank false { q with promoted := true } = 0 ∧ reqRank true { q with promoted := true } = 1) ∧
       (q.master.cls = .be → reqRank false q = 3 ∧ reqRank false { q with promoted := true } = 2))) ∧
  (∀ (s : State) (dt : Nat),
     (s.windowUp = true → s.mem.selfRefresh = false → (s.elapse dt).tolerant = true →
       ∃ t, exec (.selfRefreshEntry dt) s = .next t ∧ Only [.mem] (s.elapse dt) t ∧ t.mem.selfRefresh = true ∧
         t.mem.dram = s.mem.dram ∧ t.mem.policy = s.mem.policy) ∧
     ((s.elapse dt).tolerant = false → exec (.selfRefreshEntry dt) s = .next (s.elapse dt)) ∧
     (s.windowUp = true → s.mem.selfRefresh = true → s.dramAsleep = false →
       ∃ t, exec (.selfRefreshExit dt) s = .next t ∧ Only [.mem] (s.elapse dt) t ∧ t.mem.selfRefresh = false ∧
         t.mem.dram = s.mem.dram ∧ t.mem.lastReq = s.time.now + dt) ∧
     (∀ res : TrainingResult, s.tellerUp = true → s.power.step = 5 → (s.domain 14).on = true →
       (s.chan 0).state = .training →
       ∃ t, exec (.memTrainingDone dt res) s = .next t ∧ t.mem.selfRefresh = false ∧
         (res.populated.getLsbD 0 = false → (t.chan 0).state = .absent) ∧
         (res.populated.getLsbD 0 = true → res.passed.getLsbD 0 = false → (t.chan 0).state = .retired) ∧
         (res.populated.getLsbD 0 = true → res.passed.getLsbD 0 = true → (t.chan 0).state = .run ∧
           (t.chan 0).rate = res.rate ∧ (t.chan 0).sizeMiB ≤ 8192 ∧
           ∀ d : Fin 8, res.populated.getLsbD d = true → (t.chan 0).sizeMiB ≤ geometryMib (res.geom.getD d ⟨0, 0⟩)) ∧
         t.mem.laid = t.mem.inService ∧ (s.mem.laid = t.mem.inService → t.mem.dram = s.mem.dram) ∧
         (s.mem.laid ≠ t.mem.inService → t.mem.dram = [])))

/-- An uncorrectable error or a parity alert freezes a channel, with its last 64 commands captured; in compatibility mode it
is counted and error-completed for the request that met it, or replayed up to three times; a frozen channel resumes after a test that passed, with the lines named written to
zero, or awaits its remap after a failed one, a third freeze in 10 minutes or a row that could not be repaired; the remap
retires it, moves the vault regions with the Teller region and voids every tile (R252 to R255, R355; the move is DEDUCED, log
entry 58).

Scrubbing: a correction is counted in its channel and hour, and the third of a row within 24 h takes a repair; the count of
an hour beyond its limit is reported, at most once in an hour; an uncorrectable error of SRAM is a fault of its block, and one
of the tile book voids its tile (R251, R256, R258).

It says that these commands complete: `memFreeze`, `memParityReplay`, `memResume`, `memRemap`, `patrolScrub`,
`ceHourCheck`, `sramScrub`.

Readings of the model are in it: log entries 8, 13, 51 and 58. -/
def Obligations.FreezesAndScrubs : Prop :=
  (∀ (s : State) (dt : Nat) (c : Fin 8), s.tellerUp = true → let x := s.chan c
     (∀ (cause : FreezeCause) (addr : Nat) (asker : Requester), x.state = .run → x.compat = false →
       cause ≠ .replayExhausted → ∃ t, exec (.memFreeze dt c cause ⟨addr, asker⟩) s = .next t ∧ (t.chan c).state = .frozen ∧
         (t.chan c).freezes = (x.freezes + 1) % 2 ^ 32 ∧ (t.chan c).queue = [] ∧ (t.chan c).capture.length = 64 ∧
         (t.chan c).frozenAt = s.time.now + dt ∧ (∀ d, d ≠ c.val → t.chan d = s.chan d) ∧
         ∃ a ∈ t.fault.active, a.source = 0x020 ∧ a.param = c) ∧
     (∀ addr asker, x.state = .run → x.compat = true → ∃ t, exec (.memFreeze dt c .uncorrectable ⟨addr, asker⟩) s = .next t ∧
       t.chan c = { x with uncorrectable := (x.uncorrectable + 1) % 2 ^ 32 } ∧
       (∀ p, asker = .hostRead p → Tx.readData p 0 true ∈ t.out) ∧
       (∀ o tile, asker = .scanOut o tile → o < 32 → s.sets.active.shows o = true → tile < outTiles o (s.outSet o) →
         (t.tile o tile).fault = true ∧ tile ∈ (t.outComp o).marks)) ∧
     (∀ alerts, x.state = .run → x.compat = true →
       (alerts < 4 → ∃ t, exec (.memParityReplay dt c alerts) s = .next t ∧ Only [.mem, .ledger] (s.elapse dt) t ∧
         t.chan c = { x with replays := (x.replays + 1) % 2 ^ 32 }) ∧
       (4 ≤ alerts → ∃ t, exec (.memParityReplay dt c alerts) s = .next t ∧ (t.chan c).state = .frozen)) ∧
     (∀ (ok : Bool) (lines : List Nat), x.state = .frozen → s.mem.remapDue = none →
       (ok = true → (x.recentFreezes (s.time.now + dt)).length < 3 → x.repairShort = false →
         ∃ t, exec (.memResume dt c ok lines) s = .next t ∧ (t.chan c).state = .run ∧ t.mem.remapDue = none ∧
           ∀ a ∈ lines, a % 64 = 0 → (s.mem.locate a).map (·.1) = some c.val → ∀ i, i < 64 →
             Memory.read t.mem.dram (a + i) = 0) ∧
       (ok = false ∨ 3 ≤ (x.recentFreezes (s.time.now + dt)).length ∨ x.repairShort = true →
         ∃ t, exec (.memResume dt c ok lines) s = .next t ∧ (t.chan c).state = .frozen ∧
           t.mem.remapDue = some c.val ∧ ∃ a ∈ t.fault.active, a.source = 0x023 ∧ a.param = c)) ∧
     (s.mem.remapDue = some c.val → ∃ t, exec (.memRemap dt c) s = .next t ∧ (t.chan c).state = .retired ∧
       t.mem.remapDue = none ∧ t.mem.dram = [] ∧ t.mem.laid = t.mem.inService ∧
       t.sec.vault = Tbl.mapAll s.sec.vault 0 (fun _ v => vaultMoved s.mem.tellerBase t.mem.tellerBase v) ∧
       ∀ o tile, o < 32 → s.sets.active.shows o = true → tile < outTiles o (s.outSet o) → tile < 16384 →
         (t.tile o tile).fault = true ∧ tile ∈ (t.outComp o).marks)) ∧
  (∀ (s : State) (dt : Nat) (c : Fin 8), s.tellerUp = true → let x := s.chan c
     (∀ rank bg bank row, x.state = .run →
       let hits := (Tbl.get x.rowHits [] (rowKey rank bg bank row)).filter
         (fun t => decide (s.time.now + dt < t + 86400000000000))
       let g := 8 * (rank % 2) + bg % 8
       ∃ t, exec (.patrolScrub dt c [.corrected rank bg bank row]) s = .next t ∧
         (t.chan c).corrections = (x.corrections + 1) % 2 ^ 32 ∧
         (t.chan c).corrTimes = x.hourTimes (s.time.now + dt) ++ [s.time.now + dt] ∧
         (hits.length < 2 → (t.chan c).repairsUsed = x.repairsUsed) ∧
         (2 ≤ hits.length → 0 < s.repairsIn c g →
           Tbl.get (t.chan c).repairsUsed 0 g = Tbl.get x.repairsUsed 0 g + 1) ∧
         (2 ≤ hits.length → s.repairsIn c g = 0 → (t.chan c).repairShort = true ∧
           ∃ a ∈ t.fault.active, a.source = 0x025 ∧ a.param = c)) ∧
     (∀ addr, x.state = .run → x.compat = false → ∃ t, exec (.patrolScrub dt c [.uncorrectable addr]) s = .next t ∧
       (t.chan c).state = .frozen ∧ (t.chan c).uncorrectable = (x.uncorrectable + 1) % 2 ^ 32) ∧
     (let n := (x.hourTimes (s.time.now + dt)).length
      (memCeLimit s.mem.pol < n → (∀ t0, x.ceAt = some t0 → t0 + 3600000000000 ≤ s.time.now + dt) →
         ∃ t, exec (.ceHourCheck dt c) s = .next t ∧ t.chan c = { x with ceAt := some (s.time.now + dt) }) ∧
       (n ≤ memCeLimit s.mem.pol ∨ (∃ t0, x.ceAt = some t0 ∧ s.time.now + dt < t0 + 3600000000000) →
         exec (.ceHourCheck dt c) s = .next (s.elapse dt))) ∧
     (∀ (block : SramBlock) (unit : Nat), ∃ t, exec (.sramScrub dt block (some unit)) s = .next t ∧
       t.fault.log.getLast?.map (fun f => (f.msg % 256, f.msg / 65536)) = some (0x028, sramIndex block) ∧
       (block = .tileBook → unit < 32 * 16384 → s.sets.active.shows (unit / 16384) = true →
         unit % 16384 < outTiles (unit / 16384) (s.outSet (unit / 16384)) →
         (t.tile (unit / 16384) (unit % 16384)).fault = true)) ∧
     (∀ block, exec (.sramScrub dt block none) s = .next (s.elapse dt)))

/-- The messages about memory: a status read begins a channel's panic time anew; a policy that fails its checks changes
nothing, and one taken acts at once but for the regions, which wait for a reset; delays that fail are refused and otherwise
wait for flash; a freeze dump is at most 14 entries (R244, R248, R253, R260).

It says that these commands complete: `memStatusGet`, `memPolicySet`, `memFixedDelaysSet`, `memFreezeDumpGet`.

Readings of the model are in it: log entries 10 and 11. -/
def Obligations.MemoryMessages : Prop :=
  ∀ (s : State) (dt : Nat) (p : Fin 4) (r : Request),
    (∀ l, InHand s p 0x0E01 r → r.u8 0 = 0 → cutList (r.u16 2) (r.u16 4) 8 56 r.room = some l →
      ∃ t, exec (.memStatusGet dt p) s = .next t ∧ Only [.mem, .mail] (s.elapse dt) t ∧
        ∀ c, t.chan c = if c ∈ l then { s.chan c with panicRead := (s.elapse dt).panicNow } else s.chan c) ∧
    (∀ l, InHand s p 0x0E01 r → r.u8 0 = 1 → cutList (r.u16 2) (r.u16 4) 6 20 r.room = some l →
      exec (.memStatusGet dt p) s = .next ((s.begun dt p).answer p r stOk (listPayload (l.map s.regionRecord)))) ∧
    (InHand s p 0x0E02 r →
      let v := Bytes.at r.payload 0 16
      let m : BitVec 128 := BitVec.ofNat 128 (v - (v &&& sumOf [wordMask 1 15 12, wordMask 1 7 4, wordMask 3 31 16]))
      (∀ st, s.policyCheck m = some st →
        exec (.memPolicySet dt p) s = .next ((s.begun dt p).answer p r st Bytes.none)) ∧
      (s.policyCheck m = none → ∃ t, exec (.memPolicySet dt p) s = .next t ∧
        Only [.mem, .mail, .ledger, .fault] (s.elapse dt) t ∧ t.mem.pol = m ∧ t.mem.regionWord = s.mem.regionWord ∧
        t.mem.dram = s.mem.dram ∧
        (∀ c : Fin 8, (s.chan c).alive = true → (s.chan c).fixed = false → (t.chan c).interval =
          max (retrainWindow m).1 (min (retrainWindow m).2 (s.chan c).interval)) ∧
        (∀ c : Fin 8, (s.chan c).alive = false → t.chan c = s.chan c))) ∧
    (InHand s p 0x0E03 r → s.power.flash = none →
      (7 < r.u8 0 ∨ 16 < r.u8 1 →
        exec (.memFixedDelaysSet dt p) s = .next ((s.begun dt p).answer p r stNotSupported Bytes.none)) ∧
      (r.u8 0 ≤ 7 → r.u8 1 ≤ 16 → r.length ≠ 4 + 32 * r.u8 1 →
        exec (.memFixedDelaysSet dt p) s = .next ((s.begun dt p).answer p r stBadLength Bytes.none)) ∧
      (r.u8 0 ≤ 7 → r.u8 1 ≤ 16 → r.length = 4 + 32 * r.u8 1 →
        rising ((upTo (r.u8 1)).map (fun i => signed 8 (r.u8 (4 + 32 * i)))) = true →
        ∃ t j, exec (.memFixedDelaysSet dt p) s = .next t ∧ t.power.flash = some j ∧ j.req = r ∧ t.mem = s.mem)) ∧
    (InHand s p 0x0E04 r → r.u8 0 ≤ 7 → r.u8 1 = 0 ∨ r.u8 1 < (s.chan (r.u8 0)).capture.length →
      ∃ x, exec (.memFreezeDumpGet dt p) s = .next ((s.begun dt p).answer p r stOk x) ∧ x.len = 4 + 16 * Bytes.at x 3 1 ∧
        Bytes.at x 3 1 ≤ 14 ∧ Bytes.at x 0 1 = r.u8 0 ∧ Bytes.at x 1 1 = chanCode (s.chan (r.u8 0)).state)
end

