-- ==== Sys2Proof/Laws/Crc.lean ====
section
/-!
SUPPORT. Laws of the CRCs: their range, and a fold over halves whose register is a numeral at every half, so that the kernel
can evaluate a CRC over thousands of bytes.
-/
namespace Sys2Proof.Machine

/-- `f n`, with `n` evaluated first. -/
def forced (n : Nat) (f : Nat → Nat) : Nat :=
  match n with
  | 0 => f 0
  | k + 1 => f (k + 1)

theorem forced_eq (n : Nat) (f : Nat → Nat) : forced n f = f n := by cases n <;> rfl

/-- The register after `n` bytes from `off`, half by half. -/
def crcSpan (width poly : Nat) (refIn : Bool) (byte : Nat → Nat) : Nat → Nat → Nat → Nat → Nat
  | 0, off, n, reg => if n = 0 then reg else crcByte width poly refIn reg (byte off)
  | f + 1, off, n, reg =>
    if n < 2 then (if n = 0 then reg else crcByte width poly refIn reg (byte off))
    else forced (crcSpan width poly refIn byte f off (n / 2) reg)
      (fun x => crcSpan width poly refIn byte f (off + n / 2) (n - n / 2) x)

theorem crcSpan_eq (width poly : Nat) (refIn : Bool) (byte : Nat → Nat) (f : Nat) :
    ∀ off n reg, n ≤ 2 ^ f →
      crcSpan width poly refIn byte f off n reg = crcFeed width poly refIn reg ((List.range' off n).map byte) := by
  induction f with
  | zero =>
    intro off n reg h
    have : n = 0 ∨ n = 1 := by simp at h; omega
    rcases this with rfl | rfl <;> simp [crcSpan, crcFeed, List.range'_succ]
  | succ f ih =>
    intro off n reg h
    rw [Nat.pow_succ] at h
    simp only [crcSpan]
    split
    · have : n = 0 ∨ n = 1 := by omega
      rcases this with rfl | rfl <;> simp [crcFeed, List.range'_succ]
    · rw [forced_eq, ih _ _ _ (by omega), ih _ _ _ (by omega)]
      have e : List.range' off n = List.range' off (n / 2) ++ List.range' (off + n / 2) (n - n / 2) := by
        rw [List.range'_append_1]; congr 1; omega
      rw [e, List.map_append, crcFeed, crcFeed, crcFeed, List.foldl_append]

/-- The CRC of R115, half by half. -/
theorem crc32_span (b : Bytes) (f : Nat) (h : b.len ≤ 2 ^ f) :
    crc32 b = crcFinal 32 true true (crcSpan 32 0x04C11DB7 true (Bytes.byte b) f 0 b.len 0xFFFFFFFF) := by
  rw [crcSpan_eq _ _ _ _ _ _ _ _ h, ← List.range_eq_range']; rfl

theorem revBits_lt (n x : Nat) : revBits n x < 2 ^ n := by
  induction n generalizing x with
  | zero => simp [revBits]
  | succ n ih =>
    have h := ih (x / 2)
    have : x % 2 < 2 := Nat.mod_lt _ (by decide)
    simp only [revBits, Nat.shiftLeft_eq, Nat.pow_succ]
    have : x % 2 * 2 ^ n ≤ 2 ^ n := by
      calc x % 2 * 2 ^ n ≤ 1 * 2 ^ n := Nat.mul_le_mul_right _ (by omega)
        _ = 2 ^ n := Nat.one_mul _
    omega

/-- A CRC is a 32-bit number. -/
theorem crc32_lt (b : Bytes) : crc32 b < 2 ^ 32 := by
  simp only [crc32, crcFinal, if_true]
  exact Nat.xor_lt_two_pow (revBits_lt _ _) (by decide)

/-- A CRC goes through a word unchanged. -/
theorem crc32_word (b : Bytes) : (BitVec.ofNat 32 (crc32 b)).toNat = crc32 b := by
  simpa using Nat.mod_eq_of_lt (crc32_lt b)

/-- So does the CRC a record carries. -/
theorem capCrc_word (r : Bytes) : (BitVec.ofNat 32 (capCrc r)).toNat = capCrc r := by
  have : capCrc r < 2 ^ 32 := Nat.mod_lt _ (by decide)
  simpa using Nat.mod_eq_of_lt this

/-- The next word is another number. -/
theorem word_next_ne (x : BitVec 32) {n : Nat} (h : x.toNat = n) : (x + 1).toNat ≠ n := by
  subst h; bv_omega

end Sys2Proof.Machine
end

