-- ==== Sys2Proof/WellFormed.lean ====
section
/-!
DEFINITION. Which commands the interface can carry: every operand within the width that the spec gives its field. The
meanings are defined on every command, well formed or not (log entry 7).
-/
namespace Sys2Proof

/-- A byte string whose value fits its length. -/
def Bytes.wf (b : Bytes) : Bool := decide (b.val < 2 ^ (8 * b.len))

/-- A request payload in a buffer is at most 16 MiB (R268); BAR 2 is 64 GiB, aligned to its size (R391). -/
def DescRead.wf (d : DescRead) : Bool :=
  d.payload.all (fun b => b.wf && decide (b.len ≤ 16777216)) && d.bar2 % 2 ^ 36 == 0 && decide (d.bar2 < 2 ^ 64)

/-- An access of at least one byte within a 64-bit address space, with no more data than its length. -/
def MemAccess.wf (a : MemAccess) : Bool :=
  decide (0 < a.len) && decide (a.addr + a.len ≤ 2 ^ 64) && decide (a.data < 2 ^ (8 * a.len))

/-- Width of an OTP field (R350). -/
def OtpField.bits : OtpField → Nat
  | .prodHash => 384 | .devHash => 384 | .provKey => 256 | .debugKey => 256 | .secVersion => 32

/-- The times of `TIME_SYNC` have 64 bits (Table 9-7). -/
def TimeSyncMsg.wf (m : TimeSyncMsg) : Bool :=
  decide (m.t1 < 2 ^ 64) && decide (m.t2 < 2 ^ 64) && decide (m.t3 < 2 ^ 64)

/-- The fields of an RTP header. -/
def RtpPacket.wf (k : RtpPacket) : Bool :=
  decide (k.payloadType < 128) && decide (k.seq < 65536) && decide (k.ts < 2 ^ 32) && decide (k.ssrc < 2 ^ 32)
    && k.ntp64.all (fun n => decide (n < 2 ^ 64))

/-- An SSRC of 32 bits and an SRTCP index of 31 (RFC 3711). -/
def RtcpHead.wf (h : RtcpHead) : Bool := decide (h.ssrc < 2 ^ 32) && decide (h.index < 2 ^ 31)

/-- The versions of IGMP are 1 to 3, those of MLD 1 and 2; addresses have 128 bits. -/
def MembershipQuery.wf (q : MembershipQuery) : Bool :=
  decide (1 ≤ q.version ∧ q.version ≤ (if q.mld then 2 else 3)) && decide (q.group < 2 ^ 128)
    && q.sources.all (fun a => decide (a < 2 ^ 128))

def EthBody.wf (b : EthBody) : Bool :=
  match b with
  | .rtp k => k.wf
  | .rtcpSr h ntp ts => h.wf && decide (ntp < 2 ^ 64) && decide (ts < 2 ^ 32)
  | .rtcpBye h => h.wf
  | .rtcpOther h => h.wf
  | .arpRequest a => decide (a < 2 ^ 128)
  | .neighbourSolicit a => decide (a < 2 ^ 128)
  | .membershipQuery q => q.wf
  | .icmpEcho => true
  | .other => true

/-- Addresses of 128 bits, ports of 16, a VLAN of 12. -/
def EthPacket.wf (k : EthPacket) : Bool :=
  decide (k.src < 2 ^ 128) && decide (k.dst < 2 ^ 128) && decide (k.udpDst < 65536) && decide (k.udpSrc < 65536)
    && k.vlan.all (fun v => decide (v < 4096)) && k.body.wf

/-- The fields of `ECHO` (Table 6-5). -/
def EchoBlock.wf (b : EchoBlock) : Bool :=
  decide (b.crc < 2 ^ 32) && decide (b.frameLow < 4096) && decide (b.row < 128)

/-- The NAL units of a picture (R206): a slice of every row at either quantiser, and a skip slice of at most 16 bytes. -/
def RowCosts.wf (c : RowCosts) : Bool :=
  c.atTarget.length == c.atCeil.length && c.atTarget.length == c.skip.length
    && (c.recovery :: c.params ++ c.atTarget ++ c.atCeil ++ c.skip).all Bytes.wf && c.skip.all (fun b => decide (b.len ≤ 16))

/-- A request names a line of 64 bytes, and at most 8 younger ones pass it (R243). -/
def MemReq.wf (q : MemReq) : Bool := q.line % 64 == 0 && decide (q.line < 2 ^ 36) && decide (q.passed ≤ 8)

/-- Tiles of 32 outputs. -/
def Requester.wf (q : Requester) : Bool :=
  match q with
  | .scanOut o t => decide (o < 32) && decide (t < 16384)
  | .composition o t => decide (o < 32) && decide (t < 16384)
  | _ => true

/-- A row lies in one of 4 banks of one of 8 bank groups of one of 2 ranks. -/
def ScrubFinding.wf (f : ScrubFinding) : Bool :=
  match f with
  | .corrected r g b _ => decide (r < 2) && decide (g < 8) && decide (b < 4)
  | .met r g b _ => decide (r < 2) && decide (g < 8) && decide (b < 4)
  | .uncorrectable a => decide (a < 2 ^ 36)

/-- Channels hold one or two ranks of 8 Gb or 16 Gb devices (R240). -/
def Geometry.wf (g : Geometry) : Bool := decide (g.ranks = 1 ∨ g.ranks = 2) && decide (g.gbit = 8 ∨ g.gbit = 16)

/-- Every operand of a command fits its field. -/
def Instr.wf (c : Instr) : Bool :=
  match c with
  | .sessionOpen .. | .sessionClose .. | .deviceInfoGet .. | .deviceReset .. | .firmwareStage ..
  | .firmwareStatusGet .. | .sourceSet .. | .sourceStatusGet .. | .surfaceSet .. | .surfacePublish ..
  | .sourceParamsSet .. | .decodeRestart .. | .roomTimeConfig .. | .roomTimeStatus .. | .roomTimeStepBack ..
  | .decodeStatusGet .. | .layerSet .. | .layerStripe .. | .toneProfileSet .. | .composeStatusGet ..
  | .tileRecordGet .. | .outputSet .. | .outputStatusGet .. | .outputEventsSet .. | .panelInitSet .. | .commit ..
  | .commitStatusGet .. | .commitCancel .. | .commitGroupSet .. | .roomCommit .. | .setCopy .. | .setRead ..
  | .freshPolicySet .. | .freshStatusGet .. | .freshProofRun .. | .encodeSet .. | .encodeStatusGet ..
  | .encodeRefresh .. | .keyGroupSet .. | .keyStateGet .. | .keyReferenceStore .. | .keyRawGet .. | .ledgerInfoGet ..
  | .ledgerRead .. | .ledgerNote .. | .healthGet .. | .faultSeveritySet .. | .faultLogGet .. | .safeExit ..
  | .powerStateSet .. | .powerStatusGet .. | .loopEnvelopeSet .. | .wakeSourcesSet .. | .pairConfigSet ..
  | .pairStatusGet .. | .pairSwitch .. | .peerStatusGet .. | .laneTableLoad .. | .laneTableGet .. | .laneStatusGet ..
  | .laneTune .. | .ethPortSet .. | .lanePrbs .. | .memStatusGet .. | .memPolicySet .. | .memFixedDelaysSet ..
  | .memFreezeDumpGet .. | .lifecycleGet .. | .lifecycleSet .. | .vaultKeyLoad .. | .vaultRegionSet ..
  | .mpuSetWrite .. | .mpuSwap .. | .mpuStatusGet .. | .debugUnlock .. | .tallyRun .. | .tallyStatusGet ..
  | .tallyContextSave .. | .tallyContextRestore .. | .unknownOpcode .. | .reqBell .. => true
  | .requestTaken _ desc => desc.all DescRead.wf
  | .respBell .. | .responsePosted .. | .evqRd .. | .latchingRead .. => true
  | .registerWrite _ _ off data => decide (0 < data.len) && decide (off.toNat + data.len ≤ 65536) && data.wf
  | .spiInvalidTransaction .. => true
  | .hostMemoryAccess _ _ acc => acc.wf
  | .debugMemoryAccess _ _ acc => acc.wf
  | .tellerHaltRequest .. => true
  | .otpProgram _ field value => decide (value < 2 ^ field.bits)
  | .otpRead .. | .extest .. | .intest .. | .bypass .. | .idcode .. | .sample .. => true
  | .ptpMessageReceived _ _ msg => decide (msg.domain < 256) && decide (msg.transport < 256)
  | .ptpSyncTimeout .. | .genlockInEdge .. | .genlockLoss .. => true
  | .timeSync _ _ msg => msg.wf
  | .roomFrameStart .. => true
  | .ethPacketReceived _ _ pkt => pkt.wf
  | .ethPortLink .. | .membershipReportRepeat .. | .rtcpRrSend .. | .jitterDeadline .. | .ssrcChanged ..
  | .sourceLossTimeout .. | .decodePictureDone .. | .decodeRateWindow .. | .damageSummaryPeriod .. | .summaryEnd ..
  | .decoderCoreFault .. | .surfaceReleased .. | .clearingComplete .. | .stagingComplete .. | .settlementLine ..
  | .roundComplete .. | .headFrameStart .. | .headLineStart .. | .voidEpisodeEnd .. => true
  | .scanoutUnderrun _ _ _ pixel => decide (pixel < 4096)
  | .tileCrcVerdict _ _ tile _ => decide (tile < 16384)
  | .headUnlocked .. => true
  | .echo _ _ blk => blk.wf
  | .echoDeadline .. | .teTaken .. | .teLost .. | .pushComplete .. | .pushWindowExpiry .. | .panelAckReceived ..
  | .btaTimeout .. | .lpContention .. | .panelSequenceWait .. | .panelStartRetry .. => true
  | .keyScan _ _ raws => decide (raws.length = 24)
  | .keyHeld .. | .keyStuck .. | .keyRateStep .. => true
  | .encodeCaptureComplete _ e => e.bad.all (fun t => decide (t < 16384))
  | .encodePictureCoded _ _ costs => costs.wf
  | .encodePacketSend .. | .encodeSrSend .. | .blockLockGained .. | .blockLockLost .. | .huntTimeout .. => true
  | .cap _ _ rec => decide (32 ≤ rec.len) && rec.wf
  | .capAck .. | .capResend .. | .timePairSend .. | .srcFrameStart .. | .srcFrameTime .. => true
  | .srcTile _ _ tile => tile.data.wf && decide (tile.frameLow < 256)
  | .srcTileCrc .. | .srcFrameEnd .. | .kinikUnknownBlock .. | .heartbeatSend .. => true
  | .heartbeat _ _ hb => decide (hb.count < 2 ^ 32) && decide (hb.role < 3)
  | .heartbeatFail .. | .peerAck .. | .peerMsgResend .. => true
  | .roomPrepare _ _ roomId _ num den phase =>
    decide (roomId < 65536) && decide (num < 65536) && decide (den < 65536) && decide (phase < 2 ^ 64)
  | .roomPrepared _ _ roomId result commitSeq =>
    decide (roomId < 65536) && decide (result < 256) && decide (commitSeq < 2 ^ 32)
  | .roomPrepareTimeout .. => true
  | .roomVoteReq _ _ roomId tf => decide (roomId < 65536) && decide (tf < 2 ^ 64)
  | .roomVotePoint .. => true
  | .roomVote _ _ roomId _ tf => decide (roomId < 65536) && decide (tf < 2 ^ 64)
  | .roomDecisionPoint .. => true
  | .roomDecide _ _ roomId _ defers tf => decide (roomId < 65536) && decide (defers < 256) && decide (tf < 2 ^ 64)
  | .roomDone _ _ roomId frameTime commitSeq =>
    decide (roomId < 65536) && decide (frameTime < 2 ^ 64) && decide (commitSeq < 2 ^ 32)
  | .roomQuery _ _ roomId tf => decide (roomId < 65536) && decide (tf < 2 ^ 64)
  | .roomInDoubtTimeout .. | .roomDoneWaitExpiry .. | .pairPromote .. => true
  | .pairHandover _ tf mirrorSeq => decide (tf < 2 ^ 64) && decide (mirrorSeq < 2 ^ 32)
  | .pairHandoverAck _ tf result => decide (tf < 2 ^ 64) && decide (result < 256)
  | .pairHandoverTimeout .. | .pairHandoverRelease .. | .pairHandoverTake .. | .pairSwitchConfirmExpiry ..
  | .pairResetSend .. => true
  | .mirrorWrite _ _ first count mseq _ items =>
    decide (first < 65536) && decide (count < 65536) && decide (mseq < 2 ^ 32) && items.wf
  | .mirrorSettle _ commitSeq _ _ mseq frameTime =>
    decide (commitSeq < 2 ^ 32) && decide (mseq < 2 ^ 32) && decide (frameTime < 2 ^ 64)
  | .mirrorSetting _ item index mseq payload =>
    decide (item < 256) && decide (index < 256) && decide (mseq < 2 ^ 32) && payload.wf
  | .mirrorKeys _ _ _ mseq _ => decide (mseq < 2 ^ 32)
  | .mirrorLedger _ recs => decide (0 < recs.length) && decide (recs.length ≤ 8)
  | .mirrorSyncReq _ last => decide (last < 2 ^ 32)
  | .mirrorSnapshot _ _ _ first count mseq items =>
    decide (first < 65536) && decide (count < 65536) && decide (mseq < 2 ^ 32) && items.wf
  | .mirrorSnapshotEnd _ mseq _ => decide (mseq < 2 ^ 32)
  | .quadRefFault .. | .laneSelftestDone .. => true
  | .lanePrbsDone _ _ errors checked => decide (errors ≤ checked) && decide (checked < 2 ^ 64)
  | .refreshDue .. | .mr4Readout .. | .retrainPause .. => true
  | .requestPromotion _ _ reqs => reqs.all MemReq.wf
  | .memFreeze _ _ _ req => decide (req.addr < 2 ^ 36) && req.asker.wf
  | .memParityReplay .. => true
  | .memResume _ _ _ linesZeroed => linesZeroed.all (fun a => a % 64 == 0)
  | .memRemap .. => true
  | .patrolScrub _ _ found => found.all ScrubFinding.wf
  | .ceHourCheck .. | .selfRefreshEntry .. | .selfRefreshExit .. => true
  | .memTrainingDone _ res => decide (res.geom.length = 8) && res.geom.all Geometry.wf && decide (res.rate < 65536)
  | .sramScrub .. | .dualRailChange .. | .dualRailHealthyExpiry .. | .faultMessageReceived .. | .faultSummaryTimer ..
  | .voltageLoopStep .. | .thermalLoopStep .. | .tamperTrip .. | .mpuNoticeClose .. | .epochDrained ..
  | .tallyJobDone .. | .configScrub .. | .ledgerSpill .. | .optimeMark .. | .wakeEvent .. | .powerTransitionDone ..
  | .domainPowerUp .. | .domainPowerDown .. | .powerOnReset .. | .pinReset .. | .watchdogReset .. | .auditorReset ..
  | .pairReset .. | .warmReset .. | .domainReset .. | .startComplete .. | .perstRise ..
  | .flashWriteComplete .. => true
  | .peerMsgEnd _ _ msg => decide (msg.type < 65536) && decide (msg.length < 65536) && decide (msg.seq < 65536)
      && decide (msg.endSeq < 65536) && msg.data.wf
  | .arbLevelChange .. | .thermalTripHoldRelease .. | .tamperHoldRelease .. | .timeSyncSend ..
  | .vaultRegionRewriteDone .. => true

end Sys2Proof
end

