-- ==== Sys2Proof/Tests/Slice0.lean ====
section
/-!
SUPPORT. Tests of the model, in three parts. The witnesses: for every obligation with premises, states and operands that meet
the premises of each of its clauses, most at a boundary. Worked examples of the spec, on the functions that compute them.
Ill-formed commands, which `Instr.wf` refuses.
-/

namespace Sys2Proof.Tests
open Sys2Proof.Machine Host
set_option Elab.async false

/-! ## States the witnesses are built from -/

/-- The block once a start has completed. -/
def up : State := { State.reset with power := { State.reset.power with step := 7, started := true } }

/-- A request of a session 1 with an inline payload. -/
def req (op len payload : Nat) : Request := { opcode := op, length := len, session := 1, payload := ⟨len, payload⟩ }

/-- A state with a request in hand on a port. -/
def ask (s : State) (p : Nat) (r : Request) : State := s.setPort p { s.port p with inHand := some r }

/-- A state after a change of one of its parts. -/
def withTime (s : State) (f : TimeSt → TimeSt) : State := { s with time := f s.time }
def withLedger (s : State) (f : LedgerSt → LedgerSt) : State := { s with ledger := f s.ledger }
def withSets (s : State) (f : SetsSt → SetsSt) : State := { s with sets := f s.sets }
def withComp (s : State) (f : ComposeSt → ComposeSt) : State := { s with comp := f s.comp }
def withSrc (s : State) (f : SourcesSt → SourcesSt) : State := { s with src := f s.src }
def withLinks (s : State) (f : LinksSt → LinksSt) : State := { s with links := f s.links }
def withPair (s : State) (f : PairSt → PairSt) : State := { s with pair := f s.pair }
def withMem (s : State) (f : MemSt → MemSt) : State := { s with mem := f s.mem }
def withFault (s : State) (f : FaultSt → FaultSt) : State := { s with fault := f s.fault }
def withSec (s : State) (f : SecSt → SecSt) : State := { s with sec := f s.sec }
def withPower (s : State) (f : PowerSt → PowerSt) : State := { s with power := f s.power }
def withPort (s : State) (p : Nat) (f : PortSt → PortSt) : State := s.setPort p (f (s.port p))

/-- A request put in hand is in hand. -/
theorem ask_inHand {s : State} {p op : Nat} {r : Request} (h : r.opcode = op) (u : s.tellerUp = true) :
    InHand (ask s p r) p op r :=
  ⟨by simp [ask], h, u⟩

/-- A block with one command waiting. -/
def oneWaiting : State := { up with pending := [.bypass 5] }
/-- A port with a response waiting and slot 0 free, the others full. -/
def portWaiting : State := withPort up 1 (fun q => { q with respBell := 0xFE, waiting := [{ tag := 3 }] })
/-- A port with slot 7 alone free, none waiting. -/
def portLast : State := withPort up 1 (fun q => { q with respBell := 0x7F })
/-- A port whose response slots are all full. -/
def portFull : State := withPort up 3 (fun q => { q with respBell := 0xFF })
/-- A block whose last port, the turn being past it, rang slot 7. -/
def portRung : State := withPort up 3 (fun q => { q with ring := [7], reqBell := 0x80 })
/-- A session at version 2.6 on host A's port, on the supervisor's. -/
def inSession : State := withPort up 0 (fun q => { q with session := 1, major := 2, minor := 6 })
def supSession : State := withPort up 2 (fun q => { q with session := 1, major := 2, minor := 6 })
/-- The same session with one place of its event queue free. -/
def queueAlmostFull : State := withPort up 0 (fun q => { q with session := 1, major := 2, evWr := 1021, evRd := 1023 })
/-- The same session after three events were lost at a full queue. -/
def queueLost : State := withPort up 0 (fun q => { q with
  session := 1, major := 2, evWr := 1019, evRd := 1020, evSeq := 8, evLost := some (3, 5, 2 ^ 33 + 1) })
/-- The same session with all 1,023 places of its event queue taken. -/
def queueFull : State := withPort up 0 (fun q => { q with session := 1, major := 2, evWr := 1022, evRd := 1023 })
/-- A request of 240 bytes in session 1 at version 2.6, the longest inline. -/
def inline240 (op : Nat) : Request := { major := 2, minor := 6, opcode := op, length := 240, session := 1, payload := ⟨240, 0⟩ }
/-- A request with a descriptor. -/
def byDesc (len : Nat) : Request := { major := 2, minor := 6, opcode := 0x0201, length := len, session := 1, respCap := some 0 }
/-- A `SESSION_OPEN` that offers 2.1 to 2.9, one that offers majors up to 9, and one that offers 4 and above. -/
def openV2 : Request := req 0x0001 4 0x00020902
def openV3 : Request := req 0x0001 4 0x00030109
def openV4 : Request := req 0x0001 4 0x00040009
/-- The debug port with its session open. -/
def debugSession : State := withPort up 3 (fun q => { q with session := 1, major := 2 })
/-- A part in RETIRED, in FIELD. -/
def retired : State := withSec up (fun x => { x with lifecycle := .retired })
def inField : State := withSec up (fun x => { x with lifecycle := .field })
/-- A part with an OTP field written. -/
def otpWritten : State := withSec up (fun x => { x with otp := [(0, 5)] })
/-- A debug session open, so that the open set is live. -/
def debugOpen : State := withSec up (fun x => { x with dbg := { x.dbg with openSince := some 0 } })
/-- A block whose eight channels of 4 GiB run, in the lifecycle FIELD, host A's live set granting the first 4 KiB. -/
def dramUp : State :=
  { inField with
    mem := { inField.mem with chans := (List.range 8).map (fun c => (c, { state := .run, sizeMiB := 4096, rate := 6400 })) }
    power := { inField.power with domains := (List.range 26).map (fun d => (d, { on := true })) }
    sec := { inField.sec with mpu := [(0, { regions := [(0, BitVec.ofNat 128 (0x30C * 2 ^ 64))] })] } }
/-- The same with an enabled vault region of 64 KiB at the base of the Teller region. -/
def vaultUp : State :=
  { dramUp with sec := { dramUp.sec with vault := [(0, BitVec.ofNat 160 (1 + 31 * 2 ^ 62 + 2 ^ 112))] } }
/-- The same part in MANUFACTURE, where the debug port's open set is live. -/
def labUp : State := { dramUp with sec := { dramUp.sec with lifecycle := .manufacture } }
/-- The last byte host A may reach, the first it may not, and both in one access. -/
def lastByte : MemAccess := ⟨4095, 1, true, 0xAB⟩
def firstOutside : MemAccess := ⟨4096, 1, true, 0xAB⟩
def acrossEnd : MemAccess := ⟨4095, 2, false, 0⟩
def lastByteRead : MemAccess := ⟨4095, 1, false, 0⟩
def vaultWrite : MemAccess := ⟨31 * 2 ^ 30, 64, true, 1⟩
def vaultRead : MemAccess := ⟨31 * 2 ^ 30, 64, false, 0⟩
/-- A flash write in progress: an image staged by port 0; any other message. -/
def flashImage : State := withPower up (fun x => { x with flash := some ⟨0, req 0x0103 0 0, none⟩ })
def flashOther : State := withPower up (fun x => { x with flash := some ⟨1, req 0x0203 0 0, none⟩ })
/-- Three debug unlocks have failed; a challenge waits for its answer. -/
def unlockSpent : State := withSec up (fun x => { x with dbg := { x.dbg with failures := 3 } })
def challenged : State := withSec up (fun x => { x with dbg := { x.dbg with challenge := some 0 } })
def hmacWrong : Request := req 0x0F08 36 (1 + 2 ^ 32)
/-- The Vault is locked; the keys are destroyed. -/
def vaultLocked : State := withSec up (fun x => { x with vaultLocked := true })
/-- `VAULT_REGION_SET` of region 7: disabled; of 64 KiB at the last place below the key area; one of 32 KiB. -/
def regionOff : Request := req 0x0F04 24 (7 + 2 ^ 16)
def regionLast : Request := req 0x0F04 24 (7 + 2 ^ 16 + 2 ^ 32 * (1 + (2 ^ 35 - 2 ^ 26 - 2 ^ 16) * 2 ^ 32 + 2 ^ 112))
def regionSmall : Request := req 0x0F04 24 (7 + 2 ^ 16 + 2 ^ 32 * (1 + (2 ^ 35 - 2 ^ 26 - 2 ^ 16) * 2 ^ 32 + 2 ^ 111))
/-- `MPU_SET_WRITE` of one region by host A: region 31 of set 1 with the entry given. -/
def mpuWrite (g set x : Nat) : Request := req 0x0F05 20 (g + set * 2 ^ 8 + 31 * 2 ^ 16 + 2 ^ 24 + x * 2 ^ 32)
/-- A notice that opened at 0. -/
def noticeOpen : State := withSec up (fun x => { x with mpu := [(8, { noticeOpen := some { count := 1 } })] })
/-- Catalogue rows: `LEDGER_NOTE`, which version 2.6 does not carry; `SOURCE_SET`, which the supervisor may not send. -/
def noteRow : OpRow := ⟨0x0903, 3, 2, portsABS, .fixed 16, 0, false, false, false⟩
def sourceRow : OpRow := ⟨0x0201, 2, 0, portsAB, .items 64, 0, true, false, false⟩
/-- Requests that fail one check each: too long, without a session, of another session, of another version. -/
def tooLong : Request := { inline240 0x0201 with length := 241 }
def noSession : Request := { inline240 0x0201 with session := 0 }
def otherSession : Request := { inline240 0x0201 with session := 2 }
def otherVersion : Request := { inline240 0x0201 with minor := 5 }
/-- Index 1022 of an event queue. -/
def lastIndex : BitVec 10 := 1022
/-- The first and last offsets of the request slots; a misaligned offset; the read and another command of SPI. -/
def slotFirst : BitVec 16 := 0x1000
def slotLast : BitVec 16 := 0x17FF
def offset2 : BitVec 16 := 2
def offset0 : BitVec 16 := 0
def spiRead : Byte := 0x02
def spiOther : Byte := 0x03
/-- Bytes a register write carries. -/
def word4 : Bytes := ⟨4, 0xFFFFFFFF⟩
def bytes1 : Bytes := ⟨1, 0xFF⟩
def bytes8 : Bytes := ⟨8, 0x1FF⟩
/-- Accesses of the debug port: a line, and two bytes across a line's end, written and read. -/
def lineWrite : MemAccess := ⟨0, 64, true, 1⟩
def twoWrite : MemAccess := ⟨63, 2, true, 0x0102⟩
def twoRead : MemAccess := ⟨63, 2, false, 0⟩
def imageJob : FlashJob := ⟨0, req 0x0103 0 0, none⟩
def otherJob : FlashJob := ⟨1, req 0x0203 0 0, none⟩
def openedNotice : Notice := { count := 1 }
/-- A response that waits. -/
def waitingResponse : Response := { tag := 3 }

/-- Premises of `Obligations.RunsNeverStop`, clause by clause. -/
theorem witness_RunsNeverStop_1 :
    up.pending = [] ∧ oneWaiting.pending = [Instr.bypass 5] :=
  by decide +kernel

/-- Premises of `Obligations.StepKeepsMemoryForm`, clause by clause. -/
theorem witness_StepKeepsMemoryForm_1 :
    Memory.wf up.mem.dram = true ∧ step up = Outcome.next up :=
  ⟨by decide +kernel, rfl⟩

/-- Premises of `Obligations.WhatNeverGoesBack`, clause by clause. -/
theorem witness_WhatNeverGoesBack_1 :
    otpWritten.sec.otp.find 0 = some 5 ∧ step up = Outcome.next up ∧ step otpWritten = Outcome.next otpWritten :=
  ⟨by decide +kernel, rfl, rfl⟩

/-- Premises of `Obligations.DoorbellsAndResponses`, clause by clause. -/
theorem witness_DoorbellsAndResponses_1 :
    up.windowUp = true ∧ portFull.windowUp = true ∧ portWaiting.windowUp = true ∧ (portWaiting.port 0).waiting = [] ∧
    ({} : Response).toDevice = none ∧ (portWaiting.port 0).respBell.getLsbD 0 = false ∧
    (portLast.port 1).waiting = [] ∧ (portLast.port 1).respBell.getLsbD 7 = false ∧
    ((portFull.port 3).respBell = 255 ∨ (portFull.port 3).waiting ≠ [] ∨ ({} : Response).toDevice.isSome = true) ∧
    ((portWaiting.port 1).respBell = 255 ∨ (portWaiting.port 1).waiting ≠ [] ∨ ({} : Response).toDevice.isSome =
      true) :=
  by decide +kernel

/-- Premises of `Obligations.DoorbellsAndResponses`, clause by clause. -/
theorem witness_DoorbellsAndResponses_2 :
    (portWaiting.port 1).waiting = [waitingResponse] ∧ (portWaiting.port 1).respBell.getLsbD 0 = false ∧
    (∀ (j : Fin 8), j < 0 → (portWaiting.port 1).respBell.getLsbD ↑j = true) :=
  by decide +kernel

/-- Premises of `Obligations.RequestsAreTakenAndChecked`, clause by clause. -/
theorem witness_RequestsAreTakenAndChecked_1 :
    portRung.tellerUp = true ∧ 4 ≤ portRung.power.step ∧ portRung.nextPort = some 3 ∧ (portRung.port 3).ring = [7] ∧
    portRung.mayTake ((portRung.mail.turn + 3) % 4) = true ∧
    (∀ (j : Fin 4), j < 3 → portRung.mayTake ((portRung.mail.turn + ↑j) % 4) = false) ∧ portRung.windowUp = true ∧
    (byDesc 0).opcode ≠ 1 ∧ (byDesc 0).respCap.isSome = true ∧ 2 ≤ 2 :=
  by decide +kernel

/-- Premises of `Obligations.RequestsAreTakenAndChecked`, clause by clause. -/
theorem witness_RequestsAreTakenAndChecked_2 :
    tooLong.opcode ≠ 1 ∧ tooLong.respCap = none ∧ 240 < tooLong.length ∧ (byDesc 16777217).opcode ≠ 1 ∧ 1 < 2 ∧
    (byDesc 16777217).respCap.isSome = true ∧ 16777216 < (byDesc 16777217).length ∧ noSession.opcode ≠ 1 ∧
    noSession.respCap = none ∧ noSession.length ≤ 240 ∧
    (noSession.session = 0 ∨ noSession.session ≠ (inSession.port 0).session) :=
  by decide +kernel

/-- Premises of `Obligations.RequestsAreTakenAndChecked`, clause by clause. -/
theorem witness_RequestsAreTakenAndChecked_3 :
    otherSession.opcode ≠ 1 ∧ otherSession.respCap = none ∧ otherSession.length ≤ 240 ∧
    (otherSession.session = 0 ∨ otherSession.session ≠ (inSession.port 0).session) ∧ otherVersion.opcode ≠ 1 ∧
    otherVersion.respCap = none ∧ otherVersion.length ≤ 240 ∧ otherVersion.session ≠ 0 ∧
    otherVersion.session = (inSession.port 0).session ∧
    (otherVersion.major ≠ (inSession.port 0).major ∨ otherVersion.minor ≠ (inSession.port 0).minor) :=
  by decide +kernel

/-- Premises of `Obligations.RequestsAreTakenAndChecked`, clause by clause. -/
theorem witness_RequestsAreTakenAndChecked_4 :
    (inline240 2307).opcode ≠ 1 ∧ (inline240 2307).respCap = none ∧ (inline240 2307).length ≤ 240 ∧
    (inline240 2307).session ≠ 0 ∧ (inline240 2307).session = (inSession.port 0).session ∧
    (inline240 2307).major = (inSession.port 0).major ∧ (inline240 2307).minor = (inSession.port 0).minor ∧
    opRow (inline240 2307).opcode = some noteRow ∧
    noteRow.carriedAt (inline240 2307).major (inline240 2307).minor = false ∧ (inline240 513).opcode ≠ 1 ∧
    (inline240 513).respCap = none ∧ (inline240 513).length ≤ 240 ∧ (inline240 513).session ≠ 0 ∧
    (inline240 513).session = (supSession.port 2).session ∧ (inline240 513).major = (supSession.port 2).major ∧
    (inline240 513).minor = (supSession.port 2).minor ∧ opRow (inline240 513).opcode = some sourceRow ∧
    sourceRow.carriedAt (inline240 513).major (inline240 513).minor = true ∧ sourceRow.ports.testBit 2 = false :=
  by decide +kernel

/-- Premises of `Obligations.RequestsAreTakenAndChecked`, clause by clause. -/
theorem witness_RequestsAreTakenAndChecked_5 :
    ((ask inSession 3 (req 65535 0 0)).port 3).inHand = some (req 65535 0 0) ∧ opRow (req 65535 0 0).opcode = none :=
  by decide +kernel

/-- Premises of `Obligations.SessionsOpenAndClose`, clause by clause. -/
theorem witness_SessionsOpenAndClose_1 :
    (agreedMajor (openV2.u8 2) (openV2.u8 0) = some 2 ∧ agreedMajor (openV3.u8 2) (openV3.u8 0) = some 3 ∧
    agreedMajor (openV4.u8 2) (openV4.u8 0) = none ∧ ((ask inSession 0 (req 2 0 0)).port 0).session ≠ 0 ∧
    ((ask debugSession 3 (req 2 0 0)).port 3).session ≠ 0) ∧ InHand (ask inSession 0 openV2) (0) 1 openV2 ∧
    InHand (ask inSession 0 openV3) (0) 1 openV3 ∧ InHand (ask inSession 0 openV4) (0) 1 openV4 ∧
    InHand (ask inSession 0 (req 2 0 0)) (0) 2 (req 2 0 0) ∧
    InHand (ask debugSession 3 (req 2 0 0)) (3) 2 (req 2 0 0) :=
  ⟨by decide +kernel, ask_inHand rfl rfl, ask_inHand rfl rfl, ask_inHand rfl rfl, ask_inHand rfl rfl,
  ask_inHand rfl rfl⟩

/-- Premises of `Obligations.EventsQueueInOrder`, clause by clause. -/
theorem witness_EventsQueueInOrder_1 :
    (up.port 0).session = 0 ∧ (queueAlmostFull.port 0).session ≠ 0 ∧ evUsed (queueAlmostFull.port 0) < 1023 ∧
    (queueAlmostFull.port 0).evLost = none ∧ (queueFull.port 0).session ≠ 0 ∧ evUsed (queueFull.port 0) = 1023 ∧
    (queueFull.port 0).evLost = none ∧ queueFull.windowUp = true ∧
    (lastIndex.toNat + 1024 - (queueFull.port 0).evRd) % 1024 ≤ evUsed (queueFull.port 0) ∧
    queueAlmostFull.windowUp = true ∧
    evUsed (queueAlmostFull.port 0) < (lastIndex.toNat + 1024 - (queueAlmostFull.port 0).evRd) % 1024 :=
  by decide +kernel

/-- Premises of `Obligations.EventsQueueInOrder`, clause by clause. -/
theorem witness_EventsQueueInOrder_2 :
    queueLost.windowUp = true ∧ (queueLost.port 0).evLost = some (3, 5, 2 ^ 33 + 1) ∧
    (lastIndex.toNat + 1024 - (queueLost.port 0).evRd) % 1024 ≤ evUsed (queueLost.port 0) ∧
    ((queueLost.port 0).evWr + 1024 - lastIndex.toNat) % 1024 + 2 ≤ 1023 :=
  by decide +kernel

/-- Premises of `Obligations.RegisterWindow`, clause by clause. -/
theorem witness_RegisterWindow_1 :
    up.windowUp = true ∧ word4.len = 4 ∧ 4096 ≤ slotLast.toNat ∧ slotLast.toNat + bytes1.len ≤ 6144 ∧
    4096 ≤ slotFirst.toNat ∧ slotFirst.toNat + bytes8.len ≤ 6144 ∧
    (¬((spiRead = 2 ∨ spiRead = 11) ∧ offset2.toNat % 4 = 0)) ∧
    (¬((spiOther = 2 ∨ spiOther = 11) ∧ offset0.toNat % 4 = 0)) :=
  by decide +kernel

/-- Premises of `Obligations.DebugPort`, clause by clause. -/
theorem witness_DebugPort_1 :
    (inField.sec.lifecycle = Lifecycle.field ∨ inField.sec.lifecycle = Lifecycle.retired) ∧
    (up.sec.lifecycle = Lifecycle.manufacture ∨ up.sec.lifecycle = Lifecycle.develop) ∧ dramUp.windowUp = true ∧
    0 ∈ linesOf lineWrite.addr lineWrite.len ∧ dramUp.debugAllowed DebugTarget.memory lineWrite.write 0 = false ∧
    labUp.windowUp = true ∧
    (∀ (l : Nat), l ∈ linesOf twoWrite.addr twoWrite.len → labUp.mpuAllows 3 twoWrite.write l = true ∧
      labUp.dramAnswers l = true) ∧
    (∀ (l : Nat), l ∈ linesOf twoRead.addr twoRead.len → labUp.mpuAllows 3 twoRead.write l = true ∧
      labUp.dramAnswers l = true) ∧ labUp.debugSet = 0 ∧ inField.windowUp = true ∧ inField.debugSet = 1 :=
  by decide +kernel

/-- Premises of `Obligations.FirmwareImagesAreStaged`, clause by clause. -/
theorem witness_FirmwareImagesAreStaged_1 :
    ((ask up 0 (req 259 4194305 0)).power.flash = none ∧ 4194304 < (req 259 4194305 0).length ∧
    (ask up 0 (req 259 208 0)).power.flash = none ∧ 0 < (req 259 208 0).length ∧ (req 259 208 0).length ≤ 4194304 ∧
    (ask up 0 (req 259 0 0)).power.flash = none ∧ (req 259 0 0).length = 0) ∧
    InHand (ask up 0 (req 259 4194305 0)) (0) 259 (req 259 4194305 0) ∧
    InHand (ask up 0 (req 259 208 0)) (0) 259 (req 259 208 0) ∧
    InHand (ask up 0 (req 259 0 0)) (0) 259 (req 259 0 0) :=
  ⟨by decide +kernel, ask_inHand rfl rfl, ask_inHand rfl rfl, ask_inHand rfl rfl⟩

/-- Premises of `Obligations.FirmwareImagesAreStaged`, clause by clause. -/
theorem witness_FirmwareImagesAreStaged_2 :
    (flashImage.tellerUp = true ∧ flashImage.power.flash = some imageJob ∧ flashOther.tellerUp = true ∧
    flashOther.power.flash = some otherJob) ∧ InHand (ask up 1 (req 260 0 0)) (1) 260 (req 260 0 0) ∧
    InHand (ask up 1 (req 3841 0 0)) (1) 3841 (req 3841 0 0) ∧
    InHand (ask up 1 (req 257 0 0)) (1) 257 (req 257 0 0) :=
  ⟨by decide +kernel, ask_inHand rfl rfl, ask_inHand rfl rfl, ask_inHand rfl rfl⟩

/-- Premises of `Obligations.LifecycleAndVault`, clause by clause. -/
theorem witness_LifecycleAndVault_1 :
    ((ask up 0 (req 3842 8 4)).power.flash = none ∧ lifeOfCode ((req 3842 8 4).u8 0) = none ∧
    (ask inField 0 (req 3842 8 1)).power.flash = none ∧ lifeOfCode ((req 3842 8 1).u8 0) = some Lifecycle.develop ∧
    lifeCode Lifecycle.develop < lifeCode (ask inField 0 (req 3842 8 1)).sec.lifecycle ∧
    (ask inField 0 (req 3842 8 3)).power.flash = none ∧ lifeOfCode ((req 3842 8 3).u8 0) = some Lifecycle.retired ∧
    lifeCode (ask inField 0 (req 3842 8 3)).sec.lifecycle ≤ lifeCode Lifecycle.retired ∧
    (req 3842 8 3).u32 4 ≠ (ask inField 0 (req 3842 8 3)).ledger.powerCycle) ∧
    InHand (ask up 0 (req 3842 8 4)) (0) 3842 (req 3842 8 4) ∧
    InHand (ask inField 0 (req 3842 8 1)) (0) 3842 (req 3842 8 1) ∧
    InHand (ask inField 0 (req 3842 8 3)) (0) 3842 (req 3842 8 3) :=
  ⟨by decide +kernel, ask_inHand rfl rfl, ask_inHand rfl rfl, ask_inHand rfl rfl⟩

/-- Premises of `Obligations.LifecycleAndVault`, clause by clause. -/
theorem witness_LifecycleAndVault_2 :
    ((ask inField 0 (req 3842 8 (3 + 2 ^ 32))).power.flash = none ∧
    lifeOfCode ((req 3842 8 (3 + 2 ^ 32)).u8 0) = some Lifecycle.retired ∧
    lifeCode (ask inField 0 (req 3842 8 (3 + 2 ^ 32))).sec.lifecycle < lifeCode Lifecycle.retired ∧
    (req 3842 8 (3 + 2 ^ 32)).u32 4 = (ask inField 0 (req 3842 8 (3 + 2 ^ 32))).ledger.powerCycle ∧
    (ask up 0 (req 3842 8 (1 + 2 ^ 32))).power.flash = none ∧
    lifeOfCode ((req 3842 8 (1 + 2 ^ 32)).u8 0) = some Lifecycle.develop ∧
    lifeCode (ask up 0 (req 3842 8 (1 + 2 ^ 32))).sec.lifecycle < lifeCode Lifecycle.develop ∧
    (req 3842 8 (1 + 2 ^ 32)).u32 4 = (ask up 0 (req 3842 8 (1 + 2 ^ 32))).ledger.powerCycle) ∧
    InHand (ask inField 0 (req 3842 8 (3 + 2 ^ 32))) (0) 3842 (req 3842 8 (3 + 2 ^ 32)) ∧
    InHand (ask up 0 (req 3842 8 (1 + 2 ^ 32))) (0) 3842 (req 3842 8 (1 + 2 ^ 32)) :=
  ⟨by decide +kernel, ask_inHand rfl rfl, ask_inHand rfl rfl⟩

/-- Premises of `Obligations.LifecycleAndVault`, clause by clause. -/
theorem witness_LifecycleAndVault_3 :
    (3 ≤ (ask unlockSpent 0 hmacWrong).sec.dbg.failures ∧ (ask up 0 (req 3848 36 0)).sec.dbg.failures < 3 ∧
    (req 3848 36 0).u8 0 = 0 ∧ (ask challenged 0 hmacWrong).sec.dbg.failures < 3 ∧ hmacWrong.u8 0 = 1 ∧
    (ask challenged 0 hmacWrong).sec.dbg.challenge = some 0 ∧ (ask up 0 hmacWrong).sec.dbg.failures < 3 ∧
    (ask up 0 hmacWrong).sec.dbg.challenge = none) ∧ InHand (ask unlockSpent 0 hmacWrong) (0) 3848 hmacWrong ∧
    InHand (ask up 0 (req 3848 36 0)) (0) 3848 (req 3848 36 0) ∧
    InHand (ask challenged 0 hmacWrong) (0) 3848 hmacWrong ∧ InHand (ask up 0 hmacWrong) (0) 3848 hmacWrong :=
  ⟨by decide +kernel, ask_inHand rfl rfl, ask_inHand rfl rfl, ask_inHand rfl rfl, ask_inHand rfl rfl⟩

/-- Premises of `Obligations.LifecycleAndVault`, clause by clause. -/
theorem witness_LifecycleAndVault_4 :
    ((63 < (req 3843 44 320).u8 0 ∨ (req 3843 44 320).u8 1 ≠ 1 ∨ (ask up 0 (req 3843 44 320)).sec.vaultLocked =
      true ∨ (ask up 0 (req 3843 44 320)).sec.keysDestroyed = true ∨ (ask up 0 (req 3843 44 320)).sec.lifecycle =
      Lifecycle.retired) ∧
    (63 < (req 3843 44 256).u8 0 ∨ (req 3843 44 256).u8 1 ≠ 1 ∨ (ask vaultLocked 0 (req 3843 44
      256)).sec.vaultLocked = true ∨ (ask vaultLocked 0 (req 3843 44 256)).sec.keysDestroyed = true ∨ (ask
      vaultLocked 0 (req 3843 44 256)).sec.lifecycle = Lifecycle.retired) ∧ (req 3843 44 319).u8 0 ≤ 63 ∧
    (req 3843 44 319).u8 1 = 1 ∧ (ask up 0 (req 3843 44 319)).sec.vaultLocked = false ∧
    (ask up 0 (req 3843 44 319)).sec.keysDestroyed = false ∧
    (ask up 0 (req 3843 44 319)).sec.lifecycle ≠ Lifecycle.retired) ∧
    InHand (ask up 0 (req 3843 44 320)) (0) 3843 (req 3843 44 320) ∧
    InHand (ask vaultLocked 0 (req 3843 44 256)) (0) 3843 (req 3843 44 256) ∧
    InHand (ask up 0 (req 3843 44 319)) (0) 3843 (req 3843 44 319) :=
  ⟨by decide +kernel, ask_inHand rfl rfl, ask_inHand rfl rfl, ask_inHand rfl rfl⟩

/-- Premises of `Obligations.LifecycleAndVault`, clause by clause. -/
theorem witness_LifecycleAndVault_5 :
    (itemList regionOff 20 7 = Sum.inr (7, [0]) ∧
    (vaultOn 0#160 = false ∨ (ask dramUp 0 regionOff).mem.vaultLegal (vaultBase 0#160) (vaultSize 0#160) = true) ∧
    itemList regionLast 20 7 = Sum.inr (7, [1 + (2 ^ 35 - 2 ^ 26 - 2 ^ 16) * 2 ^ 32 + 2 ^ 112]) ∧
    (vaultOn (BitVec.ofNat 160 (1 + (2 ^ 35 - 2 ^ 26 - 2 ^ 16) * 2 ^ 32 + 2 ^ 112)) = false ∨ (ask dramUp 0
      regionLast).mem.vaultLegal (vaultBase (BitVec.ofNat 160 (1 + (2 ^ 35 - 2 ^ 26 - 2 ^ 16) * 2 ^ 32 + 2 ^ 112)))
      (vaultSize (BitVec.ofNat 160 (1 + (2 ^ 35 - 2 ^ 26 - 2 ^ 16) * 2 ^ 32 + 2 ^ 112))) = true) ∧
    itemList regionSmall 20 7 = Sum.inr (7, [1 + (2 ^ 35 - 2 ^ 26 - 2 ^ 16) * 2 ^ 32 + 2 ^ 111]) ∧
    vaultOn (BitVec.ofNat 160 (1 + (2 ^ 35 - 2 ^ 26 - 2 ^ 16) * 2 ^ 32 + 2 ^ 111)) = true ∧
    (ask dramUp 0 regionSmall).mem.vaultLegal (vaultBase (BitVec.ofNat 160 (1 + (2 ^ 35 - 2 ^ 26 - 2 ^ 16) * 2 ^
      32 + 2 ^ 111))) (vaultSize (BitVec.ofNat 160 (1 + (2 ^ 35 - 2 ^ 26 - 2 ^ 16) * 2 ^ 32 + 2 ^ 111))) = false) ∧
    InHand (ask dramUp 0 regionOff) (0) 3844 regionOff ∧ InHand (ask dramUp 0 regionLast) (0) 3844 regionLast ∧
    InHand (ask dramUp 0 regionSmall) (0) 3844 regionSmall :=
  ⟨by decide +kernel, ask_inHand rfl rfl, ask_inHand rfl rfl, ask_inHand rfl rfl⟩

/-- Premises of `Obligations.HostAccesses`, clause by clause. -/
theorem witness_HostAccesses_1 :
    dramUp.windowUp = true ∧ lastByte.write = true ∧ firstOutside.write = true ∧ lastByteRead.write = false ∧
    (∀ (l : Nat), l ∈ linesOf lastByteRead.addr lastByteRead.len → dramUp.mpuAllows (0) false l = true ∧
      dramUp.dramAnswers l = true) ∧ acrossEnd.write = false ∧
    (∃ l, l ∈ linesOf acrossEnd.addr acrossEnd.len ∧ (dramUp.mpuAllows (0) false l = false ∨ dramUp.dramAnswers l
      = false)) ∧ vaultUp.windowUp = true ∧ 0 < vaultWrite.len ∧
    (∀ (l : Nat), l ∈ linesOf vaultWrite.addr vaultWrite.len → vaultUp.vaulted l = true) :=
  by decide +kernel

/-- Premises of `Obligations.HostAccesses`, clause by clause. -/
theorem witness_HostAccesses_2 :
    vaultUp.windowUp = true ∧ 0 < vaultRead.len ∧
    (∀ (l : Nat), l ∈ linesOf vaultRead.addr vaultRead.len → vaultUp.vaulted l = true) :=
  by decide +kernel

/-- Premises of `Obligations.MpuSetsAndSwaps`, clause by clause. -/
theorem witness_MpuSetsAndSwaps_1 :
    ((mpuWrite 1 1 0).length = 20 ∧ (mpuWrite 1 1 0).u8 3 = 1 ∧ (mpuWrite 1 1 0).u8 0 ≠ 0 ∧
    (mpuWrite 0 0 0).length = 20 ∧ (mpuWrite 0 0 0).u8 3 = 1 ∧ (mpuWrite 0 0 0).u8 0 = 0 ∧ (mpuWrite 0 0 0).u8 1 ≤ 1 ∧
    (mpuWrite 0 0 0).u8 2 ≤ 31 ∧ (mpuWrite 0 0 0).u8 1 = ((ask dramUp 0 (mpuWrite 0 0 0)).mpu 0).live) ∧
    InHand (ask dramUp 0 (mpuWrite 1 1 0)) (0) 3845 (mpuWrite 1 1 0) ∧
    InHand (ask dramUp 0 (mpuWrite 0 0 0)) (0) 3845 (mpuWrite 0 0 0) :=
  ⟨by decide +kernel, ask_inHand rfl rfl, ask_inHand rfl rfl⟩

/-- Premises of `Obligations.MpuSetsAndSwaps`, clause by clause. -/
theorem witness_MpuSetsAndSwaps_2 :
    ((mpuWrite 0 1 (267 * 2 ^ 64)).length = 20 ∧ (mpuWrite 0 1 (267 * 2 ^ 64)).u8 3 = 1 ∧
    (mpuWrite 0 1 (267 * 2 ^ 64)).u8 0 = 0 ∧ (mpuWrite 0 1 (267 * 2 ^ 64)).u8 1 ≤ 1 ∧
    (mpuWrite 0 1 (267 * 2 ^ 64)).u8 2 ≤ 31 ∧
    (mpuWrite 0 1 (267 * 2 ^ 64)).u8 1 ≠ ((ask dramUp 0 (mpuWrite 0 1 (267 * 2 ^ 64))).mpu 0).live ∧
    regionLegal (BitVec.ofNat 128 ((mpuWrite 0 1 (267 * 2 ^ 64)).payload.at 4 16)) = false ∧
    (mpuWrite 0 1 (524 * 2 ^ 64 + 2 ^ 35 - 4096)).length = 20 ∧
    (mpuWrite 0 1 (524 * 2 ^ 64 + 2 ^ 35 - 4096)).u8 3 = 1 ∧ (mpuWrite 0 1 (524 * 2 ^ 64 + 2 ^ 35 - 4096)).u8 0 = 0 ∧
    (mpuWrite 0 1 (524 * 2 ^ 64 + 2 ^ 35 - 4096)).u8 1 ≤ 1 ∧ (mpuWrite 0 1 (524 * 2 ^ 64 + 2 ^ 35 - 4096)).u8 2 ≤ 31 ∧
    (mpuWrite 0 1 (524 * 2 ^ 64 + 2 ^ 35 - 4096)).u8 1 ≠ ((ask dramUp 0 (mpuWrite 0 1 (524 * 2 ^ 64 + 2 ^ 35 -
      4096))).mpu 0).live ∧
    regionLegal (BitVec.ofNat 128 ((mpuWrite 0 1 (524 * 2 ^ 64 + 2 ^ 35 - 4096)).payload.at 4 16)) = true ∧
    (ask dramUp 0 (mpuWrite 0 1 (524 * 2 ^ 64 + 2 ^ 35 - 4096))).mem.writesReservation (BitVec.ofNat 128
      ((mpuWrite 0 1 (524 * 2 ^ 64 + 2 ^ 35 - 4096)).payload.at 4 16)) = true) ∧
    InHand (ask dramUp 0 (mpuWrite 0 1 (267 * 2 ^ 64))) (0) 3845 (mpuWrite 0 1 (267 * 2 ^ 64)) ∧
    InHand (ask dramUp 0 (mpuWrite 0 1 (524 * 2 ^ 64 + 2 ^ 35 - 4096))) (0) 3845 (mpuWrite 0 1 (524 * 2 ^ 64 + 2 ^
      35 - 4096)) :=
  ⟨by decide +kernel, ask_inHand rfl rfl, ask_inHand rfl rfl⟩

/-- Premises of `Obligations.MpuSetsAndSwaps`, clause by clause. -/
theorem witness_MpuSetsAndSwaps_3 :
    ((mpuWrite 0 1 (780 * 2 ^ 64)).length = 20 ∧ (mpuWrite 0 1 (780 * 2 ^ 64)).u8 3 = 1 ∧
    (mpuWrite 0 1 (780 * 2 ^ 64)).u8 0 = 0 ∧ (mpuWrite 0 1 (780 * 2 ^ 64)).u8 1 ≤ 1 ∧
    (mpuWrite 0 1 (780 * 2 ^ 64)).u8 2 ≤ 31 ∧
    (mpuWrite 0 1 (780 * 2 ^ 64)).u8 1 ≠ ((ask dramUp 0 (mpuWrite 0 1 (780 * 2 ^ 64))).mpu 0).live ∧
    regionLegal (BitVec.ofNat 128 ((mpuWrite 0 1 (780 * 2 ^ 64)).payload.at 4 16)) = true ∧
    (ask dramUp 0 (mpuWrite 0 1 (780 * 2 ^ 64))).mem.writesReservation (BitVec.ofNat 128 ((mpuWrite 0 1 (780 * 2 ^
      64)).payload.at 4 16)) = false ∧ (req 3846 1 1).u8 0 ≠ 0) ∧
    InHand (ask dramUp 0 (mpuWrite 0 1 (780 * 2 ^ 64))) (0) 3845 (mpuWrite 0 1 (780 * 2 ^ 64)) ∧
    InHand (ask up 0 (req 3846 1 1)) (0) 3846 (req 3846 1 1) :=
  ⟨by decide +kernel, ask_inHand rfl rfl, ask_inHand rfl rfl⟩

/-- Premises of `Obligations.MpuSetsAndSwaps`, clause by clause. -/
theorem witness_MpuSetsAndSwaps_4 :
    ((req 3846 1 0).u8 0 = 0 ∧ 8 < (req 3847 1 9).u8 0 ∧ (req 3847 1 8).u8 0 ≤ 8 ∧
    (noticeOpen.mpu 8).noticeOpen = some openedNotice ∧
    openedNotice.openedAt + 1000000 ≤ noticeOpen.time.now + 1000000) ∧
    InHand (ask up 0 (req 3846 1 0)) (0) 3846 (req 3846 1 0) ∧
    InHand (ask up 0 (req 3847 1 9)) (0) 3847 (req 3847 1 9) ∧
    InHand (ask up 0 (req 3847 1 8)) (0) 3847 (req 3847 1 8) :=
  ⟨by decide +kernel, ask_inHand rfl rfl, ask_inHand rfl rfl, ask_inHand rfl rfl⟩


/-- The standby of a pair; its active unit. -/
def standbyUp : State := withPair up (fun x => { x with enabled := true, role := .standby })
def activeUp : State := withPair up (fun x => { x with enabled := true, role := .active })
/-- A WARM reset is due; an AUDITOR reset is due at 5 ns for a thermal trip. -/
def warmDue : State := withPower up (fun x => { x with warmDue := some 1 })
def auditorDue : State := withFault up (fun x => { x with resetDue := some (5, faultMsg 0x009 4 0) })
/-- Two AUDITOR resets have happened in the last 10 minutes. -/
def twoResets : State := withPower up (fun x => { x with auditorTimes := [1, 2] })
/-- Held in reset by a tamper monitor, by a thermal trip. -/
def tamperHeld : State := withFault up (fun x => { x with tamperHold := some 0 })
def thermalHeld : State := withFault up (fun x => { x with thermalHold := true })
/-- Domain 25 is on, the device started or not; nothing has started. -/
def consoleOn : State := withPower up (fun x => { x with domains := [(25, { on := true })] })
def consoleOnEarly : State := withPower consoleOn (fun x => { x with started := false, step := 5 })
def earlyStart : State := withPower up (fun x => { x with started := false, step := 0 })
/-- A head is on in the active set, so that composition is needed. -/
def domainUnneeded : State := withPower up (fun x => { x with domains := [(8, { on := true })] })
/-- In NIGHT with wake source 4 enabled; on the way to NIGHT; on the way to OFF. -/
def inNight : State := withPower up (fun x => { x with state := .night, wakeMask := 16 })
def toNight : Transition := ⟨.night, 0, 0xFF, 0⟩
def toOff : Transition := ⟨.off, 0, 0xFF, 0⟩
def goingNight : State := withPower up (fun x => { x with transition := some toNight, wakeMask := 16 })
def goingOff : State := withPower up (fun x => { x with transition := some toOff })
/-- A commit is pending. -/
def commitPending : State := withSets up (fun x => { x with pending := some {} })
/-- A domain at its window's midpoint, and one at its clock's floor. -/
def loopUp : State := withPower up (fun x => { x with domains := [(2, { on := true, clock := 2 }), (12, { on := true })] })
/-- `LOOP_ENVELOPE_SET` of domain 12: 700 to 800 mV, 90 to 95 degrees, 800 to 700 mV. -/
def voltItem : Nat := 700 * 2 ^ 32 + 800 * 2 ^ 48
def tempItem : Nat := 1 + 90 * 2 ^ 32 + 95 * 2 ^ 48
def badItem : Nat := 800 * 2 ^ 32 + 700 * 2 ^ 48
def loopSet (x : Nat) : Request := req 0x0B03 12 (12 + 2 ^ 16 + x * 2 ^ 32)
/-- `POWER_STATE_SET` of a state with a mask. -/
def powerSet (st mask : Nat) : Request := req 0x0B01 8 (st + mask * 2 ^ 32)
/-- `TALLY_RUN` of the standard CRC-32 over n bytes from address 0 on an engine. -/
def tallyRun (e n : Nat) : Request :=
  req 0x1001 32 (e + n * 2 ^ 96 + 0xFFFFFFFF * 2 ^ 128 + 32 * 2 ^ 192 + 7 * 2 ^ 200 + 0x04C11DB7 * 2 ^ 224)
/-- The same of 64 bytes where the device has no memory. -/
def tallyFar : Request := req 0x1001 32 ((tallyRun 0 64).payload.val + 2 ^ 90)
/-- Memory whose first lines host A may read; an engine that runs a job of 128 bytes, one of more than it may read. -/
def tallyCtx : TallyCtx := { refIn := true, refOut := true, xorOut := true, poly := 0x04C11DB7, remaining := 128, reg := 2 ^ 32 - 1 }
def tallyBusy : State := withSec dramUp (fun x => { x with tally := [(1, { state := 1, ctx := tallyCtx })] })
/-- A context to restore, as its request; one whose check fails. -/
def restoreGood : Request := req 0x1004 36 (1 + tallyCtx.bytes.val * 2 ^ 32)
def restoreBad : Request := req 0x1004 36 1
/-- A port that wrote 100 notes in the last second, 99 of them. -/
def notes100 : State := withPort up 1 (fun q => { q with notes := List.replicate 100 0 })
def notes99 : State := withPort up 1 (fun q => { q with notes := List.replicate 99 0 })
/-- A ledger with one record still to spill. -/
def firstRec : LedgerRec := { code := 0x0001 }
def oneRecord : State := withLedger up (fun x => { x with ring := [(0, firstRec)], next := 1 })
/-- A record of the largest fields, and a context of the largest fields. -/
def widestRec : LedgerRec :=
  { debug := true, safe := true, mirrored := true, origin := 15, inst := 255, code := 65535, powerCycle := 2 ^ 32 - 1
    optime := 2 ^ 48 - 1, seq := 65536, p0 := 2 ^ 32 - 1, p1 := 2 ^ 32 - 1, p2 := 2 ^ 32 - 1, p3 := 2 ^ 32 - 1 }
def widestCtx : TallyCtx :=
  { compare := true, refIn := true, refOut := true, xorOut := true, width := 255, poly := 2 ^ 32 - 1, addr := 2 ^ 64 - 1
    remaining := 2 ^ 32 - 1, reg := 2 ^ 32 - 1, expected := 2 ^ 32 - 1 }
def ctx16 : TallyCtx := { width := 16, poly := 0x1021 }
def tallyEmpty : Request := tallyRun 1 0

/-- Premises of `Obligations.Resets`, clause by clause. -/
theorem witness_Resets_1 :
    dramUp.tellerUp = true ∧ 3 ≤ dramUp.power.step ∧ standbyUp.windowUp = true ∧ standbyUp.pair.enabled = true ∧
    standbyUp.pair.role = Role.standby ∧ warmDue.tellerUp = true ∧ warmDue.power.warmDue = some 1 ∧
    up.power.warmDue = none ∧ auditorDue.fault.dead = false ∧ auditorDue.power.state ≠ PowerState.off ∧
    auditorDue.fault.resetDue = some (5, faultMsg 9 4 0) ∧ 5 ≤ auditorDue.time.now + 5 :=
  by decide +kernel

/-- Premises of `Obligations.Resets`, clause by clause. -/
theorem witness_Resets_2 :
    ((req 258 1 1).u8 0 = 1 ∧ (req 258 1 0).u8 0 ≠ 1) ∧ InHand (ask up 1 (req 258 1 1)) (1) 258 (req 258 1 1) ∧
    InHand (ask up 1 (req 258 1 0)) (1) 258 (req 258 1 0) :=
  ⟨by decide +kernel, ask_inHand rfl rfl, ask_inHand rfl rfl⟩

/-- Premises of `Obligations.TamperHoldsAndDomainResets`, clause by clause. -/
theorem witness_TamperHoldsAndDomainResets_1 :
    twoResets.power.state ≠ PowerState.off ∧ tamperHeld.fault.tamperHold.isSome = true ∧
    thermalHeld.fault.thermalHold = true ∧
    (up.fault.tamperHold = none ∨ up.time.now + 3 < up.power.resetAt + 1000000) ∧ up.fault.thermalHold = false ∧
    consoleOn.tellerUp = true ∧ 4 ≤ 25 ∧ (consoleOn.domain 25).on = true ∧ consoleOnEarly.tellerUp = true ∧
    (consoleOnEarly.domain 25).on = true :=
  by decide +kernel

/-- Premises of `Obligations.StartsAndTransitions`, clause by clause. -/
theorem witness_StartsAndTransitions_1 :
    earlyStart.tellerUp = true ∧ earlyStart.power.started = false ∧ earlyStart.power.step ≤ 7 ∧
    up.power.started = true ∧ up.tellerUp = true ∧ 4 ≤ up.power.step ∧
    (((if 18 ≤ 25 ∧ 25 < 24 then (up.elapse 3).applyTable else up.elapse 3).domain 25).on = false) ∧
    ((if 18 ≤ 25 ∧ 25 < 24 then (up.elapse 3).applyTable else up.elapse 3).needs 25 = true) ∧
    ((if 18 ≤ 25 ∧ 25 < 24 then (up.elapse 3).applyTable else up.elapse 3).allows 25 = true) ∧
    domainUnneeded.tellerUp = true ∧ (domainUnneeded.domain 8).on = true ∧
    (domainUnneeded.needs 8 = false ∨ domainUnneeded.allows 8 = false) :=
  by decide +kernel

/-- Premises of `Obligations.StartsAndTransitions`, clause by clause. -/
theorem witness_StartsAndTransitions_2 :
    goingOff.tellerUp = true ∧ goingOff.power.transition = some toOff ∧ goingOff.power.started = true ∧
    (goingOff.elapse 3).memoryBack toOff = true ∧ inNight.tellerUp = true ∧ (inNight.elapse 3).wakeFires 4 = true ∧
    inNight.power.transition = none ∧ inNight.power.state = PowerState.night ∧ goingNight.tellerUp = true ∧
    (goingNight.elapse 3).wakeFires 4 = true ∧ goingNight.power.transition = some toNight ∧
    toNight.target = PowerState.night :=
  by decide +kernel

/-- Premises of `Obligations.PowerMessagesAndLoops`, clause by clause. -/
theorem witness_PowerMessagesAndLoops_1 :
    (powerOfCode ((powerSet 0 1).u8 0) = some PowerState.run ∧ PowerState.run ≠ PowerState.dim ∧
    (powerSet 0 1).u32 4 ≠ 0 ∧ powerOfCode ((powerSet 1 1).u8 0) = some PowerState.dim ∧
    PowerState.dim = PowerState.dim ∧ (ask up 0 (powerSet 1 1)).maskDenied ((powerSet 1 1).u32 4) = true ∧
    powerOfCode ((powerSet 3 0).u8 0) = some PowerState.off ∧
    (PowerState.off = PowerState.night ∨ PowerState.off = PowerState.off) ∧ (powerSet 3 0).u32 4 = 0 ∧
    (ask activeUp 0 (powerSet 3 0)).pair.enabled = true) ∧ InHand (ask up 0 (powerSet 0 1)) (0) 2817 (powerSet 0 1) ∧
    InHand (ask up 0 (powerSet 1 1)) (0) 2817 (powerSet 1 1) ∧
    InHand (ask activeUp 0 (powerSet 3 0)) (0) 2817 (powerSet 3 0) :=
  ⟨by decide +kernel, ask_inHand rfl rfl, ask_inHand rfl rfl, ask_inHand rfl rfl⟩

/-- Premises of `Obligations.PowerMessagesAndLoops`, clause by clause. -/
theorem witness_PowerMessagesAndLoops_2 :
    (powerOfCode ((powerSet 2 0).u8 0) = some PowerState.night ∧
    (PowerState.night = PowerState.night ∨ PowerState.night = PowerState.off) ∧ (powerSet 2 0).u32 4 = 0 ∧
    (ask commitPending 0 (powerSet 2 0)).pair.enabled = false ∧
    (ask commitPending 0 (powerSet 2 0)).sets.pending.isSome = true ∧
    powerOfCode ((powerSet 0 0).u8 0) = some PowerState.run ∧
    (PowerState.run = PowerState.run ∧ (powerSet 0 0).u32 4 = 0 ∨ PowerState.run = PowerState.dim ∧ (ask up 0
      (powerSet 0 0)).maskDenied ((powerSet 0 0).u32 4) = false ∨ (PowerState.run = PowerState.night ∨
      PowerState.run = PowerState.off) ∧ (powerSet 0 0).u32 4 = 0 ∧ (ask up 0 (powerSet 0 0)).pair.enabled = false ∧
      (ask up 0 (powerSet 0 0)).sets.pending = none) ∧ powerOfCode ((powerSet 1 16).u8 0) = some PowerState.dim ∧
    (PowerState.dim = PowerState.run ∧ (powerSet 1 16).u32 4 = 0 ∨ PowerState.dim = PowerState.dim ∧ (ask up 0
      (powerSet 1 16)).maskDenied ((powerSet 1 16).u32 4) = false ∨ (PowerState.dim = PowerState.night ∨
      PowerState.dim = PowerState.off) ∧ (powerSet 1 16).u32 4 = 0 ∧ (ask up 0 (powerSet 1 16)).pair.enabled = false
      ∧ (ask up 0 (powerSet 1 16)).sets.pending = none)) ∧
    InHand (ask commitPending 0 (powerSet 2 0)) (0) 2817 (powerSet 2 0) ∧
    InHand (ask up 0 (powerSet 0 0)) (0) 2817 (powerSet 0 0) ∧
    InHand (ask up 0 (powerSet 1 16)) (0) 2817 (powerSet 1 16) :=
  ⟨by decide +kernel, ask_inHand rfl rfl, ask_inHand rfl rfl, ask_inHand rfl rfl⟩

/-- Premises of `Obligations.PowerMessagesAndLoops`, clause by clause. -/
theorem witness_PowerMessagesAndLoops_3 :
    (powerOfCode ((powerSet 2 0).u8 0) = some PowerState.night ∧
    (PowerState.night = PowerState.run ∧ (powerSet 2 0).u32 4 = 0 ∨ PowerState.night = PowerState.dim ∧ (ask up 0
      (powerSet 2 0)).maskDenied ((powerSet 2 0).u32 4) = false ∨ (PowerState.night = PowerState.night ∨
      PowerState.night = PowerState.off) ∧ (powerSet 2 0).u32 4 = 0 ∧ (ask up 0 (powerSet 2 0)).pair.enabled = false
      ∧ (ask up 0 (powerSet 2 0)).sets.pending = none) ∧ powerOfCode ((powerSet 4 0).u8 0) = none ∧
    itemList (loopSet badItem) 8 25 = Sum.inr (12, [badItem]) ∧ loopItemBad 12 badItem = true) ∧
    InHand (ask up 0 (powerSet 2 0)) (0) 2817 (powerSet 2 0) ∧
    InHand (ask up 0 (powerSet 4 0)) (0) 2817 (powerSet 4 0) ∧
    InHand (ask up 0 (req 2820 16 127)) (0) 2820 (req 2820 16 127) ∧
    InHand (ask up 0 (req 2818 0 0)) (0) 2818 (req 2818 0 0) ∧
    InHand (ask up 0 (loopSet badItem)) (0) 2819 (loopSet badItem) :=
  ⟨by decide +kernel, ask_inHand rfl rfl, ask_inHand rfl rfl, ask_inHand rfl rfl, ask_inHand rfl rfl,
  ask_inHand rfl rfl⟩

/-- Premises of `Obligations.PowerMessagesAndLoops`, clause by clause. -/
theorem witness_PowerMessagesAndLoops_4 :
    (itemList (loopSet voltItem) 8 25 = Sum.inr (12, [voltItem]) ∧ loopItemBad 12 voltItem = false ∧
    itemList (loopSet tempItem) 8 25 = Sum.inr (12, [tempItem]) ∧ loopItemBad 12 tempItem = false ∧
    loopUp.windowUp = true ∧ 12 ≠ 0 ∧ (loopUp.domain 12).on = true ∧ loopUp.tellerUp = true ∧ 2 ≤ 2 ∧ 2 ≤ 12 ∧
    (loopUp.domain 2).on = true) ∧ InHand (ask up 0 (loopSet voltItem)) (0) 2819 (loopSet voltItem) ∧
    InHand (ask up 0 (loopSet tempItem)) (0) 2819 (loopSet tempItem) :=
  ⟨by decide +kernel, ask_inHand rfl rfl, ask_inHand rfl rfl⟩

/-- Premises of `Obligations.PowerMessagesAndLoops`, clause by clause. -/
theorem witness_PowerMessagesAndLoops_5 :
    loopUp.tellerUp = true ∧ 2 ≤ 12 ∧ 12 ≤ 12 ∧ (loopUp.domain 12).on = true :=
  by decide +kernel

/-- Premises of `Obligations.TallyJobs`, clause by clause. -/
theorem witness_TallyJobs_1 :
    ((1 < (tallyRun 2 64).u8 0 ∨ tallyLegal (tallyJob (tallyRun 2 64)) = false) ∧ (tallyRun 1 64).u8 0 ≤ 1 ∧
    tallyLegal (tallyJob (tallyRun 1 64)) = true ∧
    ((ask tallyBusy 0 (tallyRun 1 64)).tally ((tallyRun 1 64).u8 0)).state = 1 ∧ (tallyRun 1 4096).u8 0 ≤ 1 ∧
    tallyLegal (tallyJob (tallyRun 1 4096)) = true ∧
    ((ask dramUp 0 (tallyRun 1 4096)).tally ((tallyRun 1 4096).u8 0)).state ≠ 1 ∧
    (tallyJob (tallyRun 1 4096)).remaining ≤ 65536 ∧
    (ask dramUp 0 (tallyRun 1 4096)).tallyReadable (0) (tallyJob (tallyRun 1 4096)).addr (tallyJob (tallyRun 1
      4096)).remaining = true) ∧ InHand (ask dramUp 0 (tallyRun 2 64)) (0) 4097 (tallyRun 2 64) ∧
    InHand (ask tallyBusy 0 (tallyRun 1 64)) (0) 4097 (tallyRun 1 64) ∧
    InHand (ask dramUp 0 (tallyRun 1 4096)) (0) 4097 (tallyRun 1 4096) :=
  ⟨by decide +kernel, ask_inHand rfl rfl, ask_inHand rfl rfl, ask_inHand rfl rfl⟩

/-- Premises of `Obligations.TallyJobs`, clause by clause. -/
theorem witness_TallyJobs_2 :
    (tallyFar.u8 0 ≤ 1 ∧ tallyLegal (tallyJob tallyFar) = true ∧
    ((ask dramUp 0 tallyFar).tally (tallyFar.u8 0)).state ≠ 1 ∧ (tallyJob tallyFar).remaining ≤ 65536 ∧
    (ask dramUp 0 tallyFar).tallyReadable (0) (tallyJob tallyFar).addr (tallyJob tallyFar).remaining = false ∧
    (tallyRun 0 65537).u8 0 ≤ 1 ∧ tallyLegal (tallyJob (tallyRun 0 65537)) = true ∧
    ((ask dramUp 0 (tallyRun 0 65537)).tally ((tallyRun 0 65537).u8 0)).state ≠ 1 ∧
    65536 < (tallyJob (tallyRun 0 65537)).remaining ∧ (ask dramUp 0 (tallyRun 0 65537)).canHold 0 = true) ∧
    InHand (ask dramUp 0 tallyFar) (0) 4097 tallyFar ∧
    InHand (ask dramUp 0 (tallyRun 0 65537)) (0) 4097 (tallyRun 0 65537) :=
  ⟨by decide +kernel, ask_inHand rfl rfl, ask_inHand rfl rfl⟩

/-- Premises of `Obligations.TallyJobs`, clause by clause. -/
theorem witness_TallyJobs_3 :
    ((tallyBusy.tally 1).state = 1 ∧
    tallyBusy.tallyReadable (tallyBusy.tally 1).port (tallyBusy.tally 1).ctx.addr (tallyBusy.tally
      1).ctx.remaining = true ∧ (req 4099 4 1).u8 0 ≤ 1 ∧
    ((ask tallyBusy 0 (req 4099 4 1)).tally ((req 4099 4 1).u8 0)).state = 1 ∧ restoreBad.u8 0 ≤ 1 ∧
    ((ask up 0 restoreBad).tally (restoreBad.u8 0)).state ≠ 1 ∧ tallyContext (restoreBad.payload.slice 4 32) = none) ∧
    InHand (ask up 0 (req 4098 0 0)) (0) 4098 (req 4098 0 0) ∧
    InHand (ask tallyBusy 0 (req 4099 4 1)) (0) 4099 (req 4099 4 1) ∧
    InHand (ask up 0 restoreBad) (0) 4100 restoreBad :=
  ⟨by decide +kernel, ask_inHand rfl rfl, ask_inHand rfl rfl, ask_inHand rfl rfl⟩

/-- Premises of `Obligations.TallyJobs`, clause by clause. -/
theorem witness_TallyJobs_4 :
    (restoreGood.u8 0 ≤ 1 ∧ ((ask up 0 restoreGood).tally (restoreGood.u8 0)).state ≠ 1 ∧
    tallyContext (restoreGood.payload.slice 4 32) = some tallyCtx) ∧
    InHand (ask up 0 restoreGood) (0) 4100 restoreGood :=
  ⟨by decide +kernel, ask_inHand rfl rfl⟩

/-- Premises of `Obligations.TallyJobsMayBeSplit`, clause by clause. -/
theorem witness_TallyJobsMayBeSplit_1 :
    (tallyEmpty.u8 0 ≤ 1 ∧ tallyLegal (tallyJob tallyEmpty) = true ∧
    ((ask dramUp 0 tallyEmpty).tally (tallyEmpty.u8 0)).state ≠ 1 ∧ (tallyJob tallyEmpty).remaining = 0 ∧
    (tallyJob tallyEmpty).width = 32 ∧ (tallyJob tallyEmpty).refOut = true ∧ (tallyJob tallyEmpty).xorOut = true ∧
    (tallyJob tallyEmpty).reg = 4294967295 ∧ (tallyCtx.width = 16 ∨ tallyCtx.width = 32)) ∧
    InHand (ask dramUp 0 tallyEmpty) (0) 4097 tallyEmpty :=
  ⟨by decide +kernel, ask_inHand rfl rfl⟩

/-- Premises of `Obligations.TallyJobsMayBeSplit`, clause by clause. -/
theorem witness_TallyJobsMayBeSplit_2 :
    (ctx16.width = 16 ∨ ctx16.width = 32) :=
  by decide +kernel

/-- Premises of `Obligations.RecordsRoundTrip`, clause by clause. -/
theorem witness_RecordsRoundTrip_1 :
    widestCtx.width < 256 ∧ widestCtx.poly < 2 ^ 32 ∧ widestCtx.addr < 2 ^ 64 ∧ widestCtx.remaining < 2 ^ 32 ∧
    widestCtx.reg < 2 ^ 32 ∧ widestCtx.expected < 2 ^ 32 ∧ widestRec.code < 2 ^ 16 ∧ widestRec.inst < 2 ^ 8 ∧
    widestRec.origin < 2 ^ 4 ∧ widestRec.powerCycle < 2 ^ 32 ∧ widestRec.optime < 2 ^ 48 ∧ widestRec.p0 < 2 ^ 32 ∧
    widestRec.p1 < 2 ^ 32 ∧ widestRec.p2 < 2 ^ 32 ∧ widestRec.p3 < 2 ^ 32 :=
  by decide +kernel

/-- Premises of `Obligations.LedgerRecordsAndMessages`, clause by clause. -/
theorem witness_LedgerRecordsAndMessages_1 :
    (100 ≤ (((ask notes100 1 (req 2307 16 5)).elapse 0).recentNotes 1).length ∧
    (((ask notes99 1 (req 2307 16 5)).elapse 0).recentNotes 1).length < 100 ∧ oneRecord.tellerUp = true ∧
    (oneRecord.elapse 100000000).pageDue = true ∧
    oneRecord.ledger.ring.find (oneRecord.ledger.spilled % 8192) = some firstRec ∧
    (oneRecord.elapse 99900000).pageDue = false) ∧ InHand (ask oneRecord 0 (req 2305 0 0)) (0) 2305 (req 2305 0 0) ∧
    InHand (ask oneRecord 0 (req 2306 8 (2 ^ 32))) (0) 2306 (req 2306 8 (2 ^ 32)) ∧
    InHand (ask notes100 1 (req 2307 16 5)) (1) 2307 (req 2307 16 5) ∧
    InHand (ask notes99 1 (req 2307 16 5)) (1) 2307 (req 2307 16 5) :=
  ⟨by decide +kernel, ask_inHand rfl rfl, ask_inHand rfl rfl, ask_inHand rfl rfl, ask_inHand rfl rfl⟩

/-- Premises of `Obligations.LedgerRecordsAndMessages`, clause by clause. -/
theorem witness_LedgerRecordsAndMessages_2 :
    oneRecord.tellerUp = true ∧
    oneRecord.time.now + 7 < oneRecord.ledger.markAt.getD oneRecord.ledger.porAt + 59900000000 ∧
    oneRecord.ledger.markAt.getD oneRecord.ledger.porAt + 59900000000 ≤ oneRecord.time.now + 59900000000 :=
  by decide +kernel


/-- Descriptors with a few fields set: a source of a kind on a port, a layer of a source on an output, an output. -/
def srcOf (kind port : Nat) : SrcDesc := srcReset + BitVec.ofNat 512 (kind + port * 2 ^ 16)
def layerOf (output source buffer : Nat) : LayerDesc :=
  layerReset + BitVec.ofNat 512 (2 ^ 31 + output * 2 ^ 16 + source * 2 ^ 8 + buffer * 2 ^ 50 + 256 * 2 ^ 96 + 256 * 2 ^ 112
    + 256 * 2 ^ 160 + 256 * 2 ^ 176)
def outOn (o : Nat) : OutDesc := outReset o + BitVec.ofNat 512 (2 ^ 31)
/-- An item-list write of one item at the last index of its kind; of one item too few bytes; a tone profile 0. -/
def oneItem (op first size : Nat) : Request := req op (4 + size) (first + 2 ^ 16)
def badLength (op first size : Nat) : Request := req op (3 + size) (first + 2 ^ 16)
/-- A commit is pending and 4,095 writes are held, 4,096. -/
def heldAlmost : State := withSets commitPending (fun x => { x with held := List.replicate 4095 ⟨.source, 0, 0⟩ })
def heldFull : State := withSets commitPending (fun x => { x with held := List.replicate 4096 ⟨.source, 0, 0⟩ })
/-- Layer 1023 is enabled in the shadow set. -/
def layerShadow : State := withSets up (fun x => { x with shadow := { layers := [(1023, layerOf 0 0 0)] } })
/-- `LAYER_STRIPE` of layer 1023 into 4; `SET_READ` of the last source of the active set, and of one past it. -/
def stripe4 : Request := req 0x0303 4 (1023 + 4 * 2 ^ 16)
def stripeIdx : List Nat := [1023, 0, 1, 2]
def readLast : Request := req 0x0507 8 (255 * 2 ^ 32 + 2 * 2 ^ 48)
def readPast : Request := req 0x0507 8 (1 + 256 * 2 ^ 32 + 2 ^ 48)
/-- `COMMIT_GROUP_SET` of group 1: empty; of head 0, which group 0 holds; of a group past the last. -/
def groupEmpty : Request := req 0x0504 20 1
def groupTaken : Request := req 0x0504 20 (1 + 2 ^ 64 + 500 * 2 ^ 128)
def groupPast : Request := req 0x0504 20 16
/-- `COMMIT` of a group with flags. -/
def commitOf (g flags : Nat) : Request := req 0x0501 4 (g + flags * 2 ^ 8)
/-- Commits: clearing, staging, staged. -/
def clearing : Commit := { req := some (commitOf 0 0) }
def staging : Commit := { clearing with eligibleAt := some 0, state := .staging }
def staged : Commit := { staging with stagingDone := true, state := .waiting }
def staged3 : Commit := { staged with defers := 3, swap := true }
def clearingUp : State := withSets up (fun x => { x with pending := some clearing })
/-- The shadow set enables a layer on an output that does not show: clearing rejects it. -/
def rejectedUp : State := withSets clearingUp (fun x => { x with shadow := { layers := [(0, layerReset + BitVec.ofNat 512 (2 ^ 31))] } })
def stagingUp : State := withSets up (fun x => { x with pending := some staging })
def stagedUp : State := withSets up (fun x => { x with pending := some staged })
/-- The shadow set shows buffer 0 of surface 0, which has not been published. -/
def fencedSet : ConfigSet := { sources := [(0, srcOf 4 0)], layers := [(0, layerOf 0 0 1)] }
def fencedUp : State := withSets up (fun x => { x with pending := some staged, shadow := fencedSet })
def fenced3Up : State := withSets up (fun x => { x with pending := some staged3, shadow := fencedSet })
def settledLast : State := withSets up (fun x => { x with last := some { staged with state := .settled } })
def lastCommit : Commit := { staged with state := .settled }
/-- A commit that waits on output 0 for its effect, sampled at 5 ns; the same reported. -/
def effectCommit : Commit := { lastCommit with sampledAt := 5 }
def effectUp : State := withSets up (fun x => { x with effect := some (effectCommit, [0]) })
def reportedCommit : Commit := { effectCommit with reported := true }
def reportedUp : State := withSets up (fun x => { x with effect := some (reportedCommit, [0]) })
def cancelAt (n : Nat) : Request := { req 0x503 0 0 with time := n }
/-- `SURFACE_SET` of surface 127: 16 by 16 of 8-bit RGB, buffer 0 at 4,096, the others absent; with a width of 0. -/
def surfBody (w : Nat) : Nat :=
  w * 2 ^ 64 + 16 * 2 ^ 80 + 256 * 2 ^ 96 + 4096 * 2 ^ 128 + 0x01010101 * 2 ^ 16
def surfSet (w : Nat) : Request := req 0x0204 40 (127 + surfBody w)
def surfDesc : SurfDesc := BitVec.ofNat 320 (127 + surfBody 16)
/-- A block in which surface 127 is described and shown by source 255; its buffer 0 is in use and no longer the newest. -/
def surfUp : State :=
  { dramUp with
    src := { dramUp.src with surf := [(127, { desc := some surfDesc, newest := some 2, inUse := 1, fence := 1 })],
                             run := [(255, { subscribed := true })] }
    sets := { dramUp.sets with active := { sources := [(255, srcOf 4 127)] } } }
def publish0 : Request := req 0x0205 4 127
def publish1 : Request := req 0x0205 4 (127 + 2 ^ 8)
/-- Source 7 is an RTP stream of H.264 in subscription, its second report due, with receivers' reports to send. -/
def rtpDesc : SrcDesc := srcReset + BitVec.ofNat 512 (1 + 2 ^ 25 + 5000 * 2 ^ 384)
def ethUp : EthRun := { setting := some (BitVec.ofNat 576 (2 ^ 8 + 10 * 2 ^ 128 + 9 * 2 ^ 152)), up := true }
def ethDesc : EthDesc := BitVec.ofNat 576 (2 ^ 8 + 10 * 2 ^ 128 + 9 * 2 ^ 152)
def rtpPkt (seq : Nat) : RtpPacket := ⟨96, seq, 3000, 9, false, 1200, false, none, true, none⟩
def oneHeld : HeldPacket := ⟨65538, 0, 0, 0, 0, rtpPkt 2⟩
def receiver : Nat := 0xFFFF0A000005
def rtpSrc : SrcRun :=
  { subscribed := true, joined := some ⟨0, 7, 0⟩, reportDue := true, rrTo := some (receiver, 5001), ssrc := some 9, otherSsrc := some 4, pos := some 65535 }
def rtpUp : State :=
  { up with
    src := { up.src with run := [(7, rtpSrc)] }
    sets := { up.sets with active := { sources := [(7, rtpDesc)] } }
    links := { up.links with eth := [(0, ethUp)] } }
/-- The jitter regulator with no room for the packet. -/
def rtpFullUp : State := withSrc rtpUp (fun x => { x with jitterFill := 1198801 })
def rtpHeldUp : State :=
  { rtpUp with src := { rtpUp.src with run := [(7, { rtpSrc with packets := [oneHeld], pos := some 65536 })] } }
/-- The port disabled. -/
def ethOff : EthDesc := BitVec.ofNat 576 (10 * 2 ^ 128 + 9 * 2 ^ 152)
def portOffUp : State := withLinks rtpUp (fun x => { x with eth := [(0, { ethUp with setting := some ethOff })] })
/-- Frames: an oversize one, an ARP request for the port's address, an RTP packet in turn and a duplicate. -/
def frameOf (size : Nat) (body : EthBody) : EthPacket := ⟨size, none, false, false, false, 3, 0, 5000, 5000, body⟩
def oversize : EthPacket := frameOf 9217 .other
def arp : EthPacket := frameOf 60 (.arpRequest (0xFFFF0A000009))
def arpTarget : Nat := 0xFFFF0A000009
def inTurn : EthPacket := frameOf 1300 (.rtp (rtpPkt 0))
def duplicate : EthPacket := frameOf 1300 (.rtp (rtpPkt 65535))
/-- Requests about source 7: parameter sets, a restart. -/
def paramsOne : Request := req 0x0206 8 (7 + (2 + 0x6700 * 2 ^ 8 + 0) * 2 ^ 32)
def paramNal : List Bytes := [⟨2, 0x67⟩]
def restart7 : Request := req 0x0207 4 7
def restart9 : Request := req 0x0207 4 9
/-- A 64 by 64 H.264 stream, and an IDR picture of it; an access unit that lost packets. -/
def sps64 : Sps := ⟨64, 64, 66, 10, false, false, none, 1, 1, 0, 8, 1, false, false, 16, 0, 0, 0, 0, {}⟩
def spsSet : ParamSet := ⟨7, 0, 0, ⟨2, 0x67⟩, false, some sps64⟩
def ppsSet : ParamSet := ⟨8, 0, 0, ⟨2, 0x68⟩, false, none⟩
def active64 : Active := ⟨spsSet, sps64, [ppsSet]⟩
def idrInfo : AuInfo := ⟨.idr, 0, 0, true, [], .sliding, none, true, [spsSet, ppsSet], [0], false, none, none, none, none, [], none⟩
def idrUnit : AuUnit := { ts := 0, info := some idrInfo }
def lostUnit : AuUnit := { ts := 0, incomplete := true }
def runningDec (a : AuUnit) : DecRun :=
  { state := .running, core := some 0, cost := 64 * 64 * 30, queue := [a], sps := some sps64 }
def decoding (a : AuUnit) : State := withSrc rtpUp (fun x => { x with dec := [(7, runningDec a)] })
/-- The same stream at the end of its 1 s window, nine eighths of its rate decoded, one sample more. -/
def countedDec (n : Nat) : DecRun :=
  { state := .running, core := some 0, cost := 800, window := some (0, n), summary := some (0, 2, 0x2010, 5) }
def windowOf (n : Nat) : State := withSrc rtpUp (fun x => { x with dec := [(7, countedDec n)] })
/-- Core 0 is on with a running stream. -/
def coreUp : State := withPower (decoding idrUnit) (fun x => { x with domains := [(4, { on := true })] })
/-- The largest number of n bits. -/
def ones (n : Nat) : Nat := 2 ^ n - 1
/-- Why clearing rejects it: a field of zero. -/
def reject0 : Reject := ⟨5, 1, 0, 12⟩

/-- Premises of `Obligations.ItemsAreWrittenAndReadBack`, clause by clause. -/
theorem witness_ItemsAreWrittenAndReadBack_1 :
    (itemList (badLength 513 0 64) (kindSize (SetKind.source, 513, Instr.sourceSet 0 0).fst) (kindLast
      (SetKind.source, 513, Instr.sourceSet 0 0).fst) = Sum.inl stBadLength ∧
    (SetKind.tone, 772, Instr.toneProfileSet 0 0).fst = SetKind.tone ∧ [0] ≠ [] ∧
    itemList (oneItem 772 0 160) (kindSize (SetKind.tone, 772, Instr.toneProfileSet 0 0).fst) (kindLast
      (SetKind.tone, 772, Instr.toneProfileSet 0 0).fst) = Sum.inr (0, [0]) ∧
    itemList (oneItem 513 255 64) (kindSize (SetKind.source, 513, Instr.sourceSet 0 0).fst) (kindLast
      (SetKind.source, 513, Instr.sourceSet 0 0).fst) = Sum.inr (255, [0]) ∧
    ((SetKind.source, 513, Instr.sourceSet 0 0).fst = SetKind.tone → 255 ≠ 0) ∧
    (ask up 0 (oneItem 513 255 64)).sets.pending = none) ∧
    InHand (ask up 0 (badLength 513 0 64)) 0 (SetKind.source, 513, Instr.sourceSet 0 0).snd.fst (badLength 513 0
      64) ∧
    InHand (ask up 0 (oneItem 772 0 160)) 0 (SetKind.tone, 772, Instr.toneProfileSet 0 0).snd.fst (oneItem 772 0
      160) ∧
    InHand (ask up 0 (oneItem 513 255 64)) 0 (SetKind.source, 513, Instr.sourceSet 0 0).snd.fst (oneItem 513 255
      64) :=
  ⟨by decide +kernel, ask_inHand rfl rfl, ask_inHand rfl rfl, ask_inHand rfl rfl⟩

/-- Premises of `Obligations.ItemsAreWrittenAndReadBack`, clause by clause. -/
theorem witness_ItemsAreWrittenAndReadBack_2 :
    (itemList (oneItem 769 1023 64) (kindSize (SetKind.layer, 769, Instr.layerSet 0 0).fst) (kindLast
      (SetKind.layer, 769, Instr.layerSet 0 0).fst) = Sum.inr (1023, [0]) ∧ [0] ≠ [] ∧
    ((SetKind.layer, 769, Instr.layerSet 0 0).fst = SetKind.tone → 1023 ≠ 0) ∧
    (ask up 0 (oneItem 769 1023 64)).sets.pending = none ∧
    itemList (oneItem 772 63 160) (kindSize (SetKind.tone, 772, Instr.toneProfileSet 0 0).fst) (kindLast
      (SetKind.tone, 772, Instr.toneProfileSet 0 0).fst) = Sum.inr (63, [0]) ∧
    ((SetKind.tone, 772, Instr.toneProfileSet 0 0).fst = SetKind.tone → 63 ≠ 0) ∧
    (ask up 0 (oneItem 772 63 160)).sets.pending = none ∧
    itemList (oneItem 1025 31 64) (kindSize (SetKind.output, 1025, Instr.outputSet 0 0).fst) (kindLast
      (SetKind.output, 1025, Instr.outputSet 0 0).fst) = Sum.inr (31, [0]) ∧
    ((SetKind.output, 1025, Instr.outputSet 0 0).fst = SetKind.tone → 31 ≠ 0) ∧
    (ask up 0 (oneItem 1025 31 64)).sets.pending = none) ∧
    InHand (ask up 0 (oneItem 769 1023 64)) 0 (SetKind.layer, 769, Instr.layerSet 0 0).snd.fst (oneItem 769 1023
      64) ∧
    InHand (ask up 0 (oneItem 772 63 160)) 0 (SetKind.tone, 772, Instr.toneProfileSet 0 0).snd.fst (oneItem 772 63
      160) ∧
    InHand (ask up 0 (oneItem 1025 31 64)) 0 (SetKind.output, 1025, Instr.outputSet 0 0).snd.fst (oneItem 1025 31
      64) :=
  ⟨by decide +kernel, ask_inHand rfl rfl, ask_inHand rfl rfl, ask_inHand rfl rfl⟩

/-- Premises of `Obligations.ItemsAreWrittenAndReadBack`, clause by clause. -/
theorem witness_ItemsAreWrittenAndReadBack_3 :
    (itemList (oneItem 1537 31 16) (kindSize (SetKind.fresh, 1537, Instr.freshPolicySet 0 0).fst) (kindLast
      (SetKind.fresh, 1537, Instr.freshPolicySet 0 0).fst) = Sum.inr (31, [0]) ∧ [0] ≠ [] ∧
    ((SetKind.fresh, 1537, Instr.freshPolicySet 0 0).fst = SetKind.tone → 31 ≠ 0) ∧
    (ask up 0 (oneItem 1537 31 16)).sets.pending = none ∧
    itemList (oneItem 513 255 64) (kindSize (SetKind.source, 513, Instr.sourceSet 0 0).fst) (kindLast
      (SetKind.source, 513, Instr.sourceSet 0 0).fst) = Sum.inr (255, [0]) ∧
    ((SetKind.source, 513, Instr.sourceSet 0 0).fst = SetKind.tone → 255 ≠ 0) ∧
    (ask heldAlmost 0 (oneItem 513 255 64)).sets.pending.isSome = true ∧
    (ask heldAlmost 0 (oneItem 513 255 64)).sets.held.length + [0].length ≤ 4096) ∧
    InHand (ask up 0 (oneItem 1537 31 16)) 0 (SetKind.fresh, 1537, Instr.freshPolicySet 0 0).snd.fst (oneItem 1537
      31 16) ∧
    InHand (ask heldAlmost 0 (oneItem 513 255 64)) 0 (SetKind.source, 513, Instr.sourceSet 0 0).snd.fst (oneItem
      513 255 64) :=
  ⟨by decide +kernel, ask_inHand rfl rfl, ask_inHand rfl rfl⟩

/-- Premises of `Obligations.ItemsAreWrittenAndReadBack`, clause by clause. -/
theorem witness_ItemsAreWrittenAndReadBack_4 :
    (itemList (oneItem 513 255 64) (kindSize (SetKind.source, 513, Instr.sourceSet 0 0).fst) (kindLast
      (SetKind.source, 513, Instr.sourceSet 0 0).fst) = Sum.inr (255, [0]) ∧ [0] ≠ [] ∧
    ((SetKind.source, 513, Instr.sourceSet 0 0).fst = SetKind.tone → 255 ≠ 0) ∧
    (ask heldFull 0 (oneItem 513 255 64)).sets.pending.isSome = true ∧
    4096 < (ask heldFull 0 (oneItem 513 255 64)).sets.held.length + [0].length ∧
    (ask up 0 (oneItem 513 255 64)).sets.pending = none ∧
    itemList (oneItem 513 255 64) (kindSize SetKind.source) (kindLast SetKind.source) = Sum.inr (255, [0]) ∧
    (ask up 0 (oneItem 769 1023 64)).sets.pending = none ∧
    itemList (oneItem 769 1023 64) (kindSize SetKind.layer) (kindLast SetKind.layer) = Sum.inr (1023, [0])) ∧
    InHand (ask heldFull 0 (oneItem 513 255 64)) 0 (SetKind.source, 513, Instr.sourceSet 0 0).snd.fst (oneItem 513
      255 64) ∧ InHand (ask up 0 (oneItem 513 255 64)) (0) 513 (oneItem 513 255 64) ∧
    InHand (ask up 0 (oneItem 769 1023 64)) (0) 769 (oneItem 769 1023 64) :=
  ⟨by decide +kernel, ask_inHand rfl rfl, ask_inHand rfl rfl, ask_inHand rfl rfl⟩

/-- Premises of `Obligations.ItemsAreWrittenAndReadBack`, clause by clause. -/
theorem witness_ItemsAreWrittenAndReadBack_5 :
    ((ask up 0 (oneItem 772 63 160)).sets.pending = none ∧
    itemList (oneItem 772 63 160) (kindSize SetKind.tone) (kindLast SetKind.tone) = Sum.inr (63, [0]) ∧ 63 ≠ 0 ∧
    (ask up 0 (oneItem 1025 31 64)).sets.pending = none ∧
    itemList (oneItem 1025 31 64) (kindSize SetKind.output) (kindLast SetKind.output) = Sum.inr (31, [0]) ∧
    (ask up 0 (oneItem 1537 31 16)).sets.pending = none ∧
    itemList (oneItem 1537 31 16) (kindSize SetKind.fresh) (kindLast SetKind.fresh) = Sum.inr (31, [0])) ∧
    InHand (ask up 0 (oneItem 772 63 160)) (0) 772 (oneItem 772 63 160) ∧
    InHand (ask up 0 (oneItem 1025 31 64)) (0) 1025 (oneItem 1025 31 64) ∧
    InHand (ask up 0 (oneItem 1537 31 16)) (0) 1537 (oneItem 1537 31 16) :=
  ⟨by decide +kernel, ask_inHand rfl rfl, ask_inHand rfl rfl, ask_inHand rfl rfl⟩

/-- Premises of `Obligations.ItemsAreWrittenAndReadBack`, clause by clause. -/
theorem witness_ItemsAreWrittenAndReadBack_6 :
    ones 128 < 2 ^ (8 * kindSize SetKind.fresh) ∧ ones 512 < 2 ^ (8 * kindSize SetKind.output) ∧
    ones 512 < 2 ^ (8 * kindSize SetKind.layer) ∧ ones 512 < 2 ^ (8 * kindSize SetKind.source) ∧
    ones 1280 < 2 ^ (8 * kindSize SetKind.tone) :=
  by decide +kernel

/-- Premises of `Obligations.SetAndGroupMessages`, clause by clause. -/
theorem witness_SetAndGroupMessages_1 :
    ((ask commitPending 0 (req 1286 0 0)).sets.pending.isSome = true ∧
    (ask layerShadow 0 (req 1286 0 0)).sets.pending = none ∧ kindOfCode (readLast.u8 1) = some SetKind.source ∧
    readLast.u8 0 ≤ 1 ∧
    cutList (readLast.u16 4) (readLast.u16 6) (kindLast SetKind.source + 1) (kindSize SetKind.source)
      readLast.room = some [255] ∧ kindOfCode (readPast.u8 1) = some SetKind.source ∧ readPast.u8 0 ≤ 1 ∧
    cutList (readPast.u16 4) (readPast.u16 6) (kindLast SetKind.source + 1) (kindSize SetKind.source)
      readPast.room = none) ∧ InHand (ask commitPending 0 (req 1286 0 0)) (0) 1286 (req 1286 0 0) ∧
    InHand (ask layerShadow 0 (req 1286 0 0)) (0) 1286 (req 1286 0 0) ∧
    InHand (ask layerShadow 0 readLast) (0) 1287 readLast ∧ InHand (ask layerShadow 0 readPast) (0) 1287 readPast :=
  ⟨by decide +kernel, ask_inHand rfl rfl, ask_inHand rfl rfl, ask_inHand rfl rfl, ask_inHand rfl rfl⟩

/-- Premises of `Obligations.SetAndGroupMessages`, clause by clause. -/
theorem witness_SetAndGroupMessages_2 :
    ((ask commitPending 0 stripe4).sets.pending.isSome = true ∧ (ask layerShadow 0 stripe4).sets.pending = none ∧
    stripe4.u16 0 ≤ 1023 ∧ 2 ≤ stripe4.u8 2 ∧ stripe4.u8 2 ≤ 4 ∧
    layEnable ((ask layerShadow 0 stripe4).sets.shadow.layer (stripe4.u16 0)) = true ∧
    layStriped ((ask layerShadow 0 stripe4).sets.shadow.layer (stripe4.u16 0)) = false ∧
    ((stripe4.u16 0 :: List.take (stripe4.u8 2 - 1) (List.filter (fun i => !layEnable ((ask layerShadow 0
      stripe4).sets.shadow.layer i)) (upTo 1024))).length = stripe4.u8 2) ∧
    (∀ (i : Nat), i < stripe4.u8 2 → layCropW (stripeOf ((ask layerShadow 0 stripe4).sets.shadow.layer
      (stripe4.u16 0)) (stripe4.u8 2) i (stripe4.u16 0)) ≤ 4096)) ∧
    InHand (ask commitPending 0 stripe4) (0) 771 stripe4 ∧ InHand (ask layerShadow 0 stripe4) (0) 771 stripe4 :=
  ⟨by decide +kernel, ask_inHand rfl rfl, ask_inHand rfl rfl⟩

/-- Premises of `Obligations.SetAndGroupMessages`, clause by clause. -/
theorem witness_SetAndGroupMessages_3 :
    ((ask commitPending 0 groupEmpty).sets.pending.isSome = true ∧ (ask up 0 groupPast).sets.pending = none ∧
    15 < groupPast.u8 0 ∧ (ask up 0 groupTaken).sets.pending = none ∧ groupTaken.u8 0 ≤ 15 ∧
    (ask up 0 groupTaken).groupCheck (groupTaken.u8 0) (groupKept (groupTaken.payload.at 4 16)) = some
      stNotSupported ∧ (ask up 0 groupEmpty).sets.pending = none ∧ groupEmpty.u8 0 ≤ 15 ∧
    (ask up 0 groupEmpty).groupCheck (groupEmpty.u8 0) (groupKept (groupEmpty.payload.at 4 16)) = none) ∧
    InHand (ask commitPending 0 groupEmpty) (0) 1284 groupEmpty ∧ InHand (ask up 0 groupPast) (0) 1284 groupPast ∧
    InHand (ask up 0 groupTaken) (0) 1284 groupTaken ∧ InHand (ask up 0 groupEmpty) (0) 1284 groupEmpty :=
  ⟨by decide +kernel, ask_inHand rfl rfl, ask_inHand rfl rfl, ask_inHand rfl rfl, ask_inHand rfl rfl⟩

/-- Premises of `Obligations.CommitsClearAndSettle`, clause by clause. -/
theorem witness_CommitsClearAndSettle_1 :
    ((ask commitPending 0 (commitOf 0 0)).sets.pending.isSome = true ∧
    (ask up 0 (commitOf 16 0)).sets.pending = none ∧ 15 < (commitOf 16 0).u8 0 ∧
    (ask up 0 (commitOf 15 3)).sets.pending = none ∧ (commitOf 15 3).u8 0 ≤ 15 ∧
    (((commitOf 15 3).u8 1).testBit 1 = true → (ask up 0 (commitOf 15 3)).canHold 0 = true) ∧
    rejectedUp.sets.pending = some clearing ∧ clearing.state = CommitState.clearing ∧ rejectedUp.tellerUp = true ∧
    (rejectedUp.elapse 0).clear rejectedUp.sets.shadow = some reject0) ∧
    InHand (ask commitPending 0 (commitOf 0 0)) (0) 1281 (commitOf 0 0) ∧
    InHand (ask up 0 (commitOf 16 0)) (0) 1281 (commitOf 16 0) ∧
    InHand (ask up 0 (commitOf 15 3)) (0) 1281 (commitOf 15 3) :=
  ⟨by decide +kernel, ask_inHand rfl rfl, ask_inHand rfl rfl, ask_inHand rfl rfl⟩

/-- Premises of `Obligations.CommitsClearAndSettle`, clause by clause. -/
theorem witness_CommitsClearAndSettle_2 :
    clearingUp.sets.pending = some clearing ∧ clearing.state = CommitState.clearing ∧ clearingUp.tellerUp = true ∧
    (clearingUp.elapse 5).clear clearingUp.sets.shadow = none ∧ isHead (grpMaster (stagingUp.group 0)) = true ∧
    stagingUp.sets.pending = some staging ∧ staging.group = 0 ∧ staging.room = none ∧
    staging.req = some (commitOf 0 0) ∧ staging.eligibleAt = some 0 ∧ 0 < stagingUp.time.now + 1 ∧
    staging.stagingDone = false :=
  by decide +kernel

/-- Premises of `Obligations.CommitsClearAndSettle`, clause by clause. -/
theorem witness_CommitsClearAndSettle_3 :
    isHead (grpMaster (fencedUp.group 0)) = true ∧ fencedUp.sets.pending = some staged ∧ staged.group = 0 ∧
    staged.room = none ∧ staged.req = some (commitOf 0 0) ∧ staged.eligibleAt = some 0 ∧ 0 < fencedUp.time.now + 1 ∧
    staged.stagingDone = true ∧ fencedUp.waitingFences ≠ [] ∧ staged.defers < grpDeferLimit (fencedUp.group 0) :=
  by decide +kernel

/-- Premises of `Obligations.CommitsClearAndSettle`, clause by clause. -/
theorem witness_CommitsClearAndSettle_4 :
    isHead (grpMaster (fenced3Up.group 0)) = true ∧ fenced3Up.sets.pending = some staged3 ∧ staged3.group = 0 ∧
    staged3.room = none ∧ staged3.req = some (commitOf 0 0) ∧ staged3.eligibleAt = some 0 ∧
    0 < fenced3Up.time.now + 1 ∧ staged3.stagingDone = true ∧
    (fenced3Up.waitingFences = [] ∨ grpDeferLimit (fenced3Up.group 0) ≤ staged3.defers) ∧
    isHead (grpMaster (stagedUp.group 0)) = true ∧ stagedUp.sets.pending = some staged ∧ staged.group = 0 ∧
    staged.room = none ∧ staged.req = some (commitOf 0 0) ∧ staged.eligibleAt = some 0 ∧ 0 < stagedUp.time.now + 1 ∧
    staged.stagingDone = true ∧ (stagedUp.waitingFences = [] ∨ grpDeferLimit (stagedUp.group 0) ≤ staged.defers) :=
  by decide +kernel

/-- Premises of `Obligations.CommitsClearAndSettle`, clause by clause. -/
theorem witness_CommitsClearAndSettle_5 :
    (stagingUp.sets.pending = some staging ∧ staging.eligibleAt.isSome = true ∧ staging.stagingDone = false ∧
    stagingUp.sets.effect = none ∧ stagingUp.composeOff = false ∧
    (ask settledLast 0 (req 1282 0 0)).sets.pending.or (ask settledLast 0 (req 1282 0 0)).sets.last = some
      lastCommit ∧ (ask stagedUp 0 (req 1283 0 0)).sets.pending = some staged ∧
    (ask settledLast 0 (req 1283 0 0)).sets.pending = none ∧ (ask settledLast 0 (req 1283 0 0)).sets.effect = none) ∧
    InHand (ask settledLast 0 (req 1282 0 0)) (0) 1282 (req 1282 0 0) ∧
    InHand (ask stagedUp 0 (req 1283 0 0)) (0) 1283 (req 1283 0 0) ∧
    InHand (ask settledLast 0 (req 1283 0 0)) (0) 1283 (req 1283 0 0) :=
  ⟨by decide +kernel, ask_inHand rfl rfl, ask_inHand rfl rfl, ask_inHand rfl rfl⟩

/-- Premises of `Obligations.CommitsClearAndSettle`, clause by clause. -/
theorem witness_CommitsClearAndSettle_6 :
    ((ask reportedUp 0 (cancelAt 9)).sets.pending = none ∧
    (ask reportedUp 0 (cancelAt 9)).sets.effect = some (reportedCommit, [0]) ∧
    (reportedCommit.reported = true ∨ (cancelAt 9).time ≤ reportedCommit.sampledAt) ∧
    (ask effectUp 0 (cancelAt 5)).sets.pending = none ∧
    (ask effectUp 0 (cancelAt 5)).sets.effect = some (effectCommit, [0]) ∧
    (effectCommit.reported = true ∨ (cancelAt 5).time ≤ effectCommit.sampledAt) ∧
    (ask effectUp 0 (cancelAt 6)).sets.pending = none ∧
    (ask effectUp 0 (cancelAt 6)).sets.effect = some (effectCommit, [0]) ∧ effectCommit.reported = false ∧
    effectCommit.sampledAt < (cancelAt 6).time) ∧ InHand (ask reportedUp 0 (cancelAt 9)) (0) 1283 (cancelAt 9) ∧
    InHand (ask effectUp 0 (cancelAt 5)) (0) 1283 (cancelAt 5) ∧
    InHand (ask effectUp 0 (cancelAt 6)) (0) 1283 (cancelAt 6) :=
  ⟨by decide +kernel, ask_inHand rfl rfl, ask_inHand rfl rfl, ask_inHand rfl rfl⟩

/-- Premises of `Obligations.MintsAndSurfaces`, clause by clause. -/
theorem witness_MintsAndSurfaces_1 :
    ((ask dramUp 0 (surfSet 0)).surfaceCheck ((surfSet 0).u8 0) ((surfSet 0).payload.bits 320) = some stZeroField ∧
    (ask dramUp 0 (surfSet 16)).surfaceCheck ((surfSet 16).u8 0) ((surfSet 16).payload.bits 320) = none ∧
    publish1.u8 0 ≤ 127 ∧ publish1.u8 1 ≤ 2 ∧ ((ask surfUp 0 publish1).surface (publish1.u8 0)).desc = some surfDesc ∧
    (surfBuffer surfDesc (publish1.u8 1) = 0 ∨ (ask surfUp 0 publish1).bufferInside surfDesc (publish1.u8 1) =
      false) ∧ publish0.u8 0 ≤ 127 ∧ publish0.u8 1 ≤ 2 ∧
    ((ask surfUp 0 publish0).surface (publish0.u8 0)).desc = some surfDesc ∧ surfBuffer surfDesc (publish0.u8 1) ≠ 0 ∧
    (ask surfUp 0 publish0).bufferInside surfDesc (publish0.u8 1) = true) ∧
    InHand (ask dramUp 0 (surfSet 0)) (0) 516 (surfSet 0) ∧ InHand (ask dramUp 0 (surfSet 16)) (0) 516 (surfSet 16) ∧
    InHand (ask surfUp 0 publish1) (0) 517 publish1 ∧ InHand (ask surfUp 0 publish0) (0) 517 publish0 :=
  ⟨by decide +kernel, ask_inHand rfl rfl, ask_inHand rfl rfl, ask_inHand rfl rfl, ask_inHand rfl rfl⟩

/-- Premises of `Obligations.MintsAndSurfaces`, clause by clause. -/
theorem witness_MintsAndSurfaces_2 :
    surfUp.tellerUp = true ∧ (surfUp.surface 127).inUse.getLsbD 0 = true ∧ (surfUp.surface 127).newest ≠ some 0 ∧
    surfUp.bufferNamed 127 0 = false ∧ (surfUp.elapse 0).bufferRead 127 0 = false :=
  by decide +kernel

/-- Premises of `Obligations.SourceMessages`, clause by clause. -/
theorem witness_SourceMessages_1 :
    (cutList ((req 514 4 (7 + 2 ^ 16)).u16 0) ((req 514 4 (7 + 2 ^ 16)).u16 2) 256 60 (req 514 4 (7 + 2 ^
      16)).room = some [7] ∧
    cutList ((req 523 4 (255 + 2 ^ 17)).u16 0) ((req 523 4 (255 + 2 ^ 17)).u16 2) 256 40 (req 523 4 (255 + 2 ^
      17)).room = some [255] ∧ (req 518 0 0).length = 0 ∧
    (0 < (req 518 3 0).length ∧ (req 518 3 0).length < 4 ∨ 4100 < (req 518 3 0).length) ∧
    (0 < (req 518 4101 0).length ∧ (req 518 4101 0).length < 4 ∨ 4100 < (req 518 4101 0).length)) ∧
    InHand (ask rtpUp 0 (req 514 4 (7 + 2 ^ 16))) (0) 514 (req 514 4 (7 + 2 ^ 16)) ∧
    InHand (ask rtpUp 0 (req 523 4 (255 + 2 ^ 17))) (0) 523 (req 523 4 (255 + 2 ^ 17)) ∧
    InHand (ask rtpUp 0 (req 518 0 0)) (0) 518 (req 518 0 0) ∧
    InHand (ask rtpUp 0 (req 518 3 0)) (0) 518 (req 518 3 0) ∧
    InHand (ask rtpUp 0 (req 518 4101 0)) (0) 518 (req 518 4101 0) :=
  ⟨by decide +kernel, ask_inHand rfl rfl, ask_inHand rfl rfl, ask_inHand rfl rfl, ask_inHand rfl rfl,
  ask_inHand rfl rfl⟩

/-- Premises of `Obligations.SourceMessages`, clause by clause. -/
theorem witness_SourceMessages_2 :
    (4 < paramsOne.length ∧ paramsOne.length ≤ 4100 ∧
    nalUnits (paramsOne.payload.slice 4 (paramsOne.length - 4)) (paramsOne.payload.slice 4 (paramsOne.length -
      4)).len = some paramNal ∧
    (∀ (n : Bytes), n ∈ paramNal → (ask rtpUp 0 paramsOne).paramAllowed (paramsOne.u8 0) n = true) ∧
    (req 518 4 7).length = 4 ∧
    (srcKind ((ask surfUp 0 (req 519 4 255)).srcDesc ((req 519 4 255).u8 0)) = kindKinik ∨ srcKind ((ask surfUp 0
      (req 519 4 255)).srcDesc ((req 519 4 255).u8 0)) = kindHost) ∧
    kindIsRtp (srcKind ((ask rtpUp 0 restart7).srcDesc (restart7.u8 0))) = true ∧
    ((ask rtpUp 0 restart7).srcRun (restart7.u8 0)).subscribed = true) ∧
    InHand (ask rtpUp 0 paramsOne) (0) 518 paramsOne ∧ InHand (ask rtpUp 0 (req 518 4 7)) (0) 518 (req 518 4 7) ∧
    InHand (ask surfUp 0 (req 519 4 255)) (0) 519 (req 519 4 255) ∧ InHand (ask rtpUp 0 restart7) (0) 519 restart7 :=
  ⟨by decide +kernel, ask_inHand rfl rfl, ask_inHand rfl rfl, ask_inHand rfl rfl, ask_inHand rfl rfl⟩

/-- Premises of `Obligations.PacketsAndTimers`, clause by clause. -/
theorem witness_PacketsAndTimers_1 :
    rtpUp.windowUp = true ∧ (rtpUp.eth 0).setting = some ethDesc ∧ ethOn ethDesc = true ∧ (rtpUp.eth 0).up = true ∧
    frameAllowed ethDesc oversize = false ∧ frameAllowed ethDesc arp = true ∧
    arp.body = EthBody.arpRequest arpTarget ∧ arpTarget ≠ 0 ∧ arpTarget = mapped4 (ethNet ethDesc 16 4) ∧
    frameAllowed ethDesc inTurn = true ∧ inTurn.body = EthBody.rtp (rtpPkt 0) ∧
    ((rtpUp.deliverTo (0) inTurn fun i => srcUdpPort (rtpUp.srcDesc i) == inTurn.udpDst) = some 7) ∧
    (rtpPkt 0).payloadType = srcPayloadType (rtpUp.srcDesc 7) ∧ srcSrtp (rtpUp.srcDesc 7) = 0 ∧
    (rtpPkt 0).unsupported = false ∧ srcSsrcMatch (rtpUp.srcDesc 7) = false ∧ (rtpUp.srcRun 7).ssrc = some 9 ∧
    9 = (rtpPkt 0).ssrc ∧ (rtpUp.srcRun 7).pos = some 65535 ∧ (rtpPkt 0).seq < 65536 ∧
    (rtpPkt 0).seq = (65535 + 1) % 65536 ∧ (rtpUp.srcRun 7).packets = [] ∧
    (rtpUp.srcRun 7).lastTs ≠ some (rtpPkt 0).ts ∧ (rtpPkt 0).marker = false ∧ (rtpPkt 0).size ≤ 9216 ∧
    rtpUp.frozenChans = [] ∧ (rtpUp.elapse 0).jitterLevel + (rtpPkt 0).size ≤ 1200000 :=
  by decide +kernel

/-- Premises of `Obligations.PacketsAndTimers`, clause by clause. -/
theorem witness_PacketsAndTimers_2 :
    rtpFullUp.windowUp = true ∧ (rtpFullUp.eth 0).setting = some ethDesc ∧ ethOn ethDesc = true ∧
    (rtpFullUp.eth 0).up = true ∧ frameAllowed ethDesc inTurn = true ∧ inTurn.body = EthBody.rtp (rtpPkt 0) ∧
    ((rtpFullUp.deliverTo (0) inTurn fun i => srcUdpPort (rtpFullUp.srcDesc i) == inTurn.udpDst) = some 7) ∧
    (rtpPkt 0).payloadType = srcPayloadType (rtpFullUp.srcDesc 7) ∧ srcSrtp (rtpFullUp.srcDesc 7) = 0 ∧
    (rtpPkt 0).unsupported = false ∧ srcSsrcMatch (rtpFullUp.srcDesc 7) = false ∧ (rtpFullUp.srcRun 7).ssrc = some 9 ∧
    9 = (rtpPkt 0).ssrc ∧ (rtpFullUp.srcRun 7).pos = some 65535 ∧ (rtpPkt 0).seq < 65536 ∧
    (rtpPkt 0).seq = (65535 + 1) % 65536 ∧ (rtpFullUp.srcRun 7).packets = [] ∧
    (rtpFullUp.srcRun 7).lastTs ≠ some (rtpPkt 0).ts ∧ rtpFullUp.frozenChans = [] ∧
    1200000 < (rtpFullUp.elapse 0).jitterLevel + (rtpPkt 0).size :=
  by decide +kernel

/-- Premises of `Obligations.PacketsAndTimers`, clause by clause. -/
theorem witness_PacketsAndTimers_3 :
    rtpUp.windowUp = true ∧ (rtpUp.eth 0).setting = some ethDesc ∧ ethOn ethDesc = true ∧ (rtpUp.eth 0).up = true ∧
    frameAllowed ethDesc duplicate = true ∧ duplicate.body = EthBody.rtp (rtpPkt 65535) ∧
    ((rtpUp.deliverTo (0) duplicate fun i => srcUdpPort (rtpUp.srcDesc i) == duplicate.udpDst) = some 7) ∧
    (rtpPkt 65535).payloadType = srcPayloadType (rtpUp.srcDesc 7) ∧ srcSrtp (rtpUp.srcDesc 7) = 0 ∧
    (rtpPkt 65535).unsupported = false ∧ srcSsrcMatch (rtpUp.srcDesc 7) = false ∧ (rtpUp.srcRun 7).ssrc = some 9 ∧
    9 = (rtpPkt 65535).ssrc ∧ (rtpUp.srcRun 7).pos = some 65535 ∧ (rtpPkt 65535).seq < 65536 ∧
    (rtpPkt 65535).seq = 65535 % 65536 :=
  by decide +kernel

/-- Premises of `Obligations.PacketsAndTimers`, clause by clause. -/
theorem witness_PacketsAndTimers_4 :
    (rtpUp.srcRun 7).rrTo = some (receiver, 5001) ∧ (rtpUp.srcRun 7).subscribed = true ∧
    kindIsRtp (srcKind (rtpUp.srcDesc 7)) = true ∧ srcRtcpRr (rtpUp.srcDesc 7) = true ∧
    (rtpUp.eth (srcPort (rtpUp.srcDesc 7))).setting = some ethDesc ∧
    rtpUp.routed (srcPort (rtpUp.srcDesc 7)) receiver = true ∧ ethOn ethDesc = true ∧
    (rtpUp.eth (srcPort (rtpUp.srcDesc 7))).up = true ∧ (portOffUp.srcRun 7).rrTo = some (receiver, 5001) ∧
    (portOffUp.srcRun 7).subscribed = true ∧ kindIsRtp (srcKind (portOffUp.srcDesc 7)) = true ∧
    srcRtcpRr (portOffUp.srcDesc 7) = true ∧ (portOffUp.eth (srcPort (portOffUp.srcDesc 7))).setting = some ethOff ∧
    portOffUp.routed (srcPort (portOffUp.srcDesc 7)) receiver = true ∧ ethOn ethOff = false :=
  by decide +kernel

/-- Premises of `Obligations.PacketsAndTimers`, clause by clause. -/
theorem witness_PacketsAndTimers_5 :
    (rtpHeldUp.srcRun 7).pos = some 65536 ∧ (rtpHeldUp.srcRun 7).packets = [oneHeld] ∧
    oneHeld.arrival + srcJitter (rtpHeldUp.srcDesc 7) * 1000000 ≤ (rtpHeldUp.elapse 40000000).time.room ∧
    (rtpUp.srcRun 7).otherSsrc = some 4 ∧ (rtpUp.elapse 500000000).ssrcSilent 7 = true ∧
    (rtpUp.srcRun 7).subscribed = true ∧ (rtpUp.srcRun 7).lost = none ∧ srcKind (rtpUp.srcDesc 7) ≠ kindHost ∧
    (rtpUp.srcRun 7).lastArrival + srcLossTimeout (rtpUp.srcDesc 7) * 1000000 < (rtpUp.elapse 600000000).time.room
      :=
  by decide +kernel

/-- Premises of `Obligations.PicturesAndDecoders`, clause by clause. -/
theorem witness_PicturesAndDecoders_1 :
    ((decoding lostUnit).decRun 7).queue = [lostUnit] ∧ ((decoding lostUnit).decRun 7).window = none ∧
    lostUnit.incomplete = true ∧ (∀ (u : AuInfo), lostUnit.info = some u → u.kind ≠ PicKind.rasl) ∧
    ((decoding idrUnit).decRun 7).queue = [idrUnit] ∧ ((decoding idrUnit).decRun 7).window = none ∧
    idrUnit.incomplete = false ∧ idrUnit.info = some idrInfo ∧ idrInfo.kind = PicKind.idr ∧ idrInfo.refs = [] ∧
    idrInfo.syntaxBad = none ∧ idrInfo.coverageBad = none ∧ idrInfo.hashBad = none ∧ idrInfo.refReadBad = none ∧
    activeSets (srcKind ((decoding idrUnit).srcDesc 7) == kindH265) (replaceSets ((decoding idrUnit).decRun
      7).sets idrInfo.sets) idrInfo.pps = Sum.inr active64 ∧
    Active.unsupported (srcKind ((decoding idrUnit).srcDesc 7) == kindH265) active64 idrInfo.tool = none ∧
    ((decoding idrUnit).decRun 7).sps = some sps64 ∧ sps64.width = active64.sps.width ∧
    sps64.height = active64.sps.height ∧ ((decoding idrUnit).decRun 7).core.isSome = true ∧
    ((decoding idrUnit).decRun 7).state = DecState.running ∧ ((decoding idrUnit).decRun 7).recoverTo = none :=
  by decide +kernel

/-- Premises of `Obligations.PicturesAndDecoders`, clause by clause. -/
theorem witness_PicturesAndDecoders_2 :
    ((windowOf 901).decRun 7).window = some (0, 901) ∧ 0 + 1000000000 ≤ ((windowOf 901).elapse 1000000000).time.room ∧
    9 * ((windowOf 901).decRun 7).cost < 8 * 901 ∧ ((windowOf 900).decRun 7).window = some (0, 900) ∧
    0 + 1000000000 ≤ ((windowOf 900).elapse 1000000000).time.room ∧ 8 * 900 ≤ 9 * ((windowOf 900).decRun 7).cost ∧
    ((windowOf 900).decRun 7).summary = some (0, 2, 8208, 5) ∧
    0 + 10000000000 ≤ (windowOf 900).time.now + 10000000000 ∧ ((windowOf 900).decRun 7).summary.isSome = true ∧
    ((windowOf 900).decRun 7).stopTimes.getLast?.getD 0 + 60000000000 ≤ (windowOf 900).time.now + 60000000000 :=
  by decide +kernel

/-- Premises of `Obligations.PicturesAndDecoders`, clause by clause. -/
theorem witness_PicturesAndDecoders_3 :
    (coreUp.domain (4 + 0)).on = true ∧ (coreUp.src.cores.get {} 0).failed = false :=
  by decide +kernel


/-- Tile records: four rectangles of the widest fields; a dense one of 16 layers. -/
def wideRect : LiveRect := { layer := 1023, rect := ⟨63, 31, 63, 31⟩, stamp := 65535, aged := true, state := 2 }
def fourRects : TileRec := { crc := 2 ^ 32 - 1, tag := 255, sectors := 63, slot := 3, rects := List.replicate 4 wideRect }
def denseForm : DenseForm := { stamp := 65535, aged := true, state := 1, layers := List.replicate 16 1023 }
def denseRec : TileRec := { crc := 7, tag := 255, sectors := 63, slot := 3, dense := some denseForm }
/-- Head 0 shows one layer of source 0; tile 0 holds a rectangle of it with a stamp and a state. -/
def rectOf (stamp state : Nat) : LiveRect := { layer := 0, rect := ⟨1, 2, 9, 8⟩, stamp := stamp, state := state }
def headSet : ConfigSet := { sources := [(0, srcOf 1 0)], layers := [(0, layerOf 0 0 0)], outputs := [(0, outOn 0)] }
def tileUp (written fault : Bool) (stamp state : Nat) : State :=
  { up with
    sets := { up.sets with active := headSet }
    comp := { up.comp with tiles := [(0, { record := { rects := [rectOf stamp state] }, written := written, fault := fault })] } }
/-- A voided area: tile 0 as a whole. -/
def wholeTile : VoidArea := ⟨none, 1, none, 0, ⟨0, 0, 63, 31⟩⟩
/-- Layers of a tile: one without a frame; one of an NV12 frame, OPAQUE with A = 1, or with A = 0. -/
def noFrameOver : Over := ⟨0, ⟨0, 0, 63, 31⟩, .inl 2⟩
def frame5 : Frame := { width := 64, height := 32, format := 3 }
def frameOver : Over := ⟨0, ⟨0, 0, 63, 31⟩, .inr frame5⟩
def oneLayer : ConfigSet := { layers := [(0, setFld (setFld layerReset 0 29 28 1) 9 31 16 65535)] }
def clearLayer : ConfigSet := { layers := [(0, setFld layerReset 9 31 16 0)] }
/-- A round in progress on output 31; one with every composition group masked off in DIM. -/
def openRound : Round := { tiles := [0] }
def roundUp : State := withComp up (fun x => { x with out := [(31, { round := some openRound })] })
def roundDim : State := withPower roundUp (fun x => { x with state := .dim, mask := 0x1E00 })
/-- `OUTPUT_EVENTS_SET` of line 2249 of head 23, the last it has, of line 2250; of no event. -/
def eventsOf (line : Nat) : Request := req 0x0403 68 (line * 2 ^ 528)
/-- Head 23 scanning at a line; about to stop; locking, held twice. -/
def scanSet : ConfigSet := { outputs := [(0, outOn 0), (23, outOn 23)] }
def headAt (x : HeadRun) : State :=
  { up with heads := [(23, x)], sets := { up.sets with active := scanSet } }
def scanHead (line : Option Nat) : HeadRun := { state := .scanning, line := line, frame := 2 ^ 32 - 1 }
def scanAt (line : Option Nat) : State := headAt (scanHead line)
def stoppingHead (reason : Nat) : State := headAt { scanHead none with stopNext := some reason }
/-- Heads 22 and 23 bonded, scanning. -/
def bondedUp : State :=
  { up with heads := [(22, scanHead (some 4))]
            sets := { up.sets with active := { outputs := [(22, setFld (outOn 22) 0 30 30 1)] } } }
def lockingHead : State := headAt { state := .locking, held := 2, frame := 7 }
/-- The same head with tile 0 written, CRC 5 in its record. -/
def crcUp : State :=
  withComp (scanAt (some 1)) (fun x => { x with tiles := [(16384 * 23, { record := { crc := 5 }, written := true })] })
/-- The same late in tile row 0: as its last line leaves, and one line later. -/
def crcLate (line : Nat) : State := { crcUp with heads := (scanAt (some line)).heads }
/-- Panel 7 pushes an area that tile 0 meets, whose record has CRC 5. -/
def crcPanel : State :=
  { up with panels := [(7, { state := .running, push := some { rects := [⟨0, 0, 9, 9⟩] } })]
            comp := { up.comp with tiles := [(16384 * 31, { record := { crc := 5 }, written := true })] } }
def crcPush : Push := { rects := [⟨0, 0, 9, 9⟩] }
def crcGood : Word := 5
def crcBad : Word := 6
/-- Head 0 on lane 0, its receivers declaring echo, with a row kept and not yet decided; an echo of it, and two others. -/
def keptRow : KeptRow := ⟨1, false, 67, 9, none, 0⟩
def echoHead : HeadRun := { state := .scanning, frame := 3, line := some 0, proven := true, kept := [keptRow] }
def echoUp : State :=
  { up with heads := [(0, echoHead)], sets := { up.sets with active := scanSet }
            links := { up.links with lanes := [(0, { state := .up, version := 0x20 })] } }
/-- The lane at link version 1.2, and a pixel lane of no head. -/
def echoOld : State := withLinks echoUp (fun x => { x with lanes := [(0, { state := .up, version := 0x12 })] })
def echoNone : State := withLinks up (fun x => { x with lanes := [(47, { state := .up, version := 0x20 })] })
/-- The same head with every other row of the frame matched. -/
def echoLast : State :=
  { echoUp with heads := [(0, { echoHead with
      kept := (upTo 67).map (fun r => ⟨1, false, r, 7, some true, 0⟩) ++ [keptRow], missRun := 2 })] }
def echoGood : EchoBlock := ⟨9, 1, false, 67, false⟩
def echoBad : EchoBlock := ⟨8, 1, false, 67, false⟩
def echoOther : EchoBlock := ⟨9, 2, false, 67, false⟩
/-- In safe state; the proof test runs. -/
def safeUp : State := withFault up (fun x => { x with safe := some ⟨0, 3, 0, 0⟩ })
def proofRuns : State := withComp up (fun x => { x with proof := some {} })
/-- `FRESH_PROOF_RUN` on head 23 at the last place that fits 3840 by 2160, and one column past it. -/
def proofAt (col row : Nat) : Request := req 0x0603 8 (2 ^ 23 + col * 2 ^ 32 + row * 2 ^ 48)
/-- An episode of layer 1023 on output 31, out of void since 5. -/
def episode0 : Episode := { layer := 1023, output := 31, clearSince := some 5 }
def episodeUp : State := withComp up (fun x => { x with episodes := [episode0] })
/-- Panel 7 with a push in progress, dark after failures or running with one failure less than its limit. -/
def push0 : Push := { full := true, rects := [⟨0, 0, 9, 9⟩] }
def panelAt (x : PanelRun) : State := { up with panels := [(7, x)] }
def pushDark : State := panelAt { state := .dark, push := some push0 }
def pushRunning : State := panelAt { state := .running, push := some push0, failRun := 2, lastTe := some 0 }
def panelStart (step : Nat) : State := panelAt { state := .starting, step := step }
def panelStop (step : Nat) : State := panelAt { state := .stopping, step := step, restart := true }
def panelWaiting : State := panelAt { state := .starting, step := 1, waitUntil := 1 }
/-- `PANEL_INIT_SET` of panel 7 with one entry of a data type and a first byte; a length of 4, of 23. -/
def initEntry (type cmd : Nat) : Request := req 0x0404 24 (7 + 2 ^ 8 + type * 2 ^ 32 + 2 ^ 40 + cmd * 2 ^ 64)
/-- `KEY_GROUP_SET` of group 7: the reset setting; one whose debounce is 0. -/
def keySet (d : KeyDesc) : Request := req 0x0801 116 (7 + 2 ^ 16 + d.toNat * 2 ^ 32)
def keyZero : KeyDesc := 0
/-- Group 7 scans with key 23 enabled at a threshold of 200 and a debounce of 3; the key's count and whether it is pressed. -/
def keyOn : KeyDesc := keyReset + BitVec.ofNat 896 (2 ^ 31 + 2 ^ (27 * 32 + 31))
def keyUp (pressed : Bool) (count : Nat) : State :=
  { up with keys := [(7, { setting := some keyOn, keys := [(23, { base := some 0, count := count, pressed := pressed })] })] }
def keyRaw (f t : Nat) : List KeySample := List.replicate 23 ⟨0, 0⟩ ++ [⟨f, t⟩]
/-- Encode job 15: enabled with the reset settings, to a multicast address, and running on core 0. -/
def encOn : EncDesc := encReset + BitVec.ofNat 512 (2 ^ 31 + 5004 * 2 ^ 192 + 0xFF * 2 ^ 256 + 5004 * 2 ^ 400)
def encCapture : Capture := { time := 5, done := true }
def encOpen : Capture := { time := 6, tiles := [{ proof := true }, { broken := [wholeTile] }] }
def encPacket : EncPacket := { ts := 3 }
def encAt (x : EncRun) : State := { up with encJobs := [(15, encOn)], enc := [(15, x)] }
def encIdle : State := encAt { state := .running, core := some 0, cost := 62208000 }
def encRing : State := encAt { state := .running, core := some 0, ring := [encCapture, encOpen] }
def encQueued : State := encAt { state := .running, core := some 0, packets := [encPacket], rtpSeq := 65535 }
/-- The same with a channel frozen; with Ethernet port 0 up. -/
def encFrozen : State := withMem encRing (fun x => { x with chans := [(0, { state := .frozen })] })
def encSending : State := withLinks encQueued (fun x => { x with eth := [(0, ethUp)] })
/-- Both encoder cores full. -/
def encFull : State :=
  { up with enc := [(0, { core := some 0, cost := 500000000 }), (1, { core := some 1, cost := 500000000 })] }
/-- `ENCODE_SET` of job 15. -/
def encSet (d : EncDesc) : Request := req 0x0701 68 (15 + d.toNat * 2 ^ 32)
def encOff : EncDesc := encReset
def encBad : EncDesc := 2 ^ 31
/-- The same job with another quantiser. -/
def encQp : EncDesc := setFld encOn 3 21 16 29
/-- A coder's picture of 2 rows of 64 columns, with a parameter set of some bytes and a reserve that covers its annex: floor at the cap of a
picture, and one byte over it. -/
def costs (head : Nat) : RowCosts :=
  ⟨[⟨head, 0⟩], ⟨0, 0⟩, List.replicate 2 ⟨100, 0⟩, List.replicate 2 ⟨50, 0⟩, List.replicate 2 ⟨16, 0⟩, 400⟩
def encCapped : EncDesc := setFld (setFld encOn 4 31 0 4096) 1 31 0 0x00400040
def capRing : State := { encRing with encJobs := [(15, encCapped)] }
def leadRoom : Nat := 4096 - 16 * 2 - 400 - annexRoom encCapped

/-- Premises of `Obligations.StampAges`, clause by clause. -/
theorem witness_StampAges_1 :
    60000 ≤ ceilDiv 70000000001 1000000 ∧ 60000 ≤ 60000 ∧ 60001 ≤ ceilDiv 70000000001 1000000 ∧ 60000 < 60001 ∧
    60001 < 61440 ∧ 61439 ≤ ceilDiv 70000000001 1000000 ∧ 60000 < 61439 ∧ 61439 < 61440 ∧
    0 ≤ ceilDiv 70000000001 1000000 ∧ 0 < 65536 :=
  by decide +kernel

/-- Premises of `Obligations.StampAges`, clause by clause. -/
theorem witness_StampAges_2 :
    65535 ≤ ceilDiv 70000000001 1000000 ∧ 65535 < 65536 ∧ 61440 ≤ ceilDiv 70000000001 1000000 ∧ 61440 ≤ 61440 ∧
    61440 < 65536 ∧ 61440 ≤ 65535 ∧ 0 ≤ ceilDiv 70000000001 1000000 ∧ 0 < 4096 ∧ 4096 ≤ 4096 ∧ 0 < 1 ∧ 1 ≤ 4096 :=
  by decide +kernel

/-- Premises of `Obligations.StampAges`, clause by clause. -/
theorem witness_StampAges_3 :
    10001000001 ≤ 70000000001 ∧ ceilDiv 70000000001 1000000 - 10001000001 / 1000000 ≤ 60000 ∧
    70000000000 ≤ 70000000001 ∧ ceilDiv 70000000001 1000000 - 70000000000 / 1000000 ≤ 60000 :=
  by decide +kernel

/-- Premises of `Obligations.TileRecordBits`, clause by clause. -/
theorem witness_TileRecordBits_1 :
    fourRects.tag < 256 ∧ fourRects.slot < 4 ∧ fourRects.sectors < 64 ∧ fourRects.crc < 2 ^ 32 ∧
    ((fourRects.rects.length ≤ 4 ∧ ∀ (x : LiveRect), x ∈ fourRects.rects → x.state < 4) ∨ ∃ d, fourRects.dense =
      some d ∧ d.state < 4 ∧ d.layers ≠ []) ∧ fourRects.dense = none ∧ fourRects.rects.length ≤ 4 ∧
    fourRects.rects[3]? = some wideRect ∧ wideRect.layer < 1024 ∧ wideRect.rect.x0 < 64 ∧ wideRect.rect.x1 < 64 ∧
    wideRect.rect.y0 < 32 ∧ wideRect.rect.y1 < 32 ∧ wideRect.stamp < 65536 ∧ wideRect.state < 4 :=
  by decide +kernel

/-- Premises of `Obligations.TileRecordBits`, clause by clause. -/
theorem witness_TileRecordBits_2 :
    denseRec.tag < 256 ∧ denseRec.slot < 4 ∧ denseRec.sectors < 64 ∧ denseRec.crc < 2 ^ 32 ∧
    denseRec.dense = some denseForm ∧ denseForm.layers ≠ [] ∧ denseForm.layers.length ≤ 16 ∧ denseForm.stamp < 65536 ∧
    denseForm.state < 4 ∧ denseForm.layers[15]? = some 1023 ∧ 1023 < 1024 :=
  by decide +kernel

/-- Premises of `Obligations.TileRecordBits`, clause by clause. -/
theorem witness_TileRecordBits_3 :
    frameOver.input = Sum.inr frame5 ∧ layBlend (oneLayer.layer frameOver.layer) = 1 ∧
    layAlpha (oneLayer.layer frameOver.layer) = 65535 ∧ frameOver.rect.holds 63 31 = true ∧
    layAlpha (clearLayer.layer frameOver.layer) = 0 ∧ 0 < 1920 ∧ 1919 < 1920 ∧ 0 < 1 ∧ 10 ≤ 16 ∧ 1 ≤ 65504 :=
  by decide +kernel

/-- Premises of `Obligations.TileRecordBits`, clause by clause. -/
theorem witness_TileRecordBits_4 :
    0 < 65504 ∧ 65504 ≤ 65504 ∧ 0 ≤ 0 ∧ eotfExact 1 (0, 1, 1) 0 ≤ 0 ∧ part (1, 1, 0) 2 ≤ 0 :=
  by decide +kernel

/-- Premises of `Obligations.StaleRectanglesAreVoided`, clause by clause. -/
theorem witness_StaleRectanglesAreVoided_1 :
    ((tileUp false false 0 0).tile 0 0).written = false ∧ ((tileUp true true 0 0).tile 0 0).written = true ∧
    ((tileUp true true 0 0).tile 0 0).record.dense = none ∧ (tileUp true true 0 0).tileFault 0 0 = true ∧
    ((tileUp true false 0 2).tile 0 0).written = true ∧ ((tileUp true false 0 2).tile 0 0).record.dense = none ∧
    (tileUp true false 0 2).tileFault 0 0 = false ∧ rectOf 0 2 ∈ ((tileUp true false 0 2).tile 0 0).record.rects ∧
    (rectOf 0 2).state = 2 ∧ ((tileUp true false 0 1).tile 0 0).written = true ∧
    ((tileUp true false 0 1).tile 0 0).record.dense = none ∧ (tileUp true false 0 1).tileFault 0 0 = false ∧
    rectOf 0 1 ∈ ((tileUp true false 0 1).tile 0 0).record.rects ∧ (rectOf 0 1).state = 1 :=
  by decide +kernel

/-- Premises of `Obligations.StaleRectanglesAreVoided`, clause by clause. -/
theorem witness_StaleRectanglesAreVoided_2 :
    ((tileUp true false 0 0).tile 0 0).written = true ∧ ((tileUp true false 0 0).tile 0 0).record.dense = none ∧
    (tileUp true false 0 0).tileFault 0 0 = false ∧ rectOf 0 0 ∈ ((tileUp true false 0 0).tile 0 0).record.rects ∧
    (rectOf 0 0).state = 0 ∧
    (tileUp true false 0 0).sets.active.bound (rectOf 0 0).layer < (stampAge 121000000 (rectOf 0 0).stamp (rectOf
      0 0).aged).fst ∧
    (∀ (r : LiveRect), r ∈ ((tileUp true false 0 0).tile 0 0).record.rects → r.state = 0 ∧ (stampAge 120000000
      r.stamp r.aged).fst ≤ (tileUp true false 0 0).sets.active.bound r.layer ∧ (tileUp true false 0 0).frozen
      (laySource ((tileUp true false 0 0).sets.active.layer r.layer)) = false) :=
  by decide +kernel

/-- Premises of `Obligations.RoundsAndOutputMessages`, clause by clause. -/
theorem witness_RoundsAndOutputMessages_1 :
    ((roundUp.outComp 31).round = some openRound ∧ openRound.done = false ∧ roundUp.composeOff = false ∧
    (roundDim.outComp 31).round = some openRound ∧ roundDim.composeOff = true ∧
    cutList ((req 773 4 (31 + 2 ^ 16)).u16 0) ((req 773 4 (31 + 2 ^ 16)).u16 2) 32 20 (req 773 4 (31 + 2 ^
      16)).room = some [31] ∧ (req 774 6 (4079 * 2 ^ 16 + 2 ^ 32)).u8 0 ≤ 31 ∧
    (ask (tileUp true false 0 0) 0 (req 774 6 (4079 * 2 ^ 16 + 2 ^ 32))).sets.active.shows ((req 774 6 (4079 * 2 ^
      16 + 2 ^ 32)).u8 0) = true ∧
    cutList ((req 774 6 (4079 * 2 ^ 16 + 2 ^ 32)).u16 2) ((req 774 6 (4079 * 2 ^ 16 + 2 ^ 32)).u16 4) (outTiles
      ((req 774 6 (4079 * 2 ^ 16 + 2 ^ 32)).u8 0) ((ask (tileUp true false 0 0) 0 (req 774 6 (4079 * 2 ^ 16 + 2 ^
      32))).outSet ((req 774 6 (4079 * 2 ^ 16 + 2 ^ 32)).u8 0))) 32 (req 774 6 (4079 * 2 ^ 16 + 2 ^ 32)).room = some
      [4079] ∧
    outTiles ((req 774 6 (4079 * 2 ^ 16 + 2 ^ 32)).u8 0) ((ask (tileUp true false 0 0) 0 (req 774 6 (4079 * 2 ^ 16
      + 2 ^ 32))).outSet ((req 774 6 (4079 * 2 ^ 16 + 2 ^ 32)).u8 0)) ≠ 0) ∧
    InHand (ask roundUp 0 (req 773 4 (31 + 2 ^ 16))) (0) 773 (req 773 4 (31 + 2 ^ 16)) ∧
    InHand (ask (tileUp true false 0 0) 0 (req 774 6 (4079 * 2 ^ 16 + 2 ^ 32))) (0) 774 (req 774 6 (4079 * 2 ^ 16
      + 2 ^ 32)) :=
  ⟨by decide +kernel, ask_inHand rfl rfl, ask_inHand rfl rfl⟩

/-- Premises of `Obligations.RoundsAndOutputMessages`, clause by clause. -/
theorem witness_RoundsAndOutputMessages_2 :
    ((req 774 8 (2 ^ 32)).u8 0 ≤ 31 ∧
    (ask (tileUp true false 0 0) 0 (req 774 8 (2 ^ 32))).sets.active.shows ((req 774 8 (2 ^ 32)).u8 0) = true ∧
    cutList ((req 774 8 (2 ^ 32)).u16 2) ((req 774 8 (2 ^ 32)).u16 4) (outTiles ((req 774 8 (2 ^ 32)).u8 0) ((ask
      (tileUp true false 0 0) 0 (req 774 8 (2 ^ 32))).outSet ((req 774 8 (2 ^ 32)).u8 0))) 32 (req 774 8 (2 ^
      32)).room = some [0] ∧
    outTiles ((req 774 8 (2 ^ 32)).u8 0) ((ask (tileUp true false 0 0) 0 (req 774 8 (2 ^ 32))).outSet ((req 774 8
      (2 ^ 32)).u8 0)) ≠ 0 ∧
    (31 < (req 774 8 32).u8 0 ∨ (ask up 0 (req 774 8 32)).sets.active.shows ((req 774 8 32).u8 0) = false) ∧
    (31 < (req 774 8 0).u8 0 ∨ (ask up 0 (req 774 8 0)).sets.active.shows ((req 774 8 0).u8 0) = false) ∧
    cutList ((req 1026 4 (23 + 2 ^ 17)).u16 0) ((req 1026 4 (23 + 2 ^ 17)).u16 2) 32 64 (req 1026 4 (23 + 2 ^
      17)).room = some [23, 24]) ∧
    InHand (ask (tileUp true false 0 0) 0 (req 774 8 (2 ^ 32))) (0) 774 (req 774 8 (2 ^ 32)) ∧
    InHand (ask up 0 (req 774 8 32)) (0) 774 (req 774 8 32) ∧ InHand (ask up 0 (req 774 8 0)) (0) 774 (req 774 8 0) ∧
    InHand (ask (scanAt none) 0 (req 1026 4 (23 + 2 ^ 17))) (0) 1026 (req 1026 4 (23 + 2 ^ 17)) :=
  ⟨by decide +kernel, ask_inHand rfl rfl, ask_inHand rfl rfl, ask_inHand rfl rfl, ask_inHand rfl rfl⟩

/-- Premises of `Obligations.RoundsAndOutputMessages`, clause by clause. -/
theorem witness_RoundsAndOutputMessages_3 :
    (∀ (h : Fin 24), (bytesOf ((eventsOf 2249).payload.bits 544)).at (20 + 2 * ↑h) 2 < headVTotal ((ask up 0
      (eventsOf 2249)).sets.active.output ↑h)) ∧ InHand (ask up 0 (eventsOf 2250)) (0) 1027 (eventsOf 2250) ∧
    InHand (ask up 0 (eventsOf 2249)) (0) 1027 (eventsOf 2249) :=
  ⟨by decide +kernel, ask_inHand rfl rfl, ask_inHand rfl rfl⟩

/-- Premises of `Obligations.HeadsScanFramesAndLines`, clause by clause. -/
theorem witness_HeadsScanFramesAndLines_1 :
    (scanAt none).windowUp = true ∧ ((scanAt none).head 23).state = HeadState.scanning ∧
    ((scanAt none).head 23).stopNext = none ∧ (stoppingHead 1).windowUp = true ∧
    ((stoppingHead 1).head 23).state = HeadState.scanning ∧ ((stoppingHead 1).head 23).stopNext = some 1 ∧
    (stoppingHead 3).windowUp = true ∧ ((stoppingHead 3).head 23).state = HeadState.scanning ∧
    ((stoppingHead 3).head 23).stopNext = some 3 ∧ lockingHead.windowUp = true ∧
    (lockingHead.head 23).state = HeadState.locking ∧ 2 ≤ (lockingHead.head 23).held ∧
    (lockingHead.head 23).safeStopped = false ∧ lockingHead.sets.active.shows 23 = true :=
  by decide +kernel

/-- Premises of `Obligations.HeadsScanFramesAndLines`, clause by clause. -/
theorem witness_HeadsScanFramesAndLines_2 :
    (scanAt (some 2249)).windowUp = true ∧ ((scanAt (some 2249)).head 23).state = HeadState.scanning ∧
    ((scanAt (some 2249)).head 23).line = some 2249 ∧ (scanAt (some 2144)).windowUp = true ∧
    ((scanAt (some 2144)).head 23).state = HeadState.scanning ∧ ((scanAt (some 2144)).head 23).line = some 2144 ∧
    (scanAt (some 0)).windowUp = true ∧ ((scanAt (some 0)).head 23).state = HeadState.scanning ∧
    ((scanAt (some 0)).head 23).line = some 0 ∧ bondedUp.windowUp = true ∧
    (bondedUp.head 22).state = HeadState.scanning ∧ (bondedUp.head 22).line = some 4 :=
  by decide +kernel

/-- Premises of `Obligations.HeadsScanFramesAndLines`, clause by clause. -/
theorem witness_HeadsScanFramesAndLines_3 :
    wholeTile ∈ [wholeTile] ∧ wholeTile.rect.holds 0 0 = true ∧
    (∀ (a : VoidArea), a ∈ [] → a.rect.holds 0 0 = false) ∧
    ((tileUp true false 0 0).tile 0 (tileAt 0 ((tileUp true false 0 0).outSet 0) 0 0)).written = true ∧
    (tileUp true false 0 0).tileFault 0 (tileAt 0 ((tileUp true false 0 0).outSet 0) 0 0) = false ∧ 1023 < 1024 ∧
    (∀ (w : Nat), w ∈ [1073741823, 5] → w < 2 ^ 30) ∧ [1073741823, 5][1]? = some 5 :=
  by decide +kernel

/-- Premises of `Obligations.ScanoutFaultsAndEchoes`, clause by clause. -/
theorem witness_ScanoutFaultsAndEchoes_1 :
    (scanAt (some 2160)).windowUp = true ∧ ((scanAt (some 2160)).head 23).state = HeadState.scanning ∧
    (scanAt (some 2160)).inSafe = false ∧ ((scanAt (some 2160)).head 23).line = some (2159 + 1) ∧
    2159 < headVActive ((scanAt (some 2160)).outSet 23) ∧
    (List.find? (fun e => e.snd.fst == false) ((scanAt (some 2160)).headSplit 23) = some (23, false, 0, 60)) ∧
    3839 < lanePixels (outW (23) ((scanAt (some 2160)).outSet 23)) 0 60 ∧
    ¬(false, 2159 / 32) ∈ ((scanAt (some 2160)).head 23).underrunRows ∧ crcUp.windowUp = true ∧
    (crcUp.head 23).state = HeadState.scanning ∧ 23 = 23 ∧ crcUp.inSafe = false ∧
    0 < outTiles (23) (crcUp.outSet 23) ∧ (crcUp.tile (23) 0).written = true ∧ (crcUp.head 23).line = some 1 ∧
    1 + 7 < min (32 * (0 / outCols (23) (crcUp.outSet 23)) + 31) (outH (23) (crcUp.outSet 23) - 1) :=
  by decide +kernel

/-- Premises of `Obligations.ScanoutFaultsAndEchoes`, clause by clause. -/
theorem witness_ScanoutFaultsAndEchoes_2 :
    (crcLate 23).windowUp = true ∧ ((crcLate 23).head 23).state = HeadState.scanning ∧ 23 = 23 ∧
    (crcLate 23).inSafe = false ∧ 0 < outTiles (23) ((crcLate 23).outSet 23) ∧
    ((crcLate 23).tile (23) 0).written = true ∧ ((crcLate 23).head 23).line = some 23 ∧
    23 + 7 < min (32 * (0 / outCols (23) ((crcLate 23).outSet 23)) + 31) (outH (23) ((crcLate 23).outSet 23) - 1) ∧
    (crcLate 24).windowUp = true ∧ ((crcLate 24).head 23).state = HeadState.scanning ∧ (crcLate 24).inSafe = false ∧
    0 < outTiles (23) ((crcLate 24).outSet 23) ∧ ((crcLate 24).tile (23) 0).written = true ∧
    BitVec.toNat crcBad ≠ ((crcLate 24).tile (23) 0).record.crc % 2 ^ 32 ∧ ((crcLate 24).head 23).line = some 24 ∧
    min (32 * (0 / outCols (23) ((crcLate 24).outSet 23)) + 31) (outH (23) ((crcLate 24).outSet 23) - 1) ≤ 24 + 7 ∧
    24 ≤ min (32 * (0 / outCols (23) ((crcLate 24).outSet 23)) + 31) (outH (23) ((crcLate 24).outSet 23) - 1) + 1 ∧
    (∀ (e : Nat × Bool × Nat × Nat), e ∈ (crcLate 24).headSplit 23 → e.snd.snd.fst ≤ 0 % outCols (23) ((crcLate
      24).outSet 23) → 0 % outCols (23) ((crcLate 24).outSet 23) < e.snd.snd.fst + e.snd.snd.snd → ¬(e.snd.fst, 0 /
      outCols (23) ((crcLate 24).outSet 23)) ∈ ((crcLate 24).head 23).underrunRows) :=
  by decide +kernel

/-- Premises of `Obligations.ScanoutFaultsAndEchoes`, clause by clause. -/
theorem witness_ScanoutFaultsAndEchoes_3 :
    (crcLate 32).windowUp = true ∧ ((crcLate 32).head 23).state = HeadState.scanning ∧ 23 = 23 ∧
    (crcLate 32).inSafe = false ∧ 0 < outTiles (23) ((crcLate 32).outSet 23) ∧
    ((crcLate 32).tile (23) 0).written = true ∧ BitVec.toNat crcBad ≠ ((crcLate 32).tile (23) 0).record.crc % 2 ^ 32 ∧
    ((crcLate 32).head 23).line = some 32 ∧
    min (32 * (0 / outCols (23) ((crcLate 32).outSet 23)) + 31) (outH (23) ((crcLate 32).outSet 23) - 1) ≤ 32 + 7 ∧
    32 ≤ min (32 * (0 / outCols (23) ((crcLate 32).outSet 23)) + 31) (outH (23) ((crcLate 32).outSet 23) - 1) + 1 ∧
    (∀ (e : Nat × Bool × Nat × Nat), e ∈ (crcLate 32).headSplit 23 → e.snd.snd.fst ≤ 0 % outCols (23) ((crcLate
      32).outSet 23) → 0 % outCols (23) ((crcLate 32).outSet 23) < e.snd.snd.fst + e.snd.snd.snd → ¬(e.snd.fst, 0 /
      outCols (23) ((crcLate 32).outSet 23)) ∈ ((crcLate 32).head 23).underrunRows) :=
  by decide +kernel

/-- Premises of `Obligations.ScanoutFaultsAndEchoes`, clause by clause. -/
theorem witness_ScanoutFaultsAndEchoes_4 :
    (crcLate 24).windowUp = true ∧ ((crcLate 24).head 23).state = HeadState.scanning ∧ 23 = 23 ∧
    (crcLate 24).inSafe = false ∧ 0 < outTiles (23) ((crcLate 24).outSet 23) ∧
    ((crcLate 24).tile (23) 0).written = true ∧
    BitVec.toNat crcGood = ((crcLate 24).tile (23) 0).record.crc % 2 ^ 32 ∧ crcUp.windowUp = true ∧
    (crcUp.head 23).state = HeadState.scanning ∧ 16 < Int.natAbs 17 :=
  by decide +kernel

/-- Premises of `Obligations.ScanoutFaultsAndEchoes`, clause by clause. -/
theorem witness_ScanoutFaultsAndEchoes_5 :
    crcUp.windowUp = true ∧ (crcUp.head 23).state = HeadState.scanning ∧ 16 < (-17).natAbs ∧ (-16).natAbs ≤ 16 ∧
    crcPanel.windowUp = true ∧ crcPanel.inSafe = false ∧ 24 ≤ 31 ∧ (crcPanel.panel (31 - 24)).push = some crcPush ∧
    0 < outTiles (31) (crcPanel.outSet 31) ∧ (crcPanel.tile (31) 0).written = true ∧
    (∃ r, r ∈ crcPush.rects ∧ r.meets (tileRect (outW (31) (crcPanel.outSet 31)) (outH (31) (crcPanel.outSet 31))
      0) = true) ∧ BitVec.toNat crcBad ≠ (crcPanel.tile (31) 0).record.crc % 2 ^ 32 :=
  by decide +kernel

/-- Premises of `Obligations.ScanoutFaultsAndEchoes`, clause by clause. -/
theorem witness_ScanoutFaultsAndEchoes_6 :
    echoUp.windowUp = true ∧ echoUp.headOfLane 0 = some (0, false) ∧ (echoUp.links.lane 0).state = LaneState.up ∧
    32 ≤ (echoUp.links.lane 0).version ∧
    (List.find? (fun k => k.frame % 4096 == echoGood.frameLow % 4096 && k.upper == false && echoGood.upper ==
      false && k.row == echoGood.row % 128 && k.verdict.isNone) (echoUp.head 0).kept = some keptRow) ∧
    (echoUp.head 0).proven = true ∧ (echoUp.head 0).standbyHeld = false ∧
    (List.find? (fun k => k.frame % 4096 == echoBad.frameLow % 4096 && k.upper == false && echoBad.upper == false
      && k.row == echoBad.row % 128 && k.verdict.isNone) (echoUp.head 0).kept = some keptRow) ∧
    (echoBad.dropped = true ∨ echoBad.crc ≠ keptRow.crc) ∧ ¬keptRow.frame ∈ (echoUp.head 0).decided ∧
    (∀ (y : KeptRow), y ∈ List.takeWhile (fun y => y.frame != keptRow.frame) (echoUp.head 0).kept → y.frame ∈
      (echoUp.head 0).decided) :=
  by decide +kernel

/-- Premises of `Obligations.ScanoutFaultsAndEchoes`, clause by clause. -/
theorem witness_ScanoutFaultsAndEchoes_7 :
    echoUp.windowUp = true ∧ echoUp.headOfLane 0 = some (0, false) ∧ (echoUp.links.lane 0).state = LaneState.up ∧
    32 ≤ (echoUp.links.lane 0).version ∧
    (List.find? (fun k => k.frame % 4096 == echoBad.frameLow % 4096 && k.upper == false && echoBad.upper == false
      && k.row == echoBad.row % 128 && k.verdict.isNone) (echoUp.head 0).kept = some keptRow) ∧
    (echoUp.head 0).proven = true ∧ (echoUp.head 0).standbyHeld = false ∧
    (echoBad.dropped = true ∨ echoBad.crc ≠ keptRow.crc) ∧ ¬keptRow.frame ∈ (echoUp.head 0).decided ∧
    (∀ (y : KeptRow), y ∈ (echoUp.head 0).kept → y.frame = keptRow.frame ∨ y.frame ∈ (echoUp.head 0).decided) :=
  by decide +kernel

/-- Premises of `Obligations.ScanoutFaultsAndEchoes`, clause by clause. -/
theorem witness_ScanoutFaultsAndEchoes_8 :
    echoLast.windowUp = true ∧ echoLast.headOfLane 0 = some (0, false) ∧
    (echoLast.links.lane 0).state = LaneState.up ∧ 32 ≤ (echoLast.links.lane 0).version ∧
    (List.find? (fun k => k.frame % 4096 == echoGood.frameLow % 4096 && k.upper == false && echoGood.upper ==
      false && k.row == echoGood.row % 128 && k.verdict.isNone) (echoLast.head 0).kept = some keptRow) ∧
    (echoLast.head 0).proven = true ∧ (echoLast.head 0).standbyHeld = false ∧ echoGood.dropped = false ∧
    echoGood.crc = keptRow.crc ∧ ¬keptRow.frame ∈ (echoLast.head 0).decided ∧
    (∀ (y : KeptRow), y ∈ (echoLast.head 0).kept → y.frame = keptRow.frame ∨ y.frame ∈ (echoLast.head 0).decided) ∧
    (∀ (y : KeptRow), y ∈ (echoLast.head 0).kept → y.frame = keptRow.frame → y = keptRow ∨ y.verdict = some true) ∧
    ((List.filter (fun y => y.frame == keptRow.frame) (echoLast.head 0).kept).length = outRows 0 (echoLast.outSet
      0) * (echoLast.headLanes 0).length) :=
  by decide +kernel

/-- Premises of `Obligations.ScanoutFaultsAndEchoes`, clause by clause. -/
theorem witness_ScanoutFaultsAndEchoes_9 :
    echoUp.windowUp = true ∧ echoUp.headOfLane 0 = some (0, false) ∧ (echoUp.links.lane 0).state = LaneState.up ∧
    32 ≤ (echoUp.links.lane 0).version ∧
    (List.find? (fun k => k.frame % 4096 == echoOther.frameLow % 4096 && k.upper == false && echoOther.upper ==
      false && k.row == echoOther.row % 128 && k.verdict.isNone) (echoUp.head 0).kept = none ∨ (echoUp.head
      0).proven = false ∨ (echoUp.head 0).standbyHeld = true) ∧ echoOld.windowUp = true ∧
    echoOld.kinikLocked 0 = true ∧
    (echoOld.headOfLane 0 = none ∨ (echoOld.links.lane 0).state = LaneState.up ∧ (echoOld.links.lane 0).version <
      32) ∧ echoNone.windowUp = true ∧ echoNone.kinikLocked 47 = true ∧
    (echoNone.headOfLane 47 = none ∨ (echoNone.links.lane 47).state = LaneState.up ∧ (echoNone.links.lane
      47).version < 32) :=
  by decide +kernel

/-- Premises of `Obligations.ScanoutFaultsAndEchoes`, clause by clause. -/
theorem witness_ScanoutFaultsAndEchoes_10 :
    echoUp.windowUp = true ∧ (echoUp.head 0).state = HeadState.scanning ∧ (echoUp.head 0).proven = true ∧
    (echoUp.head 0).standbyHeld = false :=
  by decide +kernel

/-- Premises of `Obligations.AssayMessagesAndEpisodes`, clause by clause. -/
theorem witness_AssayMessagesAndEpisodes_1 :
    ((req 1538 4 31).u8 0 ≤ 31 ∧
    ((req 1538 4 31).u16 2 = 0 ∨ (req 1538 4 31).u16 2 < ((ask up 0 (req 1538 4 31)).voidedLayers ((req 1538 4
      31).u8 0)).length) ∧ (ask safeUp 0 (proofAt 0 0)).inSafe = true ∧
    (ask proofRuns 0 (proofAt 0 0)).inSafe = false ∧
    ((ask proofRuns 0 (proofAt 0 0)).comp.proof.isSome = true ∨ 8 ≤ ((ask proofRuns 0 (proofAt 0 0)).port
      0).held.length) ∧ (ask (scanAt none) 0 (proofAt 57 0)).inSafe = false ∧
    (ask (scanAt none) 0 (proofAt 57 0)).comp.proof = none ∧
    ((ask (scanAt none) 0 (proofAt 57 0)).port 0).held.length < 8 ∧
    (∃ o, o ∈ maskBits 32 ((proofAt 57 0).u32 0) ∧ (ask (scanAt none) 0 (proofAt 57 0)).sets.active.shows o = true
      ∧ ¬(((proofAt 57 0).u16 4 + 4) * 64 ≤ outW o ((ask (scanAt none) 0 (proofAt 57 0)).outSet o) ∧ ((proofAt 57
      0).u16 6 + 2) * 32 ≤ outH o ((ask (scanAt none) 0 (proofAt 57 0)).outSet o)))) ∧
    InHand (ask up 0 (req 1538 4 31)) (0) 1538 (req 1538 4 31) ∧
    InHand (ask safeUp 0 (proofAt 0 0)) (0) 1539 (proofAt 0 0) ∧
    InHand (ask proofRuns 0 (proofAt 0 0)) (0) 1539 (proofAt 0 0) ∧
    InHand (ask (scanAt none) 0 (proofAt 57 0)) (0) 1539 (proofAt 57 0) :=
  ⟨by decide +kernel, ask_inHand rfl rfl, ask_inHand rfl rfl, ask_inHand rfl rfl, ask_inHand rfl rfl⟩

/-- Premises of `Obligations.AssayMessagesAndEpisodes`, clause by clause. -/
theorem witness_AssayMessagesAndEpisodes_2 :
    ((ask (scanAt none) 0 (proofAt 56 65)).inSafe = false ∧ (ask (scanAt none) 0 (proofAt 56 65)).comp.proof = none ∧
    ((ask (scanAt none) 0 (proofAt 56 65)).port 0).held.length < 8 ∧
    (∀ (o : Nat), o ∈ maskBits 32 ((proofAt 56 65).u32 0) → (ask (scanAt none) 0 (proofAt 56
      65)).sets.active.shows o = true → ((proofAt 56 65).u16 4 + 4) * 64 ≤ outW o ((ask (scanAt none) 0 (proofAt 56
      65)).outSet o) ∧ ((proofAt 56 65).u16 6 + 2) * 32 ≤ outH o ((ask (scanAt none) 0 (proofAt 56 65)).outSet o)) ∧
    episodeUp.episode 31 1023 = some episode0 ∧ episode0.clearSince = some 5 ∧
    5 + 1000000000 ≤ (episodeUp.elapse 1000000005).time.room ∧
    (episodeUp.elapse 1000000004).time.room < 5 + 1000000000) ∧
    InHand (ask (scanAt none) 0 (proofAt 56 65)) (0) 1539 (proofAt 56 65) :=
  ⟨by decide +kernel, ask_inHand rfl rfl⟩

/-- Premises of `Obligations.PushesAndTearingEffect`, clause by clause. -/
theorem witness_PushesAndTearingEffect_1 :
    pushDark.windowUp = true ∧ (pushDark.panel 7).push = some push0 ∧ pushRunning.windowUp = true ∧
    (pushRunning.panel 7).push = some push0 ∧
    push0.startedAt + 1000 * panelWindow (pushRunning.outSet (24 + 7)) ≤ pushRunning.time.now + 14000000 ∧
    pushRunning.time.now + 13999999 < push0.startedAt + 1000 * panelWindow (pushRunning.outSet (24 + 7)) ∧
    panelBtaAck (pushRunning.outSet (24 + 7)) = true ∧
    ((pushRunning.panel 7).state = PanelState.running ∨ (pushRunning.panel 7).state = PanelState.dark ∨
      (pushRunning.panel 7).state = PanelState.starting ∧ 6 ≤ (pushRunning.panel 7).step) ∧
    (pushRunning.panel 7).lastTe = some 0 ∧
    2 * (pushRunning.time.now + 8333499 - 0) < 1000 * panelTePeriod (pushRunning.outSet (24 + 7)) :=
  by decide +kernel

/-- Premises of `Obligations.PushesAndTearingEffect`, clause by clause. -/
theorem witness_PushesAndTearingEffect_2 :
    pushRunning.windowUp = true ∧
    ((pushRunning.panel 7).state = PanelState.running ∨ (pushRunning.panel 7).state = PanelState.dark ∨
      (pushRunning.panel 7).state = PanelState.starting ∧ 6 ≤ (pushRunning.panel 7).step) ∧
    (∀ (t0 : Nat), (pushRunning.panel 7).lastTe = some t0 → 1000 * panelTePeriod (pushRunning.outSet (24 + 7)) ≤ 2
      * (pushRunning.time.now + 8333500 - t0)) ∧ (panelStart 6).windowUp = true ∧
    (((panelStart 6).panel 7).state = PanelState.running ∨ ((panelStart 6).panel 7).state = PanelState.dark ∨
      ((panelStart 6).panel 7).state = PanelState.starting ∧ 6 ≤ ((panelStart 6).panel 7).step) ∧
    (∀ (t0 : Nat), ((panelStart 6).panel 7).lastTe = some t0 → 1000 * panelTePeriod ((panelStart 6).outSet (24 +
      7)) ≤ 2 * ((panelStart 6).time.now + 8333500 - t0)) ∧ (pushRunning.panel 7).lastTe = some 0 ∧
    (pushRunning.panel 7).teLost = false ∧
    0 + 3000 * panelTePeriod (pushRunning.outSet (24 + 7)) ≤ pushRunning.time.now + 50001000 ∧
    pushRunning.time.now + 50000999 < 0 + 3000 * panelTePeriod (pushRunning.outSet (24 + 7)) :=
  by decide +kernel

/-- Premises of `Obligations.PanelsStartAndStop`, clause by clause. -/
theorem witness_PanelsStartAndStop_1 :
    (panelStart 1).windowUp = true ∧ ((panelStart 1).panel 7).waitUntil ≤ (panelStart 1).time.now + 0 ∧
    ((panelStart 1).panel 7).state = PanelState.starting ∧ ((panelStart 1).panel 7).step = 1 ∧
    (panelStart 2).windowUp = true ∧ ((panelStart 2).panel 7).waitUntil ≤ (panelStart 2).time.now + 0 ∧
    ((panelStart 2).panel 7).state = PanelState.starting ∧ ((panelStart 2).panel 7).step = 2 ∧
    (panelStart 3).windowUp = true ∧ ((panelStart 3).panel 7).waitUntil ≤ (panelStart 3).time.now + 0 ∧
    ((panelStart 3).panel 7).state = PanelState.starting ∧ ((panelStart 3).panel 7).step = 3 ∧
    ((panelStart 3).panel 7).entries.len < 20 :=
  by decide +kernel

/-- Premises of `Obligations.PanelsStartAndStop`, clause by clause. -/
theorem witness_PanelsStartAndStop_2 :
    (panelStop 1).windowUp = true ∧ ((panelStop 1).panel 7).waitUntil ≤ (panelStop 1).time.now + 0 ∧
    ((panelStop 1).panel 7).state = PanelState.stopping ∧ ((panelStop 1).panel 7).step = 1 ∧
    (panelStop 4).windowUp = true ∧ ((panelStop 4).panel 7).waitUntil ≤ (panelStop 4).time.now + 0 ∧
    ((panelStop 4).panel 7).state = PanelState.stopping ∧ ((panelStop 4).panel 7).step = 4 ∧
    panelWaiting.time.now + 0 < (panelWaiting.panel 7).waitUntil ∧ (panelStart 6).windowUp = true ∧
    ((panelStart 6).panel 7).state = PanelState.starting ∧
    ((panelStart 6).panel 7).startedAt + 2000000000 ≤ (panelStart 6).time.now + 2000000000 :=
  by decide +kernel

/-- Premises of `Obligations.PanelsStartAndStop`, clause by clause. -/
theorem witness_PanelsStartAndStop_3 :
    ((req 1028 0 0).length = 0 ∧
    (0 < (req 1028 23 263).length ∧ (req 1028 23 263).length < 4 ∨ 4100 < (req 1028 23 263).length ∨ (req 1028 23
      263).length ≠ 0 ∧ (req 1028 23 263).length ≠ 4 + 20 * (req 1028 23 263).u8 1) ∧
    (initEntry 5 17).length = 4 + 20 * (initEntry 5 17).u8 1 ∧ (initEntry 5 17).u8 0 ≤ 7 ∧
    (initEntry 5 17).u8 1 ≤ 32 ∧
    entriesCheck ((initEntry 5 17).payload.drop 4) ((initEntry 5 17).u8 1) = some stDenied ∧
    (initEntry 5 176).length = 4 + 20 * (initEntry 5 176).u8 1 ∧ (initEntry 5 176).u8 0 ≤ 7 ∧
    (initEntry 5 176).u8 1 ≤ 32 ∧ entriesCheck ((initEntry 5 176).payload.drop 4) ((initEntry 5 176).u8 1) = none) ∧
    InHand (ask up 0 (req 1028 0 0)) (0) 1028 (req 1028 0 0) ∧
    InHand (ask up 0 (req 1028 23 263)) (0) 1028 (req 1028 23 263) ∧
    InHand (ask up 0 (initEntry 5 17)) (0) 1028 (initEntry 5 17) ∧
    InHand (ask up 0 (initEntry 5 176)) (0) 1028 (initEntry 5 176) :=
  ⟨by decide +kernel, ask_inHand rfl rfl, ask_inHand rfl rfl, ask_inHand rfl rfl, ask_inHand rfl rfl⟩

/-- Premises of `Obligations.KeysPressAfterTheirDebounce`, clause by clause. -/
theorem witness_KeysPressAfterTheirDebounce_1 :
    (itemList (keySet keyZero) 112 7 = Sum.inr (7, [0]) ∧
    (List.findSome? (fun v => keyCheck (BitVec.ofNat 896 v)) [0] = some stZeroField) ∧
    itemList (keySet keyOn) 112 7 = Sum.inr (7, [BitVec.toNat keyOn]) ∧
    (List.findSome? (fun v => keyCheck (BitVec.ofNat 896 v)) [BitVec.toNat keyOn] = none) ∧ up.windowUp = true ∧
    up.maskedOff 24 = false ∧ keyGrpEnable ((up.keyGroup 7).takeSetting (up.time.now + 0)).set = false ∧
    (keyUp false 2).windowUp = true ∧ (keyUp false 2).maskedOff 24 = false ∧
    keyGrpEnable (((keyUp false 2).keyGroup 7).takeSetting ((keyUp false 2).time.now + 9)).set = true) ∧
    InHand (ask up 0 (keySet keyZero)) (0) 2049 (keySet keyZero) ∧
    InHand (ask up 0 (keySet keyOn)) (0) 2049 (keySet keyOn) :=
  ⟨by decide +kernel, ask_inHand rfl rfl, ask_inHand rfl rfl⟩

/-- Premises of `Obligations.KeysInTimeAndMessages`, clause by clause. -/
theorem witness_KeysInTimeAndMessages_1 :
    (keyUp true 0).windowUp = true ∧ keyGrpEnable ((keyUp true 0).keyGroup 7).set = true ∧
    keyEnable ((keyUp true 0).keyGroup 7).set 23 = true ∧ (((keyUp true 0).keyGroup 7).key 23).pressed = true ∧
    (((keyUp true 0).keyGroup 7).key 23).held = false ∧
    (((keyUp true 0).keyGroup 7).key 23).pressedAt + keyHoldLimit ((keyUp true 0).keyGroup 7).set * 1000000000 ≤
      (keyUp true 0).time.now + 60000000000 ∧ (((keyUp true 0).keyGroup 7).key 23).stuck = false ∧
    (((keyUp true 0).keyGroup 7).key 23).pressedAt + keyStuckLimit ((keyUp true 0).keyGroup 7).set * 1000000000 ≤
      (keyUp true 0).time.now + 600000000000 ∧
    (keyUp true 0).time.now + 59999999999 < (((keyUp true 0).keyGroup 7).key 23).pressedAt + keyHoldLimit ((keyUp
      true 0).keyGroup 7).set * 1000000000 ∧
    (keyUp true 0).time.now + 599999999999 < (((keyUp true 0).keyGroup 7).key 23).pressedAt + keyStuckLimit
      ((keyUp true 0).keyGroup 7).set * 1000000000 :=
  by decide +kernel

/-- Premises of `Obligations.KeysInTimeAndMessages`, clause by clause. -/
theorem witness_KeysInTimeAndMessages_2 :
    ((keyUp true 0).windowUp = true ∧ keyGrpEnable ((keyUp true 0).keyGroup 7).set = true ∧
    (ask safeUp 0 (req 2050 4 7)).inSafe = true ∧ (ask (keyUp true 0) 0 (req 2050 4 7)).inSafe = false ∧
    (req 2050 4 7).u8 0 ≤ 7 ∧ (req 2052 4 7).u8 0 ≤ 7 ∧ 7 < (req 2052 4 8).u8 0) ∧
    InHand (ask safeUp 0 (req 2050 4 7)) (0) 2050 (req 2050 4 7) ∧
    InHand (ask (keyUp true 0) 0 (req 2050 4 7)) (0) 2050 (req 2050 4 7) ∧
    InHand (ask (keyUp true 0) 0 (req 2052 4 7)) (0) 2052 (req 2052 4 7) ∧
    InHand (ask up 0 (req 2052 4 8)) (0) 2052 (req 2052 4 8) :=
  ⟨by decide +kernel, ask_inHand rfl rfl, ask_inHand rfl rfl, ask_inHand rfl rfl, ask_inHand rfl rfl⟩

/-- Premises of `Obligations.KeysInTimeAndMessages`, clause by clause. -/
theorem witness_KeysInTimeAndMessages_3 :
    ((ask inField 0 (req 2051 4 7)).power.flash = none ∧
    ((ask inField 0 (req 2051 4 7)).sec.lifecycle = Lifecycle.field ∨ (ask inField 0 (req 2051 4 7)).sec.lifecycle
      = Lifecycle.retired) ∧ (ask up 0 (req 2051 4 7)).power.flash = none ∧
    ((ask up 0 (req 2051 4 7)).sec.lifecycle = Lifecycle.manufacture ∨ (ask up 0 (req 2051 4 7)).sec.lifecycle =
      Lifecycle.develop) ∧ (req 2051 4 7).u8 0 ≤ 7) ∧ InHand (ask inField 0 (req 2051 4 7)) (0) 2051 (req 2051 4 7) ∧
    InHand (ask up 0 (req 2051 4 7)) (0) 2051 (req 2051 4 7) :=
  ⟨by decide +kernel, ask_inHand rfl rfl, ask_inHand rfl rfl⟩

/-- Premises of `Obligations.EncodeJobs`, clause by clause. -/
theorem witness_EncodeJobs_1 :
    ((encSet encBad).u8 0 ≤ 15 ∧
    (ask up 0 (encSet encBad)).encCheck (BitVec.ofNat 512 ((encSet encBad).payload.at 4 64 - ((encSet
      encBad).payload.at 4 64 &&& encReserved))) = some stZeroField ∧ (encSet encOn).u8 0 ≤ 15 ∧
    (ask encFull 0 (encSet encOn)).encCheck (BitVec.ofNat 512 ((encSet encOn).payload.at 4 64 - ((encSet
      encOn).payload.at 4 64 &&& encReserved))) = none ∧
    encEnable (BitVec.ofNat 512 ((encSet encOn).payload.at 4 64 - ((encSet encOn).payload.at 4 64 &&&
      encReserved))) = true ∧
    (ask encFull 0 (encSet encOn)).encPlace ((encSet encOn).u8 0) (BitVec.ofNat 512 ((encSet encOn).payload.at 4
      64 - ((encSet encOn).payload.at 4 64 &&& encReserved))) = none ∧
    (encSoft ((ask encFull 0 (encSet encOn)).encJob ((encSet encOn).u8 0)) (BitVec.ofNat 512 ((encSet
      encOn).payload.at 4 64 - ((encSet encOn).payload.at 4 64 &&& encReserved))) ≠ BitVec.ofNat 512 ((encSet
      encOn).payload.at 4 64 - ((encSet encOn).payload.at 4 64 &&& encReserved)) ∨ encEnable ((ask encFull 0 (encSet
      encOn)).encJob ((encSet encOn).u8 0)) = false ∨ ((ask encFull 0 (encSet encOn)).encRun ((encSet encOn).u8
      0)).core = none) ∧
    (ask up 0 (encSet encOn)).encCheck (BitVec.ofNat 512 ((encSet encOn).payload.at 4 64 - ((encSet
      encOn).payload.at 4 64 &&& encReserved))) = none ∧
    encEnable ((ask up 0 (encSet encOn)).encJob ((encSet encOn).u8 0)) = false ∧
    (ask up 0 (encSet encOn)).encPlace ((encSet encOn).u8 0) (BitVec.ofNat 512 ((encSet encOn).payload.at 4 64 -
      ((encSet encOn).payload.at 4 64 &&& encReserved))) = some 0) ∧
    InHand (ask up 0 (encSet encBad)) (0) 1793 (encSet encBad) ∧
    InHand (ask encFull 0 (encSet encOn)) (0) 1793 (encSet encOn) ∧
    InHand (ask up 0 (encSet encOn)) (0) 1793 (encSet encOn) :=
  ⟨by decide +kernel, ask_inHand rfl rfl, ask_inHand rfl rfl, ask_inHand rfl rfl⟩

/-- Premises of `Obligations.EncodeJobs`, clause by clause. -/
theorem witness_EncodeJobs_2 :
    ((encSet encOn).u8 0 ≤ 15 ∧
    (ask safeUp 0 (encSet encOn)).encCheck (BitVec.ofNat 512 ((encSet encOn).payload.at 4 64 - ((encSet
      encOn).payload.at 4 64 &&& encReserved))) = none ∧
    encEnable (BitVec.ofNat 512 ((encSet encOn).payload.at 4 64 - ((encSet encOn).payload.at 4 64 &&&
      encReserved))) = true ∧ encEnable ((ask safeUp 0 (encSet encOn)).encJob ((encSet encOn).u8 0)) = false ∧
    (ask safeUp 0 (encSet encOn)).encPlace ((encSet encOn).u8 0) (BitVec.ofNat 512 ((encSet encOn).payload.at 4 64
      - ((encSet encOn).payload.at 4 64 &&& encReserved))) = some 0 ∧ (encSet encOff).u8 0 ≤ 15 ∧
    (ask encIdle 0 (encSet encOff)).encCheck (BitVec.ofNat 512 ((encSet encOff).payload.at 4 64 - ((encSet
      encOff).payload.at 4 64 &&& encReserved))) = none ∧
    encEnable (BitVec.ofNat 512 ((encSet encOff).payload.at 4 64 - ((encSet encOff).payload.at 4 64 &&&
      encReserved))) = false ∧ encEnable ((ask encIdle 0 (encSet encOff)).encJob ((encSet encOff).u8 0)) = true) ∧
    InHand (ask safeUp 0 (encSet encOn)) (0) 1793 (encSet encOn) ∧
    InHand (ask encIdle 0 (encSet encOff)) (0) 1793 (encSet encOff) :=
  ⟨by decide +kernel, ask_inHand rfl rfl, ask_inHand rfl rfl⟩

/-- Premises of `Obligations.EncodeJobs`, clause by clause. -/
theorem witness_EncodeJobs_3 :
    ((encSet encQp).u8 0 ≤ 15 ∧
    (ask encIdle 0 (encSet encQp)).encCheck (BitVec.ofNat 512 ((encSet encQp).payload.at 4 64 - ((encSet
      encQp).payload.at 4 64 &&& encReserved))) = none ∧
    encEnable (BitVec.ofNat 512 ((encSet encQp).payload.at 4 64 - ((encSet encQp).payload.at 4 64 &&&
      encReserved))) = true ∧ encEnable ((ask encIdle 0 (encSet encQp)).encJob ((encSet encQp).u8 0)) = true ∧
    encSoft ((ask encIdle 0 (encSet encQp)).encJob ((encSet encQp).u8 0)) (BitVec.ofNat 512 ((encSet
      encQp).payload.at 4 64 - ((encSet encQp).payload.at 4 64 &&& encReserved))) = BitVec.ofNat 512 ((encSet
      encQp).payload.at 4 64 - ((encSet encQp).payload.at 4 64 &&& encReserved)) ∧ (req 1795 4 15).u8 0 ≤ 15 ∧
    ((ask encIdle 0 (req 1795 4 15)).encRun ((req 1795 4 15).u8 0)).state = EncState.running ∧
    15 < (req 1795 4 16).u8 0) ∧ InHand (ask encIdle 0 (encSet encQp)) (0) 1793 (encSet encQp) ∧
    InHand (ask encIdle 0 (req 1795 4 15)) (0) 1795 (req 1795 4 15) ∧
    InHand (ask encIdle 0 (req 1795 4 16)) (0) 1795 (req 1795 4 16) :=
  ⟨by decide +kernel, ask_inHand rfl rfl, ask_inHand rfl rfl, ask_inHand rfl rfl⟩

/-- Premises of `Obligations.EncodeJobs`, clause by clause. -/
theorem witness_EncodeJobs_4 :
    (cutList ((req 1794 4 (15 + 2 ^ 17)).u16 0) ((req 1794 4 (15 + 2 ^ 17)).u16 2) 16 44 (req 1794 4 (15 + 2 ^
      17)).room = some [15] ∧ (encRing.encRun 15).ring = [encCapture] ++ [encOpen] ∧
    (∀ (b : Capture), b ∈ [encCapture] → b.done = true) ∧ encOpen.done = false ∧ encRing.frozenChans = [] ∧
    (encFrozen.encRun 15).ring = [encCapture] ++ [encOpen] ∧ encFrozen.frozenChans ≠ [] ∧
    (encSending.encRun 15).packets = [encPacket] ∧ (encSending.encRun 15).state = EncState.running ∧
    encSending.encSends 15 = true ∧ (encSending.eth (encPort (encSending.encJob 15))).setting = some ethDesc) ∧
    InHand (ask encIdle 0 (req 1794 4 (15 + 2 ^ 17))) (0) 1794 (req 1794 4 (15 + 2 ^ 17)) :=
  ⟨by decide +kernel, ask_inHand rfl rfl⟩

/-- Premises of `Obligations.EncodeJobs`, clause by clause. -/
theorem witness_EncodeJobs_5 :
    (encQueued.encRun 15).packets = [encPacket] ∧ (encQueued.encRun 15).state = EncState.running ∧
    encQueued.encSends 15 = false ∧ (encSending.encRun 15).state = EncState.running ∧ encSending.encSends 15 = true ∧
    (encSending.eth (encPort (encSending.encJob 15))).setting = some ethDesc :=
  by decide +kernel

/-- Premises of `Obligations.PicturesKeepTheirBudget`, clause by clause. -/
theorem witness_PicturesKeepTheirBudget_1 :
    (capRing.encRun 15).ring = [encCapture, encOpen] ∧ encCapture.done = true ∧
    (capRing.encRun 15).state = EncState.running ∧ 0 < encRows (capRing.encJob 15) ∧
    (nalBytes (leadingNals (costs leadRoom) (capRing.encRun 15).needIdr (if (capRing.encRun 15).needIdr = true ∨
      (capRing.encRun 15).carriedFrom.isSome = true then 0 else (capRing.encRun 15).cycle)) + annexRoom
      (capRing.encJob 15) + (costs leadRoom).reserve + 16 * encRows (capRing.encJob 15) ≤ encCapPicture
      (capRing.encJob 15)) ∧
    (nalBytes (leadingNals (costs leadRoom) (capRing.encRun 15).needIdr (if (capRing.encRun 15).needIdr = true ∨
      (capRing.encRun 15).carriedFrom.isSome = true then 0 else (capRing.encRun 15).cycle)) + annexRoom
      (capRing.encJob 15) + (costs leadRoom).reserve + 16 * encRows (capRing.encJob 15) + sumOf (List.map (fun x =>
      x.snd) ((capRing.encRun 15).window encCapture.time)) ≤ encCapSecond (capRing.encJob 15) * 125) ∧
    (encCapPicture (capRing.encJob 15) < nalBytes (leadingNals (costs (leadRoom + 1)) (capRing.encRun 15).needIdr
      (if (capRing.encRun 15).needIdr = true ∨ (capRing.encRun 15).carriedFrom.isSome = true then 0 else
      (capRing.encRun 15).cycle)) + annexRoom (capRing.encJob 15) + (costs (leadRoom + 1)).reserve + 16 * encRows
      (capRing.encJob 15) ∨ encCapSecond (capRing.encJob 15) * 125 < nalBytes (leadingNals (costs (leadRoom + 1))
      (capRing.encRun 15).needIdr (if (capRing.encRun 15).needIdr = true ∨ (capRing.encRun 15).carriedFrom.isSome =
      true then 0 else (capRing.encRun 15).cycle)) + annexRoom (capRing.encJob 15) + (costs (leadRoom + 1)).reserve
      + 16 * encRows (capRing.encJob 15) + sumOf (List.map (fun x => x.snd) ((capRing.encRun 15).window
      encCapture.time))) :=
  by decide +kernel


/-- Peer lanes up at version 2.0. -/
def peerUp : State :=
  withLinks up (fun x => { x with lanes := (from' 44 4).map (fun l => (l, { state := .up, version := 0x20 })) })
/-- A commit of a room-wide one pending, staged or not; its request in hand is ROOM_COMMIT with participants 0 and 3. -/
def roomStaged : Commit := { staged with room := some 9, group := 15 }
def roomUp : State := withSets peerUp (fun x => { x with pending := some roomStaged })
def roomUnstaged : State := withSets peerUp (fun x => { x with pending := some { roomStaged with stagingDone := false } })
def roomReq (id mask group : Nat) : Request := req 0x0505 4 (id + mask * 2 ^ 16 + group * 2 ^ 24)
/-- A coordinator: of participants 0 and 3; with its frame; with its decision. -/
def coPrep : RoomCo := { roomId := 9, mask := 9, group := 15, prepared := [0] }
def coFresh : RoomCo := { roomId := 9, mask := 9, group := 15 }
def coVoting : RoomCo := { coPrep with tf := some 1000000 }
def coSettling : RoomCo := { coVoting with decided := some .settle }
def coHalf : RoomCo := { coSettling with doneTimes := [(0, 5)] }
def coUp (x : RoomCo) : State := withLinks roomUp (fun k => { k with roomCo := some x })
/-- Decisions of a coordinator: all ready; one staging; a fence, at the limit and below it; a vote missing. -/
def coReady : RoomCo := { coVoting with own := some .ready, votes := [(0, .ready), (3, .ready)] }
def coStaging : RoomCo := { coVoting with own := some .ready, votes := [(0, .ready), (3, .staging)] }
def coFence : RoomCo := { coVoting with own := some .ready, votes := [(0, .ready), (3, .fence)], defers := 3 }
def coMissing : RoomCo := { coVoting with own := some .ready, votes := [(0, .ready)], missing := 1 }
/-- A participant of peer 3: without a frame; with its frame; ready; in doubt. -/
def part0 : RoomPart := { roomId := 9, coord := 3 }
def partTf : RoomPart := { part0 with tf := some 5 }
def partReady : RoomPart := { partTf with vote := some .ready }
def partDoubt : RoomPart := { partReady with doubtSince := some 6 }
def partUp (x : RoomPart) : State := withLinks roomUp (fun k => { k with roomPart := some x })
def partNone (x : RoomPart) : State := withLinks peerUp (fun k => { k with roomPart := some x })
/-- Following PTP on port 7; a peer 3; GENLOCK_IN, which is in lock. -/
def ptpUp : State :=
  { up with time := { up.time with disc := .ptp, discPort := 7, state := .locked, lastSync := some 0 }
            links := { up.links with eth := [(7, ethUp)] } }
def peerTime : State := withTime peerUp (fun x => { x with disc := .peer, discPort := 3, syncT1 := some 100 })
def ptpMsg (kind : PtpKind) (off : Int) : PtpMessage := ⟨0, 0, kind, some off, some 37⟩
def otherDomain : PtpMessage := ⟨1, 0, .sync, some 0, none⟩
def otherTransport : PtpMessage := ⟨0, 1, .sync, some 0, none⟩
def timeReq : TimeSyncMsg := ⟨false, 2 ^ 64 - 1, 0, 0, false⟩
def timeResp : TimeSyncMsg := ⟨true, 100, 200, 300, true⟩
def seeking : State := withTime up (fun x => { x with glLast := some 0, glEdges := 7 })
def onInput : State := withTime up (fun x => { x with clock := { x.clock with genlockIn := true } })
def genlocked : State :=
  withTime up (fun x => { x with disc := .genlock, state := .locked, glLock := true, glLast := some 0, glPeriod := 1000 })
/-- A frame clock waits; an exit from safe state waits. -/
def clock50 : FrameClock := ⟨50, 1, 0, false⟩
def clockWaits : State :=
  { headAt (scanHead none) with
    time := { up.time with clockNext := some clock50 }, sets := { up.sets with active := scanSet, restorePending := false } }
def exitWaits : State :=
  { safeUp with fault := { safeUp.fault with exit := some (0, 1) }, sets := { up.sets with restorePending := false } }
def aheadUp : State := withTime up (fun x => { x with ahead := true, offset := -5 })
/-- `ROOM_TIME_CONFIG`: free-running at num / den, `STEP` with a time of 10; free-running at 60; genlock without the input. -/
def configOf (disc num step : Nat) : Request :=
  req 0x0208 32 (disc + num * 2 ^ 32 + 2 ^ 48 + step * 2 ^ 72 + 10 * 2 ^ 192)
/-- Head 0 is enabled with timings only 60 frames a second fit. -/
def heads60 : State := withSets up (fun x => { x with active := { outputs := [(0, outOn 0)] } })
/-- Coded messages: a condition of severity 4; its end; an event. -/
def msgCond : Word := 0x00000404 * 0 + 0x00001009
def msgClear : Word := 0x00000509
def msgRail : Word := 0x00000006
/-- Rails: source 15 in fault, healthy since 0. -/
def railBad : State := withFault up (fun x => { x with rails := [(15, (true, true))] })
/-- A summary of source 255 is due 10 s after its first message. -/
def summaryUp : State := withLedger up (fun x => { x with limits := [(limitKey 0x8003 255, { lastAt := some 0, count := 5 })] })
/-- `FAULT_SEVERITY_SET` of sources 15 and 16. -/
def severity (a b : Nat) : Request := req 0x0A02 6 (15 + 2 ^ 17 + a * 2 ^ 32 + b * 2 ^ 40)
/-- A fault log of one record. -/
def logged : State := withFault up (fun x => { x with log := [⟨0x1009, 4, 3⟩] })
/-- In safe state with a fault of a rail active, with one of severity 3 active. -/
def railFault : ActiveFault := ⟨3, 0, 3, 0, 3⟩
def hardFault : ActiveFault := ⟨0x28, 3, 4, 0, 0⟩
def safeRail : State := withFault safeUp (fun x => { x with active := [railFault] })
def safeHard : State := withFault safeUp (fun x => { x with active := [hardFault] })
def safeBad : State := withFault safeUp (fun x => { x with auditorBad := true })
/-- Lane 47, a peer's, in a state; its partner's record: sound, of version 2.0; of version 1.0 alone; of another mode. -/
def laneAt (x : LaneRun) : State := withLinks up (fun k => { k with lanes := [(47, x)] })
def laneIn (st : LaneState) : State := laneAt { state := st }
def recordOf (vmax vmin mode : Nat) : Bytes :=
  let body := Bytes.join [leBytes 1 vmax, leBytes 1 vmin, leBytes 1 mode, leBytes 1 0, leBytes 2 0, leBytes 2 48, leBytes 36 0]
  Bytes.cat body (leBytes 4 (crc32 body))
def recGood : Bytes := recordOf 0x21 0x12 3
def recOld : Bytes := recordOf 0x11 0x10 3
def recMode : Bytes := recordOf 0x20 0x12 1
def recTorn : Bytes := ⟨48, 1⟩
def laneSent : State := laneAt { state := .exchange, ackSent := true, version := 0x20 }
def laneKnown : State := laneAt { state := .exchange, partner := some recGood }
def ownCrc (s : State) : Word := BitVec.ofNat 32 (capCrc (s.ownRecord 47))
def version20 : Byte := 0x20
def ok : Byte := 0
def refused : Byte := 1
/-- Quad 11's reference is bad; its domain on. -/
def quadBad : State :=
  { withPower up (fun x => { x with domains := [(23, { on := true })] }) with links := { up.links with refBad := 0x800 } }
def testedOnce : State := laneAt { state := .selftest, testFails := 1 }
def safe0 : SafeSt := ⟨0, 3, 0, 0⟩

/-- Premises of `Obligations.RoomWideCommits`, clause by clause. -/
theorem witness_RoomWideCommits_1 :
    (((ask (coUp coPrep) 0 (roomReq 9 9 15)).links.roomCo.isSome = true ∨ 8 ≤ ((ask (coUp coPrep) 0 (roomReq 9 9
      15)).port 0).held.length) ∧ (ask peerUp 0 (roomReq 9 9 15)).links.roomCo = none ∧
    ((ask peerUp 0 (roomReq 9 9 15)).port 0).held.length < 8 ∧ (roomReq 9 9 15).u8 3 ≤ 15 ∧
    (ask peerUp 0 (roomReq 9 9 15)).roomCommit ((roomReq 9 9 15).u16 0) = none ∧
    (ask roomUp 0 (roomReq 9 9 15)).links.roomCo = none ∧ ((ask roomUp 0 (roomReq 9 9 15)).port 0).held.length < 8 ∧
    (ask roomUp 0 (roomReq 9 9 15)).roomCommit ((roomReq 9 9 15).u16 0) = some roomStaged ∧
    roomStaged.group = (roomReq 9 9 15).u8 3) ∧
    InHand (ask (coUp coPrep) 0 (roomReq 9 9 15)) (0) 1285 (roomReq 9 9 15) ∧
    InHand (ask peerUp 0 (roomReq 9 9 15)) (0) 1285 (roomReq 9 9 15) ∧
    InHand (ask roomUp 0 (roomReq 9 9 15)) (0) 1285 (roomReq 9 9 15) :=
  ⟨by decide +kernel, ask_inHand rfl rfl, ask_inHand rfl rfl, ask_inHand rfl rfl⟩

/-- Premises of `Obligations.RoomWideCommits`, clause by clause. -/
theorem witness_RoomWideCommits_2 :
    ((ask roomUp 0 (roomReq 9 0 15)).links.roomCo = none ∧ ((ask roomUp 0 (roomReq 9 0 15)).port 0).held.length < 8 ∧
    (roomReq 9 0 15).u8 3 ≤ 15 ∧
    (ask roomUp 0 (roomReq 9 0 15)).roomCommit ((roomReq 9 0 15).u16 0) = some roomStaged ∧
    roomStaged.group = (roomReq 9 0 15).u8 3 ∧ (coUp coPrep).links.roomCo = some coPrep ∧
    (coUp coPrep).tellerUp = true ∧ (coUp coPrep).peerRoom 3 = true ∧ coPrep.tf = none ∧
    coPrep.mask.testBit 3 = true ∧ 0 < 2 ^ 32 ∧ 1 ≠ 0) ∧
    InHand (ask roomUp 0 (roomReq 9 0 15)) (0) 1285 (roomReq 9 0 15) :=
  ⟨by decide +kernel, ask_inHand rfl rfl⟩

/-- Premises of `Obligations.RoomWideCommits`, clause by clause. -/
theorem witness_RoomWideCommits_3 :
    (coUp coFresh).links.roomCo = some coFresh ∧ (coUp coFresh).tellerUp = true ∧ (coUp coFresh).peerRoom 3 = true ∧
    coFresh.tf = none ∧ coFresh.mask.testBit 3 = true ∧ 0 < 2 ^ 32 ∧ 0 = 0 ∧
    maskOf (insertNat coFresh.prepared 3) ≠ coFresh.mask ∧ (coUp coPrep).links.roomCo = some coPrep ∧
    (coUp coPrep).tellerUp = true ∧ (coUp coPrep).peerRoom 3 = true ∧ coPrep.tf = none ∧
    coPrep.mask.testBit 3 = true ∧ maskOf (insertNat coPrep.prepared 3) = coPrep.mask :=
  by decide +kernel

/-- Premises of `Obligations.RoomWideCommits`, clause by clause. -/
theorem witness_RoomWideCommits_4 :
    (coUp coPrep).links.roomCo = some coPrep ∧ (coUp coPrep).tellerUp = true ∧ coPrep.tf = none ∧
    coPrep.startedAt + 2000000 ≤ (coUp coPrep).time.now + 2000000 ∧
    (coUp coPrep).time.now + 1999999 < coPrep.startedAt + 2000000 ∧ (coUp coVoting).links.roomCo = some coVoting ∧
    (coUp coVoting).tellerUp = true ∧ (coUp coVoting).peerRoom 3 = true ∧ coVoting.tf = some 1000000 ∧
    coVoting.mask.testBit 3 = true ∧ Option.any decisionSettles coVoting.decided = false :=
  by decide +kernel

/-- Premises of `Obligations.RoomWideCommits`, clause by clause. -/
theorem witness_RoomWideCommits_5 :
    (coUp coHalf).links.roomCo = some coHalf ∧ (coUp coHalf).tellerUp = true ∧ (coUp coHalf).peerRoom 3 = true ∧
    Option.any decisionSettles coHalf.decided = true ∧ coHalf.mask.testBit 3 = true ∧ 0 < 2 ^ 32 ∧
    (((maskBits 4 coHalf.mask).all fun q => (Tbl.put coHalf.doneTimes (3) 7).has q) = true) ∧
    (coUp coSettling).links.roomCo = some coSettling ∧ (coUp coSettling).tellerUp = true ∧
    (coUp coSettling).peerRoom 3 = true ∧ Option.any decisionSettles coSettling.decided = true ∧
    coSettling.mask.testBit 3 = true ∧
    (((maskBits 4 coSettling.mask).all fun q => (Tbl.put coSettling.doneTimes (3) 7).has q) = false) :=
  by decide +kernel

/-- Premises of `Obligations.RoomWideCommits`, clause by clause. -/
theorem witness_RoomWideCommits_6 :
    (coUp coSettling).links.roomCo = some coSettling ∧ (coUp coSettling).tellerUp = true ∧
    Option.any decisionSettles coSettling.decided = true ∧
    coSettling.tf.getD 0 + 200000000 ≤ ((coUp coSettling).elapse 201000000).time.room ∧ roomUp.tellerUp = true ∧
    roomUp.peerRoom 3 = true ∧ peerUp.tellerUp = true ∧ peerUp.peerRoom 3 = true ∧ (partUp part0).tellerUp = true ∧
    (partUp part0).links.roomPart = some part0 ∧ (partUp part0).peerRoom 3 = true ∧ part0.coord = 3 ∧
    part0.decided = none :=
  by decide +kernel

/-- Premises of `Obligations.RoomWideCommits`, clause by clause. -/
theorem witness_RoomWideCommits_7 :
    (partUp partTf).tellerUp = true ∧ (partUp partTf).links.roomPart = some partTf ∧
    (partUp partTf).links.roomCo = none ∧ (partUp partTf).roomCommit partTf.roomId = some roomStaged ∧
    partTf.tf = some 5 ∧ partTf.vote = none ∧ partTf.decided = none ∧
    5 ≤ ((partUp partTf).elapse 0).time.room + grpLead ((partUp partTf).group roomStaged.group) * 1000 ∧
    (partNone partTf).tellerUp = true ∧ (partNone partTf).links.roomPart = some partTf ∧
    (partNone partTf).peerRoom 3 = true ∧ partTf.coord = 3 ∧ (partNone partTf).roomCommit partTf.roomId = none :=
  by decide +kernel

/-- Premises of `Obligations.RoomWideCommits`, clause by clause. -/
theorem witness_RoomWideCommits_8 :
    (partUp partTf).tellerUp = true ∧ (partUp partTf).links.roomPart = some partTf ∧
    (partUp partTf).peerRoom 3 = true ∧ partTf.coord = 3 ∧ partTf.decided = none ∧
    (partUp partTf).roomCommit partTf.roomId ≠ none ∧ decisionSettles Decision.settleForced = true ∧
    decisionSettles Decision.deferCounted = false ∧ (partUp partReady).tellerUp = true ∧
    (partUp partReady).links.roomPart = some partReady ∧ partReady.vote = some Vote.ready ∧ partReady.decided = none ∧
    partReady.tf = some 5 ∧ 5 ≤ ((partUp partReady).elapse 5).time.room :=
  by decide +kernel

/-- Premises of `Obligations.RoomWideCommits`, clause by clause. -/
theorem witness_RoomWideCommits_9 :
    (partUp partDoubt).tellerUp = true ∧ (partUp partDoubt).links.roomPart = some partDoubt ∧
    partDoubt.vote = some Vote.ready ∧ partDoubt.decided = none ∧ partDoubt.tf = some 5 ∧
    5 ≤ ((partUp partDoubt).elapse 100000006).time.room ∧ partDoubt.doubtSince = some 6 ∧
    (partUp partDoubt).roomCommit partDoubt.roomId = some roomStaged ∧
    6 + 100000000 ≤ (partUp partDoubt).time.now + 100000006 ∧ 5 ≤ ((partUp partDoubt).elapse 100000005).time.room ∧
    (partUp partDoubt).time.now + 100000005 < 6 + 100000000 :=
  by decide +kernel

/-- Premises of `Obligations.DecisionsFollowVotes`, clause by clause. -/
theorem witness_DecisionsFollowVotes_1 :
    coReady.own = some Vote.ready ∧
    (∀ (pp : Nat), pp ∈ maskBits 4 coReady.mask → Tbl.find coReady.votes pp = some Vote.ready) ∧
    (coStaging.own = some Vote.staging ∨ ∃ pp, pp ∈ maskBits 4 coStaging.mask ∧ Tbl.find coStaging.votes pp = some
      Vote.staging) ∧
    (coFence.own ≠ some Vote.staging ∧ ∀ (pp : Nat), pp ∈ maskBits 4 coFence.mask → Tbl.find coFence.votes pp ≠
      some Vote.staging) ∧
    (coFence.own ≠ some Vote.ready ∨ ∃ pp, pp ∈ maskBits 4 coFence.mask ∧ Tbl.find coFence.votes pp ≠ some
      Vote.ready) ∧ coFence.own ≠ none ∧
    (∀ (pp : Nat), pp ∈ maskBits 4 coFence.mask → Tbl.find coFence.votes pp ≠ none) ∧ 3 ≤ coFence.defers ∧
    (coFence.own = none ∨ (∃ pp, pp ∈ maskBits 4 coFence.mask ∧ Tbl.find coFence.votes pp = none) ∨ coFence.defers
      < 4) ∧
    (coMissing.own ≠ some Vote.staging ∧ ∀ (pp : Nat), pp ∈ maskBits 4 coMissing.mask → Tbl.find coMissing.votes
      pp ≠ some Vote.staging) ∧
    (coMissing.own ≠ some Vote.ready ∨ ∃ pp, pp ∈ maskBits 4 coMissing.mask ∧ Tbl.find coMissing.votes pp ≠ some
      Vote.ready) ∧
    (coMissing.own = none ∨ (∃ pp, pp ∈ maskBits 4 coMissing.mask ∧ Tbl.find coMissing.votes pp = none) ∨
      coMissing.defers < 0) :=
  by decide +kernel

/-- Premises of `Obligations.DecisionsFollowVotes`, clause by clause. -/
theorem witness_DecisionsFollowVotes_2 :
    (coUp coReady).tellerUp = true ∧ (coUp coReady).links.roomCo = some coReady ∧ coReady.tf = some 1000000 ∧
    Option.any decisionSettles coReady.decided = false ∧
    1000000 ≤ ((coUp coReady).elapse 750000).time.room + grpLead ((coUp coReady).group coReady.group) * 500 ∧
    coReady.missing < 2 ∧ (coUp coMissing).tellerUp = true ∧ (coUp coMissing).links.roomCo = some coMissing ∧
    coMissing.tf = some 1000000 ∧ Option.any decisionSettles coMissing.decided = false ∧
    1000000 ≤ ((coUp coMissing).elapse 750000).time.room + grpLead ((coUp coMissing).group coMissing.group) * 500 ∧
    coMissing.missing < 2 :=
  by decide +kernel

/-- Premises of `Obligations.DecisionsFollowVotes`, clause by clause. -/
theorem witness_DecisionsFollowVotes_3 :
    (coUp coReady).tellerUp = true ∧ (coUp coReady).links.roomCo = some coReady ∧ coReady.tf = some 1000000 ∧
    Option.any decisionSettles coReady.decided = false ∧
    ((coUp coReady).elapse 749999).time.room + grpLead ((coUp coReady).group coReady.group) * 500 < 1000000 :=
  by decide +kernel

/-- Premises of `Obligations.RoomTimeAndGenlock`, clause by clause. -/
theorem witness_RoomTimeAndGenlock_1 :
    ptpUp.tellerUp = true ∧ ptpUp.time.disc = Discipline.ptp ∧ ptpUp.time.discPort = 7 ∧
    ptpUp.time.ptpDomain = (ptpMsg PtpKind.sync 1000001).domain ∧
    ptpUp.time.ptpTransport = (ptpMsg PtpKind.sync 1000001).transport ∧ (ptpUp.eth 7).up = true ∧
    (ptpMsg PtpKind.sync 1000001).offset = some 1000001 ∧ (ptpMsg PtpKind.sync 1000001).kind ≠ PtpKind.announce ∧
    ptpUp.time.ptpDomain = (ptpMsg PtpKind.delayResp 1000000).domain ∧
    ptpUp.time.ptpTransport = (ptpMsg PtpKind.delayResp 1000000).transport ∧
    (ptpMsg PtpKind.delayResp 1000000).offset = some 1000000 ∧
    (ptpMsg PtpKind.delayResp 1000000).kind ≠ PtpKind.announce :=
  by decide +kernel

/-- Premises of `Obligations.RoomTimeAndGenlock`, clause by clause. -/
theorem witness_RoomTimeAndGenlock_2 :
    ptpUp.tellerUp = true ∧ ptpUp.time.disc = Discipline.ptp ∧ ptpUp.time.discPort = 7 ∧
    ptpUp.time.ptpDomain = (ptpMsg PtpKind.followUp (-1000000)).domain ∧
    ptpUp.time.ptpTransport = (ptpMsg PtpKind.followUp (-1000000)).transport ∧ (ptpUp.eth 7).up = true ∧
    (ptpMsg PtpKind.followUp (-1000000)).offset = some (-1000000) ∧
    (ptpMsg PtpKind.followUp (-1000000)).kind ≠ PtpKind.announce ∧
    ptpUp.time.ptpDomain = (ptpMsg PtpKind.sync (-1000001)).domain ∧
    ptpUp.time.ptpTransport = (ptpMsg PtpKind.sync (-1000001)).transport ∧
    (ptpMsg PtpKind.sync (-1000001)).offset = some (-1000001) ∧
    (ptpMsg PtpKind.sync (-1000001)).kind ≠ PtpKind.announce :=
  by decide +kernel

/-- Premises of `Obligations.RoomTimeAndGenlock`, clause by clause. -/
theorem witness_RoomTimeAndGenlock_3 :
    ptpUp.tellerUp = true ∧ ptpUp.time.disc = Discipline.ptp ∧ ptpUp.time.discPort = 7 ∧
    ptpUp.time.ptpDomain = (ptpMsg PtpKind.announce 0).domain ∧
    ptpUp.time.ptpTransport = (ptpMsg PtpKind.announce 0).transport ∧ (ptpUp.eth 7).up = true ∧
    (ptpMsg PtpKind.announce 0).kind = PtpKind.announce ∧
    (ptpUp.time.disc ≠ Discipline.ptp ∨ ptpUp.time.discPort ≠ 7 ∨ ptpUp.time.ptpDomain ≠ otherDomain.domain ∨
      ptpUp.time.ptpTransport ≠ otherDomain.transport ∨ (ptpUp.eth 7).up = false) ∧
    (ptpUp.time.disc ≠ Discipline.ptp ∨ ptpUp.time.discPort ≠ 7 ∨ ptpUp.time.ptpDomain ≠ otherTransport.domain ∨
      ptpUp.time.ptpTransport ≠ otherTransport.transport ∨ (ptpUp.eth 7).up = false) ∧ ptpUp.time.lastSync = some 0 ∧
    ptpUp.time.state = RtState.locked ∧ 0 + 3000000000 ≤ ptpUp.time.now + 3000000000 :=
  by decide +kernel

/-- Premises of `Obligations.RoomTimeAndGenlock`, clause by clause. -/
theorem witness_RoomTimeAndGenlock_4 :
    ptpUp.tellerUp = true ∧ ptpUp.time.lastSync = some 0 ∧ ptpUp.time.disc = Discipline.ptp ∧
    ptpUp.time.state = RtState.locked ∧ ptpUp.time.now + 2999999999 < 0 + 3000000000 ∧ peerTime.tellerUp = true ∧
    peerTime.peerUp 3 = true ∧ timeReq.response = false ∧ timeResp.response = true ∧
    peerTime.time.disc = Discipline.peer ∧ peerTime.time.discPort = 3 ∧ peerTime.time.syncT1 = some timeResp.t1 :=
  by decide +kernel

/-- Premises of `Obligations.RoomTimeAndGenlock`, clause by clause. -/
theorem witness_RoomTimeAndGenlock_5 :
    peerTime.tellerUp = true ∧ peerTime.time.disc = Discipline.peer ∧ peerTime.peerUp peerTime.time.discPort = true ∧
    seeking.tellerUp = true ∧ seeking.time.glLock = false ∧ seeking.time.glLast = some 0 ∧
    seeking.time.clock.genlockIn = false ∧
    nearPeriod seeking.time.clock (seeking.time.now + 16650000 - 0) 1000 = true ∧
    nearPeriod seeking.time.clock (seeking.time.now + 16649999 - 0) 1000 = false ∧ onInput.tellerUp = true ∧
    onInput.time.clock.genlockIn = true ∧ onInput.time.glRunOn = false :=
  by decide +kernel

/-- Premises of `Obligations.RoomTimeAndGenlock`, clause by clause. -/
theorem witness_RoomTimeAndGenlock_6 :
    genlocked.tellerUp = true ∧ genlocked.time.glLock = true ∧ genlocked.time.glLast = some 0 ∧
    0 + 3 * genlocked.time.glPeriod + genlocked.time.glPeriod / 100 ≤ genlocked.time.now + 3010 ∧
    genlocked.time.now + 3009 < 0 + 3 * genlocked.time.glPeriod + genlocked.time.glPeriod / 100 :=
  by decide +kernel

/-- Premises of `Obligations.RoomFramesAndMessages`, clause by clause. -/
theorem witness_RoomFramesAndMessages_1 :
    up.power.state ≠ PowerState.off ∧ up.time.clock.genlockIn = false ∧
    up.time.clock.upTo (up.elapse 0).time.room = some 0 ∧ 0 ≤ up.time.framePast ∧
    clockWaits.power.state ≠ PowerState.off ∧ clockWaits.time.clock.genlockIn = false ∧
    clockWaits.time.clock.upTo (clockWaits.elapse 16666667).time.room = some 16666667 ∧
    clockWaits.time.framePast < 16666667 ∧ exitWaits.power.state ≠ PowerState.off ∧
    exitWaits.time.clock.genlockIn = false ∧
    exitWaits.time.clock.upTo (exitWaits.elapse 16666667).time.room = some 16666667 ∧
    exitWaits.time.framePast < 16666667 :=
  by decide +kernel

/-- Premises of `Obligations.RoomFramesAndMessages`, clause by clause. -/
theorem witness_RoomFramesAndMessages_2 :
    ((ask up 0 (req 522 0 0)).time.ahead = false ∧ (ask aheadUp 0 (req 522 0 0)).time.ahead = true ∧
    configCheck (configOf 2 60 0) = some stNotSupported ∧ configCheck (configOf 3 50 0) = none ∧
    discOfCode ((configOf 3 50 0).u8 0) = some Discipline.free ∧
    configClock (configOf 3 50 0) ≠ (ask commitPending 0 (configOf 3 50 0)).rate ∧
    (ask commitPending 0 (configOf 3 50 0)).sets.pending.isSome = true) ∧
    InHand (ask ptpUp 0 (req 521 0 0)) (0) 521 (req 521 0 0) ∧ InHand (ask up 0 (req 522 0 0)) (0) 522 (req 522 0 0) ∧
    InHand (ask aheadUp 0 (req 522 0 0)) (0) 522 (req 522 0 0) ∧
    InHand (ask up 0 (configOf 2 60 0)) (0) 520 (configOf 2 60 0) ∧
    InHand (ask commitPending 0 (configOf 3 50 0)) (0) 520 (configOf 3 50 0) :=
  ⟨by decide +kernel, ask_inHand rfl rfl, ask_inHand rfl rfl, ask_inHand rfl rfl, ask_inHand rfl rfl,
  ask_inHand rfl rfl⟩

/-- Premises of `Obligations.RoomFramesAndMessages`, clause by clause. -/
theorem witness_RoomFramesAndMessages_3 :
    (configCheck (configOf 3 50 0) = none ∧ discOfCode ((configOf 3 50 0).u8 0) = some Discipline.free ∧
    configClock (configOf 3 50 0) ≠ (ask heads60 0 (configOf 3 50 0)).rate ∧
    (ask heads60 0 (configOf 3 50 0)).sets.pending = none ∧
    (ask heads60 0 (configOf 3 50 0)).headsFail (configClock (configOf 3 50 0)) = true ∧
    configCheck (configOf 3 60 1) = none ∧ discOfCode ((configOf 3 60 1).u8 0) = some Discipline.free ∧
    configClock (configOf 3 60 1) = (ask up 0 (configOf 3 60 1)).rate ∧ ((configOf 3 60 1).u8 9).testBit 0 = true ∧
    (configOf 3 60 1).u64 24 < ((ask up 0 (configOf 3 60 1)).elapse 11).time.room) ∧
    InHand (ask heads60 0 (configOf 3 50 0)) (0) 520 (configOf 3 50 0) ∧
    InHand (ask up 0 (configOf 3 60 1)) (0) 520 (configOf 3 60 1) :=
  ⟨by decide +kernel, ask_inHand rfl rfl, ask_inHand rfl rfl⟩

/-- Premises of `Obligations.RoomFramesAndMessages`, clause by clause. -/
theorem witness_RoomFramesAndMessages_4 :
    (configCheck (configOf 3 60 1) = none ∧ discOfCode ((configOf 3 60 1).u8 0) = some Discipline.free ∧
    (configClock (configOf 3 60 1) = (ask up 0 (configOf 3 60 1)).rate ∨ (ask up 0 (configOf 3 60 1)).sets.pending
      = none ∧ (ask up 0 (configOf 3 60 1)).headsFail (configClock (configOf 3 60 1)) = false) ∧
    (((configOf 3 60 1).u8 9).testBit 0 = false ∨ ((ask up 0 (configOf 3 60 1)).elapse 10).time.room ≤ (configOf 3
      60 1).u64 24) ∧ configCheck (configOf 3 50 0) = none ∧
    discOfCode ((configOf 3 50 0).u8 0) = some Discipline.free ∧
    (configClock (configOf 3 50 0) = (ask up 0 (configOf 3 50 0)).rate ∨ (ask up 0 (configOf 3 50 0)).sets.pending
      = none ∧ (ask up 0 (configOf 3 50 0)).headsFail (configClock (configOf 3 50 0)) = false) ∧
    (((configOf 3 50 0).u8 9).testBit 0 = false ∨ ((ask up 0 (configOf 3 50 0)).elapse 10).time.room ≤ (configOf 3
      50 0).u64 24)) ∧ InHand (ask up 0 (configOf 3 60 1)) (0) 520 (configOf 3 60 1) ∧
    InHand (ask up 0 (configOf 3 50 0)) (0) 520 (configOf 3 50 0) :=
  ⟨by decide +kernel, ask_inHand rfl rfl, ask_inHand rfl rfl⟩

/-- Premises of `Obligations.TheAuditorReacts`, clause by clause. -/
theorem witness_TheAuditorReacts_1 :
    (scanAt none).fault.dead = false ∧ (scanAt none).power.state ≠ PowerState.off :=
  by decide +kernel

/-- Premises of `Obligations.RailsAndFaultMessages`, clause by clause. -/
theorem witness_RailsAndFaultMessages_1 :
    up.fault.dead = false ∧ up.power.state ≠ PowerState.off ∧ railReading 15 (true, true) = some 3 ∧
    railReading (15) (up.fault.rails.get (false, true) 15) ≠ some 3 ∧ railReading 0 (true, false) = some 0 ∧
    railReading (0) (up.fault.rails.get (false, true) 0) ≠ some 0 ∧ railBad.fault.dead = false ∧
    railBad.power.state ≠ PowerState.off ∧ railReading (15) (railBad.fault.rails.get (false, true) 15) ≠ none ∧
    railReading (15) (up.fault.rails.get (false, true) 15) = none ∧
    up.fault.healthySince.get 0 15 + 1000000000 ≤ up.time.now + 1000000000 :=
  by decide +kernel

/-- Premises of `Obligations.RailsAndFaultMessages`, clause by clause. -/
theorem witness_RailsAndFaultMessages_2 :
    up.fault.dead = false ∧ up.power.state ≠ PowerState.off ∧
    railReading (15) (up.fault.rails.get (false, true) 15) = none ∧
    up.time.now + 999999999 < up.fault.healthySince.get 0 15 + 1000000000 ∧ summaryUp.fault.dead = false ∧
    summaryUp.power.state ≠ PowerState.off ∧ summaryUp.tellerUp = true ∧
    (summaryUp.ledger.limits.get {} (limitKey 32771 255)).lastAt = some 0 ∧
    0 + 10000000000 ≤ summaryUp.time.now + 10000000000 ∧ summaryUp.time.now + 9999999999 < 0 + 10000000000 :=
  by decide +kernel

/-- Premises of `Obligations.RailsAndFaultMessages`, clause by clause. -/
theorem witness_RailsAndFaultMessages_3 :
    (itemList (severity 3 5) 1 255 = Sum.inr (15, [3, 5]) ∧ (∃ v, v ∈ [3, 5] ∧ 4 < v) ∧
    itemList (severity 2 4) 1 255 = Sum.inr (15, [2, 4]) ∧ (∀ (v : Nat), v ∈ [2, 4] → v ≤ 4) ∧
    itemList (severity 3 0) 1 255 = Sum.inr (15, [3, 0]) ∧ (∀ (v : Nat), v ∈ [3, 0] → v ≤ 4)) ∧
    InHand (ask up 0 (req 2561 0 0)) (0) 2561 (req 2561 0 0) ∧
    InHand (ask up 0 (severity 3 5)) (0) 2562 (severity 3 5) ∧
    InHand (ask up 0 (severity 2 4)) (0) 2562 (severity 2 4) ∧
    InHand (ask up 0 (severity 3 0)) (0) 2562 (severity 3 0) :=
  ⟨by decide +kernel, ask_inHand rfl rfl, ask_inHand rfl rfl, ask_inHand rfl rfl, ask_inHand rfl rfl⟩

/-- Premises of `Obligations.RailsAndFaultMessages`, clause by clause. -/
theorem witness_RailsAndFaultMessages_4 :
    (cutList ((req 2563 4 (2 ^ 16)).u16 0) ((req 2563 4 (2 ^ 16)).u16 2) (ask logged 0 (req 2563 4 (2 ^
      16))).fault.log.length 16 (req 2563 4 (2 ^ 16)).room = some [0] ∧
    (ask safeUp 0 (req 2564 4 0)).fault.safe = some safe0 ∧
    safe0.since + 1000000000 ≤ (ask safeUp 0 (req 2564 4 0)).time.now + 1000000000 ∧
    (ask safeUp 0 (req 2564 4 0)).fault.auditorBad = false ∧
    (∀ (a : ActiveFault), a ∈ (ask safeUp 0 (req 2564 4 0)).fault.active → isDualRail a.source = false ∧
      a.severity < 3) ∧
    ((ask safeRail 0 (req 2564 4 0)).fault.safe = none ∨ (ask safeRail 0 (req 2564 4 0)).fault.auditorBad = true ∨
      (∃ a, a ∈ (ask safeRail 0 (req 2564 4 0)).fault.active ∧ isDualRail a.source = true) ∨ (∃ a, a ∈ (ask safeRail
      0 (req 2564 4 0)).fault.active ∧ 3 ≤ a.severity) ∨ ∃ x, (ask safeRail 0 (req 2564 4 0)).fault.safe = some x ∧
      (ask safeRail 0 (req 2564 4 0)).time.now + 1000000000 < x.since + 1000000000) ∧
    ((ask safeHard 0 (req 2564 4 0)).fault.safe = none ∨ (ask safeHard 0 (req 2564 4 0)).fault.auditorBad = true ∨
      (∃ a, a ∈ (ask safeHard 0 (req 2564 4 0)).fault.active ∧ isDualRail a.source = true) ∨ (∃ a, a ∈ (ask safeHard
      0 (req 2564 4 0)).fault.active ∧ 3 ≤ a.severity) ∨ ∃ x, (ask safeHard 0 (req 2564 4 0)).fault.safe = some x ∧
      (ask safeHard 0 (req 2564 4 0)).time.now + 1000000000 < x.since + 1000000000)) ∧
    InHand (ask logged 0 (req 2563 4 (2 ^ 16))) (0) 2563 (req 2563 4 (2 ^ 16)) ∧
    InHand (ask safeUp 0 (req 2564 4 0)) (0) 2564 (req 2564 4 0) ∧
    InHand (ask safeRail 0 (req 2564 4 0)) (0) 2564 (req 2564 4 0) ∧
    InHand (ask safeHard 0 (req 2564 4 0)) (0) 2564 (req 2564 4 0) :=
  ⟨by decide +kernel, ask_inHand rfl rfl, ask_inHand rfl rfl, ask_inHand rfl rfl, ask_inHand rfl rfl⟩

/-- Premises of `Obligations.RailsAndFaultMessages`, clause by clause. -/
theorem witness_RailsAndFaultMessages_5 :
    ((ask safeBad 0 (req 2564 4 0)).fault.safe = none ∨ (ask safeBad 0 (req 2564 4 0)).fault.auditorBad = true ∨
      (∃ a, a ∈ (ask safeBad 0 (req 2564 4 0)).fault.active ∧ isDualRail a.source = true) ∨ (∃ a, a ∈ (ask safeBad 0
      (req 2564 4 0)).fault.active ∧ 3 ≤ a.severity) ∨ ∃ x, (ask safeBad 0 (req 2564 4 0)).fault.safe = some x ∧
      (ask safeBad 0 (req 2564 4 0)).time.now + 1000000000 < x.since + 1000000000) ∧
    InHand (ask safeBad 0 (req 2564 4 0)) (0) 2564 (req 2564 4 0) ∧
    InHand (ask safeUp 0 (req 2564 4 0)) (0) 2564 (req 2564 4 0) ∧
    InHand (ask up 0 (req 2564 4 0)) (0) 2564 (req 2564 4 0) :=
  ⟨by decide +kernel, ask_inHand rfl rfl, ask_inHand rfl rfl, ask_inHand rfl rfl⟩

/-- Premises of `Obligations.CapabilitiesAndLanes`, clause by clause. -/
theorem witness_CapabilitiesAndLanes_1 :
    (laneIn LaneState.hunting).windowUp = true ∧ (laneIn LaneState.hunting).links.role 47 ≠ 4 ∧
    ((laneIn LaneState.hunting).links.lane 47).state = LaneState.hunting ∧
    (laneIn LaneState.incompatible).windowUp = true ∧ (laneIn LaneState.incompatible).links.role 47 ≠ 4 ∧
    (((laneIn LaneState.incompatible).links.lane 47).state = LaneState.exchange ∨ ((laneIn
      LaneState.incompatible).links.lane 47).state = LaneState.incompatible) ∧ (laneIn LaneState.up).windowUp = true ∧
    (laneIn LaneState.up).links.role 47 ≠ 4 ∧
    (((laneIn LaneState.up).links.lane 47).state = LaneState.exchange ∨ ((laneIn LaneState.up).links.lane
      47).state = LaneState.up ∨ ((laneIn LaneState.up).links.lane 47).state = LaneState.incompatible) ∧ 255 ≠ 0 :=
  by decide +kernel

/-- Premises of `Obligations.CapabilitiesAndLanes`, clause by clause. -/
theorem witness_CapabilitiesAndLanes_2 :
    (laneIn LaneState.exchange).windowUp = true ∧ (laneIn LaneState.exchange).links.role 47 ≠ 4 ∧
    (((laneIn LaneState.exchange).links.lane 47).state = LaneState.exchange ∨ ((laneIn
      LaneState.exchange).links.lane 47).state = LaneState.up ∨ ((laneIn LaneState.exchange).links.lane 47).state =
      LaneState.incompatible) ∧ capSound recTorn = false ∧
    ((laneIn LaneState.exchange).links.lane 47).state = LaneState.exchange ∧ capSound recOld = true ∧
    ((min (capVersionMax (recOld.slice 0 (min recOld.len (capLen recOld)))) 32 < capVersionMin (recOld.slice 0
      (min recOld.len (capLen recOld))) ∨ min (capVersionMax (recOld.slice 0 (min recOld.len (capLen recOld)))) 32 <
      18) ∨ capMode (recOld.slice 0 (min recOld.len (capLen recOld))) ≠ roleMode ((laneIn
      LaneState.exchange).links.role 47) ∨ (laneIn LaneState.exchange).links.role 47 ≠ 3 ∧ capSide (recOld.slice 0
      (min recOld.len (capLen recOld))) = 0) ∧ capSound recMode = true ∧
    ((min (capVersionMax (recMode.slice 0 (min recMode.len (capLen recMode)))) 32 < capVersionMin (recMode.slice 0
      (min recMode.len (capLen recMode))) ∨ min (capVersionMax (recMode.slice 0 (min recMode.len (capLen recMode))))
      32 < 18) ∨ capMode (recMode.slice 0 (min recMode.len (capLen recMode))) ≠ roleMode ((laneIn
      LaneState.exchange).links.role 47) ∨ (laneIn LaneState.exchange).links.role 47 ≠ 3 ∧ capSide (recMode.slice 0
      (min recMode.len (capLen recMode))) = 0) ∧ capSound recGood = true ∧
    capVersionMin (recGood.slice 0 (min recGood.len (capLen recGood))) ≤ min (capVersionMax (recGood.slice 0 (min
      recGood.len (capLen recGood)))) 32 ∧
    18 ≤ min (capVersionMax (recGood.slice 0 (min recGood.len (capLen recGood)))) 32 ∧
    capMode (recGood.slice 0 (min recGood.len (capLen recGood))) = roleMode ((laneIn
      LaneState.exchange).links.role 47) ∧
    ((laneIn LaneState.exchange).links.role 47 = 3 ∨ capSide (recGood.slice 0 (min recGood.len (capLen recGood)))
      ≠ 0) :=
  by decide +kernel

/-- Premises of `Obligations.CapabilitiesAndLanes`, clause by clause. -/
theorem witness_CapabilitiesAndLanes_3 :
    (laneSent.windowUp = true ∧ laneSent.links.role 47 ≠ 4 ∧ (laneSent.links.lane 47).state = LaneState.exchange ∧
    ok = 0 ∧ (laneSent.links.lane 47).ackSent = true ∧ (laneSent.links.lane 47).version = BitVec.toNat version20 ∧
    (laneIn LaneState.exchange).windowUp = true ∧ (laneIn LaneState.exchange).links.role 47 ≠ 4 ∧
    ((laneIn LaneState.exchange).links.lane 47).state = LaneState.exchange ∧
    ((laneIn LaneState.exchange).links.lane 47).ackSent = false) ∧
    BitVec.toNat (ownCrc laneSent) = capCrc (laneSent.ownRecord 47) ∧
    BitVec.toNat (ownCrc (laneIn LaneState.exchange)) = capCrc ((laneIn LaneState.exchange).ownRecord 47) :=
  ⟨by decide +kernel, capCrc_word _, capCrc_word _⟩

/-- Premises of `Obligations.CapabilitiesAndLanes`, clause by clause. -/
theorem witness_CapabilitiesAndLanes_4 :
    (laneKnown.windowUp = true ∧ laneKnown.links.role 47 ≠ 4 ∧ (laneKnown.links.lane 47).state = LaneState.exchange ∧
    refused ≠ 0 ∧ (laneKnown.links.lane 47).partner = some recGood ∧ peerUp.windowUp = true ∧
    peerUp.links.refBad.getLsbD 11 = false ∧ quadBad.windowUp = true ∧ quadBad.links.refBad.getLsbD 11 = true) ∧
    BitVec.toNat (ownCrc laneKnown) = capCrc (laneKnown.ownRecord 47) ∧
    BitVec.toNat (ownCrc laneKnown + 1) ≠ capCrc (laneKnown.ownRecord 47) :=
  ⟨by decide +kernel, capCrc_word _, word_next_ne _ (capCrc_word _)⟩

/-- Premises of `Obligations.CapabilitiesAndLanes`, clause by clause. -/
theorem witness_CapabilitiesAndLanes_5 :
    (laneIn LaneState.selftest).tellerUp = true ∧
    ((laneIn LaneState.selftest).links.lane 47).state = LaneState.selftest ∧ 1 ≠ 0 ∧
    ((laneIn LaneState.selftest).links.lane 47).testFails = 0 ∧ testedOnce.tellerUp = true ∧
    (testedOnce.links.lane 47).state = LaneState.selftest ∧ 1 ≤ (testedOnce.links.lane 47).testFails :=
  by decide +kernel

/-- A lane table that may be stored: no roles, main taps of 24, its CRC; and one whose CRC is wrong. -/
def tableBody : Nat := 1 + 48 * 2 ^ 16 + 24 * 2 ^ (32 * 17 + 8) * ((2 ^ (128 * 48) - 1) / (2 ^ 128 - 1))
def goodTable : Bytes := ⟨836, tableBody + 1338574030 * 2 ^ 6656⟩
def loadGood : Request := { opcode := 0xD01, length := 836, session := 1, payload := goodTable }
def loadBad : Request := { loadGood with payload := ⟨836, 1⟩ }
/-- `LANE_TUNE` of a lane with a main tap; `LANE_PRBS` of a lane; `ETH_PORT_SET` of a port with a first IPv4 byte. -/
def tuneReq (lane main : Nat) : Request := req 0xD04 16 (lane + main * 2 ^ 40)
def prbsReq (lane bits : Nat) : Request := req 0xD06 8 (lane + bits * 2 ^ 32)
def ethReq (port v4 : Nat) : Request := req 0xD05 72 (port + 2 ^ 8 + v4 * 2 ^ 128)
/-- A lane table in force without roles. -/
def noRole : LaneTable := BitVec.ofNat 6688 tableBody
def spareLane : State := withLinks up (fun k => { k with table := some noRole })
def sparePrbs : State := withLinks spareLane (fun k => { k with lanes := [(0, { prbs := some (2, 7) })] })
/-- The first Ethernet port's lane in a state. -/
def ethLane : Nat := ((up.links.lanesOf 4).head?).getD 0
def ethAt (st : LaneState) : State := withLinks up (fun k => { k with lanes := [(ethLane, { state := st })] })
/-- A source lane that is `UP`; its partner's record, of one tile of format 3. -/
def recSource : Bytes := Bytes.join [leBytes 12 0x30000012000020, leBytes 2 64, leBytes 2 32, leBytes 32 3]
def lane32 : LaneRun := { state := .up, version := 0x20, partner := some recSource, pairs := [(7, 1000)] }
def srcUp : State := withLinks up (fun k => { k with lanes := [(32, lane32)] })
/-- A frame 9 in assembly: empty, with its tile, with the tile open. -/
def kinik0 : KinikFrame := { num := 9, follows := true }
def tileData : Bytes := ⟨3072, 255⟩
def kinik1 : KinikFrame := { kinik0 with tiles := [(0, tileData)] }
def kinikOpen : KinikFrame := { kinik1 with openTile := some 0 }
def kinikAt (k : KinikFrame) : State :=
  withSrc srcUp (fun x => { x with kinik := [(32, k)], run := [(5, { subscribed := true })] })
def kinikShown : State := withSets (kinikAt kinik1) (fun x => { x with active := { sources := [(5, srcOf 3 32)] } })
def tag7 : Byte := 7
def tag8 : Byte := 8
def result2 : Byte := 2
def num9 : Word := 9
def frame9 : Byte := 9
def tileCrc : Word := 3201088066
def wrongCrc : Word := 0
def goodTile : SrcTileMsg := ⟨0, 0, 384, 384, 9, tileData, false⟩
def shortTile : SrcTileMsg := ⟨0, 0, 384, 383, 9, tileData, false⟩
/-- A peer with messages: one delivered, one outstanding, one lost after three resends. -/
def tx5 : PeerTx := ⟨5, 2, Bytes.none, 0, 0⟩
def tx5Last : PeerTx := ⟨5, 2, Bytes.none, 0, 3⟩
def peerAt (x : PeerRun) : State := withLinks peerUp (fun k => { k with peers := [(3, x)] })
def peerSent (m : PeerTx) : State := peerAt { outstanding := [m], delivered := [6] }
def seq5 : BitVec 16 := 5
def msgIn (type seq : Nat) (good : Bool) : PeerMsgIn :=
  ⟨type, 4, seq, ⟨8, 7⟩, BitVec.ofNat 32 (crc32 ⟨4, 7⟩ + b2n !good), seq⟩
/-- The next to deliver is 7. -/
def peerNext : State := peerAt { delivered := [6], next := some 7 }
/-- A standby, an active unit, in step, on peer port 0. -/
def pairAt (x : PairSt) : State := withFault (withPair peerUp (fun _ => x)) (fun f => { f with alive := true })
def standby0 : PairSt := { enabled := true, role := .standby, mirror := .inStep, hbLast := some 0 }
def active0 : PairSt := { standby0 with role := .active }
def standbyIn : State := pairAt standby0
def activeIn : State := pairAt active0
def dual1 : State := pairAt { active0 with id := 1, dualRun := 2 }
def dual0 : State := pairAt { active0 with id := 1, dualRun := 1 }
def hbActive : HeartbeatBlock := ⟨7, 1, 0, true⟩
def catchingUp : State := pairAt { standby0 with mirror := .catchingUp }
def outOfStep : State := pairAt { active0 with mirror := .catchingUp }
def pairReq (id port : Nat) : Request := req 0xC01 4 (id + port * 2 ^ 8)
def switchReq : Request := req 0xC03 4 1
/-- A switch: asked for, accepted. -/
def switch0 : Switch := { tf := 1000000, startedAt := 0, port := 0, tag := 3 }
def switchReady : Switch := { switch0 with ready := true }
def switchAt (w : Switch) : State := pairAt { active0 with switch := some w }
def takes : State := pairAt { standby0 with takeAt := some 1000000 }
def takesLow : State := pairAt { standby0 with takeAt := some 1000000, arbHigh := false }
/-- Mirroring: a source item, a layer item; a mirrored commit pending; a shadow set that clearing rejects. -/
def mirrorItem : Bytes := leBytes 64 3
def mirrorPending : State := withSets standbyIn (fun x => { x with pending := some staged })
def mirrorRejected : State := withSets standbyIn (fun x => { x with shadow := rejectedUp.sets.shadow })
def keySetting : Bytes := bytesOf keyReset
def field0 : BitVec 128 := 1
def record0 : BitVec 256 := 1
def snap0 : Snapshot := { mseq := 4 }
def snapAt : State := pairAt { standby0 with mirror := .catchingUp, snapshot := some snap0 }
def snapCrc : Word := BitVec.ofNat 32 (crc32 (snapshotBytes snap0.active snap0.shadow))
/-- Channel 0 in a state; in panic; asleep. -/
def chanAt (x : ChanRun) : State := withMem up (fun m => { m with chans := [(0, x)] })
def panicAt (x : ChanRun) : State :=
  { withMem (chanAt x) (fun m => { m with panicFrom := some 0 }) with heads := [(3, { state := .scanning, panic := true })] }
def chanRun : ChanRun := { state := .run, twoRanks := true }
def postponed4 : ChanRun := { state := .run, twoRanks := true, ranks := [(1, { postponed := 4 })] }
def paused : ChanRun := { state := .run, interval := 300 }
/-- Requests of the three classes. -/
def iso (age : Nat) : MemReq := ⟨.decode, 0, age, false, false, 0⟩
def be (age : Nat) : MemReq := ⟨.tally, 64, age, false, true, 0⟩
def rt0 : MemReq := ⟨.scanOut, 0, 0, false, false, 0⟩
def pinned : State := withMem (chanAt chanRun) (fun m => { m with policy := some (setFld (setFld memReset 1 3 0 1) 1 11 8 1) })
def memOn : State := withPower (chanAt { state := .selfRefresh }) (fun x => { x with domains := (from' 14 4).map (fun d => (d, { on := true })) })
def asleep : State := withMem memOn (fun m => { m with selfRefresh := true })
def trainingUp : State :=
  withPower up (fun x => { x with step := 5, started := false, domains := [(14, { on := true })] })
def trained (populated passed : BitVec 8) : TrainingResult := ⟨populated, passed, 6400, ⟨2, 16⟩ :: ⟨1, 8⟩ :: List.replicate 6 ⟨0, 0⟩⟩
def two : BitVec 8 := 3
def none8 : BitVec 8 := 0
def frozen0 : ChanRun := { state := .frozen, freezeTimes := [0] }
def frozen3 : ChanRun := { state := .frozen, freezeTimes := [0, 0, 0] }
def compatRun : ChanRun := { state := .run, compat := true }
def compatShown : State := withSets (chanAt compatRun) (fun x => { x with active := { outputs := [(31, outOn 31)] } })
/-- A channel that corrected more in the hour than its limit, reported before or not. -/
def ceMany (n : Nat) (at' : Option Nat) : State := chanAt { state := .run, corrTimes := List.replicate n 0, ceAt := at' }
def remapUp : State := withMem (chanAt frozen0) (fun m => { m with remapDue := some 0 })
def remapShown : State := withSets remapUp (fun x => { x with active := { outputs := [(31, outOn 31)] } })
/-- A row corrected twice in the last 24 h; its bank group has no repair left. -/
def hitTwice : State :=
  chanAt { state := .run, rowHits := [(rowKey 1 2 3 4, [0, 0])], repairsUsed := [(10, Config.repairs 0 10)] }
def resumedLine : State :=
  withMem dramUp (fun m => { m with chans := Tbl.set m.chans {} 0 { state := .frozen, sizeMiB := 4096, rate := 6400 } })
/-- `MEM_POLICY_SET` of a policy; `MEM_FIXED_DELAYS_SET`; a channel with a capture of 20. -/
def policyReq (m : BitVec 128) : Request := { opcode := 0xE02, length := 16, session := 1, payload := bytesOf m }
def retired7 : State := withMem dramUp (fun m => { m with chans := Tbl.set m.chans {} 7 { state := .retired } })
def policyZero : BitVec 128 := 0
def delayReq (chan n len : Nat) : Request := req 0xE03 len (chan + n * 2 ^ 8 + 5 * 2 ^ 288)
def captured : State := chanAt { state := .frozen, capture := (upTo 20).map (fun i => { row := i }) }
/-- A standby once it has taken the message of mirror sequence 1. -/
def mirrored (s : State) : State := withPair (s.elapse 0) (fun _ => { s.pair with mseq := (s.pair.mseq + 1) % 2 ^ 32 })

theorem fits_goodTable : tableFits goodTable = true := by
  have h : crc32 (Bytes.slice goodTable 0 (goodTable.len - 4)) = tabCrc (goodTable.bits 6688) := by
    rw [crc32_span _ 12 (by decide)]; decide +kernel
  have b : tableBad (goodTable.bits 6688) = false := by decide +kernel
  simp [tableFits, h, b]
theorem not_fits_loadBad : tableFits loadBad.payload = false := by
  have b : tableBad (loadBad.payload.bits 6688) = true := by decide +kernel
  simp [tableFits, b]
theorem crc_tileData : crc32 tileData = tileCrc.toNat := by rw [crc32_span _ 12 (by decide)]; decide +kernel
theorem spare_role : spareLane.links.role 0 = 0 := by decide +kernel

/-- Premises of `Obligations.LaneAndPortMessages`, clause by clause. -/
theorem witness_LaneAndPortMessages_1 :
    ((ask up 0 loadBad).power.flash = none ∧ (ask up 0 loadGood).power.flash = none ∧
    (47 < (tuneReq 48 24).u8 0 ∨ tuneBad ((tuneReq 48 24).u32 4 % 2 ^ 24) = true) ∧
    (47 < (tuneReq 47 23).u8 0 ∨ tuneBad ((tuneReq 47 23).u32 4 % 2 ^ 24) = true)) ∧
    InHand (ask up 0 loadBad) (0) 3329 loadBad ∧ tableFits loadBad.payload = false ∧
    InHand (ask up 0 loadGood) (0) 3329 loadGood ∧ tableFits loadGood.payload = true ∧
    InHand (ask up 0 (req 3330 0 0)) (0) 3330 (req 3330 0 0) ∧
    InHand (ask up 0 (tuneReq 48 24)) (0) 3332 (tuneReq 48 24) ∧
    InHand (ask up 0 (tuneReq 47 23)) (0) 3332 (tuneReq 47 23) :=
  ⟨by decide +kernel, ask_inHand rfl rfl, not_fits_loadBad, ask_inHand rfl rfl, fits_goodTable, ask_inHand rfl rfl,
  ask_inHand rfl rfl, ask_inHand rfl rfl⟩

/-- Premises of `Obligations.LaneAndPortMessages`, clause by clause. -/
theorem witness_LaneAndPortMessages_2 :
    ((tuneReq 47 24).u8 0 ≤ 47 ∧ tuneBad ((tuneReq 47 24).u32 4 % 2 ^ 24) = false ∧
    cutList ((req 3331 4 (47 + 2 ^ 17)).u16 0) ((req 3331 4 (47 + 2 ^ 17)).u16 2) 48 96 (req 3331 4 (47 + 2 ^
      17)).room = some [47] ∧ (prbsReq 47 8).u8 0 ≤ 47 ∧
    (ask up 0 (prbsReq 47 8)).links.role ((prbsReq 47 8).u8 0) ≠ 0 ∧ (prbsReq 0 0).u8 0 ≤ 47 ∧
    (prbsReq 0 0).u32 4 = 0) ∧ InHand (ask up 0 (tuneReq 47 24)) (0) 3332 (tuneReq 47 24) ∧
    InHand (ask up 0 (req 3331 4 (47 + 2 ^ 17))) (0) 3331 (req 3331 4 (47 + 2 ^ 17)) ∧
    InHand (ask up 0 (prbsReq 47 8)) (0) 3334 (prbsReq 47 8) ∧
    InHand (ask spareLane 0 (prbsReq 0 0)) (0) 3334 (prbsReq 0 0) ∧
    (ask spareLane 0 (prbsReq 0 0)).links.role ((prbsReq 0 0).u8 0) = 0 :=
  ⟨by decide +kernel, ask_inHand rfl rfl, ask_inHand rfl rfl, ask_inHand rfl rfl, ask_inHand rfl rfl, spare_role⟩

/-- Premises of `Obligations.LaneAndPortMessages`, clause by clause. -/
theorem witness_LaneAndPortMessages_3 :
    ((prbsReq 0 8).u8 0 ≤ 47 ∧ (prbsReq 0 8).u32 4 ≠ 0 ∧
    ((ask spareLane 0 (prbsReq 0 8)).links.lane ((prbsReq 0 8).u8 0)).prbs = none ∧
    ((ask spareLane 0 (prbsReq 0 8)).port 0).held.length < 8 ∧ (sparePrbs.links.lane 0).prbs = some (2, 7) ∧
    (ethAt LaneState.hunting).windowUp = true ∧ (ethAt LaneState.hunting).links.laneOf 4 0 = some ethLane ∧
    ((ethAt LaneState.hunting).links.lane ethLane).state = LaneState.hunting) ∧
    InHand (ask spareLane 0 (prbsReq 0 8)) (0) 3334 (prbsReq 0 8) ∧
    (ask spareLane 0 (prbsReq 0 8)).links.role ((prbsReq 0 8).u8 0) = 0 :=
  ⟨by decide +kernel, ask_inHand rfl rfl, spare_role⟩

/-- Premises of `Obligations.LaneAndPortMessages`, clause by clause. -/
theorem witness_LaneAndPortMessages_4 :
    ((ethAt LaneState.up).windowUp = true ∧ (ethAt LaneState.up).links.laneOf 4 0 = some ethLane ∧
    ((ethAt LaneState.up).links.lane ethLane).state = LaneState.up ∧
    (7 < ethPort (BitVec.ofNat 576 ((ethReq 8 10).payload.at 0 72 - ((ethReq 8 10).payload.at 0 72 &&&
      ethReserved))) ∨ ((ask up 0 (ethReq 8 10)).links.lanesOf 4).length ≤ ethPort (BitVec.ofNat 576 ((ethReq 8
      10).payload.at 0 72 - ((ethReq 8 10).payload.at 0 72 &&& ethReserved)))) ∧
    ethPort (BitVec.ofNat 576 ((ethReq 0 224).payload.at 0 72 - ((ethReq 0 224).payload.at 0 72 &&& ethReserved)))
      ≤ 7 ∧
    ethPort (BitVec.ofNat 576 ((ethReq 0 224).payload.at 0 72 - ((ethReq 0 224).payload.at 0 72 &&& ethReserved)))
      < ((ask up 0 (ethReq 0 224)).links.lanesOf 4).length ∧
    ethBad (BitVec.ofNat 576 ((ethReq 0 224).payload.at 0 72 - ((ethReq 0 224).payload.at 0 72 &&& ethReserved)))
      = true ∧
    ethPort (BitVec.ofNat 576 ((ethReq 0 10).payload.at 0 72 - ((ethReq 0 10).payload.at 0 72 &&& ethReserved))) ≤
      7 ∧
    ethPort (BitVec.ofNat 576 ((ethReq 0 10).payload.at 0 72 - ((ethReq 0 10).payload.at 0 72 &&& ethReserved))) <
      ((ask up 0 (ethReq 0 10)).links.lanesOf 4).length ∧
    ethBad (BitVec.ofNat 576 ((ethReq 0 10).payload.at 0 72 - ((ethReq 0 10).payload.at 0 72 &&& ethReserved))) =
      false) ∧ InHand (ask up 0 (ethReq 8 10)) (0) 3333 (ethReq 8 10) ∧
    InHand (ask up 0 (ethReq 0 224)) (0) 3333 (ethReq 0 224) ∧
    InHand (ask up 0 (ethReq 0 10)) (0) 3333 (ethReq 0 10) :=
  ⟨by decide +kernel, ask_inHand rfl rfl, ask_inHand rfl rfl, ask_inHand rfl rfl⟩

/-- Premises of `Obligations.KinikFramesAreAssembled`, clause by clause. -/
theorem witness_KinikFramesAreAssembled_1 :
    srcUp.sourceLane 32 = true ∧ (kinikAt kinik0).sourceLane 32 = true ∧
    (kinikAt kinik0).src.kinik.find 32 = some kinik0 ∧ ((kinikAt kinik0).links.lane 32).partner = some recSource ∧
    kinik0.follows = true ∧
    (List.find? (fun e => e.fst == BitVec.toNat tag7) ((kinikAt kinik0).links.lane 32).pairs = some (7, 1000)) ∧
    (List.find? (fun e => e.fst == BitVec.toNat tag8) ((kinikAt kinik0).links.lane 32).pairs = none) ∧
    (goodTile.overflow = false ∧ goodTile.announced = tileBlocks (capFormat recSource) ∧ goodTile.received =
      tileBlocks (capFormat recSource) ∧ goodTile.col < kinikCols recSource ∧ goodTile.row < ceilDiv (capHeight
      recSource) 32 ∧ goodTile.frameLow = kinik0.num % 256 ∧ kinik0.openTile = none ∧ ∀ (e : Nat × Bytes), e ∈
      kinik0.tiles → e.fst ≠ goodTile.row * kinikCols recSource + goodTile.col) ∧
    (¬(shortTile.overflow = false ∧ shortTile.announced = tileBlocks (capFormat recSource) ∧ shortTile.received =
      tileBlocks (capFormat recSource) ∧ shortTile.col < kinikCols recSource ∧ shortTile.row < ceilDiv (capHeight
      recSource) 32 ∧ shortTile.frameLow = kinik0.num % 256 ∧ kinik0.openTile = none ∧ ∀ (e : Nat × Bytes), e ∈
      kinik0.tiles → e.fst ≠ shortTile.row * kinikCols recSource + shortTile.col)) ∧
    (kinikAt kinik1).sourceLane 32 = true ∧ (kinikAt kinik1).src.kinik.find 32 = some kinik1 ∧
    ((kinikAt kinik1).links.lane 32).partner = some recSource ∧
    (¬(goodTile.overflow = false ∧ goodTile.announced = tileBlocks (capFormat recSource) ∧ goodTile.received =
      tileBlocks (capFormat recSource) ∧ goodTile.col < kinikCols recSource ∧ goodTile.row < ceilDiv (capHeight
      recSource) 32 ∧ goodTile.frameLow = kinik1.num % 256 ∧ kinik1.openTile = none ∧ ∀ (e : Nat × Bytes), e ∈
      kinik1.tiles → e.fst ≠ goodTile.row * kinikCols recSource + goodTile.col)) :=
  by decide +kernel

/-- Premises of `Obligations.KinikFramesAreAssembled`, clause by clause. -/
theorem witness_KinikFramesAreAssembled_2 :
    ((kinikAt kinikOpen).sourceLane 32 = true ∧ (kinikAt kinikOpen).src.kinik.find 32 = some kinikOpen ∧
    ((kinikAt kinikOpen).links.lane 32).partner = some recSource ∧ 32 ≤ ((kinikAt kinikOpen).links.lane 32).version ∧
    kinikOpen.openTile = some 0 ∧ kinikOpen.tiles = [(0, tileData)] ∧ BitVec.toNat frame9 = kinikOpen.num % 256 ∧
    kinikShown.sourceLane 32 = true ∧ kinikShown.src.kinik.find 32 = some kinik1 ∧
    (kinikShown.links.lane 32).partner = some recSource) ∧ crc32 tileData = BitVec.toNat tileCrc ∧
    (crc32 tileData ≠ BitVec.toNat wrongCrc ∨ BitVec.toNat frame9 ≠ kinikOpen.num % 256) :=
  ⟨by decide +kernel, crc_tileData, .inl (by rw [crc_tileData]; decide)⟩

/-- Premises of `Obligations.KinikFramesAreAssembled`, clause by clause. -/
theorem witness_KinikFramesAreAssembled_3 :
    kinikShown.sourceLane 32 = true ∧ kinikShown.src.kinik.find 32 = some kinik1 ∧
    (kinikShown.links.lane 32).partner = some recSource ∧ kinikShown.frozenChans = [] ∧
    BitVec.toNat num9 = kinik1.num ∧ 1 = kinikTiles recSource ∧ kinik1.tiles.length = kinikTiles recSource ∧
    kinik1.openTile = none ∧ 5 ∈ kinikShown.kinikSources 32 ∧ (kinikShown.srcRun 5).notAdmitted = false ∧
    List.count 5 (kinikShown.kinikSources 32) = 1 :=
  by decide +kernel

/-- Premises of `Obligations.KinikFramesAreAssembled`, clause by clause. -/
theorem witness_KinikFramesAreAssembled_4 :
    kinikShown.sourceLane 32 = true ∧ kinikShown.src.kinik.find 32 = some kinik1 ∧
    (kinikShown.links.lane 32).partner = some recSource ∧
    (kinikShown.frozenChans ≠ [] ∨ BitVec.toNat num9 ≠ kinik1.num ∨ 2 ≠ kinikTiles recSource ∨ kinik1.tiles.length
      ≠ kinikTiles recSource ∨ kinik1.openTile.isSome = true) :=
  by decide +kernel

/-- Premises of `Obligations.PeersDeliverOnce`, clause by clause. -/
theorem witness_PeersDeliverOnce_1 :
    (cutList ((req 3076 4 (3 + 2 ^ 17)).u16 0) ((req 3076 4 (3 + 2 ^ 17)).u16 2) 4 32 (req 3076 4 (3 + 2 ^
      17)).room = some [3] ∧ peerUp.peerLane 3 = some 47 ∧ peerUp.peerUp 3 = true ∧
    peerSound (msgIn 2 5 false) = false ∧ peerSound (msgIn 42 5 true) = true ∧ (peerSent tx5).peerLane 3 = some 47 ∧
    (peerSent tx5).peerUp 3 = true ∧ peerSound (msgIn 2 6 true) = true ∧
    (msgIn 2 6 true).seq % 65536 ∈ ((peerSent tx5).peer 3).delivered) ∧
    InHand (ask up 0 (req 3076 4 (3 + 2 ^ 17))) (0) 3076 (req 3076 4 (3 + 2 ^ 17)) :=
  ⟨by decide +kernel, ask_inHand rfl rfl⟩

/-- Premises of `Obligations.PeersDeliverOnce`, clause by clause. -/
theorem witness_PeersDeliverOnce_2 :
    peerUp.peerLane 3 = some 47 ∧ peerUp.peerUp 3 = true ∧ peerSound (msgIn 2 65535 true) = true ∧
    ¬(msgIn 2 65535 true).seq % 65536 ∈ (peerUp.peer 3).delivered ∧ (peerUp.peer 3).waiting = [] ∧
    (∀ (n : Nat), (peerUp.peer 3).next = some n → n = (msgIn 2 65535 true).seq % 65536 ∨ 32768 ≤ subMod 16 ((msgIn
      2 65535 true).seq % 65536) n) ∧ peerNext.peerLane 3 = some 47 ∧ peerNext.peerUp 3 = true ∧
    peerSound (msgIn 2 7 true) = true ∧ ¬(msgIn 2 7 true).seq % 65536 ∈ (peerNext.peer 3).delivered ∧
    (peerNext.peer 3).waiting = [] ∧
    (∀ (n : Nat), (peerNext.peer 3).next = some n → n = (msgIn 2 7 true).seq % 65536 ∨ 32768 ≤ subMod 16 ((msgIn 2
      7 true).seq % 65536) n) :=
  by decide +kernel

/-- Premises of `Obligations.PeersDeliverOnce`, clause by clause. -/
theorem witness_PeersDeliverOnce_3 :
    peerNext.peerLane 3 = some 47 ∧ peerNext.peerUp 3 = true ∧ peerSound (msgIn 2 5 true) = true ∧
    ¬(msgIn 2 5 true).seq % 65536 ∈ (peerNext.peer 3).delivered ∧ (peerNext.peer 3).waiting = [] ∧
    (∀ (n : Nat), (peerNext.peer 3).next = some n → n = (msgIn 2 5 true).seq % 65536 ∨ 32768 ≤ subMod 16 ((msgIn 2
      5 true).seq % 65536) n) ∧ peerSound (msgIn 2 8 true) = true ∧
    ¬(msgIn 2 8 true).seq % 65536 ∈ (peerNext.peer 3).delivered ∧ (peerNext.peer 3).next = some 7 ∧
    7 ≠ (msgIn 2 8 true).seq % 65536 ∧ 7 < 65536 ∧ subMod 16 ((msgIn 2 8 true).seq % 65536) 7 < 32768 :=
  by decide +kernel

/-- Premises of `Obligations.PeersDeliverOnce`, clause by clause. -/
theorem witness_PeersDeliverOnce_4 :
    (peerSent tx5).peerUp 3 = true ∧
    (List.find? (fun m => m.seq == seq5.toNat) ((peerSent tx5).peer 3).outstanding = some tx5) ∧ BitVec.toNat ok < 2 ∧
    tx5.type ≠ 1 ∧ ((peerSent tx5).peer 3).queue = [] ∧ 2 ≤ BitVec.toNat result2 ∧ (peerSent tx5).tellerUp = true ∧
    (List.find? (fun m => decide (m.sentAt + 100000 ≤ (peerSent tx5).time.now + 100000)) ((peerSent tx5).peer
      3).outstanding = some tx5) ∧ tx5.resends < 3 ∧ (peerSent tx5Last).tellerUp = true ∧
    (List.find? (fun m => decide (m.sentAt + 100000 ≤ (peerSent tx5Last).time.now + 100000)) ((peerSent
      tx5Last).peer 3).outstanding = some tx5Last) ∧ 3 ≤ tx5Last.resends ∧ ((peerSent tx5Last).peer 3).queue = [] :=
  by decide +kernel

/-- Premises of `Obligations.PeersDeliverOnce`, clause by clause. -/
theorem witness_PeersDeliverOnce_5 :
    peerUp.peerLane 3 = some 47 ∧ peerUp.peerUp 3 = true :=
  by decide +kernel

/-- Premises of `Obligations.RolesAndHeartbeats`, clause by clause. -/
theorem witness_RolesAndHeartbeats_1 :
    standbyIn.tellerUp = true ∧ standbyIn.pair.enabled = true ∧ standbyIn.pair.role = Role.standby ∧
    standbyIn.fault.alive = true ∧ standbyIn.inSafe = false ∧ standbyIn.pair.arbHigh = true ∧
    ((standbyIn.pair.arbSince + if standbyIn.pair.id = 1 ∧ standbyIn.pair.seenLow = false then 10000000 else
      2000000) ≤ standbyIn.time.now + 2000000) ∧ standbyIn.pair.holdOff ≤ standbyIn.time.now + 2000000 ∧
    (standbyIn.pair.arbHigh = false ∨ (standbyIn.time.now + 1999999 < standbyIn.pair.arbSince + if
      standbyIn.pair.id = 1 ∧ standbyIn.pair.seenLow = false then 10000000 else 2000000) ∨ standbyIn.time.now +
      1999999 < standbyIn.pair.holdOff) ∧ up.pair.arbHigh ≠ false :=
  by decide +kernel

/-- Premises of `Obligations.RolesAndHeartbeats`, clause by clause. -/
theorem witness_RolesAndHeartbeats_2 :
    up.pair.arbHigh ≠ false ∧ up.pair.enabled = false ∧ standbyIn.pair.arbHigh ≠ false ∧
    standbyIn.pair.enabled = true ∧
    (false = false ∨ standbyIn.pair.driveLow = false ∧ standbyIn.pair.arbSince + 10000 < standbyIn.time.now + 5) ∧
    standbyIn.pair.arbHigh = true ∧ standbyIn.pair.arbSince + 450000 ≤ standbyIn.time.now + 450000 ∧
    standbyIn.time.now + 450000 ≤ standbyIn.pair.arbSince + 550000 ∧
    standbyIn.pair.arbSince + 450000 ≤ standbyIn.time.now + 550000 ∧
    standbyIn.time.now + 550000 ≤ standbyIn.pair.arbSince + 550000 :=
  by decide +kernel

/-- Premises of `Obligations.RolesAndHeartbeats`, clause by clause. -/
theorem witness_RolesAndHeartbeats_3 :
    (standbyIn.pair.arbHigh = true ∧ (ask up 0 (pairReq 2 3)).power.flash = none ∧
    (1 < (pairReq 2 3).u8 0 ∨ 3 < (pairReq 2 3).u8 1) ∧ (ask up 0 (pairReq 1 3)).power.flash = none ∧
    (pairReq 1 3).u8 0 ≤ 1 ∧ (pairReq 1 3).u8 1 ≤ 3 ∧ dual1.tellerUp = true ∧ dual1.pair.enabled = true ∧
    dual1.peerUp 0 = true ∧ dual1.pair.port = 0) ∧ InHand (ask up 0 (pairReq 2 3)) (0) 3073 (pairReq 2 3) ∧
    InHand (ask up 0 (pairReq 1 3)) (0) 3073 (pairReq 1 3) ∧
    InHand (ask up 0 (req 3074 0 0)) (0) 3074 (req 3074 0 0) :=
  ⟨by decide +kernel, ask_inHand rfl rfl, ask_inHand rfl rfl, ask_inHand rfl rfl⟩

/-- Premises of `Obligations.RolesAndHeartbeats`, clause by clause. -/
theorem witness_RolesAndHeartbeats_4 :
    dual1.tellerUp = true ∧ dual1.pair.enabled = true ∧ dual1.peerUp 0 = true ∧ dual1.pair.port = 0 ∧
    dual1.pair.hbLast.isSome = true ∧ dual1.pair.hbFailed = false ∧ dual1.pair.role = Role.active ∧
    hbActive.role = 1 ∧ 2 ≤ dual1.pair.dualRun ∧ dual1.pair.id = 1 :=
  by decide +kernel

/-- Premises of `Obligations.RolesAndHeartbeats`, clause by clause. -/
theorem witness_RolesAndHeartbeats_5 :
    dual0.tellerUp = true ∧ dual0.pair.enabled = true ∧ dual0.peerUp 0 = true ∧ dual0.pair.port = 0 ∧
    dual0.pair.hbLast.isSome = true ∧ dual0.pair.hbFailed = false ∧ dual0.pair.role = Role.active ∧
    hbActive.role = 1 ∧ (dual0.pair.dualRun < 2 ∨ dual0.pair.id ≠ 1) ∧ dual0.pair.port ≠ 1 :=
  by decide +kernel

/-- Premises of `Obligations.RolesAndHeartbeats`, clause by clause. -/
theorem witness_RolesAndHeartbeats_6 :
    activeIn.tellerUp = true ∧ activeIn.pair.enabled = true ∧ activeIn.power.started = true ∧
    activeIn.pair.hbFailed = false ∧
    activeIn.pair.hbLast.getD activeIn.power.resetAt + 8000000 ≤ activeIn.time.now + 8000000 ∧
    activeIn.time.now + 7999999 < activeIn.pair.hbLast.getD activeIn.power.resetAt + 8000000 ∧
    outOfStep.tellerUp = true ∧ outOfStep.pair.enabled = true ∧ outOfStep.pair.role = Role.active ∧
    outOfStep.pair.hbLast.isSome = true ∧ outOfStep.pair.hbFailed = false ∧ outOfStep.pair.mirror ≠ Mirror.inStep ∧
    max outOfStep.pair.mirrorSince (outOfStep.pair.pulsesAt.getD 0) + 10000000000 ≤ outOfStep.time.now +
      10000000000 :=
  by decide +kernel

/-- Premises of `Obligations.RolesAndHeartbeats`, clause by clause. -/
theorem witness_RolesAndHeartbeats_7 :
    outOfStep.tellerUp = true ∧ outOfStep.pair.enabled = true ∧ outOfStep.pair.role = Role.active ∧
    outOfStep.pair.hbLast.isSome = true ∧ outOfStep.pair.hbFailed = false ∧ outOfStep.pair.mirror ≠ Mirror.inStep ∧
    outOfStep.time.now + 9999999999 < max outOfStep.pair.mirrorSince (outOfStep.pair.pulsesAt.getD 0) +
      10000000000 :=
  by decide +kernel

/-- Premises of `Obligations.TheSwitchIsHandedOver`, clause by clause. -/
theorem witness_TheSwitchIsHandedOver_1 :
    (((ask (switchAt switch0) 0 switchReq).pair.switch.isSome = true ∨ 8 ≤ ((ask (switchAt switch0) 0
      switchReq).port 0).held.length) ∧ (ask standbyIn 0 switchReq).pair.switch = none ∧
    ((ask standbyIn 0 switchReq).port 0).held.length < 8 ∧ switchReq.u8 0 = 1 ∧
    ((ask standbyIn 0 switchReq).pair.enabled = false ∨ (ask standbyIn 0 switchReq).pair.role ≠ Role.active ∨ (ask
      standbyIn 0 switchReq).pair.mirror ≠ Mirror.inStep) ∧ (ask activeIn 0 switchReq).pair.switch = none ∧
    ((ask activeIn 0 switchReq).port 0).held.length < 8 ∧ (ask activeIn 0 switchReq).pair.enabled = true ∧
    (ask activeIn 0 switchReq).pair.role = Role.active ∧ (ask activeIn 0 switchReq).pair.mirror = Mirror.inStep) ∧
    InHand (ask (switchAt switch0) 0 switchReq) (0) 3075 switchReq ∧
    InHand (ask standbyIn 0 switchReq) (0) 3075 switchReq ∧ InHand (ask activeIn 0 switchReq) (0) 3075 switchReq :=
  ⟨by decide +kernel, ask_inHand rfl rfl, ask_inHand rfl rfl, ask_inHand rfl rfl⟩

/-- Premises of `Obligations.TheSwitchIsHandedOver`, clause by clause. -/
theorem witness_TheSwitchIsHandedOver_2 :
    standbyIn.twinTalks = true ∧ activeIn.twinTalks = true ∧ (switchAt switch0).pair.switch = some switch0 ∧
    (switchAt switch0).twinTalks = true ∧ switch0.ready = false ∧ 2 ≠ 0 ∧ (switchAt switch0).tellerUp = true ∧
    switch0.startedAt + 2000000 ≤ (switchAt switch0).time.now + 2000000 ∧
    (switchAt switch0).time.now + 1999999 < switch0.startedAt + 2000000 ∧
    (switchAt switchReady).pair.switch = some switchReady ∧ (switchAt switchReady).tellerUp = true ∧
    switchReady.ready = true ∧ switchReady.released = false ∧ (switchAt switchReady).pair.role = Role.active ∧
    switchReady.tf ≤ ((switchAt switchReady).elapse 800000).time.room + 200000 :=
  by decide +kernel

/-- Premises of `Obligations.TheSwitchIsHandedOver`, clause by clause. -/
theorem witness_TheSwitchIsHandedOver_3 :
    (switchAt switchReady).pair.switch = some switchReady ∧ (switchAt switchReady).tellerUp = true ∧
    switchReady.ready = true ∧ switchReady.tf + 100000000 ≤ ((switchAt switchReady).elapse 101000000).time.room ∧
    ((switchAt switchReady).elapse 100999999).time.room < switchReady.tf + 100000000 ∧
    takes.pair.takeAt = some 1000000 ∧ 1000000 ≤ (takes.elapse 900000).time.room + 100000 ∧ takes.mayDrive = true ∧
    takes.pair.arbHigh = true ∧ takesLow.pair.takeAt = some 1000000 ∧
    1000000 ≤ (takesLow.elapse 900000).time.room + 100000 ∧
    (takesLow.mayDrive = false ∨ takesLow.pair.arbHigh = false) :=
  by decide +kernel

/-- Premises of `Obligations.TheSwitchIsHandedOver`, clause by clause. -/
theorem witness_TheSwitchIsHandedOver_4 :
    takes.pair.takeAt = some 1000000 ∧ (takes.elapse 899999).time.room + 100000 < 1000000 :=
  by decide +kernel

/-- Premises of `Obligations.MirroringKeepsPairsInStep`, clause by clause. -/
theorem witness_MirroringKeepsPairsInStep_1 :
    standbyIn.mirrorHere = true ∧ standbyIn.pair.mirror = Mirror.inStep ∧
    itemsExist SetKind.source 255 1 mirrorItem = true ∧ standbyIn.sets.pending = none ∧ standbyIn.pair.later = [] ∧
    standbyIn.pair.parts = [] ∧ mirrorPending.mirrorHere = true ∧ mirrorPending.pair.mirror = Mirror.inStep ∧
    mirrorPending.sets.pending.isSome = true ∧ mirrorPending.pair.parts = [] :=
  by decide +kernel

/-- Premises of `Obligations.MirroringKeepsPairsInStep`, clause by clause. -/
theorem witness_MirroringKeepsPairsInStep_2 :
    standbyIn.mirrorHere = true ∧ standbyIn.pair.mirror = Mirror.inStep ∧
    itemsExist SetKind.source 255 1 mirrorItem = true ∧ 0 < 2 ^ 32 ∧ 0 ≠ (standbyIn.pair.mseq + 1) % 2 ^ 32 ∧
    subMod 32 standbyIn.pair.mseq 0 < 2 ^ 31 ∧ 2 < 2 ^ 32 ∧ 2 ≠ (standbyIn.pair.mseq + 1) % 2 ^ 32 ∧
    2 ^ 31 ≤ subMod 32 standbyIn.pair.mseq 2 ∧ standbyIn.pair.incompatible = false :=
  by decide +kernel

/-- Premises of `Obligations.MirroringKeepsPairsInStep`, clause by clause. -/
theorem witness_MirroringKeepsPairsInStep_3 :
    standbyIn.mirrorHere = true ∧ standbyIn.pair.mirror = Mirror.inStep ∧ standbyIn.sets.pending = none ∧
    standbyIn.pair.later = [] ∧ (mirrored standbyIn).clear standbyIn.sets.shadow = none ∧
    mirrorRejected.mirrorHere = true ∧ mirrorRejected.pair.mirror = Mirror.inStep ∧
    mirrorRejected.sets.pending = none ∧ mirrorRejected.pair.later = [] ∧
    (mirrored mirrorRejected).clear mirrorRejected.sets.shadow ≠ none :=
  by decide +kernel

/-- Premises of `Obligations.MirroringKeepsPairsInStep`, clause by clause. -/
theorem witness_MirroringKeepsPairsInStep_4 :
    standbyIn.mirrorHere = true ∧ standbyIn.pair.mirror = Mirror.inStep ∧ standbyIn.sets.pending = none ∧
    standbyIn.pair.later = [] ∧ standbyIn.groupCheck (15) (groupKept ((leBytes 16 0).at 0 16)) = none ∧
    keyCheck (keySetting.bits 896) = none ∧ activeIn.twinTalks = true ∧ activeIn.pair.role = Role.active ∧
    activeIn.pair.incompatible = false ∧ catchingUp.mirrorHere = true ∧ catchingUp.pair.mirror = Mirror.catchingUp ∧
    itemsExist SetKind.source 255 1 mirrorItem = true ∧ 5 < 2 ^ 32 :=
  by decide +kernel

/-- Premises of `Obligations.MirroringKeepsPairsInStep`, clause by clause. -/
theorem witness_MirroringKeepsPairsInStep_5 :
    (snapAt.mirrorHere = true ∧ snapAt.pair.mirror = Mirror.catchingUp ∧
    itemsExist SetKind.source 255 1 mirrorItem = true ∧ 4 < 2 ^ 32 ∧ snapAt.pair.snapshot = some snap0 ∧
    snap0.mseq < 2 ^ 32 ∧ snapAt.sets.pending = none ∧ snap0.active = snapAt.sets.active) ∧
    crc32 (snapshotBytes snap0.active snap0.shadow) = BitVec.toNat snapCrc ∧
    crc32 (snapshotBytes snap0.active snap0.shadow) ≠ BitVec.toNat (snapCrc + 1) :=
  ⟨by decide +kernel, (crc32_word _).symm, (word_next_ne _ (crc32_word _)).symm⟩

/-- Premises of `Obligations.RefreshTrainingAndSleep`, clause by clause. -/
theorem witness_RefreshTrainingAndSleep_1 :
    (panicAt chanRun).windowUp = true ∧ ((panicAt chanRun).chan 0).uses 1 = true ∧
    ((panicAt chanRun).elapse 0).lookPushes.mem.panicFrom.isSome = true ∧
    (((panicAt chanRun).chan 0).ranks.get {} 1).postponed < 4 ∧ (chanAt postponed4).windowUp = true ∧
    ((chanAt postponed4).chan 0).uses 1 = true ∧ ((chanAt postponed4).elapse 0).lookPushes.mem.panicFrom = none ∧
    (panicAt postponed4).windowUp = true ∧ ((panicAt postponed4).chan 0).uses 1 = true ∧
    ((panicAt postponed4).elapse 0).lookPushes.mem.panicFrom.isSome = true ∧
    4 ≤ (((panicAt postponed4).chan 0).ranks.get {} 1).postponed :=
  by decide +kernel

/-- Premises of `Obligations.RefreshTrainingAndSleep`, clause by clause. -/
theorem witness_RefreshTrainingAndSleep_2 :
    (chanAt chanRun).windowUp = true ∧ ((chanAt chanRun).chan 0).uses 1 = true ∧ 85 < 86 ∧ pinned.windowUp = true ∧
    (pinned.chan 0).uses 1 = true ∧ memRefreshHi pinned.mem.pol = 1 ∧ memRefreshLo pinned.mem.pol ≠ 2 ∧ 85 ≤ 85 ∧
    (panicAt paused).windowUp = true ∧ ((panicAt paused).chan 0).state = ChanState.run ∧
    ((panicAt paused).chan 0).fixed = false ∧
    (((panicAt paused).chan 0).pauseDue = true ∨ ((panicAt paused).chan 0).lastPause + ((panicAt paused).chan
      0).interval * 1000000 ≤ (panicAt paused).time.now + 499999999) ∧
    ((panicAt paused).elapse 499999999).lookPushes.mem.panicFrom.isSome = true ∧
    (panicAt paused).time.now + 499999999 < ((panicAt paused).chan 0).lastPause + 500000000 :=
  by decide +kernel

/-- Premises of `Obligations.RefreshTrainingAndSleep`, clause by clause. -/
theorem witness_RefreshTrainingAndSleep_3 :
    (panicAt paused).windowUp = true ∧ ((panicAt paused).chan 0).state = ChanState.run ∧
    ((panicAt paused).chan 0).fixed = false ∧
    (((panicAt paused).chan 0).pauseDue = true ∨ ((panicAt paused).chan 0).lastPause + ((panicAt paused).chan
      0).interval * 1000000 ≤ (panicAt paused).time.now + 500000000) ∧
    (((panicAt paused).elapse 500000000).lookPushes.mem.panicFrom = none ∨ ((panicAt paused).chan 0).lastPause +
      500000000 ≤ (panicAt paused).time.now + 500000000) ∧ (chanAt paused).windowUp = true ∧
    ((chanAt paused).chan 0).state = ChanState.run ∧ ((chanAt paused).chan 0).fixed = false ∧
    ((chanAt paused).chan 0).pauseDue = false ∧
    (chanAt paused).time.now + 299999999 < ((chanAt paused).chan 0).lastPause + ((chanAt paused).chan 0).interval
      * 1000000 :=
  by decide +kernel

/-- Premises of `Obligations.RefreshTrainingAndSleep`, clause by clause. -/
theorem witness_RefreshTrainingAndSleep_4 :
    (chanAt chanRun).windowUp = true ∧ ((chanAt chanRun).chan 0).state = ChanState.run ∧
    (panicAt chanRun).windowUp = true ∧ ((panicAt chanRun).chan 0).state = ChanState.run ∧
    (iso 2001).promoted = false ∧ rt0.promoted = false ∧ rt0.master.cls = MemClass.rt ∧
    (iso 2001).master.cls = MemClass.iso ∧ (be 20001).promoted = false ∧ (be 20001).master.cls = MemClass.be :=
  by decide +kernel

/-- Premises of `Obligations.RefreshTrainingAndSleep`, clause by clause. -/
theorem witness_RefreshTrainingAndSleep_5 :
    up.windowUp = true ∧ up.mem.selfRefresh = false ∧ (up.elapse 10000).tolerant = true ∧
    (up.elapse 9999).tolerant = false ∧ asleep.windowUp = true ∧ asleep.mem.selfRefresh = true ∧
    asleep.dramAsleep = false ∧ trainingUp.tellerUp = true ∧ trainingUp.power.step = 5 ∧
    (trainingUp.domain 14).on = true ∧ (trainingUp.chan 0).state = ChanState.training :=
  by decide +kernel

/-- Premises of `Obligations.RefreshTrainingAndSleep`, clause by clause. -/
theorem witness_RefreshTrainingAndSleep_6 :
    trainingUp.tellerUp = true ∧ trainingUp.power.step = 5 ∧ (trainingUp.domain 14).on = true ∧
    (trainingUp.chan 0).state = ChanState.training :=
  by decide +kernel

/-- Premises of `Obligations.FreezesAndScrubs`, clause by clause. -/
theorem witness_FreezesAndScrubs_1 :
    (chanAt chanRun).tellerUp = true ∧ ((chanAt chanRun).chan 0).state = ChanState.run ∧
    ((chanAt chanRun).chan 0).compat = false ∧ FreezeCause.parity ≠ FreezeCause.replayExhausted ∧
    (chanAt compatRun).tellerUp = true ∧ ((chanAt compatRun).chan 0).state = ChanState.run ∧
    ((chanAt compatRun).chan 0).compat = true ∧ Requester.hostRead 1 = Requester.hostRead 1 ∧
    compatShown.tellerUp = true ∧ (compatShown.chan 0).state = ChanState.run ∧ (compatShown.chan 0).compat = true ∧
    Requester.scanOut 31 0 = Requester.scanOut 31 0 ∧ 31 < 32 ∧ compatShown.sets.active.shows 31 = true ∧
    0 < outTiles 31 (compatShown.outSet 31) :=
  by decide +kernel

/-- Premises of `Obligations.FreezesAndScrubs`, clause by clause. -/
theorem witness_FreezesAndScrubs_2 :
    (chanAt compatRun).tellerUp = true ∧ ((chanAt compatRun).chan 0).state = ChanState.run ∧
    ((chanAt compatRun).chan 0).compat = true ∧ 3 < 4 ∧ 4 ≤ 4 ∧ resumedLine.tellerUp = true ∧
    (resumedLine.chan 0).state = ChanState.frozen ∧ resumedLine.mem.remapDue = none ∧ true = true ∧
    ((resumedLine.chan 0).recentFreezes (resumedLine.time.now + 5)).length < 3 ∧
    (resumedLine.chan 0).repairShort = false :=
  by decide +kernel

/-- Premises of `Obligations.FreezesAndScrubs`, clause by clause. -/
theorem witness_FreezesAndScrubs_3 :
    (chanAt frozen0).tellerUp = true ∧ ((chanAt frozen0).chan 0).state = ChanState.frozen ∧
    (chanAt frozen0).mem.remapDue = none ∧
    (false = false ∨ 3 ≤ (((chanAt frozen0).chan 0).recentFreezes ((chanAt frozen0).time.now + 5)).length ∨
      ((chanAt frozen0).chan 0).repairShort = true) ∧ (chanAt frozen3).tellerUp = true ∧
    ((chanAt frozen3).chan 0).state = ChanState.frozen ∧ (chanAt frozen3).mem.remapDue = none ∧
    (true = false ∨ 3 ≤ (((chanAt frozen3).chan 0).recentFreezes ((chanAt frozen3).time.now + 5)).length ∨
      ((chanAt frozen3).chan 0).repairShort = true) ∧ remapShown.tellerUp = true ∧ remapShown.mem.remapDue = some 0 :=
  by decide +kernel

/-- Premises of `Obligations.FreezesAndScrubs`, clause by clause. -/
theorem witness_FreezesAndScrubs_4 :
    (chanAt chanRun).tellerUp = true ∧ ((chanAt chanRun).chan 0).state = ChanState.run ∧
    ((List.filter (fun t => decide ((chanAt chanRun).time.now + 5 < t + 86400000000000)) (((chanAt chanRun).chan
      0).rowHits.get [] (rowKey 1 2 3 4))).length < 2) ∧ hitTwice.tellerUp = true ∧
    (hitTwice.chan 0).state = ChanState.run ∧ ((chanAt chanRun).chan 0).compat = false ∧
    (ceMany 257 none).tellerUp = true ∧
    memCeLimit (ceMany 257 none).mem.pol < (((ceMany 257 none).chan 0).hourTimes ((ceMany 257 none).time.now +
      5)).length ∧
    (∀ (t0 : Nat), ((ceMany 257 none).chan 0).ceAt = some t0 → t0 + 3600000000000 ≤ (ceMany 257 none).time.now +
      5) ∧ (ceMany 257 (some 0)).tellerUp = true ∧
    ((((ceMany 257 (some 0)).chan 0).hourTimes ((ceMany 257 (some 0)).time.now + 3600000000000)).length ≤
      memCeLimit (ceMany 257 (some 0)).mem.pol ∨ ∃ t0, ((ceMany 257 (some 0)).chan 0).ceAt = some t0 ∧ (ceMany 257
      (some 0)).time.now + 3600000000000 < t0 + 3600000000000) :=
  by decide +kernel

/-- Premises of `Obligations.FreezesAndScrubs`, clause by clause. -/
theorem witness_FreezesAndScrubs_5 :
    (ceMany 256 none).tellerUp = true ∧
    ((((ceMany 256 none).chan 0).hourTimes ((ceMany 256 none).time.now + 5)).length ≤ memCeLimit (ceMany 256
      none).mem.pol ∨ ∃ t0, ((ceMany 256 none).chan 0).ceAt = some t0 ∧ (ceMany 256 none).time.now + 5 < t0 +
      3600000000000) ∧ (ceMany 257 (some 6)).tellerUp = true ∧ remapShown.tellerUp = true ∧
    SramBlock.tileBook = SramBlock.tileBook ∧ 31 * 16384 < 32 * 16384 ∧
    remapShown.sets.active.shows (31 * 16384 / 16384) = true ∧
    31 * 16384 % 16384 < outTiles (31 * 16384 / 16384) (remapShown.outSet (31 * 16384 / 16384)) ∧
    up.tellerUp = true :=
  by decide +kernel

/-- Premises of `Obligations.MemoryMessages`, clause by clause. -/
theorem witness_MemoryMessages_1 :
    ((req 3585 6 (7 * 2 ^ 16 + 2 ^ 33)).u8 0 = 0 ∧
    cutList ((req 3585 6 (7 * 2 ^ 16 + 2 ^ 33)).u16 2) ((req 3585 6 (7 * 2 ^ 16 + 2 ^ 33)).u16 4) 8 56 (req 3585 6
      (7 * 2 ^ 16 + 2 ^ 33)).room = some [7] ∧ (req 3585 6 (1 + 5 * 2 ^ 16 + 2 ^ 33)).u8 0 = 1 ∧
    cutList ((req 3585 6 (1 + 5 * 2 ^ 16 + 2 ^ 33)).u16 2) ((req 3585 6 (1 + 5 * 2 ^ 16 + 2 ^ 33)).u16 4) 6 20
      (req 3585 6 (1 + 5 * 2 ^ 16 + 2 ^ 33)).room = some [5] ∧
    (ask up 0 (policyReq policyZero)).policyCheck (BitVec.ofNat 128 ((policyReq policyZero).payload.at 0 16 -
      ((policyReq policyZero).payload.at 0 16 &&& sumOf [wordMask 1 15 12, wordMask 1 7 4, wordMask 3 31 16]))) =
      some stZeroField ∧
    (ask dramUp 0 (policyReq memReset)).policyCheck (BitVec.ofNat 128 ((policyReq memReset).payload.at 0 16 -
      ((policyReq memReset).payload.at 0 16 &&& sumOf [wordMask 1 15 12, wordMask 1 7 4, wordMask 3 31 16]))) =
      none) ∧ InHand (ask up 0 (req 3585 6 (7 * 2 ^ 16 + 2 ^ 33))) (0) 3585 (req 3585 6 (7 * 2 ^ 16 + 2 ^ 33)) ∧
    InHand (ask up 0 (req 3585 6 (1 + 5 * 2 ^ 16 + 2 ^ 33))) (0) 3585 (req 3585 6 (1 + 5 * 2 ^ 16 + 2 ^ 33)) ∧
    InHand (ask up 0 (policyReq policyZero)) (0) 3586 (policyReq policyZero) ∧
    InHand (ask dramUp 0 (policyReq memReset)) (0) 3586 (policyReq memReset) :=
  ⟨by decide +kernel, ask_inHand rfl rfl, ask_inHand rfl rfl, ask_inHand rfl rfl, ask_inHand rfl rfl⟩

/-- Premises of `Obligations.MemoryMessages`, clause by clause. -/
theorem witness_MemoryMessages_2 :
    ((ask dramUp 0 (policyReq memReset)).policyCheck (BitVec.ofNat 128 ((policyReq memReset).payload.at 0 16 -
      ((policyReq memReset).payload.at 0 16 &&& sumOf [wordMask 1 15 12, wordMask 1 7 4, wordMask 3 31 16]))) = none
      ∧ ((ask dramUp 0 (policyReq memReset)).chan 0).alive = true ∧
    ((ask dramUp 0 (policyReq memReset)).chan 0).fixed = false ∧
    (ask retired7 0 (policyReq memReset)).policyCheck (BitVec.ofNat 128 ((policyReq memReset).payload.at 0 16 -
      ((policyReq memReset).payload.at 0 16 &&& sumOf [wordMask 1 15 12, wordMask 1 7 4, wordMask 3 31 16]))) = none
      ∧ ((ask retired7 0 (policyReq memReset)).chan 7).alive = false ∧
    (ask up 0 (delayReq 8 0 4)).power.flash = none ∧ (7 < (delayReq 8 0 4).u8 0 ∨ 16 < (delayReq 8 0 4).u8 1)) ∧
    InHand (ask dramUp 0 (policyReq memReset)) (0) 3586 (policyReq memReset) ∧
    InHand (ask retired7 0 (policyReq memReset)) (0) 3586 (policyReq memReset) ∧
    InHand (ask up 0 (delayReq 8 0 4)) (0) 3587 (delayReq 8 0 4) :=
  ⟨by decide +kernel, ask_inHand rfl rfl, ask_inHand rfl rfl, ask_inHand rfl rfl⟩

/-- Premises of `Obligations.MemoryMessages`, clause by clause. -/
theorem witness_MemoryMessages_3 :
    ((ask up 0 (delayReq 7 1 4)).power.flash = none ∧ (delayReq 7 1 4).u8 0 ≤ 7 ∧ (delayReq 7 1 4).u8 1 ≤ 16 ∧
    (delayReq 7 1 4).length ≠ 4 + 32 * (delayReq 7 1 4).u8 1 ∧ (ask up 0 (delayReq 7 2 68)).power.flash = none ∧
    (delayReq 7 2 68).u8 0 ≤ 7 ∧ (delayReq 7 2 68).u8 1 ≤ 16 ∧
    (delayReq 7 2 68).length = 4 + 32 * (delayReq 7 2 68).u8 1 ∧
    (rising (List.map (fun i => signed 8 ((delayReq 7 2 68).u8 (4 + 32 * i))) (upTo ((delayReq 7 2 68).u8 1))) =
      true)) ∧ InHand (ask up 0 (delayReq 7 1 4)) (0) 3587 (delayReq 7 1 4) ∧
    InHand (ask up 0 (delayReq 7 2 68)) (0) 3587 (delayReq 7 2 68) :=
  ⟨by decide +kernel, ask_inHand rfl rfl, ask_inHand rfl rfl⟩

/-- Premises of `Obligations.MemoryMessages`, clause by clause. -/
theorem witness_MemoryMessages_4 :
    ((req 3588 4 (19 * 2 ^ 8)).u8 0 ≤ 7 ∧
    ((req 3588 4 (19 * 2 ^ 8)).u8 1 = 0 ∨ (req 3588 4 (19 * 2 ^ 8)).u8 1 < ((ask captured 0 (req 3588 4 (19 * 2 ^
      8))).chan ((req 3588 4 (19 * 2 ^ 8)).u8 0)).capture.length)) ∧
    InHand (ask captured 0 (req 3588 4 (19 * 2 ^ 8))) (0) 3588 (req 3588 4 (19 * 2 ^ 8)) :=
  ⟨by decide +kernel, ask_inHand rfl rfl⟩


/-! ## Worked examples of the spec -/

/-- 01: the ages of tile row 10 in head frames 0, 6 and 7, captured at an exact millisecond. -/
theorem test_age_rounds_up :
    stampAge 1012607000 1000 false = (13, false) ∧ stampAge 1112607000 1000 false = (113, false) ∧
    stampAge 1129274000 1000 false = (130, false) := by decide +kernel
/-- 01: the contrast of grey pairs of 0.021 with 0.190 and with 0.147, and of the default pair. -/
def greys (b : Nat) : FreshItem := BitVec.ofNat 128 (0x2560 * 0x100010001 + b * 0x100010001 * 2 ^ 48)
theorem test_contrast :
    (contrast 0 (greys 0x3214) + 5) / 10 = 338 ∧ contrast 0 (greys 0x30B4) / 10 = 277 ∧
    contrast 0 freshReset / 100 = 124 := by
  decide +kernel
/-- 02: 5,580 ticks are exactly 62 ms before the arrival. -/
theorem test_capture_ticks : ticksNs (-(0x1A2B8F00 - 0x1A2B7934)) = -62000000 := by decide +kernel
/-- 04: a crop of 1,920 pixels shown 1,280 wide, and one of 1,280 shown 3,840 wide. -/
theorem test_scaler :
    scaleTaps 0 1920 0 (scaleStep false 0 1920 1280) 0 = (0, 1, 16) ∧
    scaleTaps 0 1920 0 (scaleStep false 0 1920 1280) 1279 = (1918, 1919, 48) ∧ scaleStep false 0 1280 3840 = 0x55555 ∧
    scaleTaps 0 1280 0 (scaleStep false 0 1280 3840) 3839 = (1279, 1279, 21) := by decide +kernel
/-- 04, R230: the P010 chroma sample Cr at column 33, line 17 of its plane lies in tile 1 of row 1. -/
theorem test_tile_offset : tileOffset 4 128 2 33 17 = (3, 2 * (2048 + 64 + 3)) ∧ tileOffset 0 128 0 65 33 = (3, 260) := by
  decide
/-- 07: components at 8 bits; 06: a full segment is 30 blocks. -/
theorem test_wire :
    panelComponent 1023 = 255 ∧ panelComponent 512 = 128 ∧ wireComponent true 1023 = 940 ∧ wireComponent true 0 = 64 ∧
    (segmentBytes (List.replicate 64 1)).len = 240 := by decide +kernel
/-- 06 and 07: bytes of the two pushed rectangles. -/
theorem test_push_bytes : rectBytes ⟨0, 0, 639, 159⟩ = 308342 ∧ rectBytes ⟨1280, 640, 1791, 927⟩ = 444406 := by decide
/-- 07: dF 60 and dT 400 wet a key of a spill zone and do not press it. -/
def keyFilm : KeyRun := { dF := 60, dT := 400, base := some 0, count := 2 }
def keyFinger : KeyRun := { dF := 320, dT := 520, base := some 0, count := 2 }
/-- Key 3 of a group: enabled, `FT`, a press threshold of 200; debounce and `WATER_K` as reset. -/
def spillKey : KeyDesc := setFld (setFld (setFld keyReset (4 + 3) 31 31 1) (4 + 3) 30 30 1) (4 + 3) 15 0 200
theorem test_film_is_wet :
    (keyFilm.decide' spillKey 3 0).wet = true ∧ (keyFilm.decide' spillKey 3 0).pressed = false ∧
    (keyFinger.decide' spillKey 3 0).pressed = true := by decide +kernel
/-- 08, Table 8-3: 30 rows are kept, the last at QP 40, and rows 30 to 33 carried. -/
def rowCosts : RowCosts :=
  ⟨[], ⟨0, 0⟩, List.replicate 34 ⟨5000, 0⟩, List.replicate 34 ⟨1200, 0⟩, List.replicate 34 ⟨16, 0⟩, 0⟩
theorem test_row_decisions :
    let r := decideRows rowCosts 28 40 139240 0 28 (upTo 34)
    (r.1.map (·.1), r.2) = (upTo 30, [30, 31, 32, 33], 138600, 40) := by decide +kernel
/-- 09: an NV12 tile takes 384 data blocks. -/
theorem test_tile_blocks : tileBlocks 3 = 384 := by decide
/-- 11: sessions at 3.2 and at 2.4. -/
theorem test_versions :
    agreedMajor 2 3 = some 3 ∧ agreedMinor 3 3 2 = 2 ∧ agreedMajor 2 2 = some 2 ∧ agreedMinor 2 2 4 = 4 := by decide
/-- 12: a key pressed, held and wet has code 17; a hovering one code 2. -/
def heldWet : KeyRun := { pressed := true, held := true, wet := true }
def hovering : KeyRun := { hover := true }
theorem test_key_codes : heldWet.code true = 17 ∧ hovering.code true = 2 := by decide
/-- 18: sequence 0x00123456 lies in slot 5,206, page 10, at 0x4AC0. -/
theorem test_ledger_window : (0x00123456 : Nat) % 8192 = 512 * 10 + (0x4AC0 - 0x4000) / 32 := by decide
/-- The check value of the CRC of R115 over the nine ASCII digits. -/
def digits : Bytes := ⟨9, 0x393837363534333231⟩
theorem test_crc32 : crc32 digits = 0xCBF43926 := by decide +kernel

/-! ## Ill-formed commands are refused by `Instr.wf` -/

def noData : Bytes := ⟨0, 0⟩
def wide : Bytes := ⟨1, 256⟩
def farAccess : MemAccess := ⟨2 ^ 64 - 1, 2, true, 0⟩
def wideAccess : MemAccess := ⟨0, 1, true, 256⟩
def emptyAccess : MemAccess := ⟨0, 0, false, 0⟩
theorem test_wf_requestTaken : 
    (Instr.requestTaken 0 (some ⟨0, some wide, true, false⟩)).wf = false ∧
    (Instr.requestTaken 0 (some ⟨1, none, true, false⟩)).wf = false ∧
    (Instr.requestTaken 0 (some ⟨2 ^ 64, none, true, false⟩)).wf = false := by decide +kernel
theorem test_wf_registerWrite :
    (Instr.registerWrite 0 0 0 noData).wf = false ∧ (Instr.registerWrite 0 0 0xFFFF ⟨2, 0⟩).wf = false ∧
    (Instr.registerWrite 0 0 0 wide).wf = false := by decide +kernel
theorem test_wf_accesses :
    (Instr.hostMemoryAccess 0 0 farAccess).wf = false ∧ (Instr.hostMemoryAccess 0 0 wideAccess).wf = false ∧
    (Instr.hostMemoryAccess 0 0 emptyAccess).wf = false ∧
    (Instr.debugMemoryAccess 0 .memory farAccess).wf = false := by decide +kernel
theorem test_wf_otpProgram : (Instr.otpProgram 0 .secVersion (2 ^ 32)).wf = false := by decide +kernel
theorem test_wf_times :
    (Instr.ptpMessageReceived 0 0 ⟨256, 0, .sync, none, none⟩).wf = false ∧ (Instr.ptpMessageReceived 0 0 ⟨0, 256, .sync, none, none⟩).wf = false ∧
    (Instr.timeSync 0 0 ⟨false, 2 ^ 64, 0, 0, false⟩).wf = false := by decide +kernel
def badVlan : EthPacket := ⟨64, some 4096, false, false, false, 0, 0, 0, 0, .other⟩
def badRtp : EthPacket := ⟨64, none, false, false, false, 0, 0, 0, 0, .rtcpBye ⟨2 ^ 32, 0, true⟩⟩
def badIndex : EthPacket := ⟨64, none, false, false, false, 0, 0, 0, 0, .rtcpOther ⟨0, 2 ^ 31, true⟩⟩
def badQuery (q : MembershipQuery) : EthPacket := ⟨64, none, false, false, false, 0, 0, 0, 0, .membershipQuery q⟩
theorem test_wf_ethPacketReceived :
    (Instr.ethPacketReceived 0 0 badVlan).wf = false ∧ (Instr.ethPacketReceived 0 0 badRtp).wf = false ∧
    (Instr.ethPacketReceived 0 0 badIndex).wf = false ∧ (Instr.ethPacketReceived 0 0 (badQuery ⟨true, 3, 0, []⟩)).wf = false ∧
    (Instr.ethPacketReceived 0 0 (badQuery ⟨false, 4, 0, []⟩)).wf = false ∧
    (Instr.ethPacketReceived 0 0 (badQuery ⟨false, 0, 0, []⟩)).wf = false ∧
    (Instr.ethPacketReceived 0 0 (badQuery ⟨false, 3, 2 ^ 128, []⟩)).wf = false ∧
    (Instr.ethPacketReceived 0 0 (badQuery ⟨false, 3, 0, [2 ^ 128]⟩)).wf = false := by
  decide +kernel
theorem test_wf_scanout :
    (Instr.scanoutUnderrun 0 0 false 4096).wf = false ∧ (Instr.tileCrcVerdict 0 0 16384 0).wf = false ∧
    (Instr.echo 0 0 ⟨0, 4096, false, 0, false⟩).wf = false := by decide +kernel
theorem test_wf_keyScan : (Instr.keyScan 0 0 []).wf = false := by decide +kernel
theorem test_wf_encodePictureCoded : 
    (Instr.encodeCaptureComplete 0 ⟨0, [16384]⟩).wf = false ∧
    (Instr.encodePictureCoded 0 0 ⟨[], noData, [⟨1, 0⟩], [], [], 0⟩).wf = false ∧
    (Instr.encodePictureCoded 0 0 ⟨[wide], noData, [], [], [], 0⟩).wf = false ∧
    (Instr.encodePictureCoded 0 0 ⟨[], noData, [⟨1, 0⟩], [⟨1, 0⟩], [⟨17, 0⟩], 0⟩).wf = false := by decide +kernel
theorem test_wf_link :
    (Instr.cap 0 0 ⟨31, 0⟩).wf = false ∧ (Instr.srcTile 0 0 ⟨0, 0, 0, 0, 256, noData, false⟩).wf = false ∧
    (Instr.heartbeat 0 0 ⟨0, 3, 0, false⟩).wf = false ∧ (Instr.peerMsgEnd 0 0 ⟨65536, 0, 0, noData, 0, 0⟩).wf = false ∧
    (Instr.peerMsgEnd 0 0 ⟨0, 65536, 0, noData, 0, 0⟩).wf = false ∧ (Instr.peerMsgEnd 0 0 ⟨0, 0, 0, noData, 0, 65536⟩).wf = false ∧
    (Instr.peerMsgEnd 0 0 ⟨0, 0, 0, wide, 0, 0⟩).wf = false ∧
    (Instr.lanePrbsDone 0 0 2 1).wf = false := by decide +kernel
theorem test_wf_room :
    (Instr.roomPrepare 0 0 65536 0 1 1 0).wf = false ∧ (Instr.roomPrepared 0 0 0 256 0).wf = false ∧
    (Instr.roomVoteReq 0 0 0 (2 ^ 64)).wf = false ∧ (Instr.roomVote 0 0 65536 .ready 0).wf = false ∧
    (Instr.roomDecide 0 0 0 .settle 256 0).wf = false ∧ (Instr.roomDone 0 0 0 0 (2 ^ 32)).wf = false ∧
    (Instr.roomQuery 0 none 65536 0).wf = false := by decide +kernel
theorem test_wf_pair :
    (Instr.pairHandover 0 (2 ^ 64) 0).wf = false ∧ (Instr.pairHandoverAck 0 0 256).wf = false ∧
    (Instr.mirrorWrite 0 .source 65536 0 0 false noData).wf = false ∧ (Instr.mirrorSettle 0 (2 ^ 32) 0 false 0 0).wf = false ∧
    (Instr.mirrorSetting 0 256 0 0 noData).wf = false ∧ (Instr.mirrorKeys 0 0 false (2 ^ 32) 0).wf = false ∧
    (Instr.mirrorLedger 0 []).wf = false ∧ (Instr.mirrorSyncReq 0 (2 ^ 32)).wf = false ∧
    (Instr.mirrorSnapshot 0 false .source 0 0 (2 ^ 32) noData).wf = false ∧
    (Instr.mirrorSnapshotEnd 0 (2 ^ 32) 0).wf = false := by decide +kernel
theorem test_wf_memory :
    (Instr.memFreeze 0 0 .parity ⟨2 ^ 36, .other .tally⟩).wf = false ∧
    (Instr.memFreeze 0 0 .parity ⟨0, .scanOut 32 0⟩).wf = false ∧ (Instr.memFreeze 0 0 .parity ⟨0, .composition 0 16384⟩).wf = false ∧
    (Instr.requestPromotion 0 0 [⟨.tally, 1, 0, false, false, 0⟩]).wf = false ∧
    (Instr.requestPromotion 0 0 [⟨.tally, 0, 0, false, false, 9⟩]).wf = false ∧
    (Instr.patrolScrub 0 0 [.met 2 0 0 0]).wf = false ∧ (Instr.patrolScrub 0 0 [.corrected 0 8 0 0]).wf = false ∧
    (Instr.patrolScrub 0 0 [.uncorrectable (2 ^ 36)]).wf = false ∧ (Instr.memResume 0 0 true [1]).wf = false ∧
    (Instr.memTrainingDone 0 ⟨0, 0, 0, []⟩).wf = false ∧
    (Instr.memTrainingDone 0 ⟨0, 0, 0, List.replicate 8 ⟨3, 8⟩⟩).wf = false := by decide +kernel

/-- `Obligations.FreezesAndScrubs`: a row corrected twice, in a bank group without a repair left. Whether a part has repairs at
all is free (`Config.repairs`), so no state is shown to have one left. -/
theorem witness_repairs :
    hitTwice.repairsIn 0 10 = 0 ∧
    2 ≤ ((Tbl.get (hitTwice.chan 0).rowHits [] (rowKey 1 2 3 4)).filter
      (fun t => decide (hitTwice.time.now + 5 < t + 86400000000000))).length :=
  ⟨Nat.sub_self _, by decide +kernel⟩

end Sys2Proof.Tests
end

section
/-!
Laws of byte strings and of fields of words: what a part of a concatenation reads as, and what a field reads as after it, or
another, has been replaced.
-/
namespace Sys2Proof

/-! ## Byte strings -/

@[simp] theorem Bytes.len_cat (a b : Bytes) : (Bytes.cat a b).len = a.len + b.len := rfl
@[simp] theorem Bytes.len_leBytes (n v : Nat) : (leBytes n v).len = n := rfl
@[simp] theorem Bytes.len_slice (b : Bytes) (off n : Nat) : (Bytes.slice b off n).len = n := rfl

@[simp] theorem Bytes.len_join (l : List Bytes) : (Bytes.join l).len = (l.map Bytes.len).sum := by
  induction l with
  | nil => rfl
  | cons x r ih => rw [Bytes.join, Bytes.len_cat, ih, List.map_cons, List.sum_cons]

/-- The length of records of one size. -/
theorem Bytes.len_join_of_len {w : Nat} {l : List Bytes} (hl : ∀ y ∈ l, y.len = w) : (Bytes.join l).len = w * l.length := by
  induction l with
  | nil => rfl
  | cons y r ih =>
    obtain ⟨hy, hr⟩ := List.forall_mem_cons.1 hl
    rw [Bytes.join, Bytes.len_cat, hy, ih hr, List.length_cons, Nat.mul_succ, Nat.add_comm]

@[simp] theorem len_wordsLE (l : List Nat) : (wordsLE l).len = 4 * l.length := by
  have hl : ∀ y ∈ l.map (leBytes 4), y.len = 4 := List.forall_mem_map.2 fun _ _ => rfl
  rw [wordsLE, Bytes.len_join_of_len hl, List.length_map]

/-- A number that fits its bytes reads back from them. -/
theorem Bytes.at_leBytes {n v : Nat} (h : v < 2 ^ (8 * n)) : Bytes.at (leBytes n v) 0 n = v := by
  rw [Bytes.at, Nat.mul_zero, Nat.shiftRight_zero, leBytes, Nat.mod_mod, Nat.mod_eq_of_lt h]

/-- So does a number within a bit vector of as many bits. -/
theorem Bytes.at_whole {w n v len : Nat} (x : BitVec w) (hv : v ≤ x.toNat) (hn : 8 * n = w) :
    Bytes.at ⟨len, v⟩ 0 n = v := by
  rw [Bytes.at, Nat.mul_zero, Nat.shiftRight_zero, hn, Nat.mod_eq_of_lt (Nat.lt_of_le_of_lt hv x.isLt)]

theorem Bytes.testBit_cat (a b : Bytes) (i : Nat) : (Bytes.cat a b).val.testBit i =
    if i < 8 * a.len then a.val.testBit i else b.val.testBit (i - 8 * a.len) := by
  have ha : a.val % 2 ^ (8 * a.len) < 2 ^ (8 * a.len) := Nat.mod_lt _ (Nat.two_pow_pos _)
  have he : (Bytes.cat a b).val = a.val % 2 ^ (8 * a.len) + 2 ^ (8 * a.len) * b.val := by
    rw [Nat.mul_comm (2 ^ (8 * a.len)), ← Nat.shiftLeft_eq]; rfl
  rw [he, Nat.add_comm, Nat.testBit_two_pow_mul_add _ ha]
  split
  · rename_i hi
    rw [Nat.testBit_mod_two_pow, decide_eq_true hi, Bool.true_and]
  · rfl

theorem Bytes.testBit_at (b : Bytes) (off n i : Nat) :
    (Bytes.at b off n).testBit i = (decide (i < 8 * n) && b.val.testBit (8 * off + i)) := by
  rw [Bytes.at, Nat.testBit_mod_two_pow, Nat.testBit_shiftRight]

/-- Bytes of the first of two byte strings. -/
theorem Bytes.at_cat_left (a b : Bytes) {off n : Nat} (h : off + n ≤ a.len) :
    Bytes.at (Bytes.cat a b) off n = Bytes.at a off n := by
  refine Nat.eq_of_testBit_eq fun i => ?_
  rw [Bytes.testBit_at, Bytes.testBit_at, Bytes.testBit_cat]
  by_cases hi : i < 8 * n
  · rw [if_pos (by omega)]
  · simp [hi]

/-- Bytes of the second of two byte strings. -/
theorem Bytes.at_cat_right (a b : Bytes) (off n : Nat) :
    Bytes.at (Bytes.cat a b) (a.len + off) n = Bytes.at b off n := by
  refine Nat.eq_of_testBit_eq fun i => ?_
  rw [Bytes.testBit_at, Bytes.testBit_at, Bytes.testBit_cat, if_neg (by omega)]
  congr 2
  omega

/-- Bytes of the i-th of records of one size. -/
theorem Bytes.at_join {w i off n : Nat} {l : List Bytes} {x : Bytes} (hl : ∀ y ∈ l, y.len = w) (hi : l[i]? = some x)
    (h : off + n ≤ w) : Bytes.at (Bytes.join l) (w * i + off) n = Bytes.at x off n := by
  induction l generalizing i with
  | nil => simp at hi
  | cons y r ih =>
    obtain ⟨hy, hr⟩ := List.forall_mem_cons.1 hl
    cases i with
    | zero =>
      obtain rfl : y = x := by simpa using hi
      rw [Bytes.join, Nat.mul_zero, Nat.zero_add, Bytes.at_cat_left _ _ (hy ▸ h)]
    | succ i =>
      have he : w * (i + 1) + off = y.len + (w * i + off) := by rw [hy, Nat.mul_succ]; omega
      rw [Bytes.join, he, Bytes.at_cat_right, ih hr (by simpa using hi)]

/-- A word of a status record. -/
theorem at_wordsLE {l : List Nat} {i v : Nat} (hi : l[i]? = some v) (hv : v < 2 ^ 32) :
    Bytes.at (wordsLE l) (4 * i) 4 = v := by
  have hj := Bytes.at_join (w := 4) (off := 0) (n := 4) (l := l.map (leBytes 4)) (by simp)
    (by rw [List.getElem?_map, hi]; rfl) (Nat.le_refl 4)
  rw [wordsLE, ← Nat.add_zero (4 * i), hj, Bytes.at_leBytes hv]

/-! ## Fields of words -/

theorem testBit_fld {n : Nat} (x : BitVec n) (word hi lo i : Nat) : (fld x word hi lo).testBit i =
    (decide (i < hi - lo + 1) && x.toNat.testBit (32 * word + lo + i)) := by
  rw [fld, Nat.testBit_mod_two_pow, Nat.testBit_shiftRight]

/-- Replacing `m` bits of a number from bit `sh` on. -/
theorem sub_add_shiftLeft (x sh m v : Nat) :
    x - (x >>> sh % 2 ^ m) <<< sh + (v % 2 ^ m) <<< sh = 2 ^ sh * (2 ^ m * (x >>> sh / 2 ^ m) + v % 2 ^ m) + x % 2 ^ sh := by
  have hx : x = 2 ^ sh * (x >>> sh) + x % 2 ^ sh := by
    rw [Nat.shiftRight_eq_div_pow]; exact (Nat.div_add_mod x (2 ^ sh)).symm
  have hy : 2 ^ sh * (x >>> sh) = 2 ^ sh * (2 ^ m * (x >>> sh / 2 ^ m)) + 2 ^ sh * (x >>> sh % 2 ^ m) := by
    rw [← Nat.mul_add, Nat.div_add_mod]
  rw [Nat.shiftLeft_eq, Nat.shiftLeft_eq, Nat.mul_comm _ (2 ^ sh), Nat.mul_comm (v % 2 ^ m), Nat.mul_add]
  omega

/-- A replaced field has the bits written; every other bit is as it was. -/
theorem testBit_setFld {n : Nat} (x : BitVec n) {word hi lo : Nat} (v i : Nat)
    (h : 32 * word + lo + (hi - lo + 1) ≤ n) : (setFld x word hi lo v).toNat.testBit i =
      if 32 * word + lo ≤ i ∧ i < 32 * word + lo + (hi - lo + 1) then v.testBit (i - (32 * word + lo))
      else x.toNat.testBit i := by
  generalize hs : 32 * word + lo = sh at h ⊢
  generalize hm : hi - lo + 1 = m at h ⊢
  have hv : v % 2 ^ m < 2 ^ m := Nat.mod_lt _ (Nat.two_pow_pos m)
  have hl : x.toNat % 2 ^ sh < 2 ^ sh := Nat.mod_lt _ (Nat.two_pow_pos sh)
  simp only [setFld, fld, hs, hm, BitVec.toNat_ofNat]
  rw [sub_add_shiftLeft, Nat.testBit_mod_two_pow, Nat.testBit_two_pow_mul_add _ hl, Nat.testBit_two_pow_mul_add _ hv]
  have hx : n ≤ i → x.toNat.testBit i = false := fun hi =>
    Nat.testBit_lt_two_pow (Nat.lt_of_lt_of_le x.isLt (Nat.pow_le_pow_right Nat.zero_lt_two hi))
  by_cases h1 : i < sh
  · have hn : i < n := by omega
    rw [if_pos h1, if_neg (by omega), Nat.testBit_mod_two_pow, decide_eq_true h1, decide_eq_true hn, Bool.true_and,
      Bool.true_and]
  · by_cases h2 : i - sh < m
    · have hn : i < n := by omega
      rw [if_neg h1, if_pos h2, if_pos (by omega), Nat.testBit_mod_two_pow, decide_eq_true h2, decide_eq_true hn,
        Bool.true_and, Bool.true_and]
    · have hb : (x.toNat >>> sh / 2 ^ m).testBit (i - sh - m) = x.toNat.testBit i := by
        rw [Nat.testBit_div_two_pow, Nat.testBit_shiftRight, show sh + (i - sh - m + m) = i by omega]
      rw [if_neg h1, if_neg h2, if_neg (by omega), hb]
      by_cases hn : i < n
      · rw [decide_eq_true hn, Bool.true_and]
      · rw [decide_eq_false hn, Bool.false_and, hx (by omega)]

/-- A word reads as the value written to it. -/
theorem fld_setFld_same {n : Nat} (x : BitVec n) {word : Nat} (v : Nat) (h : 32 * word + 32 ≤ n) :
    fld (setFld x word 31 0 v) word 31 0 = v % 2 ^ 32 := by
  refine Nat.eq_of_testBit_eq fun i => ?_
  rw [testBit_fld, testBit_setFld x v _ (by omega), Nat.testBit_mod_two_pow]
  by_cases hi : i < 32
  · rw [if_pos (by omega)]; simp
  · simp [hi]

/-- Writing a word leaves what every other word reads as. -/
theorem fld_setFld_other {n : Nat} (x : BitVec n) {word other : Nat} (v : Nat) (h : 32 * word + 32 ≤ n)
    (ne : other ≠ word) : fld (setFld x word 31 0 v) other 31 0 = fld x other 31 0 := by
  refine Nat.eq_of_testBit_eq fun i => ?_
  rw [testBit_fld, testBit_fld, testBit_setFld x v _ (by omega)]
  by_cases hi : i < 32
  · rw [if_neg (by omega)]
  · simp [hi]

end Sys2Proof
end

section
/-!
Laws of the state that messages share: the state a message starts from, what answering and a write of one unit touch, what a
unit reads as afterwards, and the held responses.
-/
namespace Sys2Proof.Machine

/-! ## The state a message starts from -/

@[simp] theorem begun_sets (s : State) (dt p : Nat) : (s.begun dt p).sets = s.sets := rfl
@[simp] theorem begun_links (s : State) (dt p : Nat) : (s.begun dt p).links = s.links := rfl
@[simp] theorem begun_src (s : State) (dt p : Nat) : (s.begun dt p).src = s.src := rfl

theorem Only.same {l : List Part} {s t : State} (h : Only l s t) {q : Part} (hq : q ∉ l) : q.same s t := h.2.2 q hq

/-- A message that touches only some parts of the state it starts from touches only those and the mailboxes. -/
theorem Only.of_begun {l : List Part} {s t : State} {dt p : Nat} (h : Only l (s.begun dt p) t) (hl : .mail ∈ l) :
    Only l (s.elapse dt) t :=
  ((begun_only s dt p).mono (by simpa using hl)).trans h

/-! ## What answering and a change of the sets touch -/

theorem setSets_only (s : State) (x : SetsSt) : Only [.sets] s { s with sets := x } :=
  ⟨rfl, rfl, fun q hq => by cases q <;> simp_all [Part.same]⟩

theorem answer_only (s : State) (p : Nat) (r : Request) (st : Nat) (x : Bytes) : Only [.mail] s (s.answer p r st x) :=
  ⟨by simp, by simp, fun q hq => by cases q <;> simp_all [Part.same]⟩

theorem status_only (s : State) (p : Nat) (r : Request) (st : Nat) : Only [.mail] s (s.status p r st) :=
  answer_only s p r st Bytes.none

/-! ## Ports, lanes and Ethernet ports after a write -/

theorem State.lane_setLane (s : State) (l : Nat) (x : LaneRun) (k : Nat) :
    (s.setLane l x).links.lane k = if k = l then x else s.links.lane k := by
  split
  · subst k; exact s.setLane_lane l x
  · rename_i h; exact Tbl.get_set_other _ _ _ _ _ _ h

@[simp] theorem State.setLane_table (s : State) (l : Nat) (x : LaneRun) :
    (s.setLane l x).links.table = s.links.table := rfl

theorem State.port_setPort_eq (s : State) (p : Nat) (x : PortSt) (q : Nat) :
    (s.setPort p x).port q = if q = p then x else s.port q := by
  split
  · subst q; exact s.port_setPort p x
  · rename_i h; exact s.port_setPort_other p x q h

@[simp] theorem State.eth_setEth (s : State) (port : Nat) (x : EthRun) : (s.setEth port x).eth port = x :=
  Tbl.get_set_same _ _ _ _

theorem State.eth_of_links {s t : State} (h : t.links = s.links) (port : Nat) : t.eth port = s.eth port := by
  rw [State.eth, State.eth, h]

/-! ## What operations on lanes and ports touch -/

theorem setLane_only (s : State) (l : Nat) (x : LaneRun) : Only [.links] s (s.setLane l x) :=
  ⟨rfl, rfl, fun q hq => by cases q <;> simp_all [Part.same]⟩

theorem setEth_only (s : State) (port : Nat) (x : EthRun) : Only [.links] s (s.setEth port x) :=
  ⟨rfl, rfl, fun q hq => by cases q <;> simp_all [Part.same]⟩

theorem beginFlash_only (s : State) (p : Nat) (r : Request) (i : Option Image) :
    Only [.power] s (s.beginFlash p r i) :=
  ⟨rfl, rfl, fun q hq => by cases q <;> simp_all [Part.same]⟩

theorem reportAgain_only (s : State) (port : Nat) : Only [.src] s (s.reportAgain port) :=
  ⟨by simp, by simp, fun q hq => by cases q <;> simp_all [Part.same]⟩

theorem readFec_only (s : State) (l : Nat) : Only [.links] s (s.readFec l) :=
  ⟨by simp, by simp, fun q hq => by cases q <;> simp_all [Part.same]⟩

theorem each_only {α : Type} {l : List Part} {f : State → α → State} (h : ∀ s a, Only l s (f s a)) (xs : List α)
    (s : State) : Only l s (each xs s f) := by
  induction xs generalizing s with
  | nil => exact Only.refl l s
  | cons a xs ih => exact (h s a).trans (ih (f s a))

/-! ## The mailboxes after an answer follow from those before -/

theorem port_congr {s t : State} (h : s.mail = t.mail) (p : Nat) : s.port p = t.port p := by
  rw [State.port, State.port, h]

theorem setPort_mail_congr {s t : State} (h : s.mail = t.mail) (p : Nat) (x : PortSt) :
    (s.setPort p x).mail = (t.setPort p x).mail := by
  rw [State.setPort, State.setPort, h]

theorem notify_mail_congr {s t : State} (h : s.mail = t.mail) (p v : Nat) :
    (s.notify p v).mail = (t.notify p v).mail := by
  simp only [State.notify, port_congr h p]
  split
  · exact h
  · split
    · exact setPort_mail_congr h _ _
    · exact h

theorem fillSlot_mail_congr {s t : State} (h : s.mail = t.mail) (p : Nat) (x : Response) :
    (s.fillSlot p x).mail = (t.fillSlot p x).mail := by
  have hp := port_congr h p
  have hsend (y : Tx) : (s.send y).port p = (t.send y).port p := hp
  have hslot {s t : State} (h : s.mail = t.mail) (c : Prop) [Decidable c] (q : PortSt) :
      (if c then (s.setPort p q).notify p 0 else s.setPort p q).mail =
        (if c then (t.setPort p q).notify p 0 else t.setPort p q).mail := by
    split
    · exact notify_mail_congr (setPort_mail_congr h p q) p 0
    · exact setPort_mail_congr h p q
  unfold State.fillSlot
  cases x.toHost with
  | none =>
    simp only [hp]
    split
    · exact hslot h _ _
    · exact h
  | some a =>
    simp only [hsend]
    split
    · exact hslot (s := s.send _) (t := t.send _) h _ _
    · exact h

theorem postResponse_mail_congr {s t : State} (h : s.mail = t.mail) (p : Nat) (x : Response) :
    (s.postResponse p x).mail = (t.postResponse p x).mail := by
  simp only [State.postResponse, port_congr h p]
  split
  · exact setPort_mail_congr h _ _
  · exact fillSlot_mail_congr h _ _

theorem answer_mail_congr {s t : State} (h : s.mail = t.mail) (p : Nat) (r : Request) (st : Nat) (x : Bytes) :
    (s.answer p r st x).mail = (t.answer p r st x).mail := by
  simp only [State.answer, port_congr h p]
  split
  · exact postResponse_mail_congr (setPort_mail_congr h _ _) _ _
  · exact postResponse_mail_congr h _ _

/-! ## Events keep the held responses -/

theorem setPort_held (s : State) (p : Nat) {x : PortSt} (hx : x.held = (s.port p).held) (q : Nat) :
    ((s.setPort p x).port q).held = (s.port q).held := by
  rw [State.port_setPort_eq]
  split
  · subst q; exact hx
  · rfl

theorem notify_held (s : State) (p v q : Nat) : ((s.notify p v).port q).held = (s.port q).held := by
  unfold State.notify
  dsimp only
  split
  · rfl
  · split
    · exact setPort_held s p (by rfl) q
    · rfl

theorem pushEvent_held (s : State) (p event flags time : Nat) (ps : List Nat) (q : Nat) :
    ((s.pushEvent p event flags time ps).port q).held = (s.port q).held := by
  unfold State.pushEvent
  dsimp only
  split
  · rw [notify_held]; exact setPort_held s p (by rfl) q
  · exact setPort_held s p (by rfl) q

theorem postEvent_held (s : State) (p event : Nat) (ps : List Nat) (q : Nat) :
    ((s.postEvent p event ps).port q).held = (s.port q).held := by
  simp only [State.postEvent, State.postEventAt]
  split
  · rfl
  · split
    · exact setPort_held s p (by rfl) q
    · exact pushEvent_held ..

/-- A request whose response is held is among those the port holds (R277). -/
theorem mem_hold (s : State) (p : Nat) (r : Request) (job : Nat) : r ∈ ((s.hold p r job).port p).held := by
  simp [State.hold, postEvent_held]

end Sys2Proof.Machine
end

section
/-!
Item-list writes to the shadow set, and items read back (R4, R108, R127, R129, R285).
-/
namespace Sys2Proof.Machine

/-! ## Items of a configuration set (R4, R127) -/

theorem itemKept_le (k : SetKind) (i v : Nat) : itemKept k i v ≤ v := Nat.sub_le _ _

/-- An item that fits its kind reads back as what it keeps of the value written (R4). -/
theorem ConfigSet.read_write_same (c : ConfigSet) (k : SetKind) (i : Nat) {v : Nat} (hv : v < 2 ^ (8 * kindSize k)) :
    (c.write k i v).read k i = itemKept k i v := by
  have hk : itemKept k i v < 2 ^ (8 * kindSize k) := Nat.lt_of_le_of_lt (itemKept_le k i v) hv
  have hw (n : Nat) (hn : 8 * kindSize k = n) : (BitVec.ofNat n (itemKept k i v)).toNat = itemKept k i v := by
    rw [BitVec.toNat_ofNat, ← hn, Nat.mod_eq_of_lt hk]
  cases k <;>
    simp only [ConfigSet.write, ConfigSet.read, ConfigSet.source, ConfigSet.layer, ConfigSet.tone, ConfigSet.output,
      ConfigSet.freshness, Tbl.get_set_same] <;>
    exact hw _ rfl

/-- Writing an item leaves the other items of its kind. -/
theorem ConfigSet.read_write_other (c : ConfigSet) (k : SetKind) {i j : Nat} (v : Nat) (h : j ≠ i) :
    (c.write k i v).read k j = c.read k j := by
  cases k <;>
    simp [ConfigSet.write, ConfigSet.read, ConfigSet.source, ConfigSet.layer, ConfigSet.tone, ConfigSet.output,
      ConfigSet.freshness, Tbl.get_set_other, h]

/-- Writing an item leaves the items of every other kind. -/
theorem ConfigSet.read_write_otherKind (c : ConfigSet) {k k' : SetKind} (i j v : Nat) (h : k' ≠ k) :
    (c.write k i v).read k' j = c.read k' j := by
  cases k <;> cases k' <;> trivial

/-! ## Item-list writes (R127, R129, R285) -/

/-- Items with the indices they are written at: pairing a list with its positions, or with the indices from `first` on. -/
theorem zip_from' (first : Nat) (items : List Nat) :
    items.zip (from' first items.length) = ((upTo items.length).zip items).map (fun e => (e.2, first + e.1)) := by
  refine List.ext_getElem (by simp only [from', upTo, List.length_zip, List.length_map, List.length_range]) ?_
  intro i _ _
  simp only [from', upTo, List.getElem_zip, List.getElem_map, List.getElem_range]

/-- With no commit pending, the items are written to the shadow set in order, and nothing else of the sets changes. -/
theorem State.writeItems_shadow {s : State} (h : s.sets.pending = none) (p : Nat) (r : Request) (k : SetKind) (first : Nat)
    {items : List Nat} (hi : items ≠ []) :
    (s.writeItems p r k first items).sets = { s.sets with
      shadow := (items.zip (from' first items.length)).foldl (fun c e => c.write k e.2 e.1) s.sets.shadow } := by
  simp [State.writeItems, State.writeShadow, each, hi, h, zip_from', List.foldl_map]

/-- With a commit pending, the writes are held in order while they are at most 4,096; nothing else changes but the answer
(R129). -/
theorem State.writeItems_held {s : State} (h : s.sets.pending.isSome = true) (p : Nat) (r : Request) (k : SetKind)
    (first : Nat) {items : List Nat} (hi : items ≠ []) (hn : s.sets.held.length + items.length ≤ 4096) :
    Only [.mail, .sets] s (s.writeItems p r k first items) ∧ (s.writeItems p r k first items).sets = { s.sets with
      held := s.sets.held ++ (items.zip (from' first items.length)).map (fun e => ⟨k, e.2, e.1⟩) } := by
  simp only [State.writeItems, if_neg hi, if_pos h, if_neg (Nat.not_lt.2 hn), zip_from', List.map_map, State.status_frame]
  exact ⟨((setSets_only s _).mono (by simp)).trans ((status_only _ p r stOk).mono (by simp)), rfl⟩

/-- With a commit pending, writes that would make more than 4,096 held are refused (R129). -/
theorem State.writeItems_busy {s : State} (h : s.sets.pending.isSome = true) (p : Nat) (r : Request) (k : SetKind)
    (first : Nat) {items : List Nat} (hi : items ≠ []) (hn : 4096 < s.sets.held.length + items.length) :
    s.writeItems p r k first items = s.status p r stBusy := by
  simp [State.writeItems, hi, h, hn]

section SetItems
variable {s : State} {p : Fin 4} {op : Nat} {r : Request} (h : InHand s p op r) (dt : Nat) (k : SetKind)
include h

/-- A list that cannot be taken is answered with its status (R285). -/
theorem State.setItems_badList {st : Nat} (hl : itemList r (kindSize k) (kindLast k) = .inl st) :
    s.setItems dt p op k = (s.begun dt p).status p r st := by
  simp [State.setItems, serve_inHand h, hl]

/-- Tone profile 0 cannot be written (R108). -/
theorem State.setItems_toneZero {items : List Nat} (hi : items ≠ [])
    (hl : itemList r (kindSize .tone) (kindLast .tone) = .inr (0, items)) :
    s.setItems dt p op .tone = (s.begun dt p).status p r stDenied := by
  simp [State.setItems, serve_inHand h, hl, hi]

/-- Any other list is written. -/
theorem State.setItems_write {first : Nat} {items : List Nat}
    (hl : itemList r (kindSize k) (kindLast k) = .inr (first, items)) (ht : k = .tone → first ≠ 0) :
    s.setItems dt p op k = (s.begun dt p).writeItems p r k first items := by
  have hd : ¬ (k = .tone ∧ items ≠ [] ∧ first = 0) := fun ⟨hk, _, hf⟩ => ht hk hf
  simp only [State.setItems, serve_inHand h, hl, if_neg hd]

/-- One item written while no commit is pending changes that item of the shadow set alone (R127, R285). -/
theorem State.setItems_one {i v : Nat} (hs : s.sets.pending = none)
    (hl : itemList r (kindSize k) (kindLast k) = .inr (i, [v])) (ht : k = .tone → i ≠ 0) :
    (s.setItems dt p op k).sets = { s.sets with shadow := s.sets.shadow.write k i v } := by
  rw [setItems_write h dt k hl ht, writeItems_shadow (by simpa using hs) _ _ _ _ (List.cons_ne_nil _ _)]
  simp [from']

end SetItems

/-- The five item-list messages carry out the write of their kind. -/
theorem exec_itemSet (s : State) (dt : Nat) (p : Fin 4) :
    ∀ x ∈ [(SetKind.source, 0x0201, Instr.sourceSet dt p), (SetKind.layer, 0x0301, Instr.layerSet dt p),
      (SetKind.tone, 0x0304, Instr.toneProfileSet dt p), (SetKind.output, 0x0401, Instr.outputSet dt p),
      (SetKind.fresh, 0x0601, Instr.freshPolicySet dt p)],
    exec x.2.2 s = .next (s.setItems dt p x.2.1 x.1) := by
  simp only [List.forall_mem_cons]
  exact ⟨rfl, rfl, rfl, rfl, rfl, List.forall_mem_nil _⟩

/-- Settles O25: the five messages share `State.setItems`, whose cases are the clauses; a written item reads back by the laws
of tables. -/
theorem itemsAreWrittenAndReadBack : Obligations.ItemsAreWrittenAndReadBack := by
  unfold Obligations.ItemsAreWrittenAndReadBack
  refine ⟨fun s dt p r x hx h => ?_, fun s dt p r i v hs => ?_, fun c k i j v hv => ?_⟩
  · rw [exec_itemSet s dt p x hx]
    refine ⟨fun st hl => congrArg _ (State.setItems_badList h dt x.1 hl), fun items hk hi hl => ?_,
      fun first items hl hi ht => ?_⟩
    · rw [hk] at hl ⊢
      exact congrArg _ (State.setItems_toneZero h dt hi hl)
    · rw [State.setItems_write h dt x.1 hl ht]
      refine ⟨fun hs => ⟨_, rfl, State.writeItems_shadow (s := s.begun dt p) hs p r x.1 first hi⟩, fun hs hn => ?_,
        fun hs hn => congrArg _ (State.writeItems_busy (s := s.begun dt p) hs p r x.1 first hi hn)⟩
      obtain ⟨ho, hw⟩ := State.writeItems_held (s := s.begun dt p) hs p r x.1 first hi hn
      exact ⟨_, rfl, ho.of_begun (by simp), hw⟩
  · exact ⟨fun h hl => ⟨_, rfl, State.setItems_one h dt .source hs hl (by simp)⟩,
      fun h hl => ⟨_, rfl, State.setItems_one h dt .layer hs hl (by simp)⟩,
      fun h hl hi => ⟨_, rfl, State.setItems_one h dt .tone hs hl (fun _ => hi)⟩,
      fun h hl => ⟨_, rfl, State.setItems_one h dt .output hs hl (by simp)⟩,
      fun h hl => ⟨_, rfl, State.setItems_one h dt .fresh hs hl (by simp)⟩⟩
  · exact ⟨c.read_write_same k i hv, c.read_write_other k v, fun k' hk => c.read_write_otherKind i j v hk⟩

end Sys2Proof.Machine
end

section
/-!
What a lane that changes state leaves of the links.
-/
namespace Sys2Proof.Machine

/-! ## A lane changes state (R224, Table 9-4) -/

/-- Of the links, two states have the same lanes and the same lane table. -/
def SameLanes (s t : State) : Prop := t.links.lanes = s.links.lanes ∧ t.links.table = s.links.table

theorem SameLanes.of_links {s t : State} (h : t.links = s.links) : SameLanes s t := ⟨by rw [h], by rw [h]⟩

theorem SameLanes.trans {s t u : State} (h : SameLanes s t) (k : SameLanes t u) : SameLanes s u :=
  ⟨k.1.trans h.1, k.2.trans h.2⟩

theorem SameLanes.lane {s t : State} (h : SameLanes s t) (l : Nat) : t.links.lane l = s.links.lane l := by
  rw [LinksSt.lane, LinksSt.lane, h.1]

theorem kinikLost_links (s : State) (i : Nat) : (s.kinikLost i).links = s.links := by
  unfold State.kinikLost
  split <;> simp

theorem admitKinik_links (s : State) (i : Nat) : (s.admitKinik i).links = s.links := by
  unfold State.admitKinik
  split
  · split
    · rfl
    · exact kinikLost_links s i
  · rfl

theorem setMirror_links (s : State) (m : Mirror) : (s.setMirror m).links = s.links := by
  unfold State.setMirror
  dsimp only
  split
  · rfl
  · simp

theorem checkTwin_links (s : State) (pp : Nat) : (s.checkTwin pp).links = s.links := by
  unfold State.checkTwin
  dsimp only
  (repeat' split) <;> simp [setMirror_links]

/-- What a link that leaves `UP` takes with it is no lane and not the lane table. -/
theorem linkGone_sameLanes (s : State) (l : Nat) : SameLanes s (s.linkGone l) := by
  unfold State.linkGone
  split
  · exact .of_links (by simp)
  · exact .of_links ((each_same (·.links) _ _ _ kinikLost_links).trans (by simp))
  · have hr : SameLanes s (s.peerRestart (s.links.unitOf l)) := ⟨rfl, rfl⟩
    exact hr.trans (.of_links (by simp))
  · exact ⟨rfl, rfl⟩
  · exact ⟨rfl, rfl⟩

/-- What a link that comes `UP` brings is no lane and not the lane table. -/
theorem linkHere_sameLanes (s : State) (l : Nat) : SameLanes s (s.linkHere l) := by
  unfold State.linkHere
  split
  · split
    · refine .of_links ?_
      dsimp only
      split
      · simp
      · exact (each_same (·.links) _ _ _ (by simp)).trans (by simp)
    · exact ⟨rfl, rfl⟩
  · exact .of_links (each_same (·.links) _ _ _ admitKinik_links)
  · exact .of_links (checkTwin_links _ _)
  · exact ⟨rfl, rfl⟩
  · exact ⟨rfl, rfl⟩

/-- `LANE_LINK` restarts the count of lock losses since the last record, and changes nothing else of the links. -/
theorem laneLink_sameLanes (s : State) (l : Nat) (old new : LaneState) :
    SameLanes (s.setLane l { s.links.lane l with lossesSince := 0 }) (s.laneLink l old new) :=
  .of_links (by simp [State.laneLink])

/-- A lane that changes state leaves the lane table as it is. -/
@[simp] theorem laneTo_table (s : State) (l : Nat) (new : LaneState) :
    (s.laneTo l new).links.table = s.links.table := by
  unfold State.laneTo
  dsimp only
  split
  · rfl
  · split
    · exact ((laneLink_sameLanes _ l _ _).trans (linkGone_sameLanes _ l)).2
    · split
      · exact ((laneLink_sameLanes _ l _ _).trans (linkHere_sameLanes _ l)).2
      · rfl

@[simp] theorem laneHunt_table (s : State) (l : Nat) : (s.laneHunt l).links.table = s.links.table := by
  unfold State.laneHunt
  dsimp only
  (repeat' split) <;> simp

/-- A change of a lane's tuning restarts its link where no self-test runs on it, and leaves the table (R218). -/
theorem ite_laneHunt_table (s : State) (l : Nat) (c : Prop) [Decidable c] :
    (if c then s else s.laneHunt l).links.table = s.links.table := by
  split
  · rfl
  · exact laneHunt_table s l

/-- The lane is in the state it was taken to; of its other fields, the acknowledgements of the exchange and the lock losses
since the last record may differ. -/
theorem laneTo_lane (s : State) (l : Nat) (new : LaneState) : ∃ sent rcvd n,
    (s.laneTo l new).links.lane l =
      { s.links.lane l with state := new, ackSent := sent, ackRcvd := rcvd, lossesSince := n } := by
  unfold State.laneTo
  dsimp only
  split
  · rename_i h
    subst h
    exact ⟨_, _, _, rfl⟩
  · split
    · rw [((laneLink_sameLanes _ l _ _).trans (linkGone_sameLanes _ l)).lane l]
      exact ⟨_, _, _, by rw [State.setLane_lane, State.setLane_lane]⟩
    · split
      · rw [((laneLink_sameLanes _ l _ _).trans (linkHere_sameLanes _ l)).lane l]
        exact ⟨_, _, _, by rw [State.setLane_lane, State.setLane_lane]⟩
      · exact ⟨_, _, _, State.setLane_lane ..⟩

theorem laneTo_state (s : State) (l : Nat) (new : LaneState) : ((s.laneTo l new).links.lane l).state = new := by
  obtain ⟨_, _, _, h⟩ := laneTo_lane s l new
  rw [h]

theorem laneTo_lockLosses (s : State) (l : Nat) (new : LaneState) :
    ((s.laneTo l new).links.lane l).lockLosses = (s.links.lane l).lockLosses := by
  obtain ⟨_, _, _, h⟩ := laneTo_lane s l new
  rw [h]

end Sys2Proof.Machine
end

section
/-!
The messages about lanes and Ethernet ports (R4, R65, R216 to R218, R224, R236 to R238).
-/
namespace Sys2Proof.Machine

theorem b2n_lt (b : Bool) : b2n b < 2 ^ (8 * 4) := by cases b <;> decide

/-! ## The lane table (R4, R216, R218) -/

theorem len_tableShown (t : LaneTable) : (tableShown t).len = 836 := rfl

/-- A table reads from a response as it is, its reserved bits zero (R4). -/
theorem at_tableShown (t : LaneTable) : Bytes.at (tableShown t) 0 836 = t.toNat - (t.toNat &&& laneTableReserved) :=
  Bytes.at_whole t (Nat.sub_le _ _) rfl

/-- The stored table, while it waits for a reset that applies it (R216). -/
def LinksSt.waitingTable (k : LinksSt) : Option LaneTable := if k.waiting then k.stored else none

/-- The payload of `LANE_TABLE_GET`: whether a stored table waits, the table in force, and the one that waits (R216). -/
def tablePayload (k : LinksSt) : Bytes :=
  Bytes.join [leBytes 4 (b2n k.waitingTable.isSome), tableShown k.inForce,
    match k.waitingTable with | some t => tableShown t | none => leBytes 836 0]

theorem len_tablePayload (k : LinksSt) : (tablePayload k).len = 1676 := by
  cases h : k.waitingTable <;> simp [tablePayload, h, len_tableShown]

theorem tablePayload_waiting (k : LinksSt) :
    Bytes.at (tablePayload k) 0 4 = b2n (k.waiting && k.stored.isSome) := by
  have hw : k.waitingTable.isSome = (k.waiting && k.stored.isSome) := by
    unfold LinksSt.waitingTable
    cases k.waiting <;> rfl
  rw [tablePayload, Bytes.join, Bytes.at_cat_left _ _ (by simp), Bytes.at_leBytes (b2n_lt _), hw]

theorem tablePayload_inForce (k : LinksSt) :
    Bytes.at (tablePayload k) 4 836 = k.inForce.toNat - (k.inForce.toNat &&& laneTableReserved) :=
  (Bytes.at_cat_right (leBytes 4 _) _ 0 836).trans
    ((Bytes.at_cat_left _ _ (Nat.le_refl 836)).trans (at_tableShown _))

theorem mod_two_pow_lt_word (x : Nat) {n : Nat} (hn : n ≤ 32) : x % 2 ^ n < 2 ^ 32 :=
  Nat.lt_of_lt_of_le (Nat.mod_lt x (Nat.two_pow_pos n)) (Nat.pow_le_pow_right Nat.zero_lt_two hn)

/-- A table with words 1 to 3 of a lane's entry replaced (R218). -/
def tuned (t : LaneTable) (l w1 w2 w3 : Nat) : LaneTable :=
  setFld (setFld (setFld t (16 + 4 * l + 1) 31 0 w1) (16 + 4 * l + 2) 31 0 w2) (16 + 4 * l + 3) 31 0 w3

theorem tabWord_tuned_same (t : LaneTable) {l w1 w2 w3 : Nat} (hl : l ≤ 47) (h1 : w1 < 2 ^ 32) (h2 : w2 < 2 ^ 32)
    (h3 : w3 < 2 ^ 32) : tabWord (tuned t l w1 w2 w3) l 1 = w1 ∧ tabWord (tuned t l w1 w2 w3) l 2 = w2 ∧
      tabWord (tuned t l w1 w2 w3) l 3 = w3 := by
  unfold tabWord tuned
  refine ⟨?_, ?_, ?_⟩
  · rw [fld_setFld_other _ _ (by omega) (by omega), fld_setFld_other _ _ (by omega) (by omega),
      fld_setFld_same _ _ (by omega), Nat.mod_eq_of_lt h1]
  · rw [fld_setFld_other _ _ (by omega) (by omega), fld_setFld_same _ _ (by omega), Nat.mod_eq_of_lt h2]
  · rw [fld_setFld_same _ _ (by omega), Nat.mod_eq_of_lt h3]

theorem tabWord_tuned_other (t : LaneTable) {l k i : Nat} (w1 w2 w3 : Nat) (hl : l ≤ 47) (hk : k ≠ l) (hi : i ≤ 3) :
    tabWord (tuned t l w1 w2 w3) k i = tabWord t k i := by
  unfold tabWord tuned
  rw [fld_setFld_other _ _ (by omega) (by omega), fld_setFld_other _ _ (by omega) (by omega),
    fld_setFld_other _ _ (by omega) (by omega)]

/-! ## Lane status (R224, R286) -/

/-- The indices of a list read lie below the number of records. -/
theorem cutList_lt {first count total size room : Nat} {l : List Nat} (h : cutList first count total size room = some l)
    {k : Nat} (hk : k ∈ l) : k < total := by
  unfold cutList at h
  split at h
  · cases h
  · cases h
    obtain ⟨j, hj, rfl⟩ : ∃ j, j < min (min count (total - first)) ((room - 4) / size) ∧ first + j = k := by
      simpa [from'] using hk
    have : j < total - first :=
      Nat.lt_of_lt_of_le hj (Nat.le_trans (Nat.min_le_left _ _) (Nat.min_le_right _ _))
    omega

theorem laneCode_lt (x : LaneState) : laneCode x < 2 ^ 32 := by cases x <;> decide

theorem len_laneRecord (s : State) (l : Nat) : (s.laneRecord l).len = 96 := by
  simp [State.laneRecord]

/-- A record of `LANE_STATUS_GET` begins with the lane's number and its state (Table 12-13). -/
theorem at_laneRecord (s : State) {l : Nat} (hl : l < 2 ^ 32) : Bytes.at (s.laneRecord l) 0 4 = l ∧
    Bytes.at (s.laneRecord l) 4 4 = laneCode (s.links.lane l).state := by
  constructor
  · exact (Bytes.at_cat_left _ _ (by simp)).trans (at_wordsLE (i := 0) rfl hl)
  · exact (Bytes.at_cat_left _ _ (by simp)).trans (at_wordsLE (i := 1) rfl (laneCode_lt _))

/-- The counts of RS-FEC that a read brings up to date change no lane's state. -/
theorem readFec_state (s : State) (l k : Nat) : ((s.readFec l).links.lane k).state = (s.links.lane k).state := by
  have hif (c : Prop) [Decidable c] (x : LaneRun) (hx : x.state = (s.links.lane l).state) :
      ((if c then s.setLane l x else s).links.lane k).state = (s.links.lane k).state := by
    split
    · rw [State.lane_setLane]
      split
      · subst k; exact hx
      · rfl
    · rfl
  exact hif _ _ rfl

theorem len_listPayload {w : Nat} {l : List Bytes} (hl : ∀ y ∈ l, y.len = w) :
    (listPayload l).len = 4 + w * l.length := by
  rw [listPayload, Bytes.len_cat, Bytes.len_leBytes, Bytes.len_join_of_len hl]

/-- Bytes of the i-th record of a list response of records of one size. -/
theorem at_listPayload {w i off n : Nat} {l : List Bytes} {x : Bytes} (hl : ∀ y ∈ l, y.len = w) (hi : l[i]? = some x)
    (h : off + n ≤ w) : Bytes.at (listPayload l) (4 + w * i + off) n = Bytes.at x off n := by
  rw [Nat.add_assoc]
  exact (Bytes.at_cat_right _ _ _ _).trans (Bytes.at_join hl hi h)

/-! ## Settings of Ethernet ports (R65, R237) -/

/-- The setting `ETH_PORT_SET` carries, its reserved bits zero (R4, R237). -/
def ethAsked (r : Request) : EthDesc :=
  BitVec.ofNat 576 (Bytes.at r.payload 0 72 - (Bytes.at r.payload 0 72 &&& ethReserved))

theorem present_of_lt {port n : Nat} (h7 : port ≤ 7) (hp : port < n) : ¬ (7 < port ∨ n ≤ port) := by omega

/-- Whether a setting changes an address or the VLAN of the one before (R65, R237). -/
def ethMoved (old : Option EthDesc) (d : EthDesc) : Bool :=
  let key (x : EthDesc) : Nat × Nat := (ethVlan x, (bytesOf x).val >>> 128)
  match old with | some x => key x != key d | none => key d != (0, 0)

theorem ethMoved_same (d : EthDesc) : ethMoved (some d) d = false := by simp [ethMoved]

/-- A setting in force on its port, membership reports sent again where it changes an address or the VLAN (R65, R237). -/
def State.keepSetting (s : State) (d : EthDesc) : State :=
  let u := s.setEth (ethPort d) { s.eth (ethPort d) with setting := some d }
  if ethMoved (s.eth (ethPort d)).setting d then u.reportAgain (ethPort d) else u

theorem keepSetting_only (s : State) (d : EthDesc) : Only [.links, .src] s (s.keepSetting d) := by
  unfold State.keepSetting
  dsimp only
  split
  · exact ((setEth_only ..).mono (by simp)).trans ((reportAgain_only ..).mono (by simp))
  · exact (setEth_only ..).mono (by simp)

theorem keepSetting_eth (s : State) (d : EthDesc) :
    (s.keepSetting d).eth (ethPort d) = { s.eth (ethPort d) with setting := some d } := by
  unfold State.keepSetting
  dsimp only
  split
  · rw [State.eth_of_links ((reportAgain_only ..).same (q := .links) (by simp)), State.eth_setEth]
  · rw [State.eth_setEth]

/-- The setting a port already has sends no report again. -/
theorem keepSetting_same {s : State} {d : EthDesc} (h : (s.eth (ethPort d)).setting = some d) :
    (s.keepSetting d).src = s.src := by
  simp [State.keepSetting, h, ethMoved_same]

section Messages
variable {s : State} {p : Fin 4} {r : Request} (dt : Nat)

/-! ## The messages about lanes (R216 to R218, R224, R238) -/

/-- A table that fails its checks is refused; one that passes them waits for flash (R216, R217). -/
theorem exec_laneTableLoad (h : InHand s p 0x0D01 r) (hf : s.power.flash = none) :
    exec (.laneTableLoad dt p) s = .next (if tableFits r.payload then (s.begun dt p).beginFlash p r none
      else (s.begun dt p).status p r stNotSupported) :=
  congrArg _ (serveFlash_inHand h hf dt _)

theorem exec_laneTableGet (h : InHand s p 0x0D02 r) :
    exec (.laneTableGet dt p) s = .next ((s.begun dt p).answer p r stOk (tablePayload s.links)) :=
  congrArg _ (serve_inHand h dt _)

/-- A tuning out of range is refused (R218). -/
theorem exec_laneTune_bad (h : InHand s p 0x0D04 r) (hb : 47 < r.u8 0 ∨ tuneBad (r.u32 4 % 2 ^ 24) = true) :
    exec (.laneTune dt p) s = .next ((s.begun dt p).status p r stNotSupported) :=
  congrArg _ ((serve_inHand h dt _).trans (if_pos hb))

/-- A tuning taken changes the entry of its lane in the table in force (R218). -/
theorem exec_laneTune (h : InHand s p 0x0D04 r) (hl : r.u8 0 ≤ 47) (hb : tuneBad (r.u32 4 % 2 ^ 24) = false) :
    ∃ t, exec (.laneTune dt p) s = .next t ∧
      t.links.inForce = tuned s.links.inForce (r.u8 0) (r.u32 4 % 2 ^ 24) (r.u32 8 % 2 ^ 8) (r.u32 12 % 2 ^ 30) := by
  have hn : ¬ (47 < r.u8 0 ∨ tuneBad (r.u32 4 % 2 ^ 24) = true) := by rw [hb]; simpa using hl
  refine ⟨_, congrArg Host.Outcome.next ((serve_inHand h dt _).trans (if_neg hn)), ?_⟩
  dsimp only
  simp only [LinksSt.inForce, State.status_frame, State.log_frame]
  exact congrArg (Option.getD · defaultLaneTable) (ite_laneHunt_table _ _ _)

/-- The words of the lane read as the request gives them, and those of every other lane as before (R218). -/
theorem laneTune_words (h : InHand s p 0x0D04 r) (hl : r.u8 0 ≤ 47) (hb : tuneBad (r.u32 4 % 2 ^ 24) = false) :
    ∃ t, exec (.laneTune dt p) s = .next t ∧
      tabWord t.links.inForce (r.u8 0) 1 = r.u32 4 % 2 ^ 24 ∧ tabWord t.links.inForce (r.u8 0) 2 = r.u32 8 % 2 ^ 8 ∧
      tabWord t.links.inForce (r.u8 0) 3 = r.u32 12 % 2 ^ 30 ∧
      (∀ k i, k < 48 → k ≠ r.u8 0 → 1 ≤ i → i ≤ 3 → tabWord t.links.inForce k i = tabWord s.links.inForce k i) := by
  obtain ⟨t, ht, hf⟩ := exec_laneTune dt h hl hb
  obtain ⟨h1, h2, h3⟩ := tabWord_tuned_same s.links.inForce hl (mod_two_pow_lt_word (r.u32 4) (n := 24) (by decide))
    (mod_two_pow_lt_word (r.u32 8) (n := 8) (by decide)) (mod_two_pow_lt_word (r.u32 12) (n := 30) (by decide))
  exact ⟨t, ht, hf ▸ h1, hf ▸ h2, hf ▸ h3, fun k i _ hk _ hi => hf ▸ tabWord_tuned_other _ _ _ _ hl hk hi⟩

/-- The status of lanes is answered once the counts of RS-FEC are up to date (R224). -/
theorem exec_laneStatusGet (h : InHand s p 0x0D03 r) {l : List Nat}
    (hl : cutList (r.u16 0) (r.u16 2) 48 96 r.room = some l) :
    let u := each l (s.begun dt p) State.readFec
    exec (.laneStatusGet dt p) s = .next (u.answer p r stOk (listPayload (l.map u.laneRecord))) :=
  congrArg Host.Outcome.next ((serve_inHand h dt _).trans (by rw [hl]))

/-- The response lists the lanes asked for, each with its number and its state; the read changes nothing else but counts of the
links. -/
theorem laneStatusGet_records (h : InHand s p 0x0D03 r) {l : List Nat}
    (hl : cutList (r.u16 0) (r.u16 2) 48 96 r.room = some l) :
    ∃ t x, exec (.laneStatusGet dt p) s = .next t ∧ Only [.links, .mail] (s.elapse dt) t ∧ x.len = 4 + 96 * l.length ∧
      t.mail = ((s.begun dt p).answer p r stOk x).mail ∧
      ∀ i k, l[i]? = some k → Bytes.at x (4 + 96 * i) 4 = k ∧
        Bytes.at x (4 + 96 * i + 4) 4 = laneCode (s.links.lane k).state := by
  have he := exec_laneStatusGet dt h hl
  generalize hu : each l (s.begun dt p) State.readFec = u at he
  have ho : Only [.links] (s.begun dt p) u := hu ▸ each_only readFec_only l _
  have hw : ∀ y ∈ l.map u.laneRecord, y.len = 96 := List.forall_mem_map.2 fun k _ => len_laneRecord u k
  refine ⟨_, _, he, ?_, (len_listPayload hw).trans (by rw [List.length_map]), ?_, fun i k hi => ?_⟩
  · exact Only.of_begun ((ho.mono (by simp)).trans ((answer_only ..).mono (by simp))) (by simp)
  · exact answer_mail_congr (ho.same (q := .mail) (by simp)) _ _ _ _
  · have hk : k < 2 ^ 32 := Nat.lt_trans (cutList_lt hl (List.mem_of_getElem? hi)) (by decide)
    have hx : (l.map u.laneRecord)[i]? = some (u.laneRecord k) := by rw [List.getElem?_map, hi]; rfl
    have hst : (u.links.lane k).state = (s.links.lane k).state :=
      hu ▸ each_same (fun s => (s.links.lane k).state) l _ _ (readFec_state · · k)
    obtain ⟨hn, hc⟩ := at_laneRecord u hk
    rw [← hst]
    exact ⟨(at_listPayload (off := 0) hw hx (by decide)).trans hn, (at_listPayload hw hx (by decide)).trans hc⟩

/-- A board test of a lane in use is refused (R238). -/
theorem exec_lanePrbs_inUse (h : InHand s p 0x0D06 r) (hl : r.u8 0 ≤ 47) (hr : s.links.role (r.u8 0) ≠ 0) :
    exec (.lanePrbs dt p) s = .next ((s.begun dt p).status p r stDenied) :=
  congrArg Host.Outcome.next ((serve_inHand h dt _).trans ((if_neg (Nat.not_lt.2 hl)).trans (if_pos hr)))

/-- A count of zero completes at once (R238). -/
theorem exec_lanePrbs_none (h : InHand s p 0x0D06 r) (hl : r.u8 0 ≤ 47) (hr : s.links.role (r.u8 0) = 0)
    (hn : r.u32 4 = 0) : exec (.lanePrbs dt p) s = .next ((s.begun dt p).answer p r stOk (leBytes 16 0)) :=
  congrArg Host.Outcome.next ((serve_inHand h dt _).trans
    ((if_neg (Nat.not_lt.2 hl)).trans ((if_neg (not_not_intro hr)).trans (if_pos hn))))

/-- Any other test begins, its response held (R238, R277). -/
theorem exec_lanePrbs_held (h : InHand s p 0x0D06 r) (hl : r.u8 0 ≤ 47) (hr : s.links.role (r.u8 0) = 0)
    (hn : r.u32 4 ≠ 0) (ht : (s.links.lane (r.u8 0)).prbs = none) (hh : (s.port p).held.length < 8) :
    exec (.lanePrbs dt p) s = .next (((s.begun dt p).setLane (r.u8 0)
      { s.links.lane (r.u8 0) with prbs := some (p.val, r.tag) }).hold p r 0) := by
  have hb : ¬ ((s.links.lane (r.u8 0)).prbs.isSome = true ∨ (!(s.begun dt p).canHold p) = true) := by
    simp [ht, State.canHold, begun_port_self, hh]
  exact congrArg Host.Outcome.next ((serve_inHand h dt _).trans
    ((if_neg (Nat.not_lt.2 hl)).trans ((if_neg (not_not_intro hr)).trans ((if_neg hn).trans (if_neg hb)))))

/-- The end of a board test releases its response, with the bit errors and the bits checked (R238). -/
theorem exec_lanePrbsDone {l : Fin 48} (errors checked : Nat) {q : Nat × Nat} (h : (s.links.lane l).prbs = some q) :
    exec (.lanePrbsDone dt l errors checked) s = .next (((s.elapse dt).setLane l
      { s.links.lane l with prbs := none }).release q.1 0x0D06 q.2 stOk
        (Bytes.cat (leBytes 8 errors) (leBytes 8 checked))) := by
  show execLanePrbsDone dt l errors checked s = _
  simp only [execLanePrbsDone, State.elapse_links, h]

/-! ## The messages about Ethernet ports (R65, R236, R237) -/

/-- A port's lane that hunts comes `UP` with its link (R236). -/
theorem exec_ethPortLink_up {port : Fin 8} {l : Nat} (hw : s.windowUp = true) (hl : s.links.laneOf 4 port = some l)
    (hs : (s.links.lane l).state = .hunting) :
    exec (.ethPortLink dt port true) s = .next ((s.elapse dt).laneTo l .up) := by
  show execEthPortLink dt port true s = _
  simp [execEthPortLink, hl, hw, hs]

/-- A port's lane that is `UP` hunts again once its link is gone, and the loss is counted (R236). -/
theorem exec_ethPortLink_down {port : Fin 8} {l : Nat} (hw : s.windowUp = true) (hl : s.links.laneOf 4 port = some l)
    (hs : (s.links.lane l).state = .up) :
    exec (.ethPortLink dt port false) s = .next (((s.elapse dt).setLane l { s.links.lane l with
      lockLosses := w32 ((s.links.lane l).lockLosses + 1)
      lossesSince := w32 ((s.links.lane l).lossesSince + 1) }).laneTo l .hunting) := by
  show execEthPortLink dt port false s = _
  simp [execEthPortLink, hl, hw, hs]

/-- A port the table does not have is NO_RESOURCE (R237). -/
theorem exec_ethPortSet_absent (h : InHand s p 0x0D05 r)
    (hp : 7 < ethPort (ethAsked r) ∨ (s.links.lanesOf 4).length ≤ ethPort (ethAsked r)) :
    exec (.ethPortSet dt p) s = .next ((s.begun dt p).status p r stNoResource) :=
  congrArg Host.Outcome.next ((serve_inHand h dt _).trans (if_pos hp))

/-- An address the port cannot have is NOT_SUPPORTED (R237). -/
theorem exec_ethPortSet_bad (h : InHand s p 0x0D05 r) (h7 : ethPort (ethAsked r) ≤ 7)
    (hp : ethPort (ethAsked r) < (s.links.lanesOf 4).length) (hb : ethBad (ethAsked r) = true) :
    exec (.ethPortSet dt p) s = .next ((s.begun dt p).status p r stNotSupported) :=
  congrArg Host.Outcome.next ((serve_inHand h dt _).trans ((if_neg (present_of_lt h7 hp)).trans (if_pos hb)))

/-- Any other setting is kept (R237). -/
theorem exec_ethPortSet_kept (h : InHand s p 0x0D05 r) (h7 : ethPort (ethAsked r) ≤ 7)
    (hp : ethPort (ethAsked r) < (s.links.lanesOf 4).length) (hb : ethBad (ethAsked r) = false) :
    exec (.ethPortSet dt p) s = .next (((s.begun dt p).keepSetting (ethAsked r)).status p r stOk) :=
  congrArg Host.Outcome.next ((serve_inHand h dt _).trans
    ((if_neg (present_of_lt h7 hp)).trans (if_neg (ne_true_of_eq_false hb))))

/-- The setting kept is the port's; only the sources whose reports are sent again change besides, and none where the setting is
the one before. -/
theorem ethPortSet_kept (h : InHand s p 0x0D05 r) (h7 : ethPort (ethAsked r) ≤ 7)
    (hp : ethPort (ethAsked r) < (s.links.lanesOf 4).length) (hb : ethBad (ethAsked r) = false) :
    ∃ t, exec (.ethPortSet dt p) s = .next t ∧ Only [.links, .src, .mail] (s.elapse dt) t ∧
      t.eth (ethPort (ethAsked r)) = { s.eth (ethPort (ethAsked r)) with setting := some (ethAsked r) } ∧
      ((s.eth (ethPort (ethAsked r))).setting = some (ethAsked r) → t.src = s.src) := by
  refine ⟨_, exec_ethPortSet_kept dt h h7 hp hb, ?_, ?_, fun hd => ?_⟩
  · exact Only.of_begun (((keepSetting_only ..).mono (by simp)).trans ((status_only ..).mono (by simp))) (by simp)
  · exact (State.eth_of_links (by simp) _).trans (keepSetting_eth (s.begun dt p) _)
  · exact ((status_only ..).same (q := .src) (by simp)).trans (keepSetting_same (s := s.begun dt p) hd)

end Messages

/-- Settles O52: each clause is the case of its message, with what the lane table, the status records and the mailboxes read as
afterwards. -/
theorem laneAndPortMessages : Obligations.LaneAndPortMessages := by
  unfold Obligations.LaneAndPortMessages
  refine ⟨fun s dt p r => ⟨fun h hf => ⟨fun hb => ?_, fun hb => ?_⟩, fun h => ?_, fun h => ⟨fun hb => ?_, fun hl hb => ?_⟩,
      fun l h hl => ?_, fun h hl => ⟨fun hr => ?_, fun hr hn => ?_, fun hr hn ht hh => ?_⟩, fun l errors checked q hq => ?_⟩,
    fun s dt => ⟨fun port l hw hl => ⟨fun hs => ?_, fun hs => ?_⟩, fun p r h => ⟨fun hp => ?_, fun h7 hp hb => ?_,
      fun h7 hp hb => ?_⟩⟩⟩
  · rw [exec_laneTableLoad dt h hf, if_neg (ne_true_of_eq_false hb)]; rfl
  · rw [exec_laneTableLoad dt h hf, if_pos hb]
    exact ⟨_, _, rfl, Only.of_begun ((beginFlash_only ..).mono (by simp)) (by simp), rfl, rfl⟩
  · exact ⟨_, exec_laneTableGet dt h, len_tablePayload _, tablePayload_inForce _, tablePayload_waiting _⟩
  · exact exec_laneTune_bad dt h hb
  · exact laneTune_words dt h hl hb
  · exact laneStatusGet_records dt h hl
  · exact exec_lanePrbs_inUse dt h hl hr
  · exact exec_lanePrbs_none dt h hl hr hn
  · exact ⟨_, exec_lanePrbs_held dt h hl hr hn ht hh, by simp, mem_hold _ _ _ _⟩
  · exact ⟨_, _, exec_lanePrbsDone dt errors checked hq, setLane_only _ _ _, State.setLane_lane _ _ _, rfl⟩
  · exact ⟨_, exec_ethPortLink_up dt hw hl hs, laneTo_state _ _ _⟩
  · exact ⟨_, exec_ethPortLink_down dt hw hl hs, laneTo_state _ _ _, by rw [laneTo_lockLosses, State.setLane_lane]; rfl⟩
  · exact exec_ethPortSet_absent dt h hp
  · exact exec_ethPortSet_bad dt h h7 hp hb
  · exact ethPortSet_kept dt h h7 hp hb

end Sys2Proof.Machine
end

section
/-!
What the operations that a domain reset is made of leave of a state: the sessions of the ports, the progress of the start
with the kind of the last reset, the configuration sets and the free values (R379, R381).
-/
namespace Sys2Proof.Machine

-- One proof after another: in parallel, each of the many short proofs that wait for another holds a thread and its stack.
set_option Elab.async false

/-! ## Sessions, the start and the sets stay -/

theorem domain_congr {s t : State} (h : t.power = s.power) (d : Nat) : t.domain d = s.domain d := by
  rw [State.domain, State.domain, h]

/-- From one state to the other the sessions, the progress of the start, the kind of the last reset, the configuration
sets and the free values stay, and a domain that is on is as it was or at full clock. -/
structure Undisturbed (s t : State) : Prop where
  sessions : ∀ p, (t.port p).session = (s.port p).session
  started : t.power.started = s.power.started
  kind : t.power.resetKind = s.power.resetKind
  sets : t.sets = s.sets
  draw : t.draw = s.draw
  clock : ∀ d, (t.domain d).on = true → t.domain d = s.domain d ∨ (t.domain d).clock = 8

namespace Undisturbed

variable {s t u : State}

theorem refl (s : State) : Undisturbed s s := ⟨fun _ => rfl, rfl, rfl, rfl, rfl, fun _ _ => .inl rfl⟩

theorem trans (h : Undisturbed s t) (k : Undisturbed t u) : Undisturbed s u := by
  refine ⟨fun p => (k.sessions p).trans (h.sessions p), k.started.trans h.started, k.kind.trans h.kind,
    k.sets.trans h.sets, k.draw.trans h.draw, fun d on => ?_⟩
  obtain e | e := k.clock d on
  · rw [e] at on ⊢
    exact h.clock d on
  · exact .inr e

/-- An operation that leaves power, sets and free values alone, and the sessions. -/
theorem of_sessions (h : ∀ p, (t.port p).session = (s.port p).session) (hp : t.power = s.power := by simp)
    (hs : t.sets = s.sets := by simp) (hd : t.draw = s.draw := by simp) : Undisturbed s t :=
  ⟨h, by rw [hp], by rw [hp], hs, hd, fun d _ => .inl (domain_congr hp d)⟩

/-- An operation that leaves mailboxes, power, sets and free values alone. -/
theorem of_frame (hm : t.mail = s.mail := by simp) (hp : t.power = s.power := by simp)
    (hs : t.sets = s.sets := by simp) (hd : t.draw = s.draw := by simp) : Undisturbed s t :=
  .of_sessions (fun p => by rw [port_congr hm p]) hp hs hd

theorem ite {c : Prop} [Decidable c] (h : Undisturbed s t) (k : Undisturbed s u) :
    Undisturbed s (if c then t else u) := by
  split
  · exact h
  · exact k

/-- A last operation that may be left out. -/
theorem perhaps {c : Prop} [Decidable c] (h : Undisturbed s t) (k : Undisturbed t u) :
    Undisturbed s (if c then u else t) :=
  .ite (h.trans k) h

theorem each {α : Type} {f : State → α → State} (h : ∀ s a, Undisturbed s (f s a)) (l : List α) (s : State) :
    Undisturbed s (each l s f) := by
  induction l generalizing s with
  | nil => exact refl s
  | cons a l ih => exact (h s a).trans (ih (f s a))

end Undisturbed

/-! ## Events and responses -/

theorem setPort_undisturbed (s : State) (p : Nat) {x : PortSt} (hx : x.session = (s.port p).session) :
    Undisturbed s (s.setPort p x) := by
  refine .of_sessions fun q => ?_
  rw [State.port_setPort_eq]
  split
  · subst q; exact hx
  · rfl

theorem notify_undisturbed (s : State) (p v : Nat) : Undisturbed s (s.notify p v) :=
  .ite (.refl s) (.ite (setPort_undisturbed s p rfl) .of_frame)

theorem pushEvent_undisturbed (s : State) (p event flags time : Nat) (ps : List Nat) :
    Undisturbed s (s.pushEvent p event flags time ps) :=
  .perhaps (setPort_undisturbed s p rfl) (notify_undisturbed ..)

theorem postEvent_undisturbed (s : State) (p event : Nat) (ps : List Nat) : Undisturbed s (s.postEvent p event ps) :=
  .ite (.refl s) (.ite (setPort_undisturbed s p rfl) (pushEvent_undisturbed ..))

theorem postAll_undisturbed (s : State) (event : Nat) (ps : List Nat) : Undisturbed s (s.postAll event ps) :=
  .each (fun s p => postEvent_undisturbed s p event ps) _ _

theorem fillSlot_undisturbed (s : State) (p : Nat) (r : Response) : Undisturbed s (s.fillSlot p r) := by
  have slot (u : State) (h : Undisturbed s u) (i : Option Nat) : Undisturbed s (match i with
      | some i =>
        let s1 := u.setPort p { u.port p with
          resp := Tbl.put (u.port p).resp i r, respBell := (u.port p).respBell ||| BitVec.ofNat 8 (1 <<< i) }
        if (u.port p).respBell = 0 then s1.notify p 0 else s1
      | none => u) := by
    cases i with
    | some i => exact .perhaps (h.trans (setPort_undisturbed u p rfl)) (notify_undisturbed ..)
    | none => exact h
  unfold State.fillSlot
  cases r.toHost with
  | some a => exact slot (s.send _) .of_frame _
  | none => exact slot s (.refl s) _

theorem postResponse_undisturbed (s : State) (p : Nat) (r : Response) : Undisturbed s (s.postResponse p r) :=
  .ite (setPort_undisturbed s p rfl) (fillSlot_undisturbed s p r)

theorem answer_undisturbed (s : State) (p : Nat) (r : Request) (st : Nat) (x : Bytes) :
    Undisturbed s (s.answer p r st x) :=
  have h : Undisturbed s (if r.inSession (s.port p) then
      s.setPort p { s.port p with served := w32 ((s.port p).served + 1) } else s) :=
    .ite (setPort_undisturbed s p rfl) (.refl s)
  h.trans (postResponse_undisturbed ..)

theorem release_undisturbed (s : State) (p opcode tag st : Nat) (x : Bytes) :
    Undisturbed s (s.release p opcode tag st x) := by
  unfold State.release
  dsimp only
  split
  · refine .trans ?_ (postResponse_undisturbed ..)
    exact setPort_undisturbed s p rfl
  · exact .refl s

theorem notifyHealth_undisturbed (s : State) (force : Bool) : Undisturbed s (s.notifyHealth force) := by
  unfold State.notifyHealth
  extract_lets now seen
  split
  · exact Undisturbed.trans .of_frame (postAll_undisturbed ..)
  · exact .ite (Undisturbed.trans .of_frame (postAll_undisturbed ..)) (.refl s)

/-! ## The proof test and the Auditor -/

theorem proofFinish_undisturbed (s : State) : Undisturbed s s.proofFinish := by
  unfold State.proofFinish
  split
  · exact .ite (Undisturbed.trans .of_frame (release_undisturbed ..)) (.refl s)
  · exact .refl s

theorem proofResult_undisturbed (s : State) (o result : Nat) : Undisturbed s (s.proofResult o result) := by
  unfold State.proofResult
  split
  · exact .ite (.refl s) (Undisturbed.trans .of_frame (proofFinish_undisturbed _))
  · exact .refl s

theorem proofDrop_undisturbed (s : State) (o : Nat) : Undisturbed s (s.proofDrop o) := by
  unfold State.proofDrop
  split
  · exact .ite (proofResult_undisturbed ..) (.refl s)
  · exact .refl s

theorem proofAbort_undisturbed (s : State) : Undisturbed s s.proofAbort := by
  unfold State.proofAbort
  split
  · exact .each (fun s o => proofResult_undisturbed s o 0xFF) _ _
  · exact .refl s

theorem setFault_undisturbed (s : State) (x : FaultSt) : Undisturbed s { s with fault := x } :=
  .of_frame rfl rfl rfl rfl

theorem setComp_undisturbed (s : State) (x : ComposeSt) : Undisturbed s { s with comp := x } :=
  .of_frame rfl rfl rfl rfl

theorem setSources_undisturbed (s : State) (x : SourcesSt) : Undisturbed s { s with src := x } :=
  .of_frame rfl rfl rfl rfl

theorem logFrom_undisturbed (s : State) (origin inst code : Nat) (ps : List Nat) :
    Undisturbed s (s.logFrom origin inst code ps) := .of_frame

theorem log_undisturbed (s : State) (code : Nat) (ps : List Nat) : Undisturbed s (s.log code ps) := .of_frame

theorem notePanic_undisturbed (s : State) : Undisturbed s s.notePanic := .of_frame

theorem dropKeeps_undisturbed (s : State) : Undisturbed s s.dropKeeps := .of_frame

theorem enterSafe_undisturbed (s : State) (msg sev : Nat) : Undisturbed s (s.enterSafe msg sev) := by
  unfold State.enterSafe
  dsimp only
  refine .trans (.trans (.trans ?_ (notePanic_undisturbed _)) (logFrom_undisturbed ..)) (proofAbort_undisturbed _)
  refine .trans (.trans ?_ (.each ?_ _ _)) (.each ?_ _ _)
  · exact .ite ((setFault_undisturbed s _).trans (.each (fun _ _ => .of_frame) _ _))
      ((setFault_undisturbed s _).trans (.each (fun _ _ => .of_frame) _ _))
  · exact fun _ _ => .of_frame
  · intro s j
    split
    · exact .of_frame
    · exact .of_frame
    · exact .refl s

theorem yieldRole_undisturbed (s : State) : Undisturbed s s.yieldRole :=
  .ite (Undisturbed.trans .of_frame (postAll_undisturbed ..)) .of_frame

theorem faultRecord_undisturbed (s : State) (msg sev since : Nat) : Undisturbed s (s.faultRecord msg sev since) :=
  .of_frame

theorem serviceFor_undisturbed (s : State) (src param msg sev : Nat) :
    Undisturbed s (s.serviceFor src param msg sev) := .of_frame

/-- What the Auditor does with a coded message disturbs nothing of these (R300 to R305). -/
theorem auditor_undisturbed (s : State) (msg : Nat) : Undisturbed s (s.auditor msg) := by
  have reacts (s : State) (sev : Nat) :
      Undisturbed s (if 3 ≤ sev then (if s.inSafe then s.furtherSafe msg else s.enterSafe msg sev) else s) :=
    .ite (.ite .of_frame (enterSafe_undisturbed ..)) (.refl s)
  have logged (sev : Nat) : Undisturbed s (s.faultLog msg sev) := .of_frame
  unfold State.auditor
  dsimp only
  refine .ite ?_ ?_
  · exact .trans (.trans (.trans (logged _) (setFault_undisturbed ..)) (faultRecord_undisturbed ..))
      (notifyHealth_undisturbed ..)
  · refine .perhaps (.perhaps (.perhaps (.trans (.perhaps (.trans ?_ (reacts _ _)) (dropKeeps_undisturbed _))
      (notifyHealth_undisturbed ..)) (postAll_undisturbed ..)) (postAll_undisturbed ..)) (yieldRole_undisturbed _)
    refine .trans (.trans (.trans ?_ (setFault_undisturbed ..)) (faultRecord_undisturbed ..)) (serviceFor_undisturbed ..)
    exact .ite (logged _) ((logged _).trans (setFault_undisturbed ..))

theorem raised_undisturbed (s : State) (src param : Nat) : Undisturbed s (s.raised src param) :=
  auditor_undisturbed ..

theorem cleared_undisturbed (s : State) (src param : Nat) : Undisturbed s (s.cleared src param) :=
  .ite (auditor_undisturbed ..) (.refl s)

theorem happened_undisturbed (s : State) (src param : Nat) : Undisturbed s (s.happened src param) :=
  auditor_undisturbed ..

/-! ## Power domains and their self-tests (R258, R371) -/

theorem domainOff_undisturbed (s : State) (d cause : Nat) : Undisturbed s (s.domainOff d cause) := by
  refine .ite (.trans (t := s.setDomain d { s.domain d with on := false }) ?_ (log_undisturbed ..)) (.refl s)
  refine ⟨fun _ => rfl, rfl, rfl, rfl, rfl, fun e on => ?_⟩
  by_cases h : e = d
  · subst h
    simp at on
  · exact .inl (State.domain_setDomain_other _ _ _ _ h)

theorem domainOn_undisturbed (s : State) (d cause : Nat) : Undisturbed s (s.domainOn d cause) := by
  refine .ite (.refl s) (.trans (.trans ?_ (log_undisturbed ..)) (cleared_undisturbed ..))
  refine ⟨fun _ => rfl, rfl, rfl, rfl, rfl, fun e _ => ?_⟩
  by_cases h : e = d
  · subst h
    exact .inr (by simp)
  · exact .inl (State.domain_setDomain_other _ _ _ _ h)

theorem macroExhausted_undisturbed (s : State) (block : SramBlock) (arr unit : Nat) :
    Undisturbed s (s.macroExhausted block arr unit) := by
  have h : Undisturbed s ((s.log 0x6051 [sramIndex block, arr, unit, 0]).raised 0x02A (sramIndex block)) :=
    (log_undisturbed ..).trans (raised_undisturbed ..)
  cases block with
  | composition => exact h.trans (setComp_undisturbed ..)
  | scanOut => exact h.trans (setComp_undisturbed ..)
  | decode => exact h
  | encode => exact h
  | _ => exact h.trans (setFault_undisturbed ..)

theorem testDomain_undisturbed (s : State) (d : Nat) (t : SelfTest) : Undisturbed s (s.testDomain d t).1 := by
  have repaired (b : SramBlock) : Undisturbed s (match t.repaired with
      | some (m, n) => s.log 0x6050 [sramIndex b, m, n, 0]
      | none => s) := by
    split
    · exact log_undisturbed ..
    · exact .refl s
  have exhausted (s : State) (b : SramBlock) : Undisturbed s (match t.exhausted with
      | some (m, u) => s.macroExhausted b m u
      | none => s) := by
    split
    · exact macroExhausted_undisturbed ..
    · exact .refl s
  unfold State.testDomain
  cases domainBlock d t.misc with
  | none => exact .refl s
  | some b => exact .perhaps ((repaired b).trans (exhausted _ b)) (happened_undisturbed ..)

/-! ## Decoder cores (R88) -/

theorem setDec_undisturbed (s : State) (i : Nat) (x : DecRun) : Undisturbed s (s.setDec i x) := .of_frame

theorem countStop_undisturbed (s : State) (i code : Nat) (poc : Int) : Undisturbed s (s.countStop i code poc).1 :=
  .of_frame

theorem flushOutput_undisturbed (s : State) (i : Nat) : Undisturbed s (s.flushOutput i) := .of_frame

theorem loseStopped_undisturbed (s : State) (i : Nat) : Undisturbed s (s.loseStopped i) := .of_frame

theorem damage_undisturbed (s : State) (i code : Nat) (poc : Int) (ps : List Nat) (discard : Nat) :
    Undisturbed s (s.damage i code poc ps discard) := by
  unfold State.damage
  dsimp only
  refine .trans (.trans (.perhaps (.trans ?_ (countStop_undisturbed ..)) (log_undisturbed ..))
    (loseStopped_undisturbed ..)) (postAll_undisturbed ..)
  exact .trans (.trans (setDec_undisturbed ..) (flushOutput_undisturbed ..)) (setDec_undisturbed ..)

theorem retireCore_undisturbed (s : State) (c : Nat) : Undisturbed s (s.retireCore c) :=
  ((setSources_undisturbed s _).trans (domainOff_undisturbed ..)).trans (raised_undisturbed ..)

theorem coreFails_undisturbed (s : State) (c : Nat) : Undisturbed s (s.coreFails c) := by
  unfold State.coreFails
  refine .trans (.trans (setSources_undisturbed s _) (.each (fun s i => ?_) _ _)) (retireCore_undisturbed ..)
  dsimp only
  split
  · exact (setDec_undisturbed s i _).trans (damage_undisturbed ..)
  · exact (setDec_undisturbed s i _).trans (damage_undisturbed ..)
  · exact setDec_undisturbed s i _

/-! ## Encoder cores -/

theorem setEncRun_undisturbed (s : State) (j : Nat) (x : EncRun) : Undisturbed s (s.setEncRun j x) := .of_frame

theorem encCoreFails_undisturbed (s : State) (c : Nat) : Undisturbed s (s.encCoreFails c) := by
  have stops (s : State) (j : Nat) :
      Undisturbed s (if (s.encRun j).state = .stopped then s else s.stopJob j 4 .stopped) :=
    .ite (.refl s) .of_frame
  refine .trans (.trans (.trans ?_ (.each stops _ _)) (log_undisturbed ..)) (raised_undisturbed ..)
  refine .trans (.trans ?_ (.each (fun s j => setEncRun_undisturbed s j _) _ _)) (.each (fun s j => ?_) _ _)
  · exact .of_frame
  · split
    · exact setEncRun_undisturbed ..
    · exact .refl s

theorem selfTests_undisturbed (s : State) (d : Nat) (t : SelfTest) : Undisturbed s (s.selfTests d t) :=
  (testDomain_undisturbed s d t).trans
    (.each (fun s u => .ite (encCoreFails_undisturbed s u) (coreFails_undisturbed s u)) _ _)

theorem powerEncoder_undisturbed (s : State) : Undisturbed s s.powerEncoder := by
  have tested : Undisturbed s ((s.domainOn 8 1).testDomain 8 ((s.domainOn 8 1).testOf 8)).1 :=
    (domainOn_undisturbed s 8 1).trans (testDomain_undisturbed ..)
  exact .ite (.refl s) (tested.trans (.each encCoreFails_undisturbed _ _))


theorem beginStream_undisturbed (s : State) (j : Nat) : Undisturbed s (s.beginStream j) := .of_frame

theorem placeJob_undisturbed (s : State) (j c : Nat) : Undisturbed s (s.placeJob j c) := by
  have placed (x : EncRun) : Undisturbed s (s.powerEncoder.setEncRun j x) :=
    (powerEncoder_undisturbed s).trans (setEncRun_undisturbed ..)
  exact .ite (placed _) ((placed _).trans (beginStream_undisturbed ..))

theorem replaceJobs_undisturbed (s : State) : Undisturbed s s.replaceJobs := by
  refine .each (fun s j => .ite ?_ (.refl s)) _ _
  split
  · exact placeJob_undisturbed ..
  · exact .refl s

theorem stopEncoder_undisturbed (s : State) : Undisturbed s s.stopEncoder := .of_frame

/-! ## Lanes go down and come up (R224) -/

theorem refreshProven_undisturbed (s : State) (h : Nat) : Undisturbed s (s.refreshProven h) := by
  have cleared (s : State) (c : Prop) [Decidable c] : Undisturbed s (if c then s.cleared 0x010 h else s) :=
    .ite (cleared_undisturbed ..) (.refl s)
  exact .ite (.refl s) (.trans (.trans .of_frame (cleared (s.setHead h _) _)) (notifyHealth_undisturbed ..))

theorem receiverLink_undisturbed (s : State) (l : Nat) : Undisturbed s (s.receiverLink l) := .of_frame

theorem kinikLost_undisturbed (s : State) (i : Nat) : Undisturbed s (s.kinikLost i) := by
  unfold State.kinikLost
  split <;> exact .of_frame

theorem admitKinik_undisturbed (s : State) (i : Nat) : Undisturbed s (s.admitKinik i) :=
  .ite (.ite .of_frame (kinikLost_undisturbed s i)) (.refl s)

theorem setMirror_undisturbed (s : State) (m : Mirror) : Undisturbed s (s.setMirror m) :=
  .ite (.refl s) (.trans .of_frame (log_undisturbed { s with pair := _ } ..))

theorem checkTwin_undisturbed (s : State) (pp : Nat) : Undisturbed s (s.checkTwin pp) := by
  have bad (s : State) (r : Bytes) :
      Undisturbed s ((s.log 0x9051 [pp, Bytes.at r 8 4, capPairId r, 0]).setMirror .stopped) :=
    (log_undisturbed ..).trans (setMirror_undisturbed ..)
  unfold State.checkTwin
  split
  · split
    · exact .ite (.refl s) (.perhaps .of_frame (bad { s with pair := _ } _))
    · exact .refl s
  · exact .refl s

theorem setRt_undisturbed (s : State) (new : RtState) : Undisturbed s (s.setRt new) :=
  .ite (.refl s) (.trans (.trans .of_frame (log_undisturbed { s with time := _ } ..)) (postAll_undisturbed ..))

theorem peerTimeLost_undisturbed (s : State) (pp : Nat) : Undisturbed s (s.peerTimeLost pp) :=
  .ite (.trans .of_frame (setRt_undisturbed { s with time := _ } _)) (.refl s)

theorem linkGone_undisturbed (s : State) (l : Nat) : Undisturbed s (s.linkGone l) := by
  unfold State.linkGone
  split
  · exact receiverLink_undisturbed ..
  · exact .trans .of_frame (.each kinikLost_undisturbed _ (s.discardKinik l))
  · exact .trans .of_frame (peerTimeLost_undisturbed (s.peerRestart _) _)
  · exact .of_frame
  · exact .refl s

theorem linkHere_undisturbed (s : State) (l : Nat) : Undisturbed s (s.linkHere l) := by
  unfold State.linkHere
  split
  · split
    · rename_i h _ _
      have proven := (refreshProven_undisturbed s h).trans (receiverLink_undisturbed _ l)
      exact .ite proven (proven.trans (.each receiverLink_undisturbed _ _))
    · exact .refl s
  · exact .each (fun s i => admitKinik_undisturbed s i) _ _
  · exact checkTwin_undisturbed ..
  · exact .of_frame
  · exact .refl s

theorem setLane_undisturbed (s : State) (l : Nat) (x : LaneRun) : Undisturbed s (s.setLane l x) := .of_frame

theorem laneLink_undisturbed (s : State) (l : Nat) (old new : LaneState) : Undisturbed s (s.laneLink l old new) :=
  .of_frame

theorem laneTo_undisturbed (s : State) (l : Nat) (new : LaneState) : Undisturbed s (s.laneTo l new) := by
  have set := setLane_undisturbed s l { s.links.lane l with
    state := new, ackSent := (s.links.lane l).ackSent && !(new == .hunting || new == .off || new == .exchange)
    ackRcvd := (s.links.lane l).ackRcvd && !(new == .hunting || new == .off || new == .exchange) }
  have linked := set.trans (laneLink_undisturbed _ l (s.links.lane l).state new)
  exact .ite (.refl s) (.ite (linked.trans (linkGone_undisturbed ..)) (.ite (linked.trans (linkHere_undisturbed ..)) set))

theorem lanesDown_undisturbed (s : State) (d : Nat) : Undisturbed s (s.lanesDown d) :=
  .each (fun s l => .ite (.refl s) (laneTo_undisturbed s l .off)) _ _

theorem lanesUp_undisturbed (s : State) (d : Nat) : Undisturbed s (s.lanesUp d) :=
  .each (fun s l => .ite (.refl s) (.ite (laneTo_undisturbed s l .off)
    ((laneTo_undisturbed s l .off).trans (setLane_undisturbed ..)))) _ _

/-! ## The units of a domain start afresh (R379) -/

theorem clearMismatch_undisturbed (s : State) (o : Nat) : Undisturbed s (s.clearMismatch o) :=
  .ite ((setComp_undisturbed s _).trans (cleared_undisturbed ..)) (.refl s)

theorem dropTags_undisturbed (s : State) : Undisturbed s s.dropTags :=
  (Undisturbed.each clearMismatch_undisturbed (upTo 32) s).trans (setComp_undisturbed ..)

theorem startConsole_undisturbed (s : State) : Undisturbed s s.startConsole := .of_frame

theorem freshUnits_undisturbed (s : State) (d : Nat) : Undisturbed s (s.freshUnits d) := by
  have dropped : Undisturbed s (each (upTo 24) s (fun s h => (s.proofDrop h).endVoids h)).dropTags :=
    .trans (.each (fun s h => (proofDrop_undisturbed s h).trans .of_frame) _ _) (dropTags_undisturbed _)
  have locking (s : State) (h : Nat) (x : HeadRun) : Undisturbed s ((s.setHead h x).refreshProven h) :=
    .trans .of_frame (refreshProven_undisturbed ..)
  unfold State.freshUnits
  refine .ite ?decoder (.ite ?encoder (.ite ?compose (.ite ?scanOut (.ite ?memory (.ite ?lanes (.ite ?console ?hosts))))))
  case decoder => exact .of_frame rfl rfl rfl rfl
  case encoder => exact (stopEncoder_undisturbed s).trans (replaceJobs_undisturbed _)
  case compose => exact .of_frame rfl rfl rfl rfl
  case scanOut =>
    refine .trans (.trans (dropped.trans ?_) (notePanic_undisturbed _)) (.each (fun s h => locking s h _) _ _)
    exact .of_frame
  case memory =>
    refine .each (fun s c => ?_) _ _
    dsimp only
    split
    · exact .refl s
    · exact .of_frame rfl rfl rfl rfl
    · exact .of_frame rfl rfl rfl rfl
  case lanes => exact (lanesDown_undisturbed s d).trans (lanesUp_undisturbed _ d)
  case console =>
    refine .trans ?_ (startConsole_undisturbed _)
    exact .of_frame rfl rfl rfl rfl
  case hosts =>
    refine .each (fun s p => ?_) _ _
    exact setPort_undisturbed s p rfl

end Sys2Proof.Machine
end

section
/-!
The reset of one domain (R88, R379, R381).
-/
namespace Sys2Proof.Machine

-- One proof after another: in parallel, each of the many short proofs that wait for another holds a thread and its stack.
set_option Elab.async false

/-! ## A domain goes off and comes up -/

theorem domainOff_off {s : State} {d : Nat} (h : (s.domain d).on = true) (cause : Nat) :
    ((s.domainOff d cause).domain d).on = false := by
  rw [State.domainOff, if_pos h, domain_congr (s := s.setDomain d { s.domain d with on := false }) (by simp),
    State.domain_setDomain]

theorem domainOn_on {s : State} {d : Nat} (h : (s.domain d).on = false) (cause : Nat) :
    ((s.domainOn d cause).domain d).on = true ∧ ((s.domainOn d cause).domain d).clock = 8 := by
  rw [State.domainOn, if_neg (by simp [h]),
    domain_congr (s := s.setDomain d { s.domain d with on := true, clock := 8, throttled := false, hmv := s.midVolts d })
      (by simp), State.domain_setDomain]
  exact ⟨rfl, rfl⟩

/-- A domain that is switched off comes up at full clock, whatever its units do in between to come back as after
power-up. -/
theorem restarted_domain {s : State} {d : Nat} (h : (s.domain d).on = true) :
    let t := ((s.domainOff d 3).freshUnits d).domainOn d 3
    (t.domain d).on = true ∧ (t.domain d).clock = 8 := by
  dsimp only
  have off := domainOff_off h 3
  by_cases on : (((s.domainOff d 3).freshUnits d).domain d).on = true
  · rw [State.domainOn, if_pos on]
    obtain same | full := (freshUnits_undisturbed (s.domainOff d 3) d).clock d on
    · rw [same, off] at on
      cases on
    · exact ⟨on, full⟩
  · exact domainOn_on (Bool.not_eq_true _ ▸ on) 3

/-! ## Self-tests that fail no decoder core switch nothing (R88, R371) -/

theorem testDomain_passed (s : State) {d : Nat} (hd : d ≠ 8) {t : SelfTest}
    (h : 8 ≤ d ∨ (t.failedUnits = [] ∧ t.exhausted = none)) : (s.testDomain d t).2 = [] := by
  unfold State.testDomain
  cases domainBlock d t.misc with
  | none => rfl
  | some b =>
    obtain h8 | ⟨hf, he⟩ := h
    · dsimp only
      rw [if_neg (by omega), if_neg hd]
    · dsimp only
      rw [hf, he, if_neg hd]
      simp

theorem selfTests_power (s : State) {d : Nat} {t : SelfTest}
    (h : 8 ≤ d ∨ (t.failedUnits = [] ∧ t.exhausted = none)) : (s.selfTests d t).power = s.power := by
  unfold State.selfTests
  dsimp only
  by_cases hd : d = 8
  · simp [hd]
  · rw [testDomain_passed s hd h]
    exact (show (s.testDomain d t).1.power = s.power by simp)

/-! ## The commit in progress is withdrawn, the reset is noted (R141, R379, R381) -/

/-- The pending commit, if any, ends withdrawn; its answer is posted. -/
def State.commitWithdrawn (s : State) : State :=
  match s.sets.pending with
  | some c => ((s.endCommit c .withdrawn).log 0x3104 [c.seq, c.group, 7, 0]).deferResponse c
  | none => s

/-- The kind and detail of a domain reset: in the registers once the device has started, and in `RESET_RECORDED`. -/
def State.domainResetNoted (s : State) (detail : Nat) : State :=
  let t := if s.power.started then { s with power := { s.power with resetKind := 7, resetDetail := detail } } else s
  t.log 0x0001 [7, detail, t.auditorRecent.length, w32 t.time.room]

/-- A domain reset of a domain that may be reset and is on. -/
theorem exec_domainReset {s : State} (dt : Nat) {d : Fin 26} (hu : s.tellerUp = true) (h4 : 4 ≤ d.val)
    (hon : (s.domain d).on = true) :
    exec (.domainReset dt d) s = .next
      (let u := (s.elapse dt).commitWithdrawn.domainResetNoted (s.elapse dt).openDetail
       let v := ((u.domainOff d 3).freshUnits d).domainOn d 3
       v.selfTests d (v.testOf d)) := by
  refine (if_neg ?_).trans rfl
  rintro (h | h | h)
  · simp [hu] at h
  · omega
  · rw [show (s.elapse dt).domain d = s.domain d from rfl, hon] at h
    cases h

theorem deferResponse_undisturbed (s : State) (c : Commit) : Undisturbed s (s.deferResponse c) := by
  unfold State.deferResponse
  split
  · exact .ite (answer_undisturbed ..) (.ite (release_undisturbed ..) (.refl s))
  · exact .refl s

theorem applyHeld_pending (s : State) : s.applyHeld.sets.pending = s.sets.pending := by
  have written (s : State) (w : HeldWrite) :
      ((s.writeShadow w.kind w.index [w.value]).mirrorWrite w.kind w.index [w.value]).sets =
        (s.writeShadow w.kind w.index [w.value]).sets := by simp
  exact (each_same (·.sets.pending) _ _ _ fun s w => (congrArg SetsSt.pending (written s w)).trans rfl).trans rfl

theorem endCommit_pending (s : State) (c : Commit) (st : CommitState) : (s.endCommit c st).sets.pending = none := by
  refine (applyHeld_pending _).trans ?_
  rw [ite_sets]
  split <;> rfl

/-- Withdrawing the pending commit disturbs nothing but the configuration sets. -/
theorem commitWithdrawn_kept (s : State) : (∀ p, (s.commitWithdrawn.port p).session = (s.port p).session) ∧
    s.commitWithdrawn.power = s.power ∧ s.commitWithdrawn.draw = s.draw := by
  unfold State.commitWithdrawn
  split
  · rename_i c _
    refine ⟨fun p => ((deferResponse_undisturbed ..).sessions p).trans (congrArg PortSt.session (port_congr ?_ p)),
      by simp, by simp⟩
    simp
  · exact ⟨fun _ => rfl, rfl, rfl⟩

theorem domainResetNoted_kept (s : State) (detail : Nat) :
    (∀ p, ((s.domainResetNoted detail).port p).session = (s.port p).session) ∧
    (s.domainResetNoted detail).power =
      (if s.power.started then { s.power with resetKind := 7, resetDetail := detail } else s.power) ∧
    (s.domainResetNoted detail).sets = s.sets ∧ (s.domainResetNoted detail).draw = s.draw := by
  unfold State.domainResetNoted
  dsimp only
  split
  · exact ⟨fun p => congrArg PortSt.session (port_congr (by simp) p), by simp, by simp, by simp⟩
  · exact ⟨fun p => congrArg PortSt.session (port_congr (by simp) p), by simp, by simp, by simp⟩

theorem commitWithdrawn_pending (s : State) : s.commitWithdrawn.sets.pending = none := by
  unfold State.commitWithdrawn
  split
  · rename_i c _
    rw [(deferResponse_undisturbed ..).sets, (log_undisturbed ..).sets]
    exact endCommit_pending ..
  · assumption

/-- What a domain reset leads to: its domain off and on again, the pending commit gone, sessions and the progress of the
start as they were, and the kind of the last reset 7 once the device has started. -/
theorem domainReset_after {s : State} (dt : Nat) {d : Fin 26} (hu : s.tellerUp = true) (h4 : 4 ≤ d.val)
    (hon : (s.domain d).on = true) :
    let test := Config.selfTest (s.elapse dt).draw d
    ∃ t, exec (.domainReset dt d) s = .next t ∧
      (8 ≤ d.val ∨ (test.failedUnits = [] ∧ test.exhausted = none) → (t.domain d).on = true ∧ (t.domain d).clock = 8) ∧
      t.sets.pending = none ∧ t.power.started = s.power.started ∧
      (s.power.started = true → t.power.resetKind = 7) ∧
      (s.power.started = false → t.power.resetKind = s.power.resetKind) ∧
      (∀ p, (t.port p).session = (s.port p).session) := by
  intro test
  obtain ⟨withdrawnSessions, withdrawnPower, withdrawnDraw⟩ := commitWithdrawn_kept (s.elapse dt)
  obtain ⟨notedSessions, notedPower, notedSets, notedDraw⟩ :=
    domainResetNoted_kept (s.elapse dt).commitWithdrawn (s.elapse dt).openDetail
  rw [withdrawnPower] at notedPower
  refine ⟨_, exec_domainReset dt hu h4 hon, ?_⟩
  generalize (s.elapse dt).commitWithdrawn.domainResetNoted (s.elapse dt).openDetail = u at *
  dsimp only
  have switched : Undisturbed u (((u.domainOff d 3).freshUnits d).domainOn d 3) :=
    ((domainOff_undisturbed ..).trans (freshUnits_undisturbed ..)).trans (domainOn_undisturbed ..)
  have isOn : (u.domain d).on = true := by
    rw [State.domain, notedPower]
    split <;> exact hon
  have up := restarted_domain isOn
  dsimp only at up
  generalize ((u.domainOff d 3).freshUnits d).domainOn d 3 = v at *
  have tested : v.testOf d = test := by
    rw [State.testOf, switched.draw, notedDraw, withdrawnDraw]
  rw [tested]
  have after := switched.trans (selfTests_undisturbed v d test)
  refine ⟨fun passed => ?_, ?_, ?_, fun started => ?_, fun started => ?_, fun p => ?_⟩
  · rw [domain_congr (selfTests_power v passed)]
    exact up
  · rw [after.sets, notedSets, commitWithdrawn_pending]
  · rw [after.started, notedPower]
    split <;> rfl
  · rw [after.kind, notedPower]
    exact congrArg PowerSt.resetKind (if_pos started)
  · rw [after.kind, notedPower]
    exact congrArg PowerSt.resetKind (if_neg (by simp [started]))
  · exact ((after.sessions p).trans (notedSessions p)).trans (withdrawnSessions p)

end Sys2Proof.Machine
end

section
/-!
AUDITOR resets and tamper (R275, R304, R357, R358, R379, Table 17-4).
-/
namespace Sys2Proof.Machine

-- One proof after another: in parallel, each of the many short proofs that wait for another holds a thread and its stack.
set_option Elab.async false

/-- A value that a table's default and every value it lists satisfy is satisfied by whatever a key reads as. -/
theorem Tbl.get_of_forall {α : Type} {P : α → Prop} {t : Tbl α} {d : α} (hd : P d) (h : ∀ e ∈ t, P e.2) (k : Nat) :
    P (Tbl.get t d k) := by
  induction t with
  | nil => exact hd
  | cons e r ih =>
    obtain ⟨j, v⟩ := e
    unfold Tbl.get Tbl.find
    split
    · exact h _ (List.mem_cons_self ..)
    · exact ih fun e he => h e (List.mem_cons_of_mem _ he)

/-- After a change of every listed value a key reads as the default or as a changed value. -/
theorem Tbl.get_mapAll {α : Type} [DecidableEq α] {P : α → Prop} {t : Tbl α} {d : α} {f : Nat → α → α} (hd : P d)
    (h : ∀ k v, P (f k v)) (k : Nat) : P (Tbl.get (Tbl.mapAll t d f) d k) := by
  refine Tbl.get_of_forall hd (fun e he => ?_) k
  obtain ⟨x, -, rfl⟩ := List.mem_map.1 (List.mem_filter.1 he).1
  exact h _ _

/-! ## What ends at a reset (R275, R379) -/

/-- No session is open on a port, and nothing of one is left. -/
def PortSt.closed (q : PortSt) : Prop := q.session = 0 ∧ q.held = [] ∧ q.evEnable = 0 ∧ q.inHand = none

theorem endSessions_closed (s : State) (p : Nat) : (s.endSessions.port p).closed := by
  unfold State.endSessions State.port
  dsimp only
  exact Tbl.get_mapAll (P := PortSt.closed) ⟨rfl, rfl, rfl, rfl⟩ (fun _ _ => ⟨rfl, rfl, rfl, rfl⟩) p

/-- From one state to the other, of power only the records and messages due at step 4 may differ. -/
def SamePower (s t : State) : Prop :=
  t.power = { s.power with due := t.power.due, dueFaults := t.power.dueFaults }

theorem SamePower.trans {s t u : State} (h : SamePower s t) (k : SamePower t u) : SamePower s u := by
  unfold SamePower at *
  rw [k, h]

theorem SamePower.of_power {s t : State} (h : t.power = s.power) : SamePower s t := by
  unfold SamePower
  rw [h]

theorem SamePower.withMail {s t : State} (h : SamePower s t) (x : MailSt) : SamePower s { t with mail := x } :=
  h.trans (.of_power rfl)

theorem SamePower.later (s : State) (code : Nat) (ps : List Nat) : SamePower s (s.later code ps) := rfl

theorem SamePower.each {α : Type} {f : State → α → State} (h : ∀ s a, SamePower s (f s a)) (l : List α) (s : State) :
    SamePower s (each l s f) := by
  induction l generalizing s with
  | nil => exact rfl
  | cons a l ih => exact (h s a).trans (ih (f s a))

theorem endAll_samePower (s : State) (kind : Nat) : SamePower s (s.endAll kind) := by
  have sessions (s : State) : SamePower s s.endSessions := by
    unfold State.endSessions
    dsimp only
    refine .withMail (.each (fun s p => ?_) _ _) _
    split
    · exact .of_power rfl
    · exact .later ..
  have subscriptions (s : State) : SamePower s s.endSubscriptions := by
    refine .each (fun s e => ?_) _ _
    split
    · exact .later ..
    · exact .of_power rfl
  have commit (s : State) : SamePower s (s.withdrawAtReset kind) := by
    unfold State.withdrawAtReset
    split
    · rename_i c _
      exact (SamePower.of_power (t := s.endCommit c .withdrawn) (by simp)).trans (.later _ 0x3104 [c.seq, c.group, kind, 0])
    · exact .of_power rfl
  have debug (s : State) : SamePower s s.endDebug := by
    unfold State.endDebug
    dsimp only
    split
    · exact (SamePower.later s ..).trans (.of_power rfl)
    · exact .of_power rfl
  exact (((sessions s).trans (subscriptions _)).trans (commit _)).trans (debug _)

theorem endAll_closed (s : State) (kind p : Nat) : ((s.endAll kind).port p).closed := by
  rw [port_congr (t := s.endSessions) (by simp [State.endAll])]
  exact endSessions_closed s p

theorem endAll_pending (s : State) (kind : Nat) : (s.endAll kind).sets.pending = none := by
  unfold State.endAll State.withdrawAtReset
  split
  · simp [endCommit_pending]
  · rename_i h
    simpa using h

theorem endDebug_sec (s : State) : s.endDebug.sec =
    { s.sec with dbg := { s.sec.dbg with challenge := none, openSince := none } } := by
  unfold State.endDebug
  dsimp only
  split <;> rfl

theorem endAll_sec (s : State) (kind : Nat) : (s.endAll kind).sec =
    { s.sec with dbg := { s.sec.dbg with challenge := none, openSince := none } } := by
  rw [State.endAll, endDebug_sec]
  simp

/-! ## Resets that apply nothing stored: AUDITOR, PAIR and WATCHDOG (Table 17-4) -/

section Unapplied

variable {k : ResetKind} (hk : k.applies = false)
include hk

theorem not_defaults_of_unapplied : k.defaults = false :=
  (Bool.or_eq_false_iff.1 hk).1

theorem ne_por_of_unapplied : k ≠ .por := by
  rintro rfl
  cases hk

end Unapplied

/-- What a reset of a kind does to a state, up to power. -/
def State.partsReset (s : State) (k : ResetKind) : State :=
  let s1 := ((s.endAll k.rank).resetSets.resetTime k).dropFrames
  let s2 := ((s1.resetOutputs k).resetCompose.resetLinks k).resetPair k
  ((((s2.resetMem k).resetFaults k).resetSec k).resetCounter k).resetLedger k

variable (s : State) {k : ResetKind}

theorem reset'_eq (hk : k.applies = false) (detail : Nat) :
    s.reset' k detail = (s.partsReset k).resetPower k detail := by
  simp [State.reset', State.partsReset, hk, not_defaults_of_unapplied hk]

theorem resetCounter_eq (hk : k.applies = false) : s.resetCounter k = s := if_neg (ne_por_of_unapplied hk)

theorem resetTime_kept (hk : k.applies = false) :
    SamePower s (s.resetTime k) ∧ (s.resetTime k).time.now = s.time.now := by
  unfold State.resetTime
  split
  · cases hk
  · cases hk
  · dsimp only
    split
    · exact ⟨rfl, rfl⟩
    · exact ⟨rfl, rfl⟩

theorem partsReset_mail (hk : k.applies = false) : (s.partsReset k).mail = (s.endAll k.rank).mail := by
  simp [State.partsReset, resetCounter_eq _ hk]

theorem partsReset_pending (k : ResetKind) : (s.partsReset k).sets.pending = none := by
  simp [State.partsReset, State.resetSets, endAll_pending]

theorem partsReset_samePower (hk : k.applies = false) : SamePower s (s.partsReset k) := by
  refine .trans (.trans (endAll_samePower s k.rank) (.trans (.of_power (t := (s.endAll k.rank).resetSets) (by simp))
    (resetTime_kept _ hk).1)) (.of_power ?_)
  simp [State.partsReset]

theorem partsReset_now (hk : k.applies = false) : (s.partsReset k).time.now = s.time.now := by
  have h := (resetTime_kept (s.endAll k.rank).resetSets hk).2
  simpa [State.partsReset] using h

theorem partsReset_heads (k : ResetKind) (h : Nat) : (s.partsReset k).head h = {} := by
  have e : (s.partsReset k).heads = [] := by simp [State.partsReset, State.resetOutputs]
  rw [State.head, e]
  rfl

theorem partsReset_faults (k : ResetKind) :
    (s.partsReset k).fault.active = [] ∧ (s.partsReset k).fault.safe = none := by
  simp [State.partsReset, State.resetFaults]

theorem partsReset_flash (hk : k.applies = false) : (s.partsReset k).ledger.flash = s.ledger.flash := by
  simp [State.partsReset, State.resetLedger, ne_por_of_unapplied hk, State.resetFaults]

theorem partsReset_sec (hk : k.applies = false) : (s.partsReset k).sec.dbg.openSince = none ∧
    (s.partsReset k).sec.tamperCount = s.sec.tamperCount := by
  simp [State.partsReset, State.resetSec, State.resetMem, ne_por_of_unapplied hk, endAll_sec]

/-- A reset that applies nothing stored leaves what every reset leaves of a state. -/
theorem reset'_restarted (hk : k.applies = false) (detail : Nat) : Restarted k.rank s (s.reset' k detail) := by
  rw [reset'_eq s hk]
  obtain ⟨noFault, noSafe⟩ := partsReset_faults s k
  refine ⟨rfl, rfl, rfl, fun started => ?_, fun p => ?_, partsReset_pending s k, (partsReset_sec s hk).1,
    fun h => ?_, noFault, noSafe, partsReset_flash s hk⟩
  · have h : (s.partsReset k).power.started = true := by rw [partsReset_samePower s hk]; exact started
    simp [State.resetPower, h]
  · exact (congrArg PortSt.closed (port_congr (partsReset_mail s hk) p)).mpr (endAll_closed s k.rank p)
  · exact congrArg HeadRun.state (partsReset_heads s k h)

/-! ## AUDITOR resets and tamper (R304, R357, R358) -/

/-- What is `Restarted` is so after an operation that leaves the parts it speaks of. -/
theorem Restarted.of_same {n : Nat} {s t u : State} (h : Restarted n s t) (hp : SamePower t u)
    (hd : u.sec.dbg = t.sec.dbg) (ha : u.fault.active = t.fault.active) (hx : u.fault.safe = t.fault.safe)
    (hm : u.mail = t.mail := by simp) (hs : u.sets = t.sets := by simp) (hh : u.heads = t.heads := by simp)
    (hl : u.ledger = t.ledger := by simp) : Restarted n s u := by
  obtain ⟨step, started, run, kind, sessions, commit, debug, heads, faults, safe, ring⟩ := h
  unfold SamePower at hp
  refine ⟨by rw [hp]; exact step, by rw [hp]; exact started, by rw [hp]; exact run, fun i => by rw [hp]; exact kind i,
    fun p => by rw [port_congr hm p]; exact sessions p, by rw [hs, commit], by rw [hd, debug], fun i => ?_,
    by rw [ha, faults], by rw [hx, safe], by rw [hl, ring]⟩
  rw [State.head, hh]
  exact heads i

theorem auditorRecent_congr {s t : State} (hp : t.power.auditorTimes = s.power.auditorTimes)
    (hn : t.time.now = s.time.now) : t.auditorRecent = s.auditorRecent := by
  rw [State.auditorRecent, State.auditorRecent, hp, hn]

theorem resetPower_auditorTimes (hk : k.applies = false) (detail : Nat) :
    (s.resetPower k detail).power.auditorTimes = s.power.auditorTimes := if_neg (ne_por_of_unapplied hk)

theorem reset'_auditorRecent (detail : Nat) : (s.reset' .auditor detail).auditorRecent = s.auditorRecent := by
  rw [reset'_eq s rfl]
  refine auditorRecent_congr ?_ (by simp [partsReset_now s (k := .auditor) rfl])
  rw [resetPower_auditorTimes _ rfl, partsReset_samePower s rfl]

theorem auditorReset_restarted (detail msg : Nat) : Restarted 3 s (s.auditorReset detail msg) := by
  obtain ⟨step, started, run, kind, sessions, commit, debug, heads, faults, safe, ring⟩ :=
    reset'_restarted s (k := .auditor) rfl detail
  unfold State.auditorReset
  generalize s.reset' .auditor detail = r at *
  exact ⟨step, started, run, kind, sessions, commit, debug, heads, faults, safe, ring⟩

/-- The third AUDITOR reset within 10 minutes makes the next start one in safe state (R304). -/
theorem auditorReset_startInSafe (detail msg : Nat) (h : 2 ≤ s.auditorRecent.length) :
    (s.auditorReset detail msg).power.startInSafe = some msg := by
  rw [← reset'_auditorRecent s detail] at h
  unfold State.auditorReset
  generalize s.reset' .auditor detail = r at *
  refine if_pos ?_
  rw [List.length_append]
  exact Nat.add_le_add_right h 1

theorem auditorReset_tamperCount (detail msg : Nat) :
    (s.auditorReset detail msg).sec.tamperCount = s.sec.tamperCount := by
  have h := (partsReset_sec s (k := .auditor) rfl).2
  unfold State.auditorReset
  rw [reset'_eq s rfl]
  generalize s.partsReset .auditor = r at *
  exact h

theorem tampered_samePower (m : Nat) : SamePower s (s.tampered m) := by
  unfold State.tampered
  dsimp only
  split <;> exact rfl

/-- A tamper reset clears the Vault's slots, counts, and holds the device in reset (R357, R358). -/
theorem tampered_vault (m : Nat) : (s.tampered m).sec.slots = [] ∧
    (s.tampered m).sec.tamperCount = s.sec.tamperCount + 1 ∧ (s.tampered m).fault.tamperHold = some m := by
  unfold State.tampered
  dsimp only
  split <;> exact ⟨rfl, rfl, rfl⟩

theorem Restarted.tampered {n : Nat} {s t : State} (h : Restarted n s t) (m : Nat) : Restarted n s (t.tampered m) := by
  refine h.of_same (tampered_samePower t m) ?_ ?_ ?_
  all_goals
    unfold State.tampered
    dsimp only
    split <;> rfl

theorem Restarted.laterFault {n : Nat} {s t : State} (h : Restarted n s t) (msg : Nat) :
    Restarted n s (t.laterFault msg) :=
  h.of_same rfl rfl rfl rfl


theorem Restarted.of_elapse {n : Nat} {s t : State} {dt : Nat} (h : Restarted n (s.elapse dt) t) : Restarted n s t := by
  obtain ⟨step, started, run, kind, sessions, commit, debug, heads, faults, safe, ring⟩ := h
  exact ⟨step, started, run, kind, sessions, commit, debug, heads, faults, safe, ring⟩

theorem exec_tamperTrip {s : State} (dt : Nat) (m : Fin 4) (h : s.power.state ≠ .off) : exec (.tamperTrip dt m) s =
    .next ((((s.elapse dt).auditorReset m (faultMsg 0x080 2 m)).tampered m).laterFault (faultMsg 0x080 2 m)) :=
  if_neg h

/-- A tamper monitor resets the device, clears the Vault's slots and holds the device in reset (R304, R357, R358). -/
theorem tamperTrip_after {s : State} (dt : Nat) (m : Fin 4) (h : s.power.state ≠ .off) :
    ∃ t, exec (.tamperTrip dt m) s = .next t ∧ Restarted 3 s t ∧
      t.sec.slots = [] ∧ t.fault.tamperHold = some m.val ∧ t.heldInReset = true ∧
      t.sec.tamperCount = s.sec.tamperCount + 1 ∧
      (2 ≤ (s.elapse dt).auditorRecent.length → t.power.startInSafe = some (faultMsg 0x080 2 m)) := by
  refine ⟨_, exec_tamperTrip dt m h, ?_⟩
  have restarted := (auditorReset_restarted (s.elapse dt) m (faultMsg 0x080 2 m)).of_elapse
  have inSafe := auditorReset_startInSafe (s.elapse dt) m (faultMsg 0x080 2 m)
  have count := auditorReset_tamperCount (s.elapse dt) m (faultMsg 0x080 2 m)
  generalize (s.elapse dt).auditorReset m (faultMsg 0x080 2 m) = r at *
  obtain ⟨slots, counted, hold⟩ := tampered_vault r m
  refine ⟨(restarted.tampered m).laterFault _, slots, hold, ?_, counted.trans (congrArg (· + 1) count), fun recent => ?_⟩
  · simp [State.heldInReset, hold]
  · exact (congrArg PowerSt.startInSafe (tampered_samePower r m)).trans (inSafe recent)

/-! ## The holds in reset (R304, R357) -/

theorem exec_tamperHoldRelease {s : State} (dt : Nat) (h : s.fault.tamperHold.isSome = true)
    (ht : s.power.resetAt + 1000000 ≤ s.time.now + dt) : exec (.tamperHoldRelease dt) s =
      .next ({ s.elapse dt with fault := { s.fault with tamperHold := none } } : State).released :=
  if_pos ⟨h, ht⟩

theorem exec_tamperHoldRelease_early {s : State} (dt : Nat)
    (h : s.fault.tamperHold = none ∨ s.time.now + dt < s.power.resetAt + 1000000) :
    exec (.tamperHoldRelease dt) s = .next (s.elapse dt) := by
  refine if_neg fun ⟨held, waited⟩ => ?_
  obtain h | h := h
  · rw [show (s.elapse dt).fault.tamperHold = none from h] at held
    cases held
  · exact absurd waited (Nat.not_le_of_lt h)

theorem exec_thermalTripHoldRelease {s : State} (dt : Nat) (h : s.fault.thermalHold = true) :
    exec (.thermalTripHoldRelease dt) s =
      .next ({ s.elapse dt with fault := { s.fault with thermalHold := false } } : State).released :=
  if_pos h

theorem exec_thermalTripHoldRelease_none {s : State} (dt : Nat) (h : s.fault.thermalHold = false) :
    exec (.thermalTripHoldRelease dt) s = .next (s.elapse dt) :=
  if_neg (show ¬ s.fault.thermalHold = true by simp [h])

/-- The end of a hold touches faults and power alone. -/
theorem released_only (s : State) (x : FaultSt) : Only [.fault, .power] s ({ s with fault := x } : State).released :=
  ⟨rfl, rfl, fun q hq => by cases q <;> simp_all [Part.same]⟩

/-- Settles O18: a tamper trip is an AUDITOR reset followed by the clearing of the Vault; the holds end by the conditions of
their commands; a domain reset disturbs nothing but its own domain, the commit in progress and the kind of the last reset. -/
theorem tamperHoldsAndDomainResets : Obligations.TamperHoldsAndDomainResets := by
  unfold Obligations.TamperHoldsAndDomainResets
  refine ⟨fun s dt => ⟨fun m h => tamperTrip_after dt m h, fun h ht => ?_, fun h => ?_, exec_tamperHoldRelease_early dt,
    exec_thermalTripHoldRelease_none dt⟩, fun s dt d hu h4 hon => domainReset_after dt hu h4 hon⟩
  · exact ⟨_, exec_tamperHoldRelease dt h ht, rfl, rfl, released_only ..⟩
  · exact ⟨_, exec_thermalTripHoldRelease dt h, rfl, rfl, released_only ..⟩

end Sys2Proof.Machine
end

section
/-!
An access unit that stops its stream, on a decoder table that lists the stream twice (R91, R93).
-/
namespace Sys2Proof.Machine

-- One proof after another: in parallel, each of the many short proofs that wait for another holds a thread and its stack.
set_option Elab.async false

/-- An access unit of an IDR picture that has lost a packet before its end. -/
def lossyUnit : AuUnit where
  ts := 0
  incomplete := true
  info := some {
    kind := .idr, poc := 0, frameNum := 0, isRef := true, refs := [], marking := .sliding, recovery := none, output := true
    sets := [], pps := [], tool := false, syntaxBad := none, coverageBad := none, hashBad := none, refReadBad := none
    ahead := [], annex := none }

/-- A stream that runs on core 0, and whose only access unit is the lossy one. -/
def lossyStream : DecRun := { state := .running, core := some 0, queue := [lossyUnit] }

/-- The state after reset, but for the table of decoders, which lists stream 0 twice. It is not in the canonical form that
every write keeps (`Tbl.canon`); the statement's premises do not ask for it. -/
def listedTwice : State :=
  { State.reset with src := { State.reset.src with dec := [(0, lossyStream), (0, lossyStream)] } }

/-- The damage stops the entry that the stream is read from. The core's run-ahead then parses an access unit of the second
entry and writes that one back in the place of the first: the stream runs on. -/
theorem decodePictureDone_listedTwice {t : State} (h : exec (.decodePictureDone 0 0) listedTwice = .next t) :
    (t.decRun 0).state = .running := by
  have runs : (match exec (.decodePictureDone 0 0) listedTwice with
      | .next t => (t.decRun 0).state
      | _ => .idle) = .running := by decide +kernel
  rw [h] at runs
  exact runs

/-- Refutes O31: in `listedTwice` the incomplete access unit falls due, and stream 0 is `running` afterwards, not `stopped`.
The first clause is what fails; it speaks of every state, so also of one whose table of decoders lists a stream twice. -/
theorem not_picturesAndDecoders : ¬ Obligations.PicturesAndDecoders := by
  unfold Obligations.PicturesAndDecoders
  rintro ⟨pictures, -⟩
  have notRasl (u : AuInfo) (hu : lossyUnit.info = some u) : u.kind ≠ .rasl := by
    cases hu
    decide
  obtain ⟨t, run, stopped, -⟩ := (pictures listedTwice 0 0 lossyUnit [] rfl rfl).1 rfl notRasl
  have running : (t.decRun 0).state = .running := decodePictureDone_listedTwice run
  cases stopped.symm.trans running

end Sys2Proof.Machine
end

section
/-!
The messages about the configuration sets and the commit groups that write no item list (R104, R127, R129, R130, R294).
-/
namespace Sys2Proof.Machine

/-! ## Layers written one after another (R127) -/

/-- Layers written into a set, one after another. -/
def ConfigSet.writeLayers (c : ConfigSet) (l : List (Nat × LayerDesc)) : ConfigSet :=
  l.foldl (fun c e => c.write .layer e.1 e.2.toNat) c

theorem ConfigSet.layer_write_other (c : ConfigSet) {i j : Nat} (v : Nat) (h : j ≠ i) :
    (c.write .layer i v).layer j = c.layer j :=
  Tbl.get_set_other _ _ _ _ _ _ h

theorem ConfigSet.layer_writeLayers_other {l : List (Nat × LayerDesc)} {j : Nat} (h : j ∉ l.map (·.1)) (c : ConfigSet) :
    (c.writeLayers l).layer j = c.layer j := by
  induction l generalizing c with
  | nil => rfl
  | cons e l ih =>
    rw [List.map_cons, List.mem_cons, not_or] at h
    exact (ih h.2 _).trans (c.layer_write_other _ h.1)

/-- Of layers written once each, every one reads as what it keeps of the value written. -/
theorem ConfigSet.layer_writeLayers {l : List (Nat × LayerDesc)} (hn : (l.map (·.1)).Nodup) {i : Nat} {d : LayerDesc}
    (h : (i, d) ∈ l) (c : ConfigSet) : ((c.writeLayers l).layer i).toNat = itemKept .layer i d.toNat := by
  induction l generalizing c with
  | nil => cases h
  | cons e l ih =>
    rw [List.map_cons, List.nodup_cons] at hn
    rcases List.mem_cons.1 h with rfl | h
    · have fits : d.toNat < 2 ^ (8 * kindSize .layer) := BitVec.toNat_lt_twoPow_of_le (by decide)
      have later := layer_writeLayers_other hn.1 (c.write .layer i d.toNat)
      exact (congrArg BitVec.toNat later).trans (c.read_write_same .layer i fits)
    · exact ih hn.2 h _

/-- The layers of a set that are disabled, rising; at most `n` of them (R294). -/
def ConfigSet.freeLayers (c : ConfigSet) (n : Nat) : List Nat :=
  ((upTo 1024).filter (fun i => !layEnable (c.layer i))).take n

/-- The stripes of a layer with the indices they are written at: its own, then free ones (R294). -/
def ConfigSet.stripeWrites (c : ConfigSet) (l n : Nat) : List (Nat × LayerDesc) :=
  (l :: c.freeLayers (n - 1)).zip ((upTo n).map (fun i => stripeOf (c.layer l) n i l))

theorem ConfigSet.stripeWrites_index {c : ConfigSet} {l n : Nat} (h : (l :: c.freeLayers (n - 1)).length = n) :
    (c.stripeWrites l n).map (·.1) = l :: c.freeLayers (n - 1) :=
  List.map_fst_zip (Nat.le_of_eq (by rw [h, List.length_map, upTo, List.length_range]))

/-- Stripe `i` is written at the index of its place. -/
theorem ConfigSet.mem_stripeWrites {c : ConfigSet} {l n i : Nat} (h : (l :: c.freeLayers (n - 1)).length = n) (hi : i < n) :
    ((l :: c.freeLayers (n - 1)).getD i 0, stripeOf (c.layer l) n i l) ∈ c.stripeWrites l n := by
  refine List.mem_of_getElem? (i := i) (List.getElem?_zip_eq_some.2 ⟨?_, ?_⟩)
  · rw [List.getD_eq_getElem?_getD, List.getElem?_eq_getElem (h.symm ▸ hi), Option.getD_some]
  · rw [List.getElem?_map, upTo, List.getElem?_range hi]
    rfl

/-- An enabled layer and free ones are all different. -/
theorem ConfigSet.nodup_freeLayers {c : ConfigSet} {l : Nat} (h : layEnable (c.layer l) = true) (n : Nat) :
    (l :: c.freeLayers n).Nodup := by
  refine List.nodup_cons.2 ⟨fun hl => ?_, (List.nodup_range.filter _).take⟩
  have free := (List.mem_filter.1 (List.mem_of_mem_take hl)).2
  simp [h] at free

/-- Layers written into the shadow set, each mirrored to the twin (R340). -/
def State.putLayers (s : State) (l : List (Nat × LayerDesc)) : State :=
  each l s (fun s e => (s.writeShadow .layer e.1 [e.2.toNat]).mirrorWrite .layer e.1 [e.2.toNat])

theorem State.putLayers_sets (s : State) (l : List (Nat × LayerDesc)) :
    (s.putLayers l).sets = { s.sets with shadow := s.sets.shadow.writeLayers l } := by
  induction l generalizing s with
  | nil => rfl
  | cons e l ih =>
    refine (ih _).trans ?_
    simp [State.writeShadow, ConfigSet.writeLayers, upTo, each]

/-! ## Commit groups (R130) -/

theorem State.group_congr {s t : State} (h : s.sets = t.sets) (g : Nat) : s.group g = t.group g := by
  rw [State.group, State.group, h]

theorem State.group_setGroup (s : State) (g : Nat) (x : GroupDesc) (k : Nat) :
    (s.setGroup g x).group k = if k = g then x else s.group k := by
  split
  · rename_i h
    rw [h]
    exact Tbl.get_set_same _ _ _ _
  · rename_i h
    exact Tbl.get_set_other _ _ _ _ _ _ h

/-! ## The messages -/

section SetMessages
variable {s : State} {p : Fin 4} {r : Request} (dt : Nat)

theorem exec_setCopy_busy (h : InHand s p 0x0506 r) (hp : s.sets.pending.isSome = true) :
    exec (.setCopy dt p) s = .next ((s.begun dt p).status p r stBusy) :=
  congrArg Host.Outcome.next ((serve_inHand h dt _).trans (if_pos hp))

/-- The shadow set becomes the active one; nothing else of the sets changes (R129). -/
theorem exec_setCopy (h : InHand s p 0x0506 r) (hp : s.sets.pending = none) :
    ∃ t, exec (.setCopy dt p) s = .next t ∧ t.sets = { s.sets with shadow := s.sets.active } :=
  ⟨_, congrArg Host.Outcome.next ((serve_inHand h dt _).trans (if_neg (Option.not_isSome_iff_eq_none.2 hp))), by simp⟩

/-- A read of items that cannot be cut to the response is refused (R286). -/
theorem exec_setRead_none (h : InHand s p 0x0507 r) {k : SetKind} (hk : kindOfCode (r.u8 1) = some k) (h1 : r.u8 0 ≤ 1)
    (hl : cutList (r.u16 4) (r.u16 6) (kindLast k + 1) (kindSize k) r.room = none) :
    exec (.setRead dt p) s = .next ((s.begun dt p).status p r stNotSupported) :=
  congrArg Host.Outcome.next ((serve_inHand h dt _).trans (by simp only [hk, hl, if_neg (Nat.not_lt.2 h1)]))

/-- Any other read returns its items of the set asked for, and changes nothing but the answer (R127, R286). -/
theorem exec_setRead (h : InHand s p 0x0507 r) {k : SetKind} (hk : kindOfCode (r.u8 1) = some k) (h1 : r.u8 0 ≤ 1)
    {l : List Nat} (hl : cutList (r.u16 4) (r.u16 6) (kindLast k + 1) (kindSize k) r.room = some l) :
    exec (.setRead dt p) s = .next ((s.begun dt p).answer p r stOk (listPayload (l.map (fun i =>
      leBytes (kindSize k) ((if r.u8 0 = 0 then s.sets.active else s.sets.shadow).read k i))))) := by
  show execSetRead dt p s = _
  simp only [execSetRead, serve_inHand h, hk, hl, if_neg (Nat.not_lt.2 h1), begun_sets]

theorem exec_layerStripe_busy (h : InHand s p 0x0303 r) (hp : s.sets.pending.isSome = true) :
    exec (.layerStripe dt p) s = .next ((s.begun dt p).status p r stBusy) :=
  congrArg Host.Outcome.next ((serve_inHand h dt _).trans (if_pos hp))

/-- A layer that can be striped is: its stripes are written to the shadow set, and nothing else of the sets changes (R294). -/
theorem exec_layerStripe (h : InHand s p 0x0303 r) (hp : s.sets.pending = none) (hl : r.u16 0 ≤ 1023) (h2 : 2 ≤ r.u8 2)
    (h4 : r.u8 2 ≤ 4) (he : layEnable (s.sets.shadow.layer (r.u16 0)) = true)
    (hs : layStriped (s.sets.shadow.layer (r.u16 0)) = false)
    (hf : (r.u16 0 :: s.sets.shadow.freeLayers (r.u8 2 - 1)).length = r.u8 2)
    (hw : ∀ i, i < r.u8 2 → layCropW (stripeOf (s.sets.shadow.layer (r.u16 0)) (r.u8 2) i (r.u16 0)) ≤ 4096) :
    ∃ t, exec (.layerStripe dt p) s = .next t ∧ t.sets = { s.sets with
      shadow := s.sets.shadow.writeLayers (s.sets.shadow.stripeWrites (r.u16 0) (r.u8 2)) } := by
  show ∃ t, execLayerStripe dt p s = _ ∧ _
  simp only [execLayerStripe, serve_inHand h]
  have sets : s.sets = (s.begun dt p).sets := rfl
  rw [sets] at hp he hs hf hw ⊢
  generalize s.begun dt p = u at hp he hs hf hw ⊢
  have range : ¬ (1023 < r.u16 0 ∨ r.u8 2 < 2 ∨ 4 < r.u8 2) := by omega
  have whole : ¬ ((!layEnable (u.sets.shadow.layer (r.u16 0))) = true ∨
      layStriped (u.sets.shadow.layer (r.u16 0)) = true) := by
    simp [he, hs]
  have enough : ¬ (u.sets.shadow.freeLayers (r.u8 2 - 1)).length < r.u8 2 - 1 := by
    rw [List.length_cons] at hf
    omega
  unfold ConfigSet.freeLayers at enough
  have narrow : ¬ ((upTo (r.u8 2)).map (fun i => stripeOf (u.sets.shadow.layer (r.u16 0)) (r.u8 2) i (r.u16 0))).any
      (fun x => decide (4096 < layCropW x)) = true := by
    intro wide
    obtain ⟨x, hx, hx4096⟩ := List.any_eq_true.1 wide
    obtain ⟨i, hi, rfl⟩ := List.mem_map.1 hx
    exact absurd (hw i (List.mem_range.1 hi)) (Nat.not_le.2 (of_decide_eq_true hx4096))
  rw [if_neg (Option.not_isSome_iff_eq_none.2 hp), if_neg range, if_neg whole, if_neg enough, if_neg narrow]
  refine ⟨_, rfl, ?_⟩
  rw [(answer_only ..).same (q := .sets) (by simp)]
  exact u.putLayers_sets _

/-- The stripes read back from the layers they are written at; every other layer, and the active set, is as it was (R294). -/
theorem layerStripe_layers {t : State} (he : layEnable (s.sets.shadow.layer (r.u16 0)) = true)
    (hf : (r.u16 0 :: s.sets.shadow.freeLayers (r.u8 2 - 1)).length = r.u8 2)
    (ht : t.sets = { s.sets with shadow := s.sets.shadow.writeLayers (s.sets.shadow.stripeWrites (r.u16 0) (r.u8 2)) }) :
    t.sets.active = s.sets.active ∧
    (∀ i, i < r.u8 2 →
      (t.sets.shadow.layer ((r.u16 0 :: s.sets.shadow.freeLayers (r.u8 2 - 1)).getD i 0)).toNat =
        itemKept .layer ((r.u16 0 :: s.sets.shadow.freeLayers (r.u8 2 - 1)).getD i 0)
          (stripeOf (s.sets.shadow.layer (r.u16 0)) (r.u8 2) i (r.u16 0)).toNat) ∧
    (∀ j, j ∉ r.u16 0 :: s.sets.shadow.freeLayers (r.u8 2 - 1) → t.sets.shadow.layer j = s.sets.shadow.layer j) := by
  have index := ConfigSet.stripeWrites_index hf
  rw [ht]
  refine ⟨rfl, fun i hi => ?_, fun j hj => ?_⟩
  · exact ConfigSet.layer_writeLayers (index ▸ ConfigSet.nodup_freeLayers he _) (ConfigSet.mem_stripeWrites hf hi) _
  · exact ConfigSet.layer_writeLayers_other (index ▸ hj) _

theorem exec_commitGroupSet_busy (h : InHand s p 0x0504 r) (hp : s.sets.pending.isSome = true) :
    exec (.commitGroupSet dt p) s = .next ((s.begun dt p).status p r stBusy) :=
  congrArg Host.Outcome.next ((serve_inHand h dt _).trans (if_pos hp))

theorem exec_commitGroupSet_absent (h : InHand s p 0x0504 r) (hp : s.sets.pending = none) (hg : 15 < r.u8 0) :
    exec (.commitGroupSet dt p) s = .next ((s.begun dt p).status p r stNotSupported) :=
  congrArg Host.Outcome.next ((serve_inHand h dt _).trans ((if_neg (Option.not_isSome_iff_eq_none.2 hp)).trans (if_pos hg)))

/-- A group that fails its checks is refused with the status they give (R131). -/
theorem exec_commitGroupSet_bad (h : InHand s p 0x0504 r) (hp : s.sets.pending = none) (hg : r.u8 0 ≤ 15) {st : Nat}
    (hc : s.groupCheck (r.u8 0) (groupKept (Bytes.at r.payload 4 16)) = some st) :
    exec (.commitGroupSet dt p) s = .next ((s.begun dt p).status p r st) := by
  have checked : (s.begun dt p).groupCheck (r.u8 0) (groupKept (Bytes.at r.payload 4 16)) = some st := hc
  refine congrArg Host.Outcome.next ((serve_inHand h dt _).trans ((if_neg (Option.not_isSome_iff_eq_none.2 hp)).trans
    ((if_neg (Nat.not_lt.2 hg)).trans ?_)))
  rw [checked]

/-- A group that passes them is set, and nothing else of the sets changes (R130). -/
theorem exec_commitGroupSet (h : InHand s p 0x0504 r) (hp : s.sets.pending = none) (hg : r.u8 0 ≤ 15)
    (hc : s.groupCheck (r.u8 0) (groupKept (Bytes.at r.payload 4 16)) = none) :
    ∃ t, exec (.commitGroupSet dt p) s = .next t ∧
      t.sets = (s.setGroup (r.u8 0) (groupKept (Bytes.at r.payload 4 16))).sets := by
  have checked : (s.begun dt p).groupCheck (r.u8 0) (groupKept (Bytes.at r.payload 4 16)) = none := hc
  refine ⟨_, congrArg Host.Outcome.next ((serve_inHand h dt _).trans ((if_neg (Option.not_isSome_iff_eq_none.2 hp)).trans
    ((if_neg (Nat.not_lt.2 hg)).trans (by rw [checked])))), ?_⟩
  simp [State.setGroup]

end SetMessages

/-- Settles O26: each message by its cases; the stripes are written under indices that are all different, so each reads back
as it was written. -/
theorem setAndGroupMessages : Obligations.SetAndGroupMessages := by
  unfold Obligations.SetAndGroupMessages
  refine ⟨fun s dt p r => ⟨fun h => ⟨exec_setCopy_busy dt h, exec_setCopy dt h⟩,
      fun h k hk h1 => ⟨fun l hl => exec_setRead dt h hk h1 hl, exec_setRead_none dt h hk h1⟩,
      fun h => ⟨exec_layerStripe_busy dt h, fun hp hl h2 h4 he hs => ?_⟩⟩,
    fun s dt p r h => ⟨exec_commitGroupSet_busy dt h, exec_commitGroupSet_absent dt h, fun hp hg => ?_⟩⟩
  · intro d idx hf hw
    obtain ⟨t, ht, hsets⟩ := exec_layerStripe dt h hp hl h2 h4 he hs hf hw
    exact ⟨t, ht, layerStripe_layers he hf hsets⟩
  · refine ⟨fun st hc => exec_commitGroupSet_bad dt h hp hg hc, fun hc => ?_⟩
    obtain ⟨t, ht, hsets⟩ := exec_commitGroupSet dt h hp hg hc
    refine ⟨t, ht, ?_, fun g hne => ?_, by rw [hsets]; rfl, by rw [hsets]; rfl⟩
    · rw [State.group_congr hsets, State.group_setGroup, if_pos rfl]
    · rw [State.group_congr hsets, State.group_setGroup, if_neg hne]

end Sys2Proof.Machine
end

section
/-!
What sending to peers and the steps of a room-wide commit leave of a state, and what the coordinator and the participant of
a room-wide commit read as afterwards (R143 to R146, R233).
-/
namespace Sys2Proof.Machine

variable (s : State)

/-! ## Time alone changes no answer of the room (R143, R227) -/

@[simp] theorem elapse_peerRoom (dt pp : Nat) : (s.elapse dt).peerRoom pp = s.peerRoom pp := rfl
@[simp] theorem elapse_roomCommit (dt id : Nat) : (s.elapse dt).roomCommit id = s.roomCommit id := rfl
@[simp] theorem elapse_group (dt g : Nat) : (s.elapse dt).group g = s.group g := rfl

/-! ## What each step touches -/

theorem setCo_only (x : RoomCo) : Only [.links] s (s.setCo x) :=
  ⟨rfl, rfl, fun q hq => by cases q <;> simp_all [Part.same]⟩

theorem setPart_only (x : RoomPart) : Only [.links] s (s.setPart x) :=
  ⟨rfl, rfl, fun q hq => by cases q <;> simp_all [Part.same]⟩

theorem noPart_only : Only [.links] s { s with links := { s.links with roomPart := none } } :=
  ⟨rfl, rfl, fun q hq => by cases q <;> simp_all [Part.same]⟩

theorem sendPeer_only (pp type : Nat) (b : Bytes) : Only [.links] s (s.sendPeer pp type b) :=
  ⟨by simp, by simp, fun q hq => by cases q <;> simp_all [Part.same]⟩

theorem roomDefer_only (id defers : Nat) (counted : Bool) :
    Only [.sets, .mail, .ledger] s (s.roomDefer id defers counted) :=
  ⟨by simp, by simp, fun q hq => by cases q <;> simp_all [Part.same]⟩

/-! ## The coordinator and the participant after a message to a peer -/

@[simp] theorem setCo_roomCo (x : RoomCo) : (s.setCo x).links.roomCo = some x := rfl
@[simp] theorem setPart_roomPart (x : RoomPart) : (s.setPart x).links.roomPart = some x := rfl
@[simp] theorem setPart_roomCommit (x : RoomPart) (id : Nat) : (s.setPart x).roomCommit id = s.roomCommit id := rfl

@[simp] theorem sendPeer_room (pp type : Nat) (b : Bytes) :
    (s.sendPeer pp type b).links.roomCo = s.links.roomCo ∧ (s.sendPeer pp type b).links.roomPart = s.links.roomPart := by
  unfold State.sendPeer
  dsimp only
  split
  · simp [State.setPeer]
  · exact ⟨rfl, rfl⟩

/-- What a peer is sent depends on its run and on the time alone. -/
theorem sendPeer_peer_congr {s t : State} (hp : ∀ pp, s.peer pp = t.peer pp) (ht : s.time = t.time)
    (pp type : Nat) (b : Bytes) : (s.sendPeer pp type b).peer pp = (t.sendPeer pp type b).peer pp := by
  have emit (u : State) (seq : Nat) : (u.emitPeer pp type seq b).peer pp = u.peer pp := by
    simp [State.peer]
  simp only [State.sendPeer, hp, ht]
  split
  · rw [emit, emit, State.peer_setPeer, State.peer_setPeer]
  · rw [State.peer_setPeer, State.peer_setPeer]

/-- One message to every participant of a mask (R143). -/
def State.tellPeers (s : State) (mask type : Nat) (b : Bytes) : State :=
  each (maskBits 4 mask) s (fun s pp => s.sendPeer pp type b)

theorem tellPeers_only (mask type : Nat) (b : Bytes) : Only [.links] s (s.tellPeers mask type b) :=
  each_only (fun s pp => sendPeer_only s pp type b) _ s

@[simp] theorem tellPeers_roomCo (mask type : Nat) (b : Bytes) :
    (s.tellPeers mask type b).links.roomCo = s.links.roomCo :=
  each_same (·.links.roomCo) _ _ _ (fun s pp => (sendPeer_room s pp type b).1)

/-- Choosing the target frame forgets the votes there were (R143). -/
theorem chooseTarget_roomCo (x : RoomCo) : (s.chooseTarget x).links.roomCo = some { x with
    tf := some (s.time.clock.after (s.time.room + grpLead (s.group x.group) * 1000 + 200000 - 1))
    votes := [], own := none } :=
  tellPeers_roomCo (s.setCo _) x.mask 0x0003 _

theorem chooseTarget_only (x : RoomCo) : Only [.links] s (s.chooseTarget x) :=
  (setCo_only s _).trans (tellPeers_only _ x.mask 0x0003 _)

/-- A room-wide commit that is aborted is no longer coordinated. -/
@[simp] theorem roomAbort_roomCo (x : RoomCo) (fault : Nat) : (s.roomAbort x fault).links.roomCo = none := by
  simp [State.roomAbort]

@[simp] theorem roomComplete_roomCo (x : RoomCo) : (s.roomComplete x).links.roomCo = none := by
  simp [State.roomComplete]

/-! ## A commit that ends (R129, R141) -/

@[simp] theorem mirrorWrite_roomPart (k : SetKind) (first : Nat) (items : List Nat) :
    (s.mirrorWrite k first items).links.roomPart = s.links.roomPart := by
  refine each_same (·.links.roomPart) _ _ _ (fun s e => ?_)
  unfold State.mirror
  dsimp only
  split
  · exact (sendPeer_room ..).2
  · rfl

@[simp] theorem applyHeld_roomPart : s.applyHeld.links.roomPart = s.links.roomPart :=
  each_same (·.links.roomPart) _ _ _ (fun s w => by simp)

@[simp] theorem applyHeld_active : s.applyHeld.sets.active = s.sets.active :=
  each_same (·.sets.active) _ _ _ (fun s w => by simp [State.writeShadow])

/-- A commit that ends unsettled leaves the participant as it is. -/
theorem endCommit_roomPart (c : Commit) (st : CommitState) :
    (s.endCommit c st).links.roomPart = s.links.roomPart := by
  simp [State.endCommit]

/-- A commit that ends unsettled leaves the active set as it is (R141). -/
theorem endCommit_active (c : Commit) (st : CommitState) : (s.endCommit c st).sets.active = s.sets.active := by
  simp [State.endCommit]

/-- A decision to defer leaves the commit pending, deferred (R139). -/
theorem roomDefer_pending {id : Nat} (h : s.roomCommit id ≠ none) (defers : Nat) (counted : Bool) :
    ∃ c, (s.roomDefer id defers counted).sets.pending = some c ∧ c.state = .deferred := by
  obtain ⟨c, hc⟩ := Option.ne_none_iff_exists'.1 h
  cases counted <;> simp [State.roomDefer, hc, State.deferStaging, State.defer]

end Sys2Proof.Machine
end

section
/-!
The decision of a room-wide commit and the point at which the coordinator makes it (R143, R144).
-/
namespace Sys2Proof.Machine

/-! ## The decision on the votes at hand (R143 step 6) -/

/-- The votes a decision counts: the coordinator's own and those of the participants, some of them missing. -/
def RoomCo.ballots (x : RoomCo) : List (Option Vote) := x.own :: (maskBits 4 x.mask).map (fun pp => Tbl.find x.votes pp)

theorem RoomCo.mem_ballots {x : RoomCo} {v : Option Vote} :
    v ∈ x.ballots ↔ x.own = v ∨ ∃ pp ∈ maskBits 4 x.mask, Tbl.find x.votes pp = v := by
  rw [RoomCo.ballots, List.mem_cons, List.mem_map, eq_comm]

theorem RoomCo.notMem_ballots {x : RoomCo} {v : Option Vote} :
    v ∉ x.ballots ↔ x.own ≠ v ∧ ∀ pp ∈ maskBits 4 x.mask, Tbl.find x.votes pp ≠ v := by
  simp only [RoomCo.mem_ballots, not_or, not_exists, not_and, ne_eq]

/-- Every vote is the one given. -/
def RoomCo.unanimous (x : RoomCo) (v : Vote) : Prop := ∀ b ∈ x.ballots, b = some v

theorem RoomCo.unanimous_iff {x : RoomCo} {v : Vote} :
    x.unanimous v ↔ x.own = some v ∧ ∀ pp ∈ maskBits 4 x.mask, Tbl.find x.votes pp = some v := by
  rw [RoomCo.unanimous, RoomCo.ballots, List.forall_mem_cons, List.forall_mem_map]

theorem RoomCo.not_unanimous {x : RoomCo} {v : Vote}
    (h : x.own ≠ some v ∨ ∃ pp ∈ maskBits 4 x.mask, Tbl.find x.votes pp ≠ some v) : ¬ x.unanimous v := by
  rw [RoomCo.unanimous_iff]
  rintro ⟨own, all⟩
  obtain h | ⟨pp, hpp, h⟩ := h
  · exact h own
  · exact h (all pp hpp)

theorem RoomCo.all_ready {x : RoomCo} : x.ballots.all (· == some .ready) = true ↔ x.unanimous .ready := by
  simp only [RoomCo.unanimous, List.all_eq_true, beq_iff_eq]

theorem RoomCo.any_staging {x : RoomCo} : x.ballots.any (· == some .staging) = true ↔ some .staging ∈ x.ballots := by
  simp only [List.any_eq_true, beq_iff_eq, exists_eq_right]

theorem RoomCo.all_cast {x : RoomCo} : x.ballots.all (·.isSome) = true ↔ none ∉ x.ballots := by
  simp only [List.all_eq_true, Option.isSome_iff_ne_none, ne_eq]
  exact ⟨fun h hn => h none hn rfl, fun h v hv hn => h (hn ▸ hv)⟩

section Decision
variable {x : RoomCo} {limit : Nat}

theorem RoomCo.decide'_settle (h : x.unanimous .ready) : x.decide' limit = .settle :=
  if_pos (RoomCo.all_ready.2 h)

theorem RoomCo.decide'_deferUncounted (h : some .staging ∈ x.ballots) : x.decide' limit = .deferUncounted := by
  have divided : ¬ x.unanimous .ready := fun all => by cases all _ h
  exact (if_neg (mt RoomCo.all_ready.1 divided)).trans (if_pos (RoomCo.any_staging.2 h))

theorem RoomCo.decide'_settleForced (hr : ¬ x.unanimous .ready) (hs : some .staging ∉ x.ballots) (hc : none ∉ x.ballots)
    (hl : limit ≤ x.defers) : x.decide' limit = .settleForced :=
  (if_neg (mt RoomCo.all_ready.1 hr)).trans ((if_neg (mt RoomCo.any_staging.1 hs)).trans
    (if_pos ⟨RoomCo.all_cast.2 hc, hl⟩))

theorem RoomCo.decide'_deferCounted (hr : ¬ x.unanimous .ready) (hs : some .staging ∉ x.ballots)
    (h : none ∈ x.ballots ∨ x.defers < limit) : x.decide' limit = .deferCounted := by
  refine (if_neg (mt RoomCo.all_ready.1 hr)).trans ((if_neg (mt RoomCo.any_staging.1 hs)).trans (if_neg ?_))
  rintro ⟨cast, reached⟩
  exact h.elim (RoomCo.all_cast.1 cast) (Nat.not_lt.2 reached)

end Decision

/-! ## The decision point (R143, R144) -/

section DecisionPoint
variable {s : State} (dt : Nat) {x : RoomCo} {tf : Nat}

theorem exec_roomDecisionPoint (hu : s.tellerUp = true) (hx : s.links.roomCo = some x) (ht : x.tf = some tf)
    (hd : x.decided.any decisionSettles = false)
    (hp : tf ≤ (s.elapse dt).time.room + grpLead (s.group x.group) * 500) :
    exec (.roomDecisionPoint dt) s = .next ((s.elapse dt).roomDecide x tf) := by
  show execRoomDecisionPoint dt s = _
  simp [execRoomDecisionPoint, hx, ht, hu, hd, hp]

theorem exec_roomDecisionPoint_early (hx : s.links.roomCo = some x) (ht : x.tf = some tf)
    (hp : (s.elapse dt).time.room + grpLead (s.group x.group) * 500 < tf) :
    exec (.roomDecisionPoint dt) s = .next (s.elapse dt) := by
  have early := Nat.not_le.2 hp
  show execRoomDecisionPoint dt s = _
  simp [execRoomDecisionPoint, hx, ht, early]

/-- While fewer than two decisions in a row had a missing vote, the coordinator tells its decision to the participants and
takes it itself; a decision to defer moves the target frame to the next one (R144). -/
theorem roomDecide_eq (s : State) (x : RoomCo) (tf : Nat) (hm : x.missing < 2) :
    let d := x.decide' (grpDeferLimit (s.group x.group))
    let defers := if d = Decision.deferCounted then x.defers + 1 else x.defers
    ∃ u y, Only [.links] s u ∧ u.links.roomCo = some y ∧ y.decided = some d ∧ y.defers = defers ∧
      y.decisions = x.decisions + 1 ∧ y.tf = some (if decisionSettles d then tf else s.time.clock.after tf) ∧
      s.roomDecide x tf = (if decisionSettles d then u.roomSettle x.roomId defers
        else u.roomDefer x.roomId defers (d == Decision.deferCounted)) := by
  intro d defers
  have few (b : Prop) [Decidable b] : ¬ 3 ≤ (if b then 0 else x.missing + 1) := by
    split <;> omega
  unfold State.roomDecide
  simp only [beq_iff_eq]
  rw [if_neg (few _)]
  exact ⟨(s.setCo _).tellPeers x.mask 0x0005 _, _, (setCo_only s _).trans (tellPeers_only ..),
    (tellPeers_roomCo ..).trans (setCo_roomCo ..), rfl, rfl, rfl, rfl, rfl⟩

end DecisionPoint

/-- Settles O46: the decision by the votes it counts; at its point it is the one the coordinator tells and takes. -/
theorem decisionsFollowVotes : Obligations.DecisionsFollowVotes := by
  unfold Obligations.DecisionsFollowVotes
  refine ⟨fun x limit => ⟨fun own all => ?_, fun staging => ?_,
      fun noStaging notReady => ⟨fun own all reached => ?_, fun short => ?_⟩⟩,
    fun s dt x tf hu hx ht hd => ⟨fun hp hm => ?_, exec_roomDecisionPoint_early dt hx ht⟩⟩
  · exact RoomCo.decide'_settle (RoomCo.unanimous_iff.2 ⟨own, all⟩)
  · exact RoomCo.decide'_deferUncounted (RoomCo.mem_ballots.2 staging)
  · exact RoomCo.decide'_settleForced (RoomCo.not_unanimous notReady) (RoomCo.notMem_ballots.2 noStaging)
      (RoomCo.notMem_ballots.2 ⟨own, all⟩) reached
  · exact RoomCo.decide'_deferCounted (RoomCo.not_unanimous notReady) (RoomCo.notMem_ballots.2 noStaging)
      ((or_assoc.2 short).imp_left RoomCo.mem_ballots.2)
  · obtain ⟨u, y, only, co, decided, defers, decisions, target, taken⟩ := roomDecide_eq (s.elapse dt) x tf hm
    exact ⟨_, u, y, exec_roomDecisionPoint dt hu hx ht hd hp, only, co, decided, defers, decisions, target, taken⟩

end Sys2Proof.Machine
end

section
/-!
Room-wide commits: what the commands of the coordinator and of the participants do (R143 to R146).
-/
namespace Sys2Proof.Machine

variable {s : State} (dt : Nat)

/-! ## The coordinator begins (R143) -/

theorem Only.port {l : List Part} {s t : State} (h : Only l s t) (hl : .mail ∉ l) (p : Nat) : t.port p = s.port p :=
  port_congr (h.same hl) p

section Begin
variable {p : Fin 4} {r : Request}

/-- The record a coordinator keeps of the `ROOM_COMMIT` it holds (R143). -/
def coBegun (p : Fin 4) (r : Request) (now : Nat) : RoomCo :=
  { roomId := r.u16 0, mask := r.u8 2 % 16, group := r.u8 3, port := p, tag := r.tag, startedAt := now }

/-- `ROOM_PREPARE`: the commit, the group and the frame clock that every participant is asked for. -/
def prepareMessage (r : Request) (k : FrameClock) : Bytes :=
  Bytes.join [leBytes 2 (r.u16 0), leBytes 1 (r.u8 3), leBytes 1 0, leBytes 2 k.num, leBytes 2 k.den, leBytes 8 k.phase]

theorem begun_canHold (s : State) (dt : Nat) (p : Fin 4) :
    (s.begun dt p).canHold p = decide ((s.port p).held.length < 8) := by
  rw [State.canHold, begun_port_self]

theorem exec_roomCommit_busy (h : InHand s p 0x0505 r) (hb : s.links.roomCo.isSome = true ∨ 8 ≤ (s.port p).held.length) :
    exec (.roomCommit dt p) s = .next ((s.begun dt p).status p r stBusy) := by
  show execRoomCommit dt p s = _
  simp only [execRoomCommit, serve_inHand h, begun_canHold, begun_links]
  rw [if_pos (by simpa using hb)]

theorem exec_roomCommit_unknown (h : InHand s p 0x0505 r) (hc : s.links.roomCo = none) (hh : (s.port p).held.length < 8)
    (hg : r.u8 3 ≤ 15) (hr : s.roomCommit (r.u16 0) = none) :
    exec (.roomCommit dt p) s = .next ((s.begun dt p).status p r stDenied) := by
  have room : (s.begun dt p).roomCommit (r.u16 0) = none := hr
  show execRoomCommit dt p s = _
  simp [execRoomCommit, serve_inHand h, begun_canHold, hc, hh, Nat.not_lt.2 hg, room]

/-- A `ROOM_COMMIT` for a cleared commit of its group is held, and every participant asked; with none, the target frame is
chosen at once (R143). -/
theorem exec_roomCommit (h : InHand s p 0x0505 r) (hc : s.links.roomCo = none) (hh : (s.port p).held.length < 8)
    (hg : r.u8 3 ≤ 15) {c : Commit} (hr : s.roomCommit (r.u16 0) = some c) (hcg : c.group = r.u8 3) :
    let x := coBegun p r (s.time.now + dt)
    let asked := (((s.begun dt p).hold p r (r.u16 0)).setCo x).tellPeers x.mask 0x0001 (prepareMessage r s.time.clock)
    exec (.roomCommit dt p) s = .next (if x.mask = 0 then asked.chooseTarget x else asked) := by
  have room : (s.begun dt p).roomCommit (r.u16 0) = some c := hr
  show execRoomCommit dt p s = _
  simp only [execRoomCommit, serve_inHand h, begun_canHold, begun_links, hc, room]
  rw [if_neg (by simp [hh]), if_neg (Nat.not_lt.2 hg), if_neg (not_not_intro hcg)]
  rfl

/-- The coordinator after `ROOM_COMMIT`: the request held, and the record as it was begun, with a target frame only where no
participant is asked. -/
theorem roomCommit_held (h : InHand s p 0x0505 r) (hc : s.links.roomCo = none) (hh : (s.port p).held.length < 8)
    (hg : r.u8 3 ≤ 15) {c : Commit} (hr : s.roomCommit (r.u16 0) = some c) (hcg : c.group = r.u8 3) :
    ∃ t tf, exec (.roomCommit dt p) s = .next t ∧
      t.links.roomCo = some { coBegun p r (s.time.now + dt) with tf := tf } ∧ r ∈ (t.port p).held ∧
      (r.u8 2 % 16 ≠ 0 → tf = none) ∧ (r.u8 2 % 16 = 0 → tf.isSome = true) := by
  have held := mem_hold (s.begun dt p) p r (r.u16 0)
  have began := exec_roomCommit dt h hc hh hg hr hcg
  dsimp only at began
  have only := (setCo_only ((s.begun dt p).hold p r (r.u16 0)) (coBegun p r (s.time.now + dt))).trans
    (tellPeers_only _ (coBegun p r (s.time.now + dt)).mask 0x0001 (prepareMessage r s.time.clock))
  by_cases hm : r.u8 2 % 16 = 0
  · rw [if_pos (show (coBegun p r (s.time.now + dt)).mask = 0 from hm)] at began
    refine ⟨_, some _, began, chooseTarget_roomCo _ _, ?_, fun hn => absurd hm hn, fun _ => rfl⟩
    rw [(only.trans (chooseTarget_only ..)).port (by simp)]
    exact held
  · rw [if_neg (show (coBegun p r (s.time.now + dt)).mask ≠ 0 from hm)] at began
    refine ⟨_, none, began, tellPeers_roomCo .., ?_, fun _ => rfl, fun h0 => absurd h0 hm⟩
    rw [only.port (by simp)]
    exact held

end Begin

/-! ## The coordinator goes on (R143, R144, R146) -/

section Coordinator
variable {x : RoomCo} (hx : s.links.roomCo = some x)
include hx

section Prepared
variable (hu : s.tellerUp = true) {pp : Fin 4} {seq : Nat} (hp : s.peerRoom pp = true) (ht : x.tf = none)
  (hm : x.mask.testBit pp = true) (hs : seq < 2 ^ 32)
include hu hp ht hm hs

/-- An answer of a participant asked, while no target frame is chosen, counts. -/
theorem exec_roomPrepared (result : Nat) :
    exec (.roomPrepared dt pp x.roomId result seq) s = .next (
      if result ≠ 0 then (s.elapse dt).roomAbort x (1 <<< pp.val)
      else if maskOf (insertNat x.prepared pp) = x.mask
        then (s.elapse dt).chooseTarget { x with prepared := insertNat x.prepared pp }
        else (s.elapse dt).setCo { x with prepared := insertNat x.prepared pp }) := by
  have counts : ¬ ((!(s.elapse dt).tellerUp) = true ∨ (!(s.elapse dt).peerRoom pp) = true ∨ x.roomId ≠ x.roomId ∨
      x.tf.isSome = true ∨ (!x.mask.testBit pp) = true ∨ 2 ^ 32 ≤ seq) := by
    simp [hu, hp, ht, hm]
    omega
  show execRoomPrepared dt pp x.roomId result seq s = _
  simp only [execRoomPrepared, State.elapse_links, hx]
  rw [if_neg counts]
  split
  · rfl
  · split <;> rfl

end Prepared

/-- 2 ms after the start the room-wide commit ends with the participants that have not answered (R144). -/
theorem exec_roomPrepareTimeout (hu : s.tellerUp = true) (ht : x.tf = none)
    (hn : x.startedAt + 2000000 ≤ s.time.now + dt) :
    exec (.roomPrepareTimeout dt) s = .next ((s.elapse dt).roomAbort x
      (maskOf ((maskBits 4 x.mask).filter (fun pp => !x.prepared.contains pp)))) := by
  show execRoomPrepareTimeout dt s = _
  simp [execRoomPrepareTimeout, hx, hu, ht, hn]

theorem exec_roomPrepareTimeout_early (hn : s.time.now + dt < x.startedAt + 2000000) :
    exec (.roomPrepareTimeout dt) s = .next (s.elapse dt) := by
  show execRoomPrepareTimeout dt s = _
  simp [execRoomPrepareTimeout, hx, Nat.not_le.2 hn]

/-- A vote for the target frame in force is noted (R143). -/
theorem exec_roomVote (hu : s.tellerUp = true) {pp : Fin 4} (hp : s.peerRoom pp = true) {tf : Nat} (ht : x.tf = some tf)
    (hm : x.mask.testBit pp = true) (hd : x.decided.any decisionSettles = false) (vote : Vote) :
    exec (.roomVote dt pp x.roomId vote tf) s =
      .next ((s.elapse dt).setCo { x with votes := Tbl.put x.votes pp vote }) := by
  show execRoomVote dt pp x.roomId vote tf s = _
  simp [execRoomVote, hx, hu, hp, ht, hm, hd]

/-- The frame time of a participant that is done is noted, and the last of them completes the room-wide commit (R146). -/
theorem exec_roomDone (hu : s.tellerUp = true) {pp : Fin 4} (hp : s.peerRoom pp = true)
    (hd : x.decided.any decisionSettles = true) (hm : x.mask.testBit pp = true) {seq : Nat} (hs : seq < 2 ^ 32)
    (time : Nat) : exec (.roomDone dt pp x.roomId time seq) s = .next (
      if (maskBits 4 x.mask).all (fun q => Tbl.has (Tbl.put x.doneTimes pp time) q)
      then (s.elapse dt).roomComplete { x with doneTimes := Tbl.put x.doneTimes pp time }
      else (s.elapse dt).setCo { x with doneTimes := Tbl.put x.doneTimes pp time }) := by
  show execRoomDone dt pp x.roomId time seq s = _
  simp only [execRoomDone, State.elapse_links, hx]
  rw [if_pos ⟨hu, hp, trivial, hd, hm, hs⟩]
  split <;> rfl

/-- 200 ms after the target frame the room-wide commit completes, whoever is done (R146). -/
theorem exec_roomDoneWaitExpiry (hu : s.tellerUp = true) (hd : x.decided.any decisionSettles = true)
    (ht : x.tf.getD 0 + 200000000 ≤ (s.elapse dt).time.room) :
    exec (.roomDoneWaitExpiry dt) s = .next ((s.elapse dt).roomComplete x) := by
  show execRoomDoneWaitExpiry dt s = _
  simp [execRoomDoneWaitExpiry, hx, hu, hd, ht]

end Coordinator

/-! ## A participant (R143, R145) -/

/-- The result of `ROOM_PREPARE`: the first condition that fails (R143). -/
def State.prepareResult (s : State) (id num den phase : Nat) : Nat :=
  if s.roomCommit id = none then 1
  else if s.time.state ≠ .locked ∧ s.time.state ≠ .holdover then 2
  else if s.time.clock.genlockIn = true ∨ s.time.clock.num ≠ num ∨ s.time.clock.den ≠ den ∨ s.time.clock.phase ≠ phase then 3
  else 0

/-- The answer to `ROOM_PREPARE`: the commit, the result and the commit's sequence number. -/
def State.preparedMessage (s : State) (id result : Nat) : Bytes :=
  Bytes.join [leBytes 2 id, leBytes 1 result, leBytes 1 0, leBytes 4 (((s.roomCommit id).map (·.seq)).getD 0)]

theorem prepareResult_lt (s : State) (id num den phase : Nat) : s.prepareResult id num den phase < 256 := by
  unfold State.prepareResult
  repeat' split
  all_goals decide

theorem at_leBytes_mod (n v : Nat) : Bytes.at (leBytes n v) 0 n = v % 2 ^ (8 * n) := by
  rw [Bytes.at, Nat.mul_zero, Nat.shiftRight_zero, leBytes, Nat.mod_mod]

theorem at_preparedMessage (s : State) (id : Nat) {result : Nat} (h : result < 256) :
    Bytes.at (s.preparedMessage id result) 0 2 = id % 65536 ∧ Bytes.at (s.preparedMessage id result) 2 1 = result := by
  constructor
  · exact (Bytes.at_cat_left (leBytes 2 id) _ (Nat.le_refl 2)).trans (at_leBytes_mod 2 id)
  · refine (Bytes.at_cat_right (leBytes 2 id) _ 0 1).trans ?_
    exact (Bytes.at_cat_left (leBytes 1 result) _ (Nat.le_refl 1)).trans (Bytes.at_leBytes h)

theorem exec_roomPrepare (hu : s.tellerUp = true) {pp : Fin 4} (hp : s.peerRoom pp = true) (id : Nat) (g : Fin 16)
    (num den phase : Nat) :
    exec (.roomPrepare dt pp id g num den phase) s = .next (
      (if s.prepareResult id num den phase = 0 then (s.elapse dt).setPart { roomId := id, coord := pp }
        else s.elapse dt).sendPeer pp 0x0002 (s.preparedMessage id (s.prepareResult id num den phase))) := by
  show execRoomPrepare dt pp id g num den phase s = _
  unfold execRoomPrepare State.prepareResult State.preparedMessage
  simp only [Option.isNone_iff_eq_none]
  have taken : ¬ ((!(s.elapse dt).tellerUp) = true ∨ (!(s.elapse dt).peerRoom pp) = true) := by simp [hu, hp]
  exact (if_neg taken).trans rfl

/-- A participant answers whether it is prepared, and takes part where it is (R143). -/
theorem roomPrepare_answer (hu : s.tellerUp = true) {pp : Fin 4} (hp : s.peerRoom pp = true) (id : Nat) (g : Fin 16)
    (num den phase : Nat) :
    let result := s.prepareResult id num den phase
    ∃ t b, exec (.roomPrepare dt pp id g num den phase) s = .next t ∧ Only [.links] (s.elapse dt) t ∧
      t.links.roomPart = (if result = 0 then some { roomId := id, coord := pp } else s.links.roomPart) ∧
      Bytes.at b 0 2 = id % 65536 ∧ Bytes.at b 2 1 = result ∧
      t.peer pp = (((s.elapse dt).sendPeer pp 0x0002 b).peer pp) := by
  intro result
  obtain ⟨named, told⟩ := at_preparedMessage s id (prepareResult_lt s id num den phase)
  refine ⟨_, _, exec_roomPrepare dt hu hp id g num den phase, ?_, ?_, named, told, ?_⟩
  · refine Only.trans ?_ (sendPeer_only ..)
    split
    · exact setPart_only ..
    · exact .refl ..
  · rw [(sendPeer_room ..).2]
    split <;> rfl
  · refine sendPeer_peer_congr (fun q => ?_) ?_ pp _ _
    · split <;> rfl
    · split <;> rfl

/-- The vote of a unit: staging first, then fences (R139, R143). -/
theorem voteOf_eq (c : Commit) : s.voteOf c =
    if c.stagingDone = false then .staging else if s.waitingFences = [] then .ready else .fence := by
  unfold State.voteOf
  cases c.stagingDone <;> simp

/-- A unit that coordinates nothing casts no vote of its own. -/
theorem voteOwn_none (h : s.links.roomCo = none) : s.voteOwn = s := by
  simp [State.voteOwn, h]

section Participant
variable {x : RoomPart} (hx : s.links.roomPart = some x)
include hx

/-- A request for its vote sets the participant's target frame; the vote and the doubt of the one before are over (R143). -/
theorem exec_roomVoteReq (hu : s.tellerUp = true) {pp : Fin 4} (hp : s.peerRoom pp = true) (hc : x.coord = pp)
    (hd : x.decided = none) (tf : Nat) : exec (.roomVoteReq dt pp x.roomId tf) s =
      .next ((s.elapse dt).setPart { x with tf := some tf, vote := none, doubtSince := none }) := by
  show execRoomVoteReq dt pp x.roomId tf s = _
  simp [execRoomVoteReq, hx, hu, hp, hc, hd]

/-- At its own lead before the target frame a participant votes, and tells the coordinator (R143). -/
theorem votePart_eq {c : Commit} {tf : Nat} (hr : s.roomCommit x.roomId = some c) (ht : x.tf = some tf) (hv : x.vote = none)
    (hd : x.decided = none) (hl : tf ≤ s.time.room + grpLead (s.group c.group) * 1000) :
    s.votePart = (s.setPart { x with vote := some (s.voteOf c) }).sendPeer x.coord 0x0004
      (Bytes.join [leBytes 2 x.roomId, leBytes 1 (voteCode (s.voteOf c)), leBytes 1 0, leBytes 8 tf]) := by
  simp [State.votePart, hx, hr, ht, hv, hd, hl]

/-- What a participant votes at its own lead before the target frame (R139, R143). -/
theorem votePoint (hu : s.tellerUp = true) (hco : s.links.roomCo = none) {c : Commit} {tf : Nat}
    (hr : s.roomCommit x.roomId = some c) (ht : x.tf = some tf) (hv : x.vote = none) (hd : x.decided = none)
    (hl : tf ≤ (s.elapse dt).time.room + grpLead (s.group c.group) * 1000) :
    ∃ t, exec (.roomVotePoint dt) s = .next t ∧ Only [.links] (s.elapse dt) t ∧ t.links.roomPart =
      some { x with vote := some (if c.stagingDone = false then .staging
        else if s.waitingFences = [] then .ready else .fence) } := by
  have votes : exec (.roomVotePoint dt) s = .next (s.elapse dt).votePart :=
    (if_pos hu).trans (congrArg (Host.Outcome.next ·.votePart) (voteOwn_none (s := s.elapse dt) hco))
  rw [votes, votePart_eq (s := s.elapse dt) hx hr ht hv hd hl]
  exact ⟨_, rfl, (setPart_only ..).trans (sendPeer_only ..), (sendPeer_room ..).2.trans (by rw [voteOf_eq]; rfl)⟩

/-- A decision on a commit that the participant no longer has ends its part (R143). -/
theorem exec_roomDecide_gone (hu : s.tellerUp = true) {pp : Fin 4} (hp : s.peerRoom pp = true) (hc : x.coord = pp)
    (hd : x.decided = none) (hr : s.roomCommit x.roomId = none) (dec : Decision) (defers tf : Nat) :
    exec (.roomDecide dt pp x.roomId dec defers tf) s =
      .next { s.elapse dt with links := { s.links with roomPart := none } } := by
  show execRoomDecide dt pp x.roomId dec defers tf s = _
  simp [execRoomDecide, hx, hu, hp, hc, hd, hr]

/-- A decision to settle is taken, late where less than 20 µs are left; any other defers the commit (R143, R145). -/
theorem exec_roomDecide (hu : s.tellerUp = true) {pp : Fin 4} (hp : s.peerRoom pp = true) (hc : x.coord = pp)
    (hd : x.decided = none) (hr : s.roomCommit x.roomId ≠ none) (dec : Decision) (defers tf : Nat) :
    exec (.roomDecide dt pp x.roomId dec defers tf) s = .next (
      if decisionSettles dec then ((s.elapse dt).setPart { x with
        decided := some dec, tf := some tf, settleLate := decide (tf < (s.elapse dt).time.room + 20000) }).roomSettle
          x.roomId defers
      else ((s.elapse dt).setPart { x with tf := some tf, vote := none, doubtSince := none }).roomDefer x.roomId defers
        (dec == Decision.deferCounted)) := by
  show execRoomDecide dt pp x.roomId dec defers tf s = _
  simp only [execRoomDecide, State.elapse_links, hx]
  have taken : ¬ ((!(s.elapse dt).tellerUp) = true ∨ (!(s.elapse dt).peerRoom pp) = true ∨ x.roomId ≠ x.roomId ∨
      x.coord ≠ pp ∨ x.decided.isSome = true) := by
    simp [hu, hp, hc, hd]
  have here : ¬ ((s.elapse dt).roomCommit x.roomId).isNone = true := by simpa using hr
  rw [if_neg taken, if_neg here]
  split <;> rfl

section Doubt
variable (hv : x.vote = some .ready) (hd : x.decided = none) {tf : Nat} (ht : x.tf = some tf)
  (hn : tf ≤ (s.elapse dt).time.room)
include hv hd ht hn

omit hx in
/-- A participant that voted READY is in doubt once its target frame has come without a decision (R145). -/
theorem inDoubt_elapse : (s.elapse dt).inDoubt x = true := by
  simp [State.inDoubt, hv, hd, ht, hn]

/-- In doubt it asks the coordinator, and keeps the time of the first query (R145). -/
theorem exec_roomQuery (hu : s.tellerUp = true) (named : Nat) :
    exec (.roomQuery dt none x.roomId named) s = .next (((s.elapse dt).setPart { x with
      doubtSince := some (x.doubtSince.getD (s.time.now + dt)) }).sendPeer x.coord 0x0007
        (Bytes.join [leBytes 2 x.roomId, leBytes 2 0, leBytes 8 tf])) := by
  have doubt := inDoubt_elapse dt hv hd ht hn
  show execRoomQuery dt none x.roomId named s = _
  simp [execRoomQuery, hx, hu, doubt, ht]

/-- 100 ms after the first query its commit is withdrawn and its part ends (R145). -/
theorem exec_roomInDoubtTimeout (hu : s.tellerUp = true) {since : Nat} (hs : x.doubtSince = some since) {c : Commit}
    (hr : s.roomCommit x.roomId = some c) (h100 : since + 100000000 ≤ s.time.now + dt) :
    exec (.roomInDoubtTimeout dt) s = .next (((({ s.elapse dt with
      links := { s.links with roomPart := none } } : State).endCommit c .withdrawn).log 0x3113
        [x.roomId, c.seq, x.coord, 0]).deferResponse c) := by
  have doubt := inDoubt_elapse dt hv hd ht hn
  show execRoomInDoubtTimeout dt s = _
  simp [execRoomInDoubtTimeout, hx, hu, doubt, hs, hr, h100]

end Doubt

theorem exec_roomInDoubtTimeout_early {since : Nat} (hs : x.doubtSince = some since) {c : Commit}
    (hr : s.roomCommit x.roomId = some c) (h100 : s.time.now + dt < since + 100000000) :
    exec (.roomInDoubtTimeout dt) s = .next (s.elapse dt) := by
  show execRoomInDoubtTimeout dt s = _
  simp [execRoomInDoubtTimeout, hx, hs, hr, Nat.not_le.2 h100]

end Participant

/-- Settles O45: each clause is the case of its command, with what the coordinator and the participant read as afterwards. -/
theorem roomWideCommits : Obligations.RoomWideCommits := by
  unfold Obligations.RoomWideCommits
  refine ⟨fun s dt => ⟨fun p r c h => ⟨exec_roomCommit_busy dt h, exec_roomCommit_unknown dt h, fun hc hh hg hr hcg => ?_⟩,
      fun x hx hu => ⟨fun pp seq result hp ht hm hs => ?_, fun ht hn => ?_, fun _ => exec_roomPrepareTimeout_early dt hx,
        fun pp vote tf hp ht hm hd => ?_, fun pp time seq hp hd hm hs => ?_, fun hd ht => ?_⟩⟩,
    fun s dt hu => ⟨fun pp id g num den phase hp => roomPrepare_answer dt hu hp id g num den phase,
      fun x hx => ⟨fun pp tf hp hc hd => ?_, fun c tf hco hr ht hv hd hl => ?_,
        fun pp dec defers tf hp hc hd => ⟨fun hr => ?_, fun hr settles => ?_, fun hr defer => ?_⟩,
        fun tf named hv hd ht hn => ⟨?_, fun since c hs hr => ⟨fun h100 => ?_, exec_roomInDoubtTimeout_early dt hx hs hr⟩⟩⟩⟩⟩
  · obtain ⟨t, tf, began, co, held, asked, chosen⟩ := roomCommit_held dt h hc hh hg hr hcg
    exact ⟨t, _, began, co, held, rfl, rfl, rfl, rfl, rfl, rfl, rfl, asked, chosen⟩
  · have prepared := exec_roomPrepared dt hx hu hp ht hm hs result
    refine ⟨fun failed => ?_, fun ok waits => ?_, fun ok last => ?_⟩
    · rw [prepared, if_pos failed]
      exact ⟨_, rfl, roomAbort_roomCo ..⟩
    · rw [prepared, if_neg (not_not_intro ok), if_neg waits]
      exact ⟨_, rfl, setCo_only .., rfl⟩
    · rw [prepared, if_neg (not_not_intro ok), if_pos last]
      exact ⟨_, _, _, rfl, chooseTarget_roomCo .., rfl, rfl, rfl, rfl, chooseTarget_only ..⟩
  · exact ⟨_, exec_roomPrepareTimeout dt hx hu ht hn, roomAbort_roomCo ..⟩
  · exact ⟨_, exec_roomVote dt hx hu hp ht hm hd vote, setCo_only .., rfl⟩
  · have done := exec_roomDone dt hx hu hp hd hm hs time
    refine ⟨fun all => ?_, fun waits => ?_⟩
    · rw [done, if_pos all]
      exact ⟨_, rfl, roomComplete_roomCo ..⟩
    · rw [done, if_neg (ne_true_of_eq_false waits)]
      exact ⟨_, rfl, rfl⟩
  · exact ⟨_, exec_roomDoneWaitExpiry dt hx hu hd ht, roomComplete_roomCo ..⟩
  · exact ⟨_, exec_roomVoteReq dt hx hu hp hc hd tf, setPart_only .., rfl⟩
  · exact votePoint dt hx hu hco hr ht hv hd hl
  · exact ⟨_, exec_roomDecide_gone dt hx hu hp hc hd hr dec defers tf, noPart_only _, rfl⟩
  · rw [exec_roomDecide dt hx hu hp hc hd hr, if_pos settles]
    exact ⟨_, _, rfl, setPart_only .., rfl, rfl⟩
  · rw [exec_roomDecide dt hx hu hp hc hd hr, if_neg (ne_true_of_eq_false defer)]
    exact ⟨_, rfl, ((setPart_only ..).mono (by simp)).trans ((roomDefer_only ..).mono (by simp)), by simp,
      roomDefer_pending _ (by simpa using hr) _ _⟩
  · exact ⟨_, exec_roomQuery dt hx hv hd ht hn hu named, (setPart_only ..).trans (sendPeer_only ..), (sendPeer_room ..).2⟩
  · exact ⟨_, exec_roomInDoubtTimeout dt hx hv hd ht hn hu hs hr h100, by simp [endCommit_roomPart],
      by simp [endCommit_pending], by simp [endCommit_active]⟩

end Sys2Proof.Machine
end
